-- ==== Sys2Proof/Word.lean ====
section
/-! DEFINITION. Word types of the MB9-800 and the plain records that events and machine state share. -/

namespace Sys2Proof

/-- A byte of any memory (R6). -/
abbrev Byte := BitVec 8
/-- A doubleword: the width of a scalar register (R19). -/
abbrev Word := BitVec 64
/-- A vector register value (R20). -/
abbrev VWord := BitVec 512
/-- A five-bit register field (R73, R75). -/
abbrev Reg := BitVec 5
/-- The three-bit governing mask field of VALU, VFPU, VPERM and VM (R73). -/
abbrev MaskField := BitVec 3
/-- An accumulator number: five bits in a register field and one in n3 (R75). -/
abbrev AccNum := BitVec 6
/-- An address space identifier (R1, R25). -/
abbrev Asid := BitVec 12
/-- A virtual page number VA[47:18] (R272). -/
abbrev Vpn := BitVec 30
/-- A residency index: which of the core's four bind records (R291). -/
abbrev ResIx := Fin 4
/-- A stream slot index S0 to S3 (R11). -/
abbrev SlotIx := Fin 4
/-- A vault bank: 2 × layer + bank (R260). -/
abbrev BankIx := Fin 16

/-- A message: the 128-bit header and the payload, bytes beyond LEN zero (R196). -/
structure Msg where
  dest : BitVec 32
  gen : BitVec 4
  asid : Asid
  scope : BitVec 3
  vn : BitVec 2
  spl : Bool
  dev : Bool
  rq : Bool
  sg : Bool
  len : BitVec 7
  src : BitVec 32
  seq : BitVec 16
  hidx : BitVec 8
  rhidx : BitVec 8
  payload : BitVec 512
deriving DecidableEq, Repr

/-- What a flit of a UCIe module carries: whole messages, and the slots of each network that its sender returns (R352). -/
structure Flit where
  msgs : List Msg
  creq : BitVec 6
  crpy : BitVec 6
  csys : BitVec 6
deriving DecidableEq, Repr

/-- What the stack manager decides when it places a residency on the core (R291 to R293): the bind record, the first
scratchpad bank, the owned slots, for a restore the generation of the context, and the quads that a launch with NQ > 0 occupies: package, and
logical number with the stack above it (R284). Log entry 26 (DEDUCED). -/
structure Placement where
  res : ResIx
  bank : BitVec 4
  slots : BitVec 4
  gen : BitVec 4
  quads : List (BitVec 17 × BitVec 13)
deriving DecidableEq, Repr

/-- A journal slot of the local or a partner window (R378). -/
structure JSlot where
  num : Word
  sid : BitVec 32
  jid : BitVec 16
  len : BitVec 7
  body : BitVec 512
deriving DecidableEq, Repr

/-- The control registers that a stack manager writes and that have no row of their own (CONTROL_WRITE, R331): each
names the register, with the value beside it in the event. -/
inductive ControlReg where
  /-- OCC of R293. -/
  | occ
  /-- AGELIM of R25. -/
  | agelim
  /-- The root placement word of an address space (R272). -/
  | root (asid : Asid)
  /-- One entry of the access table of a quad of the package, named by its logical number with the stack above it (R370). -/
  | access (quad : BitVec 13) (asid : Asid)
  /-- Binds a device ring: base address and log2 size (R289). -/
  | deviceRing (ring : Fin 16) (asid : Asid) (k : BitVec 4)
  /-- Registers a doorbell address for a device ring (R289). -/
  | doorbell (ring : Fin 16) (asid : Asid)
  /-- QPWR.BB, or the W1C ERR bit, of a physical quad (R331). -/
  | qpwr (quad : Nat)
  /-- Clears the dead-letter latch DLHDR and DLWHY (R310). -/
  | dlLatch
  /-- DRAINING in a bind record (R294, R311). -/
  | drain (r : ResIx)
  /-- A journal binding, written by the stack manager (R375). -/
  | binding (r : ResIx)
  /-- The logical-to-physical quad table (R4). -/
  | quadMap (logical : BitVec 11)
  /-- The firmware's report that bring-up is done (R413). -/
  | bringUpDone
  /-- The virtual address of the mail-spill area of a context on this core (R317). -/
  | spill (asid : Asid) (gen : BitVec 4)
deriving DecidableEq, Repr

end Sys2Proof
end

