-- ==== Sys2Proof/Config.lean ====
section
/-! DEFINITION. What the spec leaves to an implementation or to a party outside the core: free values, which nothing constrains.
Each is opaque: no proof can learn a value of it, so a theorem holds whatever it is. -/

namespace Sys2Proof.Config

/-- The core cycles that pass at the n-th step beyond the first one (latencies, arbitration, waits and idle cycles are not modelled;
R108, R126, R141, R167, R186, R231). Log entry 2. -/
opaque extraCycles : Nat → Nat

/-- The pod ticks of 1 ns that pass at the n-th step (R25: TICK counts pod time). Log entry 2. -/
opaque elapsedTicks : Nat → Nat

/-- The stack managers' key of this boot, under which the TAG of a capability is made (R168); the spec does not give it. Log entry 7. -/
opaque bootKey : List Byte

/-- The key digests fused in the slots of this core's stack (R407): the fuses are the device's. Log entry 7. -/
opaque fusedDigest : Nat → List Byte

/-- The reply latency choices of a fabric path: which of a stack's live ports a packet takes (R358). Log entry 7. -/
opaque pathChoice : Nat → Bool

/-- A byte that TFILL could not read because its agent refused the read or found the word uncorrectable (R225 states no value). Log
entry 7. -/
opaque unreadByte : Nat → BitVec 8

/-- The bytes that an agent of another package serves of a request (R208): how its page is spread there. Log entry 7. -/
opaque farServed : Nat → Nat

/-- The STATUS byte with which a matrix port answers an MPACK that meets a range lock or a race, for which R171 lists no status. Log
entry 7. -/
opaque portStatus : Nat → BitVec 8

/-- The number with which a closing message ends a window ship that carries no record: such a batch has no highest number (R379, R381). Log
entry 7. -/
opaque emptyBatchNumber : Nat → BitVec 64

/-- The body-bias code fused for a physical quad (R331). Log entry 5. -/
opaque fusedBias : Nat → BitVec 4

end Sys2Proof.Config
end

