-- ==== Sys2Proof/Syntax.lean ====
section
/-! DEFINITION. The instructions and device steps of the MB9-800: one constructor per row of the opcode table. Fields carry the
raw widths of the encoding (R73 to R82); the limits on their values are in WellFormed. Rows without an encoding are device
steps (events); their arguments carry what a party outside the core decides. -/

namespace Sys2Proof

/-- One constructor per row of the opcode table. Field names are those of the encoding tables: a, b, c register fields,
m the mask field, w a width, n a number, i an immediate, o an offset. -/
inductive Instr where
  /-- ADD (R94). -/
  | add (a : Reg) (b : Reg) (c : Reg)
  /-- SUB (R94). -/
  | sub (a : Reg) (b : Reg) (c : Reg)
  /-- AND (R94). -/
  | and (a : Reg) (b : Reg) (c : Reg)
  /-- OR (R94). -/
  | or (a : Reg) (b : Reg) (c : Reg)
  /-- XOR (R94). -/
  | xor (a : Reg) (b : Reg) (c : Reg)
  /-- SLL (R94). -/
  | sll (a : Reg) (b : Reg) (c : Reg)
  /-- SRL (R94). -/
  | srl (a : Reg) (b : Reg) (c : Reg)
  /-- SRA (R94). -/
  | sra (a : Reg) (b : Reg) (c : Reg)
  /-- SLT (R94). -/
  | slt (a : Reg) (b : Reg) (c : Reg)
  /-- SLTZ (R94). -/
  | sltz (a : Reg) (b : Reg) (c : Reg)
  /-- MIN (R94). -/
  | min (a : Reg) (b : Reg) (c : Reg)
  /-- MAX (R94). -/
  | max (a : Reg) (b : Reg) (c : Reg)
  /-- MINZ (R94). -/
  | minz (a : Reg) (b : Reg) (c : Reg)
  /-- MAXZ (R94). -/
  | maxz (a : Reg) (b : Reg) (c : Reg)
  /-- ADDW (R94). -/
  | addw (a : Reg) (b : Reg) (c : Reg)
  /-- SUBW (R94). -/
  | subw (a : Reg) (b : Reg) (c : Reg)
  /-- SLLW (R94). -/
  | sllw (a : Reg) (b : Reg) (c : Reg)
  /-- SRLW (R94). -/
  | srlw (a : Reg) (b : Reg) (c : Reg)
  /-- SRAW (R94). -/
  | sraw (a : Reg) (b : Reg) (c : Reg)
  /-- CLZ (R94). -/
  | clz (a : Reg) (b : Reg)
  /-- CTZ (R94). -/
  | ctz (a : Reg) (b : Reg)
  /-- CNT (R94). -/
  | cnt (a : Reg) (b : Reg)
  /-- ANDN (R94). -/
  | andn (a : Reg) (b : Reg) (c : Reg)
  /-- ORN (R94). -/
  | orn (a : Reg) (b : Reg) (c : Reg)
  /-- MUL (R95). -/
  | mul (a : Reg) (b : Reg) (c : Reg)
  /-- MULH (R95). -/
  | mulh (a : Reg) (b : Reg) (c : Reg)
  /-- MULHZ (R95). -/
  | mulhz (a : Reg) (b : Reg) (c : Reg)
  /-- MULW (R95). -/
  | mulw (a : Reg) (b : Reg) (c : Reg)
  /-- DIV (R96). -/
  | div (a : Reg) (b : Reg) (c : Reg)
  /-- DIVZ (R96). -/
  | divz (a : Reg) (b : Reg) (c : Reg)
  /-- REM (R96). -/
  | rem (a : Reg) (b : Reg) (c : Reg)
  /-- REMZ (R96). -/
  | remz (a : Reg) (b : Reg) (c : Reg)
  /-- DIVW (R96). -/
  | divw (a : Reg) (b : Reg) (c : Reg)
  /-- DIVZW (R96). -/
  | divzw (a : Reg) (b : Reg) (c : Reg)
  /-- REMW (R96). -/
  | remw (a : Reg) (b : Reg) (c : Reg)
  /-- REMZW (R96). -/
  | remzw (a : Reg) (b : Reg) (c : Reg)
  /-- ADDI (R97). -/
  | addi (a : Reg) (b : Reg) (i : BitVec 15)
  /-- ADDIW (R97). -/
  | addiw (a : Reg) (b : Reg) (i : BitVec 15)
  /-- ANDI (R97). -/
  | andi (a : Reg) (b : Reg) (i : BitVec 15)
  /-- ORI (R97). -/
  | ori (a : Reg) (b : Reg) (i : BitVec 15)
  /-- XORI (R97). -/
  | xori (a : Reg) (b : Reg) (i : BitVec 15)
  /-- SLTI (R97). -/
  | slti (a : Reg) (b : Reg) (i : BitVec 15)
  /-- SLTIZ (R97). -/
  | sltiz (a : Reg) (b : Reg) (i : BitVec 15)
  /-- SLLI (R98). -/
  | slli (a : Reg) (n : BitVec 6) (b : Reg)
  /-- SRLI (R98). -/
  | srli (a : Reg) (n : BitVec 6) (b : Reg)
  /-- SRAI (R98). -/
  | srai (a : Reg) (n : BitVec 6) (b : Reg)
  /-- SLLIW (R98). -/
  | slliw (a : Reg) (n : BitVec 6) (b : Reg)
  /-- SRLIW (R98). -/
  | srliw (a : Reg) (n : BitVec 6) (b : Reg)
  /-- SRAIW (R98). -/
  | sraiw (a : Reg) (n : BitVec 6) (b : Reg)
  /-- LUI (R99). -/
  | lui (a : Reg) (i : BitVec 20)
  /-- AUIPC (R99). -/
  | auipc (a : Reg) (i : BitVec 20)
  /-- BEQ (R100). -/
  | beq (a : Reg) (b : Reg) (o : BitVec 12)
  /-- BNE (R100). -/
  | bne (a : Reg) (b : Reg) (o : BitVec 12)
  /-- BLT (R100). -/
  | blt (a : Reg) (b : Reg) (o : BitVec 12)
  /-- BGE (R100). -/
  | bge (a : Reg) (b : Reg) (o : BitVec 12)
  /-- BLO (R100). -/
  | blo (a : Reg) (b : Reg) (o : BitVec 12)
  /-- BHS (R100). -/
  | bhs (a : Reg) (b : Reg) (o : BitVec 12)
  /-- JAL (R101). -/
  | jal (a : Reg) (o : BitVec 20)
  /-- JALR (R101). -/
  | jalr (a : Reg) (b : Reg) (i : BitVec 15)
  /-- LOOP (R103). -/
  | loop (a : Reg) (L : BitVec 10)
  /-- LOOP_IMM (R103). -/
  | loopImm (n : BitVec 10) (L : BitVec 10)
  /-- LIT (R107). -/
  | lit (a : Reg) (o : BitVec 20)
  /-- LB (R113). -/
  | lb (a : Reg) (b : Reg) (o : BitVec 12)
  /-- LH (R113). -/
  | lh (a : Reg) (b : Reg) (o : BitVec 12)
  /-- LW (R113). -/
  | lw (a : Reg) (b : Reg) (o : BitVec 12)
  /-- LD (R113). -/
  | ld (a : Reg) (b : Reg) (o : BitVec 12)
  /-- LBZ (R113). -/
  | lbz (a : Reg) (b : Reg) (o : BitVec 12)
  /-- LHZ (R113). -/
  | lhz (a : Reg) (b : Reg) (o : BitVec 12)
  /-- LWZ (R113). -/
  | lwz (a : Reg) (b : Reg) (o : BitVec 12)
  /-- SB (R113). -/
  | sb (a : Reg) (b : Reg) (o : BitVec 12)
  /-- SH (R113). -/
  | sh (a : Reg) (b : Reg) (o : BitVec 12)
  /-- SW (R113). -/
  | sw (a : Reg) (b : Reg) (o : BitVec 12)
  /-- SD (R113). -/
  | sd (a : Reg) (b : Reg) (o : BitVec 12)
  /-- LQW (R115). -/
  | lqw (a : Reg) (b : Reg) (c : Reg)
  /-- LQD (R115). -/
  | lqd (a : Reg) (b : Reg) (c : Reg)
  /-- SQW (R115). -/
  | sqw (a : Reg) (b : Reg) (c : Reg)
  /-- SQD (R115). -/
  | sqd (a : Reg) (b : Reg) (c : Reg)
  /-- AMOADD (R118). -/
  | amoadd (a : Reg) (b : Reg) (c : Reg)
  /-- AMOADDW (R118). -/
  | amoaddw (a : Reg) (b : Reg) (c : Reg)
  /-- AMOSWAP (R118). -/
  | amoswap (a : Reg) (b : Reg) (c : Reg)
  /-- AMOSWAPW (R118). -/
  | amoswapw (a : Reg) (b : Reg) (c : Reg)
  /-- AMOCAS (R118). -/
  | amocas (a : Reg) (b : Reg) (c : Reg)
  /-- AMOCASW (R118). -/
  | amocasw (a : Reg) (b : Reg) (c : Reg)
  /-- AMOAND (R118). -/
  | amoand (a : Reg) (b : Reg) (c : Reg)
  /-- AMOANDW (R118). -/
  | amoandw (a : Reg) (b : Reg) (c : Reg)
  /-- AMOOR (R118). -/
  | amoor (a : Reg) (b : Reg) (c : Reg)
  /-- AMOORW (R118). -/
  | amoorw (a : Reg) (b : Reg) (c : Reg)
  /-- AMOXOR (R118). -/
  | amoxor (a : Reg) (b : Reg) (c : Reg)
  /-- AMOXORW (R118). -/
  | amoxorw (a : Reg) (b : Reg) (c : Reg)
  /-- AMOMIN (R118). -/
  | amomin (a : Reg) (b : Reg) (c : Reg)
  /-- AMOMINW (R118). -/
  | amominw (a : Reg) (b : Reg) (c : Reg)
  /-- AMOMAX (R118). -/
  | amomax (a : Reg) (b : Reg) (c : Reg)
  /-- AMOMAXW (R118). -/
  | amomaxw (a : Reg) (b : Reg) (c : Reg)
  /-- AMOMINZ (R118). -/
  | amominz (a : Reg) (b : Reg) (c : Reg)
  /-- AMOMINZW (R118). -/
  | amominzw (a : Reg) (b : Reg) (c : Reg)
  /-- AMOMAXZ (R118). -/
  | amomaxz (a : Reg) (b : Reg) (c : Reg)
  /-- AMOMAXZW (R118). -/
  | amomaxzw (a : Reg) (b : Reg) (c : Reg)
  /-- VLD (R130). -/
  | vld (a : Reg) (b : Reg) (c : Reg) (t : BitVec 4) (m : MaskField)
  /-- VLDS (R131). -/
  | vlds (a : Reg) (b : Reg) (c : Reg) (t : BitVec 4) (m : MaskField)
  /-- VLDX (R131). -/
  | vldx (a : Reg) (b : Reg) (c : Reg) (t : BitVec 4) (m : MaskField)
  /-- VST (R130). -/
  | vst (a : Reg) (b : Reg) (c : Reg) (t : BitVec 4) (m : MaskField)
  /-- VSTS (R131). -/
  | vsts (a : Reg) (b : Reg) (c : Reg) (t : BitVec 4) (m : MaskField)
  /-- VSTX (R131). -/
  | vstx (a : Reg) (b : Reg) (c : Reg) (t : BitVec 4) (m : MaskField)
  /-- VADD (R133). -/
  | vadd (a : Reg) (b : Reg) (c : Reg) (w : BitVec 2) (m : MaskField)
  /-- VSUB (R133). -/
  | vsub (a : Reg) (b : Reg) (c : Reg) (w : BitVec 2) (m : MaskField)
  /-- VMUL (R133). -/
  | vmul (a : Reg) (b : Reg) (c : Reg) (w : BitVec 2) (m : MaskField)
  /-- VMULH (R133). -/
  | vmulh (a : Reg) (b : Reg) (c : Reg) (w : BitVec 2) (m : MaskField)
  /-- VAND (R133). -/
  | vand (a : Reg) (b : Reg) (c : Reg) (w : BitVec 2) (m : MaskField)
  /-- VOR (R133). -/
  | vor (a : Reg) (b : Reg) (c : Reg) (w : BitVec 2) (m : MaskField)
  /-- VXOR (R133). -/
  | vxor (a : Reg) (b : Reg) (c : Reg) (w : BitVec 2) (m : MaskField)
  /-- VSLL (R133). -/
  | vsll (a : Reg) (b : Reg) (c : Reg) (w : BitVec 2) (m : MaskField)
  /-- VSRL (R133). -/
  | vsrl (a : Reg) (b : Reg) (c : Reg) (w : BitVec 2) (m : MaskField)
  /-- VSRA (R133). -/
  | vsra (a : Reg) (b : Reg) (c : Reg) (w : BitVec 2) (m : MaskField)
  /-- VMIN (R133). -/
  | vmin (a : Reg) (b : Reg) (c : Reg) (w : BitVec 2) (m : MaskField)
  /-- VMAX (R133). -/
  | vmax (a : Reg) (b : Reg) (c : Reg) (w : BitVec 2) (m : MaskField)
  /-- VMINZ (R133). -/
  | vminz (a : Reg) (b : Reg) (c : Reg) (w : BitVec 2) (m : MaskField)
  /-- VMAXZ (R133). -/
  | vmaxz (a : Reg) (b : Reg) (c : Reg) (w : BitVec 2) (m : MaskField)
  /-- VABS (R133). -/
  | vabs (a : Reg) (b : Reg) (w : BitVec 2) (m : MaskField)
  /-- VCEQ (R134). -/
  | vceq (a : Reg) (b : Reg) (c : Reg) (w : BitVec 2) (m : MaskField)
  /-- VCLT (R134). -/
  | vclt (a : Reg) (b : Reg) (c : Reg) (w : BitVec 2) (m : MaskField)
  /-- VCLO (R134). -/
  | vclo (a : Reg) (b : Reg) (c : Reg) (w : BitVec 2) (m : MaskField)
  /-- VSEL (R134). -/
  | vsel (a : Reg) (b : Reg) (c : Reg) (m : MaskField)
  /-- VSAT (R134). -/
  | vsat (a : Reg) (b : Reg) (k : BitVec 5) (w : BitVec 2) (m : MaskField)
  /-- VFADD (R135). -/
  | vfadd (a : Reg) (b : Reg) (c : Reg) (m : MaskField)
  /-- VFSUB (R135). -/
  | vfsub (a : Reg) (b : Reg) (c : Reg) (m : MaskField)
  /-- VFMUL (R135). -/
  | vfmul (a : Reg) (b : Reg) (c : Reg) (m : MaskField)
  /-- VFMA (R135). -/
  | vfma (a : Reg) (b : Reg) (c : Reg) (m : MaskField)
  /-- VFMS (R135). -/
  | vfms (a : Reg) (b : Reg) (c : Reg) (m : MaskField)
  /-- VFMIN (R57). -/
  | vfmin (a : Reg) (b : Reg) (c : Reg) (m : MaskField)
  /-- VFMAX (R57). -/
  | vfmax (a : Reg) (b : Reg) (c : Reg) (m : MaskField)
  /-- VFABS (R56). -/
  | vfabs (a : Reg) (b : Reg) (m : MaskField)
  /-- VFNEG (R56). -/
  | vfneg (a : Reg) (b : Reg) (m : MaskField)
  /-- VFCEQ (R57). -/
  | vfceq (a : Reg) (b : Reg) (c : Reg) (m : MaskField)
  /-- VFCLT (R57). -/
  | vfclt (a : Reg) (b : Reg) (c : Reg) (m : MaskField)
  /-- VFCLE (R57). -/
  | vfcle (a : Reg) (b : Reg) (c : Reg) (m : MaskField)
  /-- VFRCP (R58). -/
  | vfrcp (a : Reg) (b : Reg) (m : MaskField)
  /-- VFRSQ (R58). -/
  | vfrsq (a : Reg) (b : Reg) (m : MaskField)
  /-- VFEXP (R58). -/
  | vfexp (a : Reg) (b : Reg) (m : MaskField)
  /-- VSHUF (R136). -/
  | vshuf (a : Reg) (b : Reg) (c : Reg) (w : BitVec 2) (m : MaskField)
  /-- VBCAST (R136). -/
  | vbcast (a : Reg) (b : Reg) (w : BitVec 2) (m : MaskField)
  /-- VMVX (R136). -/
  | vmvx (a : Reg) (b : Reg) (c : Reg) (w : BitVec 2)
  /-- VSLIDE (R136). -/
  | vslide (a : Reg) (b : Reg) (c : Reg) (w : BitVec 2) (m : MaskField)
  /-- VZIP (R136). -/
  | vzip (a : Reg) (b : Reg) (c : Reg) (w : BitVec 2) (m : MaskField)
  /-- VUZP (R136). -/
  | vuzp (a : Reg) (b : Reg) (c : Reg) (w : BitVec 2) (m : MaskField)
  /-- VREDS (R137). -/
  | vreds (a : Reg) (b : Reg) (w : BitVec 2) (m : MaskField)
  /-- VREDM (R137). -/
  | vredm (a : Reg) (b : Reg) (w : BitVec 2) (m : MaskField)
  /-- VFREDS (R137). -/
  | vfreds (a : Reg) (b : Reg) (m : MaskField)
  /-- VFREDM (R137). -/
  | vfredm (a : Reg) (b : Reg) (m : MaskField)
  /-- VCVT (R138). -/
  | vcvt (a : Reg) (d : BitVec 4) (s : BitVec 4) (b : Reg)
  /-- MAND (R139). -/
  | mand (a : Reg) (b : Reg) (c : Reg)
  /-- MOR (R139). -/
  | mor (a : Reg) (b : Reg) (c : Reg)
  /-- MXOR (R139). -/
  | mxor (a : Reg) (b : Reg) (c : Reg)
  /-- MNOT (R139). -/
  | mnot (a : Reg) (b : Reg)
  /-- MPOP (R139). -/
  | mpop (a : Reg) (b : Reg)
  /-- MSET (R139). -/
  | mset (a : Reg) (b : Reg)
  /-- GUARD (R149). -/
  | guard (b : Reg)
  /-- JOIN (R149). -/
  | join (j : BitVec 1)
  /-- QJOIN (R150). -/
  | qjoin
  /-- QLEAVE (R150). -/
  | qleave
  /-- ACCZ (R149). -/
  | accz (n : AccNum) (k : BitVec 5)
  /-- PACKX (R154). -/
  | packx (b : Reg)
  /-- PACKY (R154). -/
  | packy (b : Reg)
  /-- PACKXF (R154). -/
  | packxf (b : Reg)
  /-- PACKYF (R154). -/
  | packyf (b : Reg)
  /-- PACKK (R155). -/
  | packk (b : Reg)
  /-- MULS (R156). -/
  | muls (n : AccNum) (b : Reg)
  /-- MULJ (R157). -/
  | mulj (n : AccNum) (b : Reg)
  /-- MMAR (R161). -/
  | mmar (b : Reg)
  /-- EXTR (R164). -/
  | extr (d : Reg) (n : AccNum) (b : Reg) (x : BitVec 1)
  /-- EXTRF (R164). -/
  | extrf (d : Reg) (n : AccNum) (b : Reg) (x : BitVec 1)
  /-- ACCRD (R165). -/
  | accrd (a : Reg) (n : AccNum) (b : Reg)
  /-- ACCWR (R165). -/
  | accwr (a : Reg) (n : AccNum) (b : Reg)
  /-- ACCMV (R166). -/
  | accmv (d : AccNum) (s : AccNum)
  /-- TLD (R175). -/
  | tld (a : Reg) (b : Reg)
  /-- TST (R175). -/
  | tst (a : Reg) (b : Reg)
  /-- TLDS (R175). -/
  | tlds (a : Reg) (b : Reg)
  /-- ACT (R187). -/
  | act (b : Reg) (c : Reg)
  /-- PRE (R187). -/
  | pre (b : Reg) (c : Reg)
  /-- ROWQ (R188). -/
  | rowq (a : Reg) (b : Reg)
  /-- TWAIT (R182). -/
  | twait (a : Reg) (b : Reg)
  /-- TCHK (R182). -/
  | tchk (a : Reg) (b : Reg)
  /-- CPY (R191). -/
  | cpy (a : Reg)
  /-- CPYGO (R192). -/
  | cpygo
  /-- CPYQ (R192). -/
  | cpyq (a : Reg)
  /-- SEND (R200). -/
  | send (a : Reg) (b : Reg) (c : Reg) (v : BitVec 2) (r : BitVec 1)
  /-- SENDL (R201). -/
  | sendl (a : Reg) (b : Reg) (v : BitVec 2) (r : BitVec 1)
  /-- REPLY (R200). -/
  | reply (b : Reg) (c : Reg)
  /-- MSGX (R205). -/
  | msgx (a : Reg) (b : Reg) (v : BitVec 2)
  /-- VREAD (R206). -/
  | vread (a : Reg) (b : Reg) (r : BitVec 1)
  /-- VWRITE (R206). -/
  | vwrite (b : Reg) (c : Reg) (r : BitVec 1)
  /-- VAMO (R206). -/
  | vamo (a : Reg) (b : Reg) (c : Reg) (r : BitVec 1)
  /-- TNEW (R213). -/
  | tnew (b : Reg) (c : Reg)
  /-- TDEC (R213). -/
  | tdec (b : Reg) (k : BitVec 3)
  /-- TARM (R213). -/
  | tarm (b : Reg)
  /-- FENCE (R210). -/
  | fence (s : BitVec 3)
  /-- SIGNAL (R210). -/
  | signal (s : BitVec 3) (b : Reg) (c : Reg)
  /-- BAR (R214). -/
  | bar (s : BitVec 3) (b : Reg)
  /-- OXL (R217). -/
  | oxl (a : Reg) (b : Reg)
  /-- OXS (R217). -/
  | oxs (a : Reg) (b : Reg)
  /-- OXC (R217). -/
  | oxc (a : Reg) (b : Reg) (c : Reg)
  /-- SRD (R215). -/
  | srd (a : Reg) (n : BitVec 12)
  /-- SWR (R215). -/
  | swr (a : Reg) (n : BitVec 12) (b : Reg)
  /-- SSET (R215). -/
  | sset (a : Reg) (n : BitVec 12) (b : Reg)
  /-- SCLR (R215). -/
  | sclr (a : Reg) (n : BitVec 12) (b : Reg)
  /-- TRET (R220). -/
  | tret
  /-- TABORT (R221). -/
  | tabort (k : BitVec 1)
  /-- TSPILL (R224). -/
  | tspill
  /-- TFILL (R225). -/
  | tfill
  /-- BRK (R222). -/
  | brk (c : BitVec 8)
  /-- SVC (R222). -/
  | svc (c : BitVec 8)
  /-- END (R15). -/
  | endStream
  /-- NOP (R218). -/
  | nop
  /-- QMAP (R21). -/
  | qmap (q : BitVec 1)
  /-- JREC (R226). -/
  | jrec (a : Reg) (b : Reg)
  /-- JSEAL (R227). -/
  | jseal (a : Reg)
  /-- EMIT (R228). -/
  | emit (b : Reg) (c : Reg)
  /-- RNGB (R230). -/
  | rngb (a : Reg) (b : Reg)
  /-- C_MV (R82). -/
  | cMv (d : Reg) (s : Reg)
  /-- C_ADDI (R82). -/
  | cAddi (d : Reg) (i : BitVec 6)
  /-- C_LI (R82). -/
  | cLi (d : Reg) (i : BitVec 6)
  /-- C_ADD (R82). -/
  | cAdd (d : Reg) (s : Reg)
  /-- C_SUB (R82). -/
  | cSub (d : Reg) (s : Reg)
  /-- C_AND (R82). -/
  | cAnd (d : Reg) (s : Reg)
  /-- C_SLLI (R82). -/
  | cSlli (d : Reg) (n : BitVec 6)
  /-- C_SRLI (R82). -/
  | cSrli (d : Reg) (n : BitVec 6)
  /-- C_LW (R82). -/
  | cLw (d : Reg) (k : BitVec 6)
  /-- C_SW (R82). -/
  | cSw (s : Reg) (k : BitVec 6)
  /-- C_BEQ (R82). -/
  | cBeq (s : BitVec 3) (o : BitVec 8)
  /-- C_BNE (R82). -/
  | cBne (s : BitVec 3) (o : BitVec 8)
  /-- C_J (R82). -/
  | cJ (o : BitVec 11)
  /-- C_END (R82). -/
  | cEnd
  /-- C_NOP (R82). -/
  | cNop
  /-- ILLOP (R83). -/
  | illop (w : BitVec 32)
  /-- WDOG (R304). -/
  | wdog (slot : SlotIx)
  /-- KILL (R308). -/
  | kill (r : ResIx)
  /-- RESIDENCY_RELEASE (R37). -/
  | residencyRelease (r : ResIx)
  /-- RESERVATION_CLEAR_END (R36). -/
  | reservationClearEnd (r : ResIx)
  /-- OVERFLOW_CHAIN_MOVE (R39). -/
  | overflowChainMove (r : ResIx)
  /-- DISPATCH (R297). -/
  | dispatch
  /-- QUAD_REMOTE_PERFORM (R126). -/
  | quadRemotePerform (i : Nat)
  /-- QUAD_UNIT_MERGE (R341). -/
  | quadUnitMerge
  /-- MCFG (R170). -/
  | mcfg
  /-- MPACK (R170). -/
  | mpack
  /-- MMAR_COMMAND (R170). -/
  | mmarCommand
  /-- MZERO (R170). -/
  | mzero
  /-- MEXTR (R170). -/
  | mextr
  /-- MSTAT (R170). -/
  | mstat
  /-- ILLCMD (R170). -/
  | illcmd
  /-- SLEW_GRANT (R339). -/
  | slewGrant
  /-- SLEW_LEVEL_STEP (R338). -/
  | slewLevelStep
  /-- SLICE_WORK_END (R338). -/
  | sliceWorkEnd
  /-- RSLEW_WRITE (R340). -/
  | rslewWrite (cap : Fin 30 × BitVec 4)
  /-- TILE_OP_START (R178). -/
  | tileOpStart
  /-- VAULT_BEAT (R257). -/
  | vaultBeat
  /-- TILE_OP_COMPLETE (R181). -/
  | tileOpComplete
  /-- PAGE_MAP_RESUME (R179). -/
  | pageMapResume (mapped : Bool)
  /-- ACT_AT_HEAD (R187). -/
  | actAtHead
  /-- PRE_AT_HEAD (R187). -/
  | preAtHead
  /-- ACTIVATION_END (R259). -/
  | activationEnd (b : BankIx)
  /-- PRECHARGE_END (R259). -/
  | prechargeEnd (b : BankIx)
  /-- REFRESH (R260). -/
  | refresh (b : BankIx)
  /-- REFRESH_END (R258). -/
  | refreshEnd (b : BankIx)
  /-- ROW_REPAIR (R261). -/
  | rowRepair (b : BankIx) (row : BitVec 10)
  /-- TEMP_SAMPLE (R262). -/
  | tempSample (temps : List Nat)
  /-- COPY (R195). -/
  | copy (r : ResIx)
  /-- RESTRIPE (R279). -/
  | restripe (r : ResIx)
  /-- FILL (R190). -/
  | fill (r : ResIx)
  /-- HOSTRD (R368). -/
  | hostrd (r : ResIx) (bytes : List Byte)
  /-- HOSTWR (R368). -/
  | hostwr (r : ResIx)
  /-- DRAIN (R190). -/
  | drain (r : ResIx)
  /-- BAD_COPY_COMMAND (R190). -/
  | badCopyCommand (r : ResIx)
  /-- COPY_COMPLETION (R193). -/
  | copyCompletion (r : ResIx)
  /-- CHUNK_MOVE (R242). -/
  | chunkMove (r : ResIx)
  /-- RESTRIPE_SWITCH (R279). -/
  | restripeSwitch (r : ResIx)
  /-- TRANSLATION_WALK (R272). -/
  | translationWalk (asid : Asid) (vpn : Vpn)
  /-- TABLE_ENTRY_CHANGE (R274). -/
  | tableEntryChange (level : Fin 3) (asid : Asid) (vpn : Vpn) (word : Word)
  /-- DIRTY_LOG_MERGE (R277). -/
  | dirtyLogMerge (quad : BitVec 13)
  /-- HARVEST (R278). -/
  | harvest (asid : Asid)
  /-- MESSAGE_ENQUEUE (R198). -/
  | messageEnqueue (m : Option Msg)
  /-- MESSAGE_DEPART (R204). -/
  | messageDepart
  /-- SIGNAL_DECREMENT (R210). -/
  | signalDecrement
  /-- SIGNAL_ACK (R210): for the context of an address space and a generation. -/
  | signalAck (ctx : Asid × BitVec 4)
  /-- SCOPE_MISS_BOUNCE (R211). -/
  | scopeMissBounce
  /-- BARRIER_ARRIVAL (R214). -/
  | barrierArrival (gang : BitVec 16) (scope : BitVec 3) (core : BitVec 32)
  /-- AGENT_VREAD (R206). -/
  | agentVread (m : Option Msg)
  /-- AGENT_VWRITE (R206). -/
  | agentVwrite (m : Option Msg)
  /-- AGENT_VAMO (R206). -/
  | agentVamo (m : Option Msg)
  /-- VFADDC (R207). -/
  | vfaddc (m : Option Msg)
  /-- VFENCE (R206). -/
  | vfence (m : Option Msg)
  /-- AGENT_COMPLETION (R235). -/
  | agentCompletion
  /-- GANG_END (R292). -/
  | gangEnd (gang : BitVec 16)
  /-- BATCH_SHIP (R377). -/
  | batchShip (r : ResIx)
  /-- BATCH_STORE (R379). -/
  | batchStore (jid : BitVec 16) (jgrp : BitVec 16) (pgen : BitVec 8) (slots : List JSlot)
  /-- JOURNAL_ACK (R380). -/
  | journalAck (r : ResIx) (pgen : BitVec 8) (num : Word)
  /-- SNAP_TRUNCATION (R384). -/
  | snapTruncation (r : ResIx)
  /-- EGRESS_RELEASE (R228). -/
  | egressRelease (r : ResIx)
  /-- HEARTBEAT (R379). -/
  | heartbeat (r : ResIx)
  /-- PEER_LOST (R379). -/
  | peerLost (r : ResIx)
  /-- BINDING_FREEZE (R381). -/
  | bindingFreeze (r : ResIx)
  /-- WINDOW_SHIP (R381). -/
  | windowShip (r : ResIx) (ppkg : BitVec 17) (pstk : BitVec 2)
  /-- WINDOW_ACK (R381). -/
  | windowAck (r : ResIx) (pgen : BitVec 8)
  /-- REPLAY (R386). -/
  | replay (r : ResIx) (jid : BitVec 16) (fresh : BitVec 16) (digest : Word) (weights : Word)
  /-- SNAPCFG (R387). -/
  | snapcfg (irq : Bool) (body : List Word)
  /-- SNAPSHOT_CUT (R389). -/
  | snapshotCut (asid : Asid)
  /-- PAGE_COPY (R390). -/
  | pageCopy (asid : Asid) (vpn : Vpn)
  /-- SHINGLE_DRAIN (R391). -/
  | shingleDrain
  /-- SHINGLE_ACK (R391). -/
  | shingleAck (i : Nat) (accepted : Bool)
  /-- DRAIN_WALK (R391). -/
  | drainWalk (asid : Asid) (vpn : Vpn)
  /-- SNAPSHOT_SEAL (R392). -/
  | snapshotSeal (asid : Asid)
  /-- SCAN_VISIT (R393). -/
  | scanVisit (q : BitVec 11)
  /-- SCAN_END (R395). -/
  | scanEnd (q : BitVec 11) (pass : Bool)
  /-- SPARE_REMAP (R397). -/
  | spareRemap (q : BitVec 11) (spare : Nat)
  /-- RING_NOTIFY (R289). -/
  | ringNotify (ring : Fin 8) (pi : BitVec 32) (relaxed : Bool)
  /-- PLACE_AND_START (R286). -/
  | placeAndStart (ring : Fin 24) (p : Option Placement)
  /-- PLACE_ONLY (R286). -/
  | placeOnly (ring : Fin 24) (p : Option Placement)
  /-- START (R286). -/
  | start (ring : Fin 24)
  /-- CANCEL (R286). -/
  | cancel (ring : Fin 24)
  /-- SEAL_REREAD (R290). -/
  | sealReread (ring : Fin 24)
  /-- LAUNCH_FORWARD (R296). -/
  | launchForward (packet : BitVec 1024) (n : BitVec 17 × BitVec 32) (p : Option Placement)
  /-- READY_REPORT (R296). -/
  | readyReport (gang : BitVec 16) (pkg : BitVec 17) (status : BitVec 8)
  /-- COMMIT (R296). -/
  | commit (gang : BitVec 16)
  /-- LAUNCH_ABORT (R296). -/
  | launchAbort (gang : BitVec 16)
  /-- SELF_ABORT (R296). -/
  | selfAbort (gang : BitVec 16)
  /-- ARMED_START (R295). -/
  | armedStart (r : ResIx)
  /-- LAUNCH_RECONSIDER (R294). -/
  | launchReconsider (p : Option Placement)
  /-- SAVE_START (R311). -/
  | saveStart (r : ResIx) (va : Word) (len : Word)
  /-- SAVE_UNIT_ACK (R314). -/
  | saveUnitAck (r : ResIx)
  /-- SAVE_FAULT (R315). -/
  | saveFault (r : ResIx)
  /-- SAVE_RESUME (R315). -/
  | saveResume (r : ResIx)
  /-- SAVE_ABANDON (R315). -/
  | saveAbandon (r : ResIx)
  /-- RESTORE (R318). -/
  | restore (r : ResIx) (va : Word) (p : Placement)
  /-- GATE (R332). -/
  | gate (quad : Nat)
  /-- WAKE (R335). -/
  | wake (quad : Nat)
  /-- GATE_FALL (R333). -/
  | gateFall (quad : Nat)
  /-- WAKE_ADMIT (R336). -/
  | wakeAdmit
  /-- WAKE_COMPLETE (R336). -/
  | wakeComplete (quad : Nat)
  /-- CONTROL_WRITE (R331). -/
  | controlWrite (reg : ControlReg) (value : BitVec 128)
  /-- FLIT_RECEIVE (R354). -/
  | flitReceive (m : Fin 8) (crcOk : Bool) (num : BitVec 8) (flit : Flit)
  /-- NAK_RECEIVE (R354). -/
  | nakReceive (m : Fin 8) (e : BitVec 8)
  /-- FLIT_ACK (R354). -/
  | flitAck (m : Fin 8) (e : BitVec 8)
  /-- LANE_FAILURE (R355). -/
  | laneFailure (m : Fin 8) (repaired : Bool)
  /-- RETRAIN_END (R355). -/
  | retrainEnd (m : Fin 8)
  /-- MODULE_DEAD (R356). -/
  | moduleDead (m : Fin 8) (e : Option (BitVec 8))
  /-- SIDEBAND_TIMEOUT (R356). -/
  | sidebandTimeout (m : Fin 8)
  /-- FABRIC_PACKET (R359). -/
  | fabricPacket (flow : Nat) (num : BitVec 32) (msg : Msg)
  /-- FABRIC_ACK (R359). -/
  | fabricAck (flow : Nat) (num : BitVec 32)
  /-- GAP_TIMEOUT (R359). -/
  | gapTimeout (flow : Nat)
  /-- RESEND_TIMEOUT (R359). -/
  | resendTimeout (flow : Nat) (num : BitVec 32)
  /-- LINK_DEAD (R360). -/
  | linkDead (port : Fin 8)
  /-- LINK_RETURN (R360). -/
  | linkReturn (port : Fin 8)
  /-- TIMING_PACKET (R361). -/
  | timingPacket (tick : Word) (synced : Bool)
  /-- HOST_READ (R366). -/
  | hostRead (off : BitVec 36) (len : BitVec 13)
  /-- HOST_WRITE (R366). -/
  | hostWrite (off : BitVec 36) (bytes : List Byte) (relaxed : Bool)
  /-- CCI_WRITE (R369). -/
  | cciWrite (cci : BitVec 32)
  /-- RINGCFG (R365). -/
  | ringcfg (irq : Bool) (body : List Word)
  /-- CRINGCFG (R365). -/
  | cringcfg (irq : Bool) (body : List Word)
  /-- WINCFG (R366). -/
  | wincfg (irq : Bool) (body : List Word)
  /-- DMAWCFG (R368). -/
  | dmawcfg (irq : Bool) (body : List Word)
  /-- BADCMD (R365). -/
  | badcmd (command : Word) (body : List Word)
  /-- FWLOAD (R413). -/
  | fwload (irq : Bool) (file : List Byte)
  /-- IMGLOAD (R409). -/
  | imgload (irq : Bool) (body : List Word) (index : BitVec 8) (base : BitVec 9) (room : Bool)
  /-- IMGDROP (R409). -/
  | imgdrop (irq : Bool) (body : List Word)
  /-- IMAGE_FORWARD (R410). -/
  | imageForward (source : BitVec 11) (target : BitVec 11)
  /-- POWER_UP (R413). -/
  | powerUp
  /-- READY_DEADLINE (R296). -/
  | readyDeadline (gang : BitVec 16)
  /-- HOST_MAP_TIMEOUT (R366). -/
  | hostMapTimeout
  /-- FABRIC_NAK (R359). -/
  | fabricNak (flow : Nat) (num : BitVec 32)
  /-- MODULE_RETRAIN (R355). -/
  | moduleRetrain (m : Fin 8) (full : Bool)
  /-- CONTROLLER_FAILURE (R397). -/
  | controllerFailure (vault : BitVec 15)
deriving DecidableEq, Repr

end Sys2Proof
end

