-- ==== Sys2Proof/WellFormed.lean ====
section
/-! DEFINITION. The limits that R75 and R77 to R80 put on the fields of an instruction beyond their widths. A word whose fields
break one is no instruction (R83). -/

namespace Sys2Proof

/-- A register field that names a mask register m0 to m7 (R75). -/
def maskReg (a : Reg) : Bool := decide (a.toNat < 8)

/-- A register field that names an operand-extension register ox0 to ox7 (R75). -/
def oxReg (a : Reg) : Bool := decide (a.toNat < 8)

/-- An ET that a VM form accepts: 0 to 7, 10 and 11 (R77). -/
def elementType (t : BitVec 4) : Bool := decide (t.toNat < 8) || t == 10 || t == 11

/-- A format code that VCVT accepts: 1 to 12 (R138). -/
def convertCode (f : BitVec 4) : Bool := decide (1 ≤ f.toNat) && decide (f.toNat ≤ 12)

/-- Device steps are the rows without an encoding: they come from the schedule, never from a word. -/
def Instr.isEvent : Instr → Bool
  | .illop _ => true
  | .wdog _ => true
  | .kill _ => true
  | .residencyRelease _ => true
  | .reservationClearEnd _ => true
  | .overflowChainMove _ => true
  | .dispatch => true
  | .quadRemotePerform _ => true
  | .quadUnitMerge => true
  | .mcfg => true
  | .mpack => true
  | .mmarCommand => true
  | .mzero => true
  | .mextr => true
  | .mstat => true
  | .illcmd => true
  | .slewGrant => true
  | .slewLevelStep => true
  | .sliceWorkEnd => true
  | .rslewWrite _ => true
  | .tileOpStart => true
  | .vaultBeat => true
  | .tileOpComplete => true
  | .pageMapResume _ => true
  | .actAtHead => true
  | .preAtHead => true
  | .activationEnd _ => true
  | .prechargeEnd _ => true
  | .refresh _ => true
  | .refreshEnd _ => true
  | .rowRepair _ _ => true
  | .tempSample _ => true
  | .copy _ => true
  | .restripe _ => true
  | .fill _ => true
  | .hostrd _ _ => true
  | .hostwr _ => true
  | .drain _ => true
  | .badCopyCommand _ => true
  | .copyCompletion _ => true
  | .chunkMove _ => true
  | .restripeSwitch _ => true
  | .translationWalk _ _ => true
  | .tableEntryChange _ _ _ _ => true
  | .dirtyLogMerge _ => true
  | .harvest _ => true
  | .messageEnqueue _ => true
  | .messageDepart => true
  | .signalDecrement => true
  | .signalAck _ => true
  | .scopeMissBounce => true
  | .barrierArrival _ _ _ => true
  | .agentVread _ => true
  | .agentVwrite _ => true
  | .agentVamo _ => true
  | .vfaddc _ => true
  | .vfence _ => true
  | .agentCompletion => true
  | .gangEnd _ => true
  | .batchShip _ => true
  | .batchStore _ _ _ _ => true
  | .journalAck _ _ _ => true
  | .snapTruncation _ => true
  | .egressRelease _ => true
  | .heartbeat _ => true
  | .peerLost _ => true
  | .bindingFreeze _ => true
  | .windowShip _ _ _ => true
  | .windowAck _ _ => true
  | .replay _ _ _ _ _ => true
  | .snapcfg _ _ => true
  | .snapshotCut _ => true
  | .pageCopy _ _ => true
  | .shingleDrain => true
  | .shingleAck _ _ => true
  | .drainWalk _ _ => true
  | .snapshotSeal _ => true
  | .scanVisit _ => true
  | .scanEnd _ _ => true
  | .spareRemap _ _ => true
  | .ringNotify _ _ _ => true
  | .placeAndStart _ _ => true
  | .placeOnly _ _ => true
  | .start _ => true
  | .cancel _ => true
  | .sealReread _ => true
  | .launchForward _ _ _ => true
  | .readyReport _ _ _ => true
  | .commit _ => true
  | .launchAbort _ => true
  | .selfAbort _ => true
  | .armedStart _ => true
  | .launchReconsider _ => true
  | .saveStart _ _ _ => true
  | .saveUnitAck _ => true
  | .saveFault _ => true
  | .saveResume _ => true
  | .saveAbandon _ => true
  | .restore _ _ _ => true
  | .gate _ => true
  | .wake _ => true
  | .gateFall _ => true
  | .wakeAdmit => true
  | .wakeComplete _ => true
  | .controlWrite _ _ => true
  | .flitReceive _ _ _ _ => true
  | .nakReceive _ _ => true
  | .flitAck _ _ => true
  | .laneFailure _ _ => true
  | .retrainEnd _ => true
  | .moduleDead _ _ => true
  | .sidebandTimeout _ => true
  | .fabricPacket _ _ _ => true
  | .fabricAck _ _ => true
  | .gapTimeout _ => true
  | .resendTimeout _ _ => true
  | .linkDead _ => true
  | .linkReturn _ => true
  | .timingPacket _ _ => true
  | .hostRead _ _ => true
  | .hostWrite _ _ _ => true
  | .cciWrite _ => true
  | .ringcfg _ _ => true
  | .cringcfg _ _ => true
  | .wincfg _ _ => true
  | .dmawcfg _ _ => true
  | .badcmd _ _ => true
  | .fwload _ _ => true
  | .imgload _ _ _ _ _ => true
  | .imgdrop _ _ => true
  | .imageForward _ _ => true
  | .powerUp => true
  | .readyDeadline _ => true
  | .hostMapTimeout => true
  | .fabricNak _ _ => true
  | .moduleRetrain _ _ => true
  | .controllerFailure _ => true
  | .add _ _ _ => false
  | .sub _ _ _ => false
  | .and _ _ _ => false
  | .or _ _ _ => false
  | .xor _ _ _ => false
  | .sll _ _ _ => false
  | .srl _ _ _ => false
  | .sra _ _ _ => false
  | .slt _ _ _ => false
  | .sltz _ _ _ => false
  | .min _ _ _ => false
  | .max _ _ _ => false
  | .minz _ _ _ => false
  | .maxz _ _ _ => false
  | .addw _ _ _ => false
  | .subw _ _ _ => false
  | .sllw _ _ _ => false
  | .srlw _ _ _ => false
  | .sraw _ _ _ => false
  | .clz _ _ => false
  | .ctz _ _ => false
  | .cnt _ _ => false
  | .andn _ _ _ => false
  | .orn _ _ _ => false
  | .mul _ _ _ => false
  | .mulh _ _ _ => false
  | .mulhz _ _ _ => false
  | .mulw _ _ _ => false
  | .div _ _ _ => false
  | .divz _ _ _ => false
  | .rem _ _ _ => false
  | .remz _ _ _ => false
  | .divw _ _ _ => false
  | .divzw _ _ _ => false
  | .remw _ _ _ => false
  | .remzw _ _ _ => false
  | .addi _ _ _ => false
  | .addiw _ _ _ => false
  | .andi _ _ _ => false
  | .ori _ _ _ => false
  | .xori _ _ _ => false
  | .slti _ _ _ => false
  | .sltiz _ _ _ => false
  | .slli _ _ _ => false
  | .srli _ _ _ => false
  | .srai _ _ _ => false
  | .slliw _ _ _ => false
  | .srliw _ _ _ => false
  | .sraiw _ _ _ => false
  | .lui _ _ => false
  | .auipc _ _ => false
  | .beq _ _ _ => false
  | .bne _ _ _ => false
  | .blt _ _ _ => false
  | .bge _ _ _ => false
  | .blo _ _ _ => false
  | .bhs _ _ _ => false
  | .jal _ _ => false
  | .jalr _ _ _ => false
  | .loop _ _ => false
  | .loopImm _ _ => false
  | .lit _ _ => false
  | .lb _ _ _ => false
  | .lh _ _ _ => false
  | .lw _ _ _ => false
  | .ld _ _ _ => false
  | .lbz _ _ _ => false
  | .lhz _ _ _ => false
  | .lwz _ _ _ => false
  | .sb _ _ _ => false
  | .sh _ _ _ => false
  | .sw _ _ _ => false
  | .sd _ _ _ => false
  | .lqw _ _ _ => false
  | .lqd _ _ _ => false
  | .sqw _ _ _ => false
  | .sqd _ _ _ => false
  | .amoadd _ _ _ => false
  | .amoaddw _ _ _ => false
  | .amoswap _ _ _ => false
  | .amoswapw _ _ _ => false
  | .amocas _ _ _ => false
  | .amocasw _ _ _ => false
  | .amoand _ _ _ => false
  | .amoandw _ _ _ => false
  | .amoor _ _ _ => false
  | .amoorw _ _ _ => false
  | .amoxor _ _ _ => false
  | .amoxorw _ _ _ => false
  | .amomin _ _ _ => false
  | .amominw _ _ _ => false
  | .amomax _ _ _ => false
  | .amomaxw _ _ _ => false
  | .amominz _ _ _ => false
  | .amominzw _ _ _ => false
  | .amomaxz _ _ _ => false
  | .amomaxzw _ _ _ => false
  | .vld _ _ _ _ _ => false
  | .vlds _ _ _ _ _ => false
  | .vldx _ _ _ _ _ => false
  | .vst _ _ _ _ _ => false
  | .vsts _ _ _ _ _ => false
  | .vstx _ _ _ _ _ => false
  | .vadd _ _ _ _ _ => false
  | .vsub _ _ _ _ _ => false
  | .vmul _ _ _ _ _ => false
  | .vmulh _ _ _ _ _ => false
  | .vand _ _ _ _ _ => false
  | .vor _ _ _ _ _ => false
  | .vxor _ _ _ _ _ => false
  | .vsll _ _ _ _ _ => false
  | .vsrl _ _ _ _ _ => false
  | .vsra _ _ _ _ _ => false
  | .vmin _ _ _ _ _ => false
  | .vmax _ _ _ _ _ => false
  | .vminz _ _ _ _ _ => false
  | .vmaxz _ _ _ _ _ => false
  | .vabs _ _ _ _ => false
  | .vceq _ _ _ _ _ => false
  | .vclt _ _ _ _ _ => false
  | .vclo _ _ _ _ _ => false
  | .vsel _ _ _ _ => false
  | .vsat _ _ _ _ _ => false
  | .vfadd _ _ _ _ => false
  | .vfsub _ _ _ _ => false
  | .vfmul _ _ _ _ => false
  | .vfma _ _ _ _ => false
  | .vfms _ _ _ _ => false
  | .vfmin _ _ _ _ => false
  | .vfmax _ _ _ _ => false
  | .vfabs _ _ _ => false
  | .vfneg _ _ _ => false
  | .vfceq _ _ _ _ => false
  | .vfclt _ _ _ _ => false
  | .vfcle _ _ _ _ => false
  | .vfrcp _ _ _ => false
  | .vfrsq _ _ _ => false
  | .vfexp _ _ _ => false
  | .vshuf _ _ _ _ _ => false
  | .vbcast _ _ _ _ => false
  | .vmvx _ _ _ _ => false
  | .vslide _ _ _ _ _ => false
  | .vzip _ _ _ _ _ => false
  | .vuzp _ _ _ _ _ => false
  | .vreds _ _ _ _ => false
  | .vredm _ _ _ _ => false
  | .vfreds _ _ _ => false
  | .vfredm _ _ _ => false
  | .vcvt _ _ _ _ => false
  | .mand _ _ _ => false
  | .mor _ _ _ => false
  | .mxor _ _ _ => false
  | .mnot _ _ => false
  | .mpop _ _ => false
  | .mset _ _ => false
  | .guard _ => false
  | .join _ => false
  | .qjoin => false
  | .qleave => false
  | .accz _ _ => false
  | .packx _ => false
  | .packy _ => false
  | .packxf _ => false
  | .packyf _ => false
  | .packk _ => false
  | .muls _ _ => false
  | .mulj _ _ => false
  | .mmar _ => false
  | .extr _ _ _ _ => false
  | .extrf _ _ _ _ => false
  | .accrd _ _ _ => false
  | .accwr _ _ _ => false
  | .accmv _ _ => false
  | .tld _ _ => false
  | .tst _ _ => false
  | .tlds _ _ => false
  | .act _ _ => false
  | .pre _ _ => false
  | .rowq _ _ => false
  | .twait _ _ => false
  | .tchk _ _ => false
  | .cpy _ => false
  | .cpygo => false
  | .cpyq _ => false
  | .send _ _ _ _ _ => false
  | .sendl _ _ _ _ => false
  | .reply _ _ => false
  | .msgx _ _ _ => false
  | .vread _ _ _ => false
  | .vwrite _ _ _ => false
  | .vamo _ _ _ _ => false
  | .tnew _ _ => false
  | .tdec _ _ => false
  | .tarm _ => false
  | .fence _ => false
  | .signal _ _ _ => false
  | .bar _ _ => false
  | .oxl _ _ => false
  | .oxs _ _ => false
  | .oxc _ _ _ => false
  | .srd _ _ => false
  | .swr _ _ _ => false
  | .sset _ _ _ => false
  | .sclr _ _ _ => false
  | .tret => false
  | .tabort _ => false
  | .tspill => false
  | .tfill => false
  | .brk _ => false
  | .svc _ => false
  | .endStream => false
  | .nop => false
  | .qmap _ => false
  | .jrec _ _ => false
  | .jseal _ => false
  | .emit _ _ => false
  | .rngb _ _ => false
  | .cMv _ _ => false
  | .cAddi _ _ => false
  | .cLi _ _ => false
  | .cAdd _ _ => false
  | .cSub _ _ => false
  | .cAnd _ _ => false
  | .cSlli _ _ => false
  | .cSrli _ _ => false
  | .cLw _ _ => false
  | .cSw _ _ => false
  | .cBeq _ _ => false
  | .cBne _ _ => false
  | .cJ _ => false
  | .cEnd => false
  | .cNop => false

/-- The field limits of each encoded instruction; a device step has none and is never encoded. -/
def Instr.wellFormed : Instr → Bool
  | .add _ _ _ => true
  | .sub _ _ _ => true
  | .and _ _ _ => true
  | .or _ _ _ => true
  | .xor _ _ _ => true
  | .sll _ _ _ => true
  | .srl _ _ _ => true
  | .sra _ _ _ => true
  | .slt _ _ _ => true
  | .sltz _ _ _ => true
  | .min _ _ _ => true
  | .max _ _ _ => true
  | .minz _ _ _ => true
  | .maxz _ _ _ => true
  | .addw _ _ _ => true
  | .subw _ _ _ => true
  | .sllw _ _ _ => true
  | .srlw _ _ _ => true
  | .sraw _ _ _ => true
  | .clz _ _ => true
  | .ctz _ _ => true
  | .cnt _ _ => true
  | .andn _ _ _ => true
  | .orn _ _ _ => true
  | .mul _ _ _ => true
  | .mulh _ _ _ => true
  | .mulhz _ _ _ => true
  | .mulw _ _ _ => true
  | .div _ _ _ => true
  | .divz _ _ _ => true
  | .rem _ _ _ => true
  | .remz _ _ _ => true
  | .divw _ _ _ => true
  | .divzw _ _ _ => true
  | .remw _ _ _ => true
  | .remzw _ _ _ => true
  | .addi _ _ _ => true
  | .addiw _ _ _ => true
  | .andi _ _ _ => true
  | .ori _ _ _ => true
  | .xori _ _ _ => true
  | .slti _ _ _ => true
  | .sltiz _ _ _ => true
  | .slli _ _ _ => true
  | .srli _ _ _ => true
  | .srai _ _ _ => true
  | .slliw _ n _ => decide (n.toNat < 32)
  | .srliw _ n _ => decide (n.toNat < 32)
  | .sraiw _ n _ => decide (n.toNat < 32)
  | .lui _ _ => true
  | .auipc _ _ => true
  | .beq _ _ _ => true
  | .bne _ _ _ => true
  | .blt _ _ _ => true
  | .bge _ _ _ => true
  | .blo _ _ _ => true
  | .bhs _ _ _ => true
  | .jal _ _ => true
  | .jalr _ _ _ => true
  | .loop a L => a != 0 && L != 0
  | .loopImm _ L => L != 0
  | .lit _ _ => true
  | .lb _ _ _ => true
  | .lh _ _ _ => true
  | .lw _ _ _ => true
  | .ld _ _ _ => true
  | .lbz _ _ _ => true
  | .lhz _ _ _ => true
  | .lwz _ _ _ => true
  | .sb _ _ _ => true
  | .sh _ _ _ => true
  | .sw _ _ _ => true
  | .sd _ _ _ => true
  | .lqw _ _ _ => true
  | .lqd _ _ _ => true
  | .sqw _ _ _ => true
  | .sqd _ _ _ => true
  | .amoadd _ _ _ => true
  | .amoaddw _ _ _ => true
  | .amoswap _ _ _ => true
  | .amoswapw _ _ _ => true
  | .amocas _ _ _ => true
  | .amocasw _ _ _ => true
  | .amoand _ _ _ => true
  | .amoandw _ _ _ => true
  | .amoor _ _ _ => true
  | .amoorw _ _ _ => true
  | .amoxor _ _ _ => true
  | .amoxorw _ _ _ => true
  | .amomin _ _ _ => true
  | .amominw _ _ _ => true
  | .amomax _ _ _ => true
  | .amomaxw _ _ _ => true
  | .amominz _ _ _ => true
  | .amominzw _ _ _ => true
  | .amomaxz _ _ _ => true
  | .amomaxzw _ _ _ => true
  | .vld _ _ _ t _ => elementType t
  | .vlds _ _ _ t _ => elementType t
  | .vldx _ _ _ t _ => elementType t
  | .vst _ _ _ t _ => elementType t
  | .vsts _ _ _ t _ => elementType t
  | .vstx _ _ _ t _ => elementType t
  | .vadd _ _ _ _ _ => true
  | .vsub _ _ _ _ _ => true
  | .vmul _ _ _ _ _ => true
  | .vmulh _ _ _ _ _ => true
  | .vand _ _ _ _ _ => true
  | .vor _ _ _ _ _ => true
  | .vxor _ _ _ _ _ => true
  | .vsll _ _ _ _ _ => true
  | .vsrl _ _ _ _ _ => true
  | .vsra _ _ _ _ _ => true
  | .vmin _ _ _ _ _ => true
  | .vmax _ _ _ _ _ => true
  | .vminz _ _ _ _ _ => true
  | .vmaxz _ _ _ _ _ => true
  | .vabs _ _ _ _ => true
  | .vceq a _ _ _ _ => maskReg a
  | .vclt a _ _ _ _ => maskReg a
  | .vclo a _ _ _ _ => maskReg a
  | .vsel _ _ _ _ => true
  | .vsat _ _ k w _ => k != 0 && decide (k.toNat < 8 * 2 ^ w.toNat)
  | .vfadd _ _ _ _ => true
  | .vfsub _ _ _ _ => true
  | .vfmul _ _ _ _ => true
  | .vfma _ _ _ _ => true
  | .vfms _ _ _ _ => true
  | .vfmin _ _ _ _ => true
  | .vfmax _ _ _ _ => true
  | .vfabs _ _ _ => true
  | .vfneg _ _ _ => true
  | .vfceq a _ _ _ => maskReg a
  | .vfclt a _ _ _ => maskReg a
  | .vfcle a _ _ _ => maskReg a
  | .vfrcp _ _ _ => true
  | .vfrsq _ _ _ => true
  | .vfexp _ _ _ => true
  | .vshuf _ _ _ _ _ => true
  | .vbcast _ _ _ _ => true
  | .vmvx _ _ _ _ => true
  | .vslide _ _ _ _ _ => true
  | .vzip _ _ _ _ _ => true
  | .vuzp _ _ _ _ _ => true
  | .vreds _ _ _ _ => true
  | .vredm _ _ _ _ => true
  | .vfreds _ _ _ => true
  | .vfredm _ _ _ => true
  | .vcvt _ d s _ => convertCode d && convertCode s
  | .mand a b c => maskReg a && maskReg b && maskReg c
  | .mor a b c => maskReg a && maskReg b && maskReg c
  | .mxor a b c => maskReg a && maskReg b && maskReg c
  | .mnot a b => maskReg a && maskReg b
  | .mpop _ b => maskReg b
  | .mset a _ => maskReg a
  | .guard _ => true
  | .join _ => true
  | .qjoin => true
  | .qleave => true
  | .accz n k => decide (n.toNat % 32 + k.toNat ≤ 31)
  | .packx b => oxReg b
  | .packy b => oxReg b
  | .packxf b => oxReg b
  | .packyf b => oxReg b
  | .packk b => oxReg b
  | .muls _ _ => true
  | .mulj _ _ => true
  | .mmar b => oxReg b
  | .extr _ _ _ _ => true
  | .extrf _ _ _ _ => true
  | .accrd _ _ _ => true
  | .accwr _ _ _ => true
  | .accmv _ _ => true
  | .tld _ b => oxReg b
  | .tst _ b => oxReg b
  | .tlds _ b => oxReg b
  | .act _ _ => true
  | .pre _ _ => true
  | .rowq _ _ => true
  | .twait _ _ => true
  | .tchk _ _ => true
  | .cpy _ => true
  | .cpygo => true
  | .cpyq _ => true
  | .send _ _ _ v _ => v != 3
  | .sendl _ b v _ => oxReg b && v != 3
  | .reply _ _ => true
  | .msgx _ _ v => v != 3
  | .vread _ _ _ => true
  | .vwrite _ _ _ => true
  | .vamo _ _ _ _ => true
  | .tnew _ c => oxReg c
  | .tdec _ _ => true
  | .tarm _ => true
  | .fence s => decide (s.toNat ≤ 4)
  | .signal s _ _ => decide (s.toNat ≤ 4)
  | .bar s _ => decide (s.toNat ≤ 4)
  | .oxl a _ => oxReg a
  | .oxs a _ => oxReg a
  | .oxc a _ c => oxReg a && decide (c.toNat < 10)
  | .srd _ _ => true
  | .swr _ _ _ => true
  | .sset _ _ _ => true
  | .sclr _ _ _ => true
  | .tret => true
  | .tabort _ => true
  | .tspill => true
  | .tfill => true
  | .brk _ => true
  | .svc _ => true
  | .endStream => true
  | .nop => true
  | .qmap _ => true
  | .jrec _ b => oxReg b
  | .jseal _ => true
  | .emit b _ => oxReg b
  | .rngb _ b => oxReg b && b.toNat % 2 == 0
  | .cMv _ _ => true
  | .cAddi _ _ => true
  | .cLi _ _ => true
  | .cAdd _ _ => true
  | .cSub _ _ => true
  | .cAnd _ _ => true
  | .cSlli _ _ => true
  | .cSrli _ _ => true
  | .cLw _ _ => true
  | .cSw _ _ => true
  | .cBeq _ _ => true
  | .cBne _ _ => true
  | .cJ _ => true
  | .cEnd => true
  | .cNop => true
  | .illop _ => true
  | .wdog _ => true
  | .kill _ => true
  | .residencyRelease _ => true
  | .reservationClearEnd _ => true
  | .overflowChainMove _ => true
  | .dispatch => true
  | .quadRemotePerform _ => true
  | .quadUnitMerge => true
  | .mcfg => true
  | .mpack => true
  | .mmarCommand => true
  | .mzero => true
  | .mextr => true
  | .mstat => true
  | .illcmd => true
  | .slewGrant => true
  | .slewLevelStep => true
  | .sliceWorkEnd => true
  | .rslewWrite _ => true
  | .tileOpStart => true
  | .vaultBeat => true
  | .tileOpComplete => true
  | .pageMapResume _ => true
  | .actAtHead => true
  | .preAtHead => true
  | .activationEnd _ => true
  | .prechargeEnd _ => true
  | .refresh _ => true
  | .refreshEnd _ => true
  | .rowRepair _ _ => true
  | .tempSample _ => true
  | .copy _ => true
  | .restripe _ => true
  | .fill _ => true
  | .hostrd _ _ => true
  | .hostwr _ => true
  | .drain _ => true
  | .badCopyCommand _ => true
  | .copyCompletion _ => true
  | .chunkMove _ => true
  | .restripeSwitch _ => true
  | .translationWalk _ _ => true
  | .tableEntryChange _ _ _ _ => true
  | .dirtyLogMerge _ => true
  | .harvest _ => true
  | .messageEnqueue _ => true
  | .messageDepart => true
  | .signalDecrement => true
  | .signalAck _ => true
  | .scopeMissBounce => true
  | .barrierArrival _ _ _ => true
  | .agentVread _ => true
  | .agentVwrite _ => true
  | .agentVamo _ => true
  | .vfaddc _ => true
  | .vfence _ => true
  | .agentCompletion => true
  | .gangEnd _ => true
  | .batchShip _ => true
  | .batchStore _ _ _ _ => true
  | .journalAck _ _ _ => true
  | .snapTruncation _ => true
  | .egressRelease _ => true
  | .heartbeat _ => true
  | .peerLost _ => true
  | .bindingFreeze _ => true
  | .windowShip _ _ _ => true
  | .windowAck _ _ => true
  | .replay _ _ _ _ _ => true
  | .snapcfg _ _ => true
  | .snapshotCut _ => true
  | .pageCopy _ _ => true
  | .shingleDrain => true
  | .shingleAck _ _ => true
  | .drainWalk _ _ => true
  | .snapshotSeal _ => true
  | .scanVisit _ => true
  | .scanEnd _ _ => true
  | .spareRemap _ _ => true
  | .ringNotify _ _ _ => true
  | .placeAndStart _ _ => true
  | .placeOnly _ _ => true
  | .start _ => true
  | .cancel _ => true
  | .sealReread _ => true
  | .launchForward _ _ _ => true
  | .readyReport _ _ _ => true
  | .commit _ => true
  | .launchAbort _ => true
  | .selfAbort _ => true
  | .armedStart _ => true
  | .launchReconsider _ => true
  | .saveStart _ _ _ => true
  | .saveUnitAck _ => true
  | .saveFault _ => true
  | .saveResume _ => true
  | .saveAbandon _ => true
  | .restore _ _ _ => true
  | .gate _ => true
  | .wake _ => true
  | .gateFall _ => true
  | .wakeAdmit => true
  | .wakeComplete _ => true
  | .controlWrite _ _ => true
  | .flitReceive _ _ _ _ => true
  | .nakReceive _ _ => true
  | .flitAck _ _ => true
  | .laneFailure _ _ => true
  | .retrainEnd _ => true
  | .moduleDead _ _ => true
  | .sidebandTimeout _ => true
  | .fabricPacket _ _ _ => true
  | .fabricAck _ _ => true
  | .gapTimeout _ => true
  | .resendTimeout _ _ => true
  | .linkDead _ => true
  | .linkReturn _ => true
  | .timingPacket _ _ => true
  | .hostRead _ _ => true
  | .hostWrite _ _ _ => true
  | .cciWrite _ => true
  | .ringcfg _ _ => true
  | .cringcfg _ _ => true
  | .wincfg _ _ => true
  | .dmawcfg _ _ => true
  | .badcmd _ _ => true
  | .fwload _ _ => true
  | .imgload _ _ _ _ _ => true
  | .imgdrop _ _ => true
  | .imageForward _ _ => true
  | .powerUp => true
  | .readyDeadline _ => true
  | .hostMapTimeout => true
  | .fabricNak _ _ => true
  | .moduleRetrain _ _ => true
  | .controllerFailure _ => true

end Sys2Proof
end

