-- ==== Sys2Proof/Decode.lean ====
section
/-! DEFINITION. Instruction words (R72 to R82): the decoder, total on any bytes and rejecting by name, and the encoder. Both are
written from the encoding tables of the spec's opcode map (R76 to R82). Words are numbers: bit 0 is bit 0 of the first
halfword, and a 32-bit instruction's second halfword holds bits 31 to 16 (R72). -/

namespace Sys2Proof

/-- Why a bit pattern is no instruction (R83). -/
inductive DecodeError where
  /-- Fewer bytes than the instruction needs. -/
  | tooShort
  /-- An op from 0x2D to 0x3F, or the compact op 0. -/
  | reservedOp
  /-- A function, condition or kind value beyond those listed, or a nonzero field that must be zero. -/
  | noSuchFunction
  /-- A register, scope or selector value outside its class or limits. -/
  | outsideLimits
deriving DecidableEq, Repr

/-- Bits lo + n − 1 down to lo of w, as a number (R6). -/
def bits (w lo n : Nat) : Nat := w / 2 ^ lo % 2 ^ n

/-- Bits lo + n − 1 down to lo of w, as a field. -/
def field (w lo n : Nat) : BitVec n := BitVec.ofNat n (w / 2 ^ lo)

/-- An accumulator number: bit 5 at hi, bits 4 to 0 at lo (R75). -/
def accField (w hi lo : Nat) : AccNum := BitVec.ofNat 6 (bits w lo 5 + 32 * bits w hi 1)

/-- Bits 4 to 0 of an accumulator number. -/
def accLow (n : AccNum) : Nat := n.toNat % 32

/-- Bit 5 of an accumulator number: the slice. -/
def accHigh (n : AccNum) : Nat := n.toNat / 32

/-- Words of op 0x00: ADD, SUB, AND, OR, XOR, SLL, SRL, SRA, SLT, SLTZ, MIN, MAX, MINZ, MAXZ, ADDW, SUBW, SLLW, SRLW, SRAW, CLZ, CTZ, CNT, ANDN, ORN. -/
def decodeOp00 (w : Nat) : Option Instr :=
  if bits w 22 10 = 0 then some (.add (field w 7 5) (field w 12 5) (field w 17 5))
  else if bits w 22 10 = 1 then some (.sub (field w 7 5) (field w 12 5) (field w 17 5))
  else if bits w 22 10 = 2 then some (.and (field w 7 5) (field w 12 5) (field w 17 5))
  else if bits w 22 10 = 3 then some (.or (field w 7 5) (field w 12 5) (field w 17 5))
  else if bits w 22 10 = 4 then some (.xor (field w 7 5) (field w 12 5) (field w 17 5))
  else if bits w 22 10 = 5 then some (.sll (field w 7 5) (field w 12 5) (field w 17 5))
  else if bits w 22 10 = 6 then some (.srl (field w 7 5) (field w 12 5) (field w 17 5))
  else if bits w 22 10 = 7 then some (.sra (field w 7 5) (field w 12 5) (field w 17 5))
  else if bits w 22 10 = 8 then some (.slt (field w 7 5) (field w 12 5) (field w 17 5))
  else if bits w 22 10 = 9 then some (.sltz (field w 7 5) (field w 12 5) (field w 17 5))
  else if bits w 22 10 = 10 then some (.min (field w 7 5) (field w 12 5) (field w 17 5))
  else if bits w 22 10 = 11 then some (.max (field w 7 5) (field w 12 5) (field w 17 5))
  else if bits w 22 10 = 12 then some (.minz (field w 7 5) (field w 12 5) (field w 17 5))
  else if bits w 22 10 = 13 then some (.maxz (field w 7 5) (field w 12 5) (field w 17 5))
  else if bits w 22 10 = 14 then some (.addw (field w 7 5) (field w 12 5) (field w 17 5))
  else if bits w 22 10 = 15 then some (.subw (field w 7 5) (field w 12 5) (field w 17 5))
  else if bits w 22 10 = 16 then some (.sllw (field w 7 5) (field w 12 5) (field w 17 5))
  else if bits w 22 10 = 17 then some (.srlw (field w 7 5) (field w 12 5) (field w 17 5))
  else if bits w 22 10 = 18 then some (.sraw (field w 7 5) (field w 12 5) (field w 17 5))
  else if bits w 17 15 = 608 then some (.clz (field w 7 5) (field w 12 5))
  else if bits w 17 15 = 640 then some (.ctz (field w 7 5) (field w 12 5))
  else if bits w 17 15 = 672 then some (.cnt (field w 7 5) (field w 12 5))
  else if bits w 22 10 = 22 then some (.andn (field w 7 5) (field w 12 5) (field w 17 5))
  else if bits w 22 10 = 23 then some (.orn (field w 7 5) (field w 12 5) (field w 17 5))
  else none

/-- Words of op 0x01: MUL, MULH, MULHZ, MULW, DIV, DIVZ, REM, REMZ, DIVW, DIVZW, REMW, REMZW. -/
def decodeOp01 (w : Nat) : Option Instr :=
  if bits w 22 10 = 0 then some (.mul (field w 7 5) (field w 12 5) (field w 17 5))
  else if bits w 22 10 = 1 then some (.mulh (field w 7 5) (field w 12 5) (field w 17 5))
  else if bits w 22 10 = 2 then some (.mulhz (field w 7 5) (field w 12 5) (field w 17 5))
  else if bits w 22 10 = 3 then some (.mulw (field w 7 5) (field w 12 5) (field w 17 5))
  else if bits w 22 10 = 4 then some (.div (field w 7 5) (field w 12 5) (field w 17 5))
  else if bits w 22 10 = 5 then some (.divz (field w 7 5) (field w 12 5) (field w 17 5))
  else if bits w 22 10 = 6 then some (.rem (field w 7 5) (field w 12 5) (field w 17 5))
  else if bits w 22 10 = 7 then some (.remz (field w 7 5) (field w 12 5) (field w 17 5))
  else if bits w 22 10 = 8 then some (.divw (field w 7 5) (field w 12 5) (field w 17 5))
  else if bits w 22 10 = 9 then some (.divzw (field w 7 5) (field w 12 5) (field w 17 5))
  else if bits w 22 10 = 10 then some (.remw (field w 7 5) (field w 12 5) (field w 17 5))
  else if bits w 22 10 = 11 then some (.remzw (field w 7 5) (field w 12 5) (field w 17 5))
  else none

/-- Words of op 0x02: ADDI. -/
def decodeOp02 (w : Nat) : Option Instr :=
  some (.addi (field w 7 5) (field w 12 5) (field w 17 15))

/-- Words of op 0x03: ADDIW. -/
def decodeOp03 (w : Nat) : Option Instr :=
  some (.addiw (field w 7 5) (field w 12 5) (field w 17 15))

/-- Words of op 0x04: ANDI. -/
def decodeOp04 (w : Nat) : Option Instr :=
  some (.andi (field w 7 5) (field w 12 5) (field w 17 15))

/-- Words of op 0x05: ORI. -/
def decodeOp05 (w : Nat) : Option Instr :=
  some (.ori (field w 7 5) (field w 12 5) (field w 17 15))

/-- Words of op 0x06: XORI. -/
def decodeOp06 (w : Nat) : Option Instr :=
  some (.xori (field w 7 5) (field w 12 5) (field w 17 15))

/-- Words of op 0x07: SLTI. -/
def decodeOp07 (w : Nat) : Option Instr :=
  some (.slti (field w 7 5) (field w 12 5) (field w 17 15))

/-- Words of op 0x08: SLTIZ. -/
def decodeOp08 (w : Nat) : Option Instr :=
  some (.sltiz (field w 7 5) (field w 12 5) (field w 17 15))

/-- Words of op 0x09: SLLI, SRLI, SRAI, SLLIW, SRLIW, SRAIW. -/
def decodeOp09 (w : Nat) : Option Instr :=
  if bits w 23 9 = 0 then some (.slli (field w 7 5) (field w 17 6) (field w 12 5))
  else if bits w 23 9 = 64 then some (.srli (field w 7 5) (field w 17 6) (field w 12 5))
  else if bits w 23 9 = 128 then some (.srai (field w 7 5) (field w 17 6) (field w 12 5))
  else if bits w 23 9 = 192 then some (.slliw (field w 7 5) (field w 17 6) (field w 12 5))
  else if bits w 23 9 = 256 then some (.srliw (field w 7 5) (field w 17 6) (field w 12 5))
  else if bits w 23 9 = 320 then some (.sraiw (field w 7 5) (field w 17 6) (field w 12 5))
  else none

/-- Words of op 0x0A: LUI. -/
def decodeOp0A (w : Nat) : Option Instr :=
  some (.lui (field w 7 5) (field w 12 20))

/-- Words of op 0x0B: AUIPC. -/
def decodeOp0B (w : Nat) : Option Instr :=
  some (.auipc (field w 7 5) (field w 12 20))

/-- Words of op 0x0C: BEQ, BNE, BLT, BGE, BLO, BHS. -/
def decodeOp0C (w : Nat) : Option Instr :=
  if bits w 17 3 = 0 then some (.beq (field w 7 5) (field w 12 5) (field w 20 12))
  else if bits w 17 3 = 1 then some (.bne (field w 7 5) (field w 12 5) (field w 20 12))
  else if bits w 17 3 = 2 then some (.blt (field w 7 5) (field w 12 5) (field w 20 12))
  else if bits w 17 3 = 3 then some (.bge (field w 7 5) (field w 12 5) (field w 20 12))
  else if bits w 17 3 = 4 then some (.blo (field w 7 5) (field w 12 5) (field w 20 12))
  else if bits w 17 3 = 5 then some (.bhs (field w 7 5) (field w 12 5) (field w 20 12))
  else none

/-- Words of op 0x0D: JAL. -/
def decodeOp0D (w : Nat) : Option Instr :=
  some (.jal (field w 7 5) (field w 12 20))

/-- Words of op 0x0E: JALR. -/
def decodeOp0E (w : Nat) : Option Instr :=
  some (.jalr (field w 7 5) (field w 12 5) (field w 17 15))

/-- Words of op 0x0F: LOOP, LOOP_IMM. -/
def decodeOp0F (w : Nat) : Option Instr :=
  if bits w 22 10 = 0 ∧ bits w 7 5 ≠ 0 then some (.loop (field w 7 5) (field w 12 10))
  else if bits w 7 5 = 0 then some (.loopImm (field w 22 10) (field w 12 10))
  else none

/-- Words of op 0x10: LB, LH, LW, LD, LBZ, LHZ, LWZ. -/
def decodeOp10 (w : Nat) : Option Instr :=
  if bits w 17 3 = 0 then some (.lb (field w 7 5) (field w 12 5) (field w 20 12))
  else if bits w 17 3 = 1 then some (.lh (field w 7 5) (field w 12 5) (field w 20 12))
  else if bits w 17 3 = 2 then some (.lw (field w 7 5) (field w 12 5) (field w 20 12))
  else if bits w 17 3 = 3 then some (.ld (field w 7 5) (field w 12 5) (field w 20 12))
  else if bits w 17 3 = 4 then some (.lbz (field w 7 5) (field w 12 5) (field w 20 12))
  else if bits w 17 3 = 5 then some (.lhz (field w 7 5) (field w 12 5) (field w 20 12))
  else if bits w 17 3 = 6 then some (.lwz (field w 7 5) (field w 12 5) (field w 20 12))
  else none

/-- Words of op 0x11: SB, SH, SW, SD. -/
def decodeOp11 (w : Nat) : Option Instr :=
  if bits w 17 3 = 0 then some (.sb (field w 7 5) (field w 12 5) (field w 20 12))
  else if bits w 17 3 = 1 then some (.sh (field w 7 5) (field w 12 5) (field w 20 12))
  else if bits w 17 3 = 2 then some (.sw (field w 7 5) (field w 12 5) (field w 20 12))
  else if bits w 17 3 = 3 then some (.sd (field w 7 5) (field w 12 5) (field w 20 12))
  else none

/-- Words of op 0x12: LQW, LQD, SQW, SQD. -/
def decodeOp12 (w : Nat) : Option Instr :=
  if bits w 22 10 = 0 then some (.lqw (field w 7 5) (field w 12 5) (field w 17 5))
  else if bits w 22 10 = 1 then some (.lqd (field w 7 5) (field w 12 5) (field w 17 5))
  else if bits w 22 10 = 2 then some (.sqw (field w 7 5) (field w 12 5) (field w 17 5))
  else if bits w 22 10 = 3 then some (.sqd (field w 7 5) (field w 12 5) (field w 17 5))
  else none

/-- Words of op 0x13: AMOADD, AMOADDW, AMOSWAP, AMOSWAPW, AMOCAS, AMOCASW, AMOAND, AMOANDW, AMOOR, AMOORW, AMOXOR, AMOXORW, AMOMIN, AMOMINW, AMOMAX, AMOMAXW, AMOMINZ, AMOMINZW, AMOMAXZ, AMOMAXZW. -/
def decodeOp13 (w : Nat) : Option Instr :=
  if bits w 22 10 = 512 then some (.amoadd (field w 7 5) (field w 12 5) (field w 17 5))
  else if bits w 22 10 = 0 then some (.amoaddw (field w 7 5) (field w 12 5) (field w 17 5))
  else if bits w 22 10 = 513 then some (.amoswap (field w 7 5) (field w 12 5) (field w 17 5))
  else if bits w 22 10 = 1 then some (.amoswapw (field w 7 5) (field w 12 5) (field w 17 5))
  else if bits w 22 10 = 514 then some (.amocas (field w 7 5) (field w 12 5) (field w 17 5))
  else if bits w 22 10 = 2 then some (.amocasw (field w 7 5) (field w 12 5) (field w 17 5))
  else if bits w 22 10 = 515 then some (.amoand (field w 7 5) (field w 12 5) (field w 17 5))
  else if bits w 22 10 = 3 then some (.amoandw (field w 7 5) (field w 12 5) (field w 17 5))
  else if bits w 22 10 = 516 then some (.amoor (field w 7 5) (field w 12 5) (field w 17 5))
  else if bits w 22 10 = 4 then some (.amoorw (field w 7 5) (field w 12 5) (field w 17 5))
  else if bits w 22 10 = 517 then some (.amoxor (field w 7 5) (field w 12 5) (field w 17 5))
  else if bits w 22 10 = 5 then some (.amoxorw (field w 7 5) (field w 12 5) (field w 17 5))
  else if bits w 22 10 = 518 then some (.amomin (field w 7 5) (field w 12 5) (field w 17 5))
  else if bits w 22 10 = 6 then some (.amominw (field w 7 5) (field w 12 5) (field w 17 5))
  else if bits w 22 10 = 519 then some (.amomax (field w 7 5) (field w 12 5) (field w 17 5))
  else if bits w 22 10 = 7 then some (.amomaxw (field w 7 5) (field w 12 5) (field w 17 5))
  else if bits w 22 10 = 520 then some (.amominz (field w 7 5) (field w 12 5) (field w 17 5))
  else if bits w 22 10 = 8 then some (.amominzw (field w 7 5) (field w 12 5) (field w 17 5))
  else if bits w 22 10 = 521 then some (.amomaxz (field w 7 5) (field w 12 5) (field w 17 5))
  else if bits w 22 10 = 9 then some (.amomaxzw (field w 7 5) (field w 12 5) (field w 17 5))
  else none

/-- Words of op 0x14: LIT. -/
def decodeOp14 (w : Nat) : Option Instr :=
  some (.lit (field w 7 5) (field w 12 20))

/-- Words of op 0x15: VLD, VLDS, VLDX. -/
def decodeOp15 (w : Nat) : Option Instr :=
  if bits w 25 3 = 0 then some (.vld (field w 7 5) (field w 12 5) (field w 17 5) (field w 28 4) (field w 22 3))
  else if bits w 25 3 = 1 then some (.vlds (field w 7 5) (field w 12 5) (field w 17 5) (field w 28 4) (field w 22 3))
  else if bits w 25 3 = 2 then some (.vldx (field w 7 5) (field w 12 5) (field w 17 5) (field w 28 4) (field w 22 3))
  else none

/-- Words of op 0x16: VST, VSTS, VSTX. -/
def decodeOp16 (w : Nat) : Option Instr :=
  if bits w 25 3 = 0 then some (.vst (field w 7 5) (field w 12 5) (field w 17 5) (field w 28 4) (field w 22 3))
  else if bits w 25 3 = 1 then some (.vsts (field w 7 5) (field w 12 5) (field w 17 5) (field w 28 4) (field w 22 3))
  else if bits w 25 3 = 2 then some (.vstx (field w 7 5) (field w 12 5) (field w 17 5) (field w 28 4) (field w 22 3))
  else none

/-- Words of op 0x17: VADD, VSUB, VMUL, VMULH, VAND, VOR, VXOR, VSLL, VSRL, VSRA, VMIN, VMAX, VMINZ, VMAXZ, VABS, VCEQ, VCLT, VCLO, VSEL, VSAT. -/
def decodeOp17 (w : Nat) : Option Instr :=
  if bits w 27 5 = 0 then some (.vadd (field w 7 5) (field w 12 5) (field w 17 5) (field w 25 2) (field w 22 3))
  else if bits w 27 5 = 1 then some (.vsub (field w 7 5) (field w 12 5) (field w 17 5) (field w 25 2) (field w 22 3))
  else if bits w 27 5 = 2 then some (.vmul (field w 7 5) (field w 12 5) (field w 17 5) (field w 25 2) (field w 22 3))
  else if bits w 27 5 = 3 then some (.vmulh (field w 7 5) (field w 12 5) (field w 17 5) (field w 25 2) (field w 22 3))
  else if bits w 27 5 = 4 then some (.vand (field w 7 5) (field w 12 5) (field w 17 5) (field w 25 2) (field w 22 3))
  else if bits w 27 5 = 5 then some (.vor (field w 7 5) (field w 12 5) (field w 17 5) (field w 25 2) (field w 22 3))
  else if bits w 27 5 = 6 then some (.vxor (field w 7 5) (field w 12 5) (field w 17 5) (field w 25 2) (field w 22 3))
  else if bits w 27 5 = 7 then some (.vsll (field w 7 5) (field w 12 5) (field w 17 5) (field w 25 2) (field w 22 3))
  else if bits w 27 5 = 8 then some (.vsrl (field w 7 5) (field w 12 5) (field w 17 5) (field w 25 2) (field w 22 3))
  else if bits w 27 5 = 9 then some (.vsra (field w 7 5) (field w 12 5) (field w 17 5) (field w 25 2) (field w 22 3))
  else if bits w 27 5 = 10 then some (.vmin (field w 7 5) (field w 12 5) (field w 17 5) (field w 25 2) (field w 22 3))
  else if bits w 27 5 = 11 then some (.vmax (field w 7 5) (field w 12 5) (field w 17 5) (field w 25 2) (field w 22 3))
  else if bits w 27 5 = 12 then some (.vminz (field w 7 5) (field w 12 5) (field w 17 5) (field w 25 2) (field w 22 3))
  else if bits w 27 5 = 13 then some (.vmaxz (field w 7 5) (field w 12 5) (field w 17 5) (field w 25 2) (field w 22 3))
  else if bits w 27 5 = 14 ∧ bits w 17 5 = 0 then some (.vabs (field w 7 5) (field w 12 5) (field w 25 2) (field w 22 3))
  else if bits w 27 5 = 15 then some (.vceq (field w 7 5) (field w 12 5) (field w 17 5) (field w 25 2) (field w 22 3))
  else if bits w 27 5 = 16 then some (.vclt (field w 7 5) (field w 12 5) (field w 17 5) (field w 25 2) (field w 22 3))
  else if bits w 27 5 = 17 then some (.vclo (field w 7 5) (field w 12 5) (field w 17 5) (field w 25 2) (field w 22 3))
  else if bits w 25 7 = 74 then some (.vsel (field w 7 5) (field w 12 5) (field w 17 5) (field w 22 3))
  else if bits w 27 5 = 19 then some (.vsat (field w 7 5) (field w 12 5) (field w 17 5) (field w 25 2) (field w 22 3))
  else none

/-- Words of op 0x18: VFADD, VFSUB, VFMUL, VFMA, VFMS, VFMIN, VFMAX, VFABS, VFNEG, VFCEQ, VFCLT, VFCLE, VFRCP, VFRSQ, VFEXP. -/
def decodeOp18 (w : Nat) : Option Instr :=
  if bits w 25 7 = 0 then some (.vfadd (field w 7 5) (field w 12 5) (field w 17 5) (field w 22 3))
  else if bits w 25 7 = 1 then some (.vfsub (field w 7 5) (field w 12 5) (field w 17 5) (field w 22 3))
  else if bits w 25 7 = 2 then some (.vfmul (field w 7 5) (field w 12 5) (field w 17 5) (field w 22 3))
  else if bits w 25 7 = 3 then some (.vfma (field w 7 5) (field w 12 5) (field w 17 5) (field w 22 3))
  else if bits w 25 7 = 4 then some (.vfms (field w 7 5) (field w 12 5) (field w 17 5) (field w 22 3))
  else if bits w 25 7 = 5 then some (.vfmin (field w 7 5) (field w 12 5) (field w 17 5) (field w 22 3))
  else if bits w 25 7 = 6 then some (.vfmax (field w 7 5) (field w 12 5) (field w 17 5) (field w 22 3))
  else if bits w 25 7 = 7 ∧ bits w 17 5 = 0 then some (.vfabs (field w 7 5) (field w 12 5) (field w 22 3))
  else if bits w 25 7 = 8 ∧ bits w 17 5 = 0 then some (.vfneg (field w 7 5) (field w 12 5) (field w 22 3))
  else if bits w 25 7 = 9 then some (.vfceq (field w 7 5) (field w 12 5) (field w 17 5) (field w 22 3))
  else if bits w 25 7 = 10 then some (.vfclt (field w 7 5) (field w 12 5) (field w 17 5) (field w 22 3))
  else if bits w 25 7 = 11 then some (.vfcle (field w 7 5) (field w 12 5) (field w 17 5) (field w 22 3))
  else if bits w 25 7 = 12 ∧ bits w 17 5 = 0 then some (.vfrcp (field w 7 5) (field w 12 5) (field w 22 3))
  else if bits w 25 7 = 13 ∧ bits w 17 5 = 0 then some (.vfrsq (field w 7 5) (field w 12 5) (field w 22 3))
  else if bits w 25 7 = 14 ∧ bits w 17 5 = 0 then some (.vfexp (field w 7 5) (field w 12 5) (field w 22 3))
  else none

/-- Words of op 0x19: VSHUF, VBCAST, VMVX, VSLIDE, VZIP, VUZP, VREDS, VREDM, VFREDS, VFREDM, VCVT. -/
def decodeOp19 (w : Nat) : Option Instr :=
  if bits w 28 4 = 0 ∧ bits w 25 1 = 0 then some (.vshuf (field w 7 5) (field w 12 5) (field w 17 5) (field w 26 2) (field w 22 3))
  else if bits w 28 4 = 1 ∧ bits w 25 1 = 0 ∧ bits w 17 5 = 0 then some (.vbcast (field w 7 5) (field w 12 5) (field w 26 2) (field w 22 3))
  else if bits w 28 4 = 2 ∧ bits w 22 4 = 0 then some (.vmvx (field w 7 5) (field w 12 5) (field w 17 5) (field w 26 2))
  else if bits w 28 4 = 3 ∧ bits w 25 1 = 0 then some (.vslide (field w 7 5) (field w 12 5) (field w 17 5) (field w 26 2) (field w 22 3))
  else if bits w 28 4 = 4 ∧ bits w 25 1 = 0 then some (.vzip (field w 7 5) (field w 12 5) (field w 17 5) (field w 26 2) (field w 22 3))
  else if bits w 28 4 = 5 ∧ bits w 25 1 = 0 then some (.vuzp (field w 7 5) (field w 12 5) (field w 17 5) (field w 26 2) (field w 22 3))
  else if bits w 28 4 = 6 ∧ bits w 25 1 = 0 ∧ bits w 17 5 = 0 then some (.vreds (field w 7 5) (field w 12 5) (field w 26 2) (field w 22 3))
  else if bits w 28 4 = 7 ∧ bits w 25 1 = 0 ∧ bits w 17 5 = 0 then some (.vredm (field w 7 5) (field w 12 5) (field w 26 2) (field w 22 3))
  else if bits w 25 7 = 68 ∧ bits w 17 5 = 0 then some (.vfreds (field w 7 5) (field w 12 5) (field w 22 3))
  else if bits w 25 7 = 76 ∧ bits w 17 5 = 0 then some (.vfredm (field w 7 5) (field w 12 5) (field w 22 3))
  else if bits w 26 6 = 40 ∧ bits w 21 1 = 0 then some (.vcvt (field w 7 5) (field w 17 4) (field w 22 4) (field w 12 5))
  else none

/-- Words of op 0x1A: MAND, MOR, MXOR, MNOT, MPOP, MSET. -/
def decodeOp1A (w : Nat) : Option Instr :=
  if bits w 22 10 = 0 then some (.mand (field w 7 5) (field w 12 5) (field w 17 5))
  else if bits w 22 10 = 8 then some (.mor (field w 7 5) (field w 12 5) (field w 17 5))
  else if bits w 22 10 = 16 then some (.mxor (field w 7 5) (field w 12 5) (field w 17 5))
  else if bits w 17 15 = 768 then some (.mnot (field w 7 5) (field w 12 5))
  else if bits w 17 15 = 1024 then some (.mpop (field w 7 5) (field w 12 5))
  else if bits w 17 15 = 1280 then some (.mset (field w 7 5) (field w 12 5))
  else none

/-- Words of op 0x1B: GUARD, JOIN, QJOIN, QLEAVE, ACCZ. -/
def decodeOp1B (w : Nat) : Option Instr :=
  if bits w 17 15 = 0 ∧ bits w 7 5 = 0 then some (.guard (field w 12 5))
  else if bits w 23 9 = 4 ∧ bits w 7 15 = 0 then some (.join (field w 22 1))
  else if bits w 7 25 = 524288 then some (.qjoin)
  else if bits w 7 25 = 786432 then some (.qleave)
  else if bits w 25 7 = 4 ∧ bits w 22 2 = 0 ∧ bits w 12 5 = 0 then some (.accz (accField w 24 7) (field w 17 5))
  else none

/-- Words of op 0x1C: PACKX, PACKY, PACKXF, PACKYF, PACKK. -/
def decodeOp1C (w : Nat) : Option Instr :=
  if bits w 17 15 = 0 ∧ bits w 7 5 = 0 then some (.packx (field w 12 5))
  else if bits w 17 15 = 256 ∧ bits w 7 5 = 0 then some (.packy (field w 12 5))
  else if bits w 17 15 = 512 ∧ bits w 7 5 = 0 then some (.packxf (field w 12 5))
  else if bits w 17 15 = 768 ∧ bits w 7 5 = 0 then some (.packyf (field w 12 5))
  else if bits w 17 15 = 1024 ∧ bits w 7 5 = 0 then some (.packk (field w 12 5))
  else none

/-- Words of op 0x1D: MULS, MULJ, MMAR. -/
def decodeOp1D (w : Nat) : Option Instr :=
  if bits w 25 7 = 0 ∧ bits w 17 7 = 0 then some (.muls (accField w 24 7) (field w 12 5))
  else if bits w 25 7 = 1 ∧ bits w 17 7 = 0 then some (.mulj (accField w 24 7) (field w 12 5))
  else if bits w 17 15 = 512 ∧ bits w 7 5 = 0 then some (.mmar (field w 12 5))
  else none

/-- Words of op 0x1E: EXTR, EXTRF, ACCRD, ACCWR, ACCMV. -/
def decodeOp1E (w : Nat) : Option Instr :=
  if bits w 25 7 = 0 ∧ bits w 23 1 = 0 then some (.extr (field w 7 5) (accField w 24 17) (field w 12 5) (field w 22 1))
  else if bits w 25 7 = 1 ∧ bits w 23 1 = 0 then some (.extrf (field w 7 5) (accField w 24 17) (field w 12 5) (field w 22 1))
  else if bits w 25 7 = 2 ∧ bits w 22 2 = 0 then some (.accrd (field w 7 5) (accField w 24 17) (field w 12 5))
  else if bits w 25 7 = 3 ∧ bits w 22 2 = 0 then some (.accwr (field w 7 5) (accField w 24 17) (field w 12 5))
  else if bits w 25 7 = 4 ∧ bits w 22 1 = 0 ∧ bits w 12 5 = 0 then some (.accmv (accField w 24 7) (accField w 23 17))
  else none

/-- Words of op 0x1F: TLD, TST, TLDS. -/
def decodeOp1F (w : Nat) : Option Instr :=
  if bits w 17 15 = 0 then some (.tld (field w 7 5) (field w 12 5))
  else if bits w 17 15 = 256 then some (.tst (field w 7 5) (field w 12 5))
  else if bits w 17 15 = 512 then some (.tlds (field w 7 5) (field w 12 5))
  else none

/-- Words of op 0x20: ACT, PRE, ROWQ. -/
def decodeOp20 (w : Nat) : Option Instr :=
  if bits w 22 10 = 0 ∧ bits w 7 5 = 0 then some (.act (field w 12 5) (field w 17 5))
  else if bits w 22 10 = 8 ∧ bits w 7 5 = 0 then some (.pre (field w 12 5) (field w 17 5))
  else if bits w 17 15 = 512 then some (.rowq (field w 7 5) (field w 12 5))
  else none

/-- Words of op 0x21: TWAIT, TCHK. -/
def decodeOp21 (w : Nat) : Option Instr :=
  if bits w 17 15 = 0 then some (.twait (field w 7 5) (field w 12 5))
  else if bits w 17 15 = 256 then some (.tchk (field w 7 5) (field w 12 5))
  else none

/-- Words of op 0x22: CPY, CPYGO, CPYQ. -/
def decodeOp22 (w : Nat) : Option Instr :=
  if bits w 12 20 = 0 then some (.cpy (field w 7 5))
  else if bits w 7 25 = 262144 then some (.cpygo)
  else if bits w 12 20 = 16384 then some (.cpyq (field w 7 5))
  else none

/-- Words of op 0x23: SEND, SENDL, REPLY, MSGX. -/
def decodeOp23 (w : Nat) : Option Instr :=
  if bits w 25 7 = 0 then some (.send (field w 7 5) (field w 12 5) (field w 17 5) (field w 22 2) (field w 24 1))
  else if bits w 25 7 = 1 ∧ bits w 17 5 = 0 then some (.sendl (field w 7 5) (field w 12 5) (field w 22 2) (field w 24 1))
  else if bits w 22 10 = 17 ∧ bits w 7 5 = 0 then some (.reply (field w 12 5) (field w 17 5))
  else if bits w 24 8 = 6 ∧ bits w 17 5 = 0 then some (.msgx (field w 7 5) (field w 12 5) (field w 22 2))
  else none

/-- Words of op 0x24: VREAD, VWRITE, VAMO. -/
def decodeOp24 (w : Nat) : Option Instr :=
  if bits w 25 7 = 0 ∧ bits w 17 7 = 0 then some (.vread (field w 7 5) (field w 12 5) (field w 24 1))
  else if bits w 25 7 = 1 ∧ bits w 22 2 = 0 ∧ bits w 7 5 = 0 then some (.vwrite (field w 12 5) (field w 17 5) (field w 24 1))
  else if bits w 25 7 = 2 ∧ bits w 22 2 = 0 then some (.vamo (field w 7 5) (field w 12 5) (field w 17 5) (field w 24 1))
  else none

/-- Words of op 0x25: TNEW, TDEC, TARM. -/
def decodeOp25 (w : Nat) : Option Instr :=
  if bits w 22 10 = 0 ∧ bits w 7 5 = 0 then some (.tnew (field w 12 5) (field w 17 5))
  else if bits w 25 7 = 1 ∧ bits w 17 5 = 0 ∧ bits w 7 5 = 0 then some (.tdec (field w 12 5) (field w 22 3))
  else if bits w 17 15 = 512 ∧ bits w 7 5 = 0 then some (.tarm (field w 12 5))
  else none

/-- Words of op 0x26: FENCE, SIGNAL, BAR. -/
def decodeOp26 (w : Nat) : Option Instr :=
  if bits w 25 7 = 0 ∧ bits w 7 15 = 0 then some (.fence (field w 22 3))
  else if bits w 25 7 = 1 ∧ bits w 7 5 = 0 then some (.signal (field w 22 3) (field w 12 5) (field w 17 5))
  else if bits w 25 7 = 2 ∧ bits w 17 5 = 0 ∧ bits w 7 5 = 0 then some (.bar (field w 22 3) (field w 12 5))
  else none

/-- Words of op 0x27: OXL, OXS, OXC. -/
def decodeOp27 (w : Nat) : Option Instr :=
  if bits w 17 15 = 0 then some (.oxl (field w 7 5) (field w 12 5))
  else if bits w 17 15 = 256 then some (.oxs (field w 7 5) (field w 12 5))
  else if bits w 22 10 = 16 then some (.oxc (field w 7 5) (field w 12 5) (field w 17 5))
  else none

/-- Words of op 0x28: SRD, SWR, SSET, SCLR. -/
def decodeOp28 (w : Nat) : Option Instr :=
  if bits w 29 3 = 0 ∧ bits w 12 5 = 0 then some (.srd (field w 7 5) (field w 17 12))
  else if bits w 29 3 = 1 then some (.swr (field w 7 5) (field w 17 12) (field w 12 5))
  else if bits w 29 3 = 2 then some (.sset (field w 7 5) (field w 17 12) (field w 12 5))
  else if bits w 29 3 = 3 then some (.sclr (field w 7 5) (field w 17 12) (field w 12 5))
  else none

/-- Words of op 0x29: TRET, TABORT, TSPILL, TFILL, BRK, SVC. -/
def decodeOp29 (w : Nat) : Option Instr :=
  if bits w 7 25 = 0 then some (.tret)
  else if bits w 23 9 = 4 ∧ bits w 7 15 = 0 then some (.tabort (field w 22 1))
  else if bits w 7 25 = 524288 then some (.tspill)
  else if bits w 7 25 = 786432 then some (.tfill)
  else if bits w 25 7 = 4 ∧ bits w 7 10 = 0 then some (.brk (field w 17 8))
  else if bits w 25 7 = 5 ∧ bits w 7 10 = 0 then some (.svc (field w 17 8))
  else none

/-- Words of op 0x2A: END, NOP, QMAP. -/
def decodeOp2A (w : Nat) : Option Instr :=
  if bits w 7 25 = 0 then some (.endStream)
  else if bits w 7 25 = 262144 then some (.nop)
  else if bits w 23 9 = 8 ∧ bits w 7 15 = 0 then some (.qmap (field w 22 1))
  else none

/-- Words of op 0x2B: JREC, JSEAL, EMIT. -/
def decodeOp2B (w : Nat) : Option Instr :=
  if bits w 17 15 = 0 then some (.jrec (field w 7 5) (field w 12 5))
  else if bits w 12 20 = 8192 then some (.jseal (field w 7 5))
  else if bits w 22 10 = 16 ∧ bits w 7 5 = 0 then some (.emit (field w 12 5) (field w 17 5))
  else none

/-- Words of op 0x2C: RNGB. -/
def decodeOp2C (w : Nat) : Option Instr :=
  if bits w 17 15 = 0 then some (.rngb (field w 7 5) (field w 12 5))
  else none

/-- The instruction of a 32-bit word before the field limits (R76); none where no row of the opcode map fits. -/
def decodeWord32 (w : Nat) : Option Instr :=
  match bits w 1 6 with
  | 0x00 => decodeOp00 w
  | 0x01 => decodeOp01 w
  | 0x02 => decodeOp02 w
  | 0x03 => decodeOp03 w
  | 0x04 => decodeOp04 w
  | 0x05 => decodeOp05 w
  | 0x06 => decodeOp06 w
  | 0x07 => decodeOp07 w
  | 0x08 => decodeOp08 w
  | 0x09 => decodeOp09 w
  | 0x0A => decodeOp0A w
  | 0x0B => decodeOp0B w
  | 0x0C => decodeOp0C w
  | 0x0D => decodeOp0D w
  | 0x0E => decodeOp0E w
  | 0x0F => decodeOp0F w
  | 0x10 => decodeOp10 w
  | 0x11 => decodeOp11 w
  | 0x12 => decodeOp12 w
  | 0x13 => decodeOp13 w
  | 0x14 => decodeOp14 w
  | 0x15 => decodeOp15 w
  | 0x16 => decodeOp16 w
  | 0x17 => decodeOp17 w
  | 0x18 => decodeOp18 w
  | 0x19 => decodeOp19 w
  | 0x1A => decodeOp1A w
  | 0x1B => decodeOp1B w
  | 0x1C => decodeOp1C w
  | 0x1D => decodeOp1D w
  | 0x1E => decodeOp1E w
  | 0x1F => decodeOp1F w
  | 0x20 => decodeOp20 w
  | 0x21 => decodeOp21 w
  | 0x22 => decodeOp22 w
  | 0x23 => decodeOp23 w
  | 0x24 => decodeOp24 w
  | 0x25 => decodeOp25 w
  | 0x26 => decodeOp26 w
  | 0x27 => decodeOp27 w
  | 0x28 => decodeOp28 w
  | 0x29 => decodeOp29 w
  | 0x2A => decodeOp2A w
  | 0x2B => decodeOp2B w
  | 0x2C => decodeOp2C w
  | _ => none

/-- The instruction of a 16-bit word (R82). -/
def decodeWord16 (w : Nat) : Option Instr :=
  match bits w 1 4 with
  | 1 => if bits w 15 1 = 0 then some (.cMv (field w 5 5) (field w 10 5)) else none
  | 2 => some (.cAddi (field w 5 5) (field w 10 6))
  | 3 => some (.cLi (field w 5 5) (field w 10 6))
  | 4 => if bits w 15 1 = 0 then some (.cAdd (field w 5 5) (field w 10 5)) else none
  | 5 => if bits w 15 1 = 0 then some (.cSub (field w 5 5) (field w 10 5)) else none
  | 6 => if bits w 15 1 = 0 then some (.cAnd (field w 5 5) (field w 10 5)) else none
  | 7 => some (.cSlli (field w 5 5) (field w 10 6))
  | 8 => some (.cSrli (field w 5 5) (field w 10 6))
  | 9 => some (.cLw (field w 5 5) (field w 10 6))
  | 10 => some (.cSw (field w 5 5) (field w 10 6))
  | 11 => some (.cBeq (field w 5 3) (field w 8 8))
  | 12 => some (.cBne (field w 5 3) (field w 8 8))
  | 13 => some (.cJ (field w 5 11))
  | 14 => if bits w 5 11 = 0 then some (.cEnd) else none
  | 15 => if bits w 5 11 = 0 then some (.cNop) else none
  | _ => none

/-- The instruction that a word of its own length holds, checked against the field limits (R83). -/
def checkFields (i : Option Instr) (reserved : Bool) : Except DecodeError Instr :=
  match i with
  | none => .error (if reserved then .reservedOp else .noSuchFunction)
  | some i => if i.wellFormed then .ok i else .error .outsideLimits

/-- Decodes a word: 16 bits when bit 0 is 0, 32 bits otherwise (R72). Total: every word is an instruction or refused by
name. -/
def decodeWord (w : Nat) : Except DecodeError Instr :=
  if w % 2 = 0 then checkFields (decodeWord16 (w % 2 ^ 16)) (decide (bits w 1 4 = 0))
  else checkFields (decodeWord32 (w % 2 ^ 32)) (decide (0x2D ≤ bits w 1 6))

/-- The bytes of a word of n halfwords, little-endian (R72). -/
def wordBytes (n w : Nat) : List Byte :=
  match n with
  | 0 => []
  | n + 1 => BitVec.ofNat 8 w :: BitVec.ofNat 8 (w / 2 ^ 8) :: wordBytes n (w / 2 ^ 16)

/-- The instruction at the head of a list of bytes, and the bytes that follow it (R72). -/
def decodeBytes : List Byte → Except DecodeError (Instr × List Byte)
  | b0 :: b1 :: rest =>
    let lo := b0.toNat + 2 ^ 8 * b1.toNat
    if b0.toNat % 2 = 0 then (decodeWord lo).map (fun i => (i, rest))
    else
      match rest with
      | b2 :: b3 :: rest' =>
        (decodeWord (lo + 2 ^ 16 * (b2.toNat + 2 ^ 8 * b3.toNat))).map (fun i => (i, rest'))
      | _ => .error .tooShort
  | _ => .error .tooShort

/-- The instruction that the decoder reads from a table word: the word's halfwords are laid out as the hardware stores them
(the first at the lowest address, each little-endian), with zeros above its bits, and given to the decoder. -/
def decodeTableWord (nbits w : Nat) : Option Instr :=
  match decodeBytes (wordBytes 2 (w % 2 ^ nbits)) with
  | .ok (i, _) => some i
  | .error _ => none

/-- Length in bytes of an encoded instruction (R72); a device step has none. -/
def Instr.len : Instr → Nat
  | .add _ _ _ => 4
  | .sub _ _ _ => 4
  | .and _ _ _ => 4
  | .or _ _ _ => 4
  | .xor _ _ _ => 4
  | .sll _ _ _ => 4
  | .srl _ _ _ => 4
  | .sra _ _ _ => 4
  | .slt _ _ _ => 4
  | .sltz _ _ _ => 4
  | .min _ _ _ => 4
  | .max _ _ _ => 4
  | .minz _ _ _ => 4
  | .maxz _ _ _ => 4
  | .addw _ _ _ => 4
  | .subw _ _ _ => 4
  | .sllw _ _ _ => 4
  | .srlw _ _ _ => 4
  | .sraw _ _ _ => 4
  | .clz _ _ => 4
  | .ctz _ _ => 4
  | .cnt _ _ => 4
  | .andn _ _ _ => 4
  | .orn _ _ _ => 4
  | .mul _ _ _ => 4
  | .mulh _ _ _ => 4
  | .mulhz _ _ _ => 4
  | .mulw _ _ _ => 4
  | .div _ _ _ => 4
  | .divz _ _ _ => 4
  | .rem _ _ _ => 4
  | .remz _ _ _ => 4
  | .divw _ _ _ => 4
  | .divzw _ _ _ => 4
  | .remw _ _ _ => 4
  | .remzw _ _ _ => 4
  | .addi _ _ _ => 4
  | .addiw _ _ _ => 4
  | .andi _ _ _ => 4
  | .ori _ _ _ => 4
  | .xori _ _ _ => 4
  | .slti _ _ _ => 4
  | .sltiz _ _ _ => 4
  | .slli _ _ _ => 4
  | .srli _ _ _ => 4
  | .srai _ _ _ => 4
  | .slliw _ _ _ => 4
  | .srliw _ _ _ => 4
  | .sraiw _ _ _ => 4
  | .lui _ _ => 4
  | .auipc _ _ => 4
  | .beq _ _ _ => 4
  | .bne _ _ _ => 4
  | .blt _ _ _ => 4
  | .bge _ _ _ => 4
  | .blo _ _ _ => 4
  | .bhs _ _ _ => 4
  | .jal _ _ => 4
  | .jalr _ _ _ => 4
  | .loop _ _ => 4
  | .loopImm _ _ => 4
  | .lit _ _ => 4
  | .lb _ _ _ => 4
  | .lh _ _ _ => 4
  | .lw _ _ _ => 4
  | .ld _ _ _ => 4
  | .lbz _ _ _ => 4
  | .lhz _ _ _ => 4
  | .lwz _ _ _ => 4
  | .sb _ _ _ => 4
  | .sh _ _ _ => 4
  | .sw _ _ _ => 4
  | .sd _ _ _ => 4
  | .lqw _ _ _ => 4
  | .lqd _ _ _ => 4
  | .sqw _ _ _ => 4
  | .sqd _ _ _ => 4
  | .amoadd _ _ _ => 4
  | .amoaddw _ _ _ => 4
  | .amoswap _ _ _ => 4
  | .amoswapw _ _ _ => 4
  | .amocas _ _ _ => 4
  | .amocasw _ _ _ => 4
  | .amoand _ _ _ => 4
  | .amoandw _ _ _ => 4
  | .amoor _ _ _ => 4
  | .amoorw _ _ _ => 4
  | .amoxor _ _ _ => 4
  | .amoxorw _ _ _ => 4
  | .amomin _ _ _ => 4
  | .amominw _ _ _ => 4
  | .amomax _ _ _ => 4
  | .amomaxw _ _ _ => 4
  | .amominz _ _ _ => 4
  | .amominzw _ _ _ => 4
  | .amomaxz _ _ _ => 4
  | .amomaxzw _ _ _ => 4
  | .vld _ _ _ _ _ => 4
  | .vlds _ _ _ _ _ => 4
  | .vldx _ _ _ _ _ => 4
  | .vst _ _ _ _ _ => 4
  | .vsts _ _ _ _ _ => 4
  | .vstx _ _ _ _ _ => 4
  | .vadd _ _ _ _ _ => 4
  | .vsub _ _ _ _ _ => 4
  | .vmul _ _ _ _ _ => 4
  | .vmulh _ _ _ _ _ => 4
  | .vand _ _ _ _ _ => 4
  | .vor _ _ _ _ _ => 4
  | .vxor _ _ _ _ _ => 4
  | .vsll _ _ _ _ _ => 4
  | .vsrl _ _ _ _ _ => 4
  | .vsra _ _ _ _ _ => 4
  | .vmin _ _ _ _ _ => 4
  | .vmax _ _ _ _ _ => 4
  | .vminz _ _ _ _ _ => 4
  | .vmaxz _ _ _ _ _ => 4
  | .vabs _ _ _ _ => 4
  | .vceq _ _ _ _ _ => 4
  | .vclt _ _ _ _ _ => 4
  | .vclo _ _ _ _ _ => 4
  | .vsel _ _ _ _ => 4
  | .vsat _ _ _ _ _ => 4
  | .vfadd _ _ _ _ => 4
  | .vfsub _ _ _ _ => 4
  | .vfmul _ _ _ _ => 4
  | .vfma _ _ _ _ => 4
  | .vfms _ _ _ _ => 4
  | .vfmin _ _ _ _ => 4
  | .vfmax _ _ _ _ => 4
  | .vfabs _ _ _ => 4
  | .vfneg _ _ _ => 4
  | .vfceq _ _ _ _ => 4
  | .vfclt _ _ _ _ => 4
  | .vfcle _ _ _ _ => 4
  | .vfrcp _ _ _ => 4
  | .vfrsq _ _ _ => 4
  | .vfexp _ _ _ => 4
  | .vshuf _ _ _ _ _ => 4
  | .vbcast _ _ _ _ => 4
  | .vmvx _ _ _ _ => 4
  | .vslide _ _ _ _ _ => 4
  | .vzip _ _ _ _ _ => 4
  | .vuzp _ _ _ _ _ => 4
  | .vreds _ _ _ _ => 4
  | .vredm _ _ _ _ => 4
  | .vfreds _ _ _ => 4
  | .vfredm _ _ _ => 4
  | .vcvt _ _ _ _ => 4
  | .mand _ _ _ => 4
  | .mor _ _ _ => 4
  | .mxor _ _ _ => 4
  | .mnot _ _ => 4
  | .mpop _ _ => 4
  | .mset _ _ => 4
  | .guard _ => 4
  | .join _ => 4
  | .qjoin => 4
  | .qleave => 4
  | .accz _ _ => 4
  | .packx _ => 4
  | .packy _ => 4
  | .packxf _ => 4
  | .packyf _ => 4
  | .packk _ => 4
  | .muls _ _ => 4
  | .mulj _ _ => 4
  | .mmar _ => 4
  | .extr _ _ _ _ => 4
  | .extrf _ _ _ _ => 4
  | .accrd _ _ _ => 4
  | .accwr _ _ _ => 4
  | .accmv _ _ => 4
  | .tld _ _ => 4
  | .tst _ _ => 4
  | .tlds _ _ => 4
  | .act _ _ => 4
  | .pre _ _ => 4
  | .rowq _ _ => 4
  | .twait _ _ => 4
  | .tchk _ _ => 4
  | .cpy _ => 4
  | .cpygo => 4
  | .cpyq _ => 4
  | .send _ _ _ _ _ => 4
  | .sendl _ _ _ _ => 4
  | .reply _ _ => 4
  | .msgx _ _ _ => 4
  | .vread _ _ _ => 4
  | .vwrite _ _ _ => 4
  | .vamo _ _ _ _ => 4
  | .tnew _ _ => 4
  | .tdec _ _ => 4
  | .tarm _ => 4
  | .fence _ => 4
  | .signal _ _ _ => 4
  | .bar _ _ => 4
  | .oxl _ _ => 4
  | .oxs _ _ => 4
  | .oxc _ _ _ => 4
  | .srd _ _ => 4
  | .swr _ _ _ => 4
  | .sset _ _ _ => 4
  | .sclr _ _ _ => 4
  | .tret => 4
  | .tabort _ => 4
  | .tspill => 4
  | .tfill => 4
  | .brk _ => 4
  | .svc _ => 4
  | .endStream => 4
  | .nop => 4
  | .qmap _ => 4
  | .jrec _ _ => 4
  | .jseal _ => 4
  | .emit _ _ => 4
  | .rngb _ _ => 4
  | .cMv _ _ => 2
  | .cAddi _ _ => 2
  | .cLi _ _ => 2
  | .cAdd _ _ => 2
  | .cSub _ _ => 2
  | .cAnd _ _ => 2
  | .cSlli _ _ => 2
  | .cSrli _ _ => 2
  | .cLw _ _ => 2
  | .cSw _ _ => 2
  | .cBeq _ _ => 2
  | .cBne _ _ => 2
  | .cJ _ => 2
  | .cEnd => 2
  | .cNop => 2
  | .illop _ => 0
  | .wdog _ => 0
  | .kill _ => 0
  | .residencyRelease _ => 0
  | .reservationClearEnd _ => 0
  | .overflowChainMove _ => 0
  | .dispatch => 0
  | .quadRemotePerform _ => 0
  | .quadUnitMerge => 0
  | .mcfg => 0
  | .mpack => 0
  | .mmarCommand => 0
  | .mzero => 0
  | .mextr => 0
  | .mstat => 0
  | .illcmd => 0
  | .slewGrant => 0
  | .slewLevelStep => 0
  | .sliceWorkEnd => 0
  | .rslewWrite _ => 0
  | .tileOpStart => 0
  | .vaultBeat => 0
  | .tileOpComplete => 0
  | .pageMapResume _ => 0
  | .actAtHead => 0
  | .preAtHead => 0
  | .activationEnd _ => 0
  | .prechargeEnd _ => 0
  | .refresh _ => 0
  | .refreshEnd _ => 0
  | .rowRepair _ _ => 0
  | .tempSample _ => 0
  | .copy _ => 0
  | .restripe _ => 0
  | .fill _ => 0
  | .hostrd _ _ => 0
  | .hostwr _ => 0
  | .drain _ => 0
  | .badCopyCommand _ => 0
  | .copyCompletion _ => 0
  | .chunkMove _ => 0
  | .restripeSwitch _ => 0
  | .translationWalk _ _ => 0
  | .tableEntryChange _ _ _ _ => 0
  | .dirtyLogMerge _ => 0
  | .harvest _ => 0
  | .messageEnqueue _ => 0
  | .messageDepart => 0
  | .signalDecrement => 0
  | .signalAck _ => 0
  | .scopeMissBounce => 0
  | .barrierArrival _ _ _ => 0
  | .agentVread _ => 0
  | .agentVwrite _ => 0
  | .agentVamo _ => 0
  | .vfaddc _ => 0
  | .vfence _ => 0
  | .agentCompletion => 0
  | .gangEnd _ => 0
  | .batchShip _ => 0
  | .batchStore _ _ _ _ => 0
  | .journalAck _ _ _ => 0
  | .snapTruncation _ => 0
  | .egressRelease _ => 0
  | .heartbeat _ => 0
  | .peerLost _ => 0
  | .bindingFreeze _ => 0
  | .windowShip _ _ _ => 0
  | .windowAck _ _ => 0
  | .replay _ _ _ _ _ => 0
  | .snapcfg _ _ => 0
  | .snapshotCut _ => 0
  | .pageCopy _ _ => 0
  | .shingleDrain => 0
  | .shingleAck _ _ => 0
  | .drainWalk _ _ => 0
  | .snapshotSeal _ => 0
  | .scanVisit _ => 0
  | .scanEnd _ _ => 0
  | .spareRemap _ _ => 0
  | .ringNotify _ _ _ => 0
  | .placeAndStart _ _ => 0
  | .placeOnly _ _ => 0
  | .start _ => 0
  | .cancel _ => 0
  | .sealReread _ => 0
  | .launchForward _ _ _ => 0
  | .readyReport _ _ _ => 0
  | .commit _ => 0
  | .launchAbort _ => 0
  | .selfAbort _ => 0
  | .armedStart _ => 0
  | .launchReconsider _ => 0
  | .saveStart _ _ _ => 0
  | .saveUnitAck _ => 0
  | .saveFault _ => 0
  | .saveResume _ => 0
  | .saveAbandon _ => 0
  | .restore _ _ _ => 0
  | .gate _ => 0
  | .wake _ => 0
  | .gateFall _ => 0
  | .wakeAdmit => 0
  | .wakeComplete _ => 0
  | .controlWrite _ _ => 0
  | .flitReceive _ _ _ _ => 0
  | .nakReceive _ _ => 0
  | .flitAck _ _ => 0
  | .laneFailure _ _ => 0
  | .retrainEnd _ => 0
  | .moduleDead _ _ => 0
  | .sidebandTimeout _ => 0
  | .fabricPacket _ _ _ => 0
  | .fabricAck _ _ => 0
  | .gapTimeout _ => 0
  | .resendTimeout _ _ => 0
  | .linkDead _ => 0
  | .linkReturn _ => 0
  | .timingPacket _ _ => 0
  | .hostRead _ _ => 0
  | .hostWrite _ _ _ => 0
  | .cciWrite _ => 0
  | .ringcfg _ _ => 0
  | .cringcfg _ _ => 0
  | .wincfg _ _ => 0
  | .dmawcfg _ _ => 0
  | .badcmd _ _ => 0
  | .fwload _ _ => 0
  | .imgload _ _ _ _ _ => 0
  | .imgdrop _ _ => 0
  | .imageForward _ _ => 0
  | .powerUp => 0
  | .readyDeadline _ => 0
  | .hostMapTimeout => 0
  | .fabricNak _ _ => 0
  | .moduleRetrain _ _ => 0
  | .controllerFailure _ => 0

/-- Places the fields of ADD, SUB, AND, OR and others (R73, R79, R82) above the fixed bits. -/
def wordA7B12C17 (base : Nat) (a : Reg) (b : Reg) (c : Reg) : Nat :=
  base + a.toNat * 2 ^ 7 + b.toNat * 2 ^ 12 + c.toNat * 2 ^ 17

/-- Places the fields of CLZ, CTZ, CNT, MNOT and others (R73, R79, R82) above the fixed bits. -/
def wordA7B12 (base : Nat) (a : Reg) (b : Reg) : Nat :=
  base + a.toNat * 2 ^ 7 + b.toNat * 2 ^ 12

/-- Places the fields of ADDI, ADDIW, ANDI, ORI and others (R73, R79, R82) above the fixed bits. -/
def wordA7B12I17w15 (base : Nat) (a : Reg) (b : Reg) (i : BitVec 15) : Nat :=
  base + a.toNat * 2 ^ 7 + b.toNat * 2 ^ 12 + i.toNat * 2 ^ 17

/-- Places the fields of SLLI, SRLI, SRAI, SLLIW and others (R73, R79, R82) above the fixed bits. -/
def wordA7N17w6B12 (base : Nat) (a : Reg) (n : BitVec 6) (b : Reg) : Nat :=
  base + a.toNat * 2 ^ 7 + n.toNat * 2 ^ 17 + b.toNat * 2 ^ 12

/-- Places the fields of LUI, AUIPC (R73, R79, R82) above the fixed bits. -/
def wordA7I12w20 (base : Nat) (a : Reg) (i : BitVec 20) : Nat :=
  base + a.toNat * 2 ^ 7 + i.toNat * 2 ^ 12

/-- Places the fields of BEQ, BNE, BLT, BGE and others (R73, R79, R82) above the fixed bits. -/
def wordA7B12O20w12 (base : Nat) (a : Reg) (b : Reg) (o : BitVec 12) : Nat :=
  base + a.toNat * 2 ^ 7 + b.toNat * 2 ^ 12 + o.toNat * 2 ^ 20

/-- Places the fields of JAL, LIT (R73, R79, R82) above the fixed bits. -/
def wordA7O12w20 (base : Nat) (a : Reg) (o : BitVec 20) : Nat :=
  base + a.toNat * 2 ^ 7 + o.toNat * 2 ^ 12

/-- Places the fields of LOOP (R73, R79, R82) above the fixed bits. -/
def wordA7L12w10 (base : Nat) (a : Reg) (L : BitVec 10) : Nat :=
  base + a.toNat * 2 ^ 7 + L.toNat * 2 ^ 12

/-- Places the fields of LOOP_IMM (R73, R79, R82) above the fixed bits. -/
def wordN22w10L12w10 (base : Nat) (n : BitVec 10) (L : BitVec 10) : Nat :=
  base + n.toNat * 2 ^ 22 + L.toNat * 2 ^ 12

/-- Places the fields of VLD, VLDS, VLDX, VST and others (R73, R79, R82) above the fixed bits. -/
def wordA7B12C17T28w4M22w3 (base : Nat) (a : Reg) (b : Reg) (c : Reg) (t : BitVec 4) (m : MaskField) : Nat :=
  base + a.toNat * 2 ^ 7 + b.toNat * 2 ^ 12 + c.toNat * 2 ^ 17 + t.toNat * 2 ^ 28 + m.toNat * 2 ^ 22

/-- Places the fields of VADD, VSUB, VMUL, VMULH and others (R73, R79, R82) above the fixed bits. -/
def wordA7B12C17W25w2M22w3 (base : Nat) (a : Reg) (b : Reg) (c : Reg) (w : BitVec 2) (m : MaskField) : Nat :=
  base + a.toNat * 2 ^ 7 + b.toNat * 2 ^ 12 + c.toNat * 2 ^ 17 + w.toNat * 2 ^ 25 + m.toNat * 2 ^ 22

/-- Places the fields of VABS (R73, R79, R82) above the fixed bits. -/
def wordA7B12W25w2M22w3 (base : Nat) (a : Reg) (b : Reg) (w : BitVec 2) (m : MaskField) : Nat :=
  base + a.toNat * 2 ^ 7 + b.toNat * 2 ^ 12 + w.toNat * 2 ^ 25 + m.toNat * 2 ^ 22

/-- Places the fields of VSEL, VFADD, VFSUB, VFMUL and others (R73, R79, R82) above the fixed bits. -/
def wordA7B12C17M22w3 (base : Nat) (a : Reg) (b : Reg) (c : Reg) (m : MaskField) : Nat :=
  base + a.toNat * 2 ^ 7 + b.toNat * 2 ^ 12 + c.toNat * 2 ^ 17 + m.toNat * 2 ^ 22

/-- Places the fields of VSAT (R73, R79, R82) above the fixed bits. -/
def wordA7B12K17W25w2M22w3 (base : Nat) (a : Reg) (b : Reg) (k : BitVec 5) (w : BitVec 2) (m : MaskField) : Nat :=
  base + a.toNat * 2 ^ 7 + b.toNat * 2 ^ 12 + k.toNat * 2 ^ 17 + w.toNat * 2 ^ 25 + m.toNat * 2 ^ 22

/-- Places the fields of VFABS, VFNEG, VFRCP, VFRSQ and others (R73, R79, R82) above the fixed bits. -/
def wordA7B12M22w3 (base : Nat) (a : Reg) (b : Reg) (m : MaskField) : Nat :=
  base + a.toNat * 2 ^ 7 + b.toNat * 2 ^ 12 + m.toNat * 2 ^ 22

/-- Places the fields of VSHUF, VSLIDE, VZIP, VUZP (R73, R79, R82) above the fixed bits. -/
def wordA7B12C17W26w2M22w3 (base : Nat) (a : Reg) (b : Reg) (c : Reg) (w : BitVec 2) (m : MaskField) : Nat :=
  base + a.toNat * 2 ^ 7 + b.toNat * 2 ^ 12 + c.toNat * 2 ^ 17 + w.toNat * 2 ^ 26 + m.toNat * 2 ^ 22

/-- Places the fields of VBCAST, VREDS, VREDM (R73, R79, R82) above the fixed bits. -/
def wordA7B12W26w2M22w3 (base : Nat) (a : Reg) (b : Reg) (w : BitVec 2) (m : MaskField) : Nat :=
  base + a.toNat * 2 ^ 7 + b.toNat * 2 ^ 12 + w.toNat * 2 ^ 26 + m.toNat * 2 ^ 22

/-- Places the fields of VMVX (R73, R79, R82) above the fixed bits. -/
def wordA7B12C17W26w2 (base : Nat) (a : Reg) (b : Reg) (c : Reg) (w : BitVec 2) : Nat :=
  base + a.toNat * 2 ^ 7 + b.toNat * 2 ^ 12 + c.toNat * 2 ^ 17 + w.toNat * 2 ^ 26

/-- Places the fields of VCVT (R73, R79, R82) above the fixed bits. -/
def wordA7D17w4S22w4B12 (base : Nat) (a : Reg) (d : BitVec 4) (s : BitVec 4) (b : Reg) : Nat :=
  base + a.toNat * 2 ^ 7 + d.toNat * 2 ^ 17 + s.toNat * 2 ^ 22 + b.toNat * 2 ^ 12

/-- Places the fields of GUARD, PACKX, PACKY, PACKXF and others (R73, R79, R82) above the fixed bits. -/
def wordB12 (base : Nat) (b : Reg) : Nat :=
  base + b.toNat * 2 ^ 12

/-- Places the fields of JOIN (R73, R79, R82) above the fixed bits. -/
def wordJ22w1 (base : Nat) (j : BitVec 1) : Nat :=
  base + j.toNat * 2 ^ 22

/-- Places the fields of ACCZ (R73, R79, R82) above the fixed bits. -/
def wordN24w1K17 (base : Nat) (n : AccNum) (k : BitVec 5) : Nat :=
  base + accHigh n * 2 ^ 24 + accLow n * 2 ^ 7 + k.toNat * 2 ^ 17

/-- Places the fields of MULS, MULJ (R73, R79, R82) above the fixed bits. -/
def wordN24w1B12 (base : Nat) (n : AccNum) (b : Reg) : Nat :=
  base + accHigh n * 2 ^ 24 + accLow n * 2 ^ 7 + b.toNat * 2 ^ 12

/-- Places the fields of EXTR, EXTRF (R73, R79, R82) above the fixed bits. -/
def wordD7N24w1B12X22w1 (base : Nat) (d : Reg) (n : AccNum) (b : Reg) (x : BitVec 1) : Nat :=
  base + d.toNat * 2 ^ 7 + accHigh n * 2 ^ 24 + accLow n * 2 ^ 17 + b.toNat * 2 ^ 12 + x.toNat * 2 ^ 22

/-- Places the fields of ACCRD, ACCWR (R73, R79, R82) above the fixed bits. -/
def wordA7N24w1B12 (base : Nat) (a : Reg) (n : AccNum) (b : Reg) : Nat :=
  base + a.toNat * 2 ^ 7 + accHigh n * 2 ^ 24 + accLow n * 2 ^ 17 + b.toNat * 2 ^ 12

/-- Places the fields of ACCMV (R73, R79, R82) above the fixed bits. -/
def wordD24w1S23w1 (base : Nat) (d : AccNum) (s : AccNum) : Nat :=
  base + accHigh d * 2 ^ 24 + accLow d * 2 ^ 7 + accHigh s * 2 ^ 23 + accLow s * 2 ^ 17

/-- Places the fields of ACT, PRE, REPLY, TNEW and others (R73, R79, R82) above the fixed bits. -/
def wordB12C17 (base : Nat) (b : Reg) (c : Reg) : Nat :=
  base + b.toNat * 2 ^ 12 + c.toNat * 2 ^ 17

/-- Places the fields of CPY, CPYQ, JSEAL (R73, R79, R82) above the fixed bits. -/
def wordA7 (base : Nat) (a : Reg) : Nat :=
  base + a.toNat * 2 ^ 7

/-- Places the fields of SEND (R73, R79, R82) above the fixed bits. -/
def wordA7B12C17V22w2R24w1 (base : Nat) (a : Reg) (b : Reg) (c : Reg) (v : BitVec 2) (r : BitVec 1) : Nat :=
  base + a.toNat * 2 ^ 7 + b.toNat * 2 ^ 12 + c.toNat * 2 ^ 17 + v.toNat * 2 ^ 22 + r.toNat * 2 ^ 24

/-- Places the fields of SENDL (R73, R79, R82) above the fixed bits. -/
def wordA7B12V22w2R24w1 (base : Nat) (a : Reg) (b : Reg) (v : BitVec 2) (r : BitVec 1) : Nat :=
  base + a.toNat * 2 ^ 7 + b.toNat * 2 ^ 12 + v.toNat * 2 ^ 22 + r.toNat * 2 ^ 24

/-- Places the fields of MSGX (R73, R79, R82) above the fixed bits. -/
def wordA7B12V22w2 (base : Nat) (a : Reg) (b : Reg) (v : BitVec 2) : Nat :=
  base + a.toNat * 2 ^ 7 + b.toNat * 2 ^ 12 + v.toNat * 2 ^ 22

/-- Places the fields of VREAD (R73, R79, R82) above the fixed bits. -/
def wordA7B12R24w1 (base : Nat) (a : Reg) (b : Reg) (r : BitVec 1) : Nat :=
  base + a.toNat * 2 ^ 7 + b.toNat * 2 ^ 12 + r.toNat * 2 ^ 24

/-- Places the fields of VWRITE (R73, R79, R82) above the fixed bits. -/
def wordB12C17R24w1 (base : Nat) (b : Reg) (c : Reg) (r : BitVec 1) : Nat :=
  base + b.toNat * 2 ^ 12 + c.toNat * 2 ^ 17 + r.toNat * 2 ^ 24

/-- Places the fields of VAMO (R73, R79, R82) above the fixed bits. -/
def wordA7B12C17R24w1 (base : Nat) (a : Reg) (b : Reg) (c : Reg) (r : BitVec 1) : Nat :=
  base + a.toNat * 2 ^ 7 + b.toNat * 2 ^ 12 + c.toNat * 2 ^ 17 + r.toNat * 2 ^ 24

/-- Places the fields of TDEC (R73, R79, R82) above the fixed bits. -/
def wordB12K22w3 (base : Nat) (b : Reg) (k : BitVec 3) : Nat :=
  base + b.toNat * 2 ^ 12 + k.toNat * 2 ^ 22

/-- Places the fields of FENCE (R73, R79, R82) above the fixed bits. -/
def wordS22w3 (base : Nat) (s : BitVec 3) : Nat :=
  base + s.toNat * 2 ^ 22

/-- Places the fields of SIGNAL (R73, R79, R82) above the fixed bits. -/
def wordS22w3B12C17 (base : Nat) (s : BitVec 3) (b : Reg) (c : Reg) : Nat :=
  base + s.toNat * 2 ^ 22 + b.toNat * 2 ^ 12 + c.toNat * 2 ^ 17

/-- Places the fields of BAR (R73, R79, R82) above the fixed bits. -/
def wordS22w3B12 (base : Nat) (s : BitVec 3) (b : Reg) : Nat :=
  base + s.toNat * 2 ^ 22 + b.toNat * 2 ^ 12

/-- Places the fields of SRD (R73, R79, R82) above the fixed bits. -/
def wordA7N17w12 (base : Nat) (a : Reg) (n : BitVec 12) : Nat :=
  base + a.toNat * 2 ^ 7 + n.toNat * 2 ^ 17

/-- Places the fields of SWR, SSET, SCLR (R73, R79, R82) above the fixed bits. -/
def wordA7N17w12B12 (base : Nat) (a : Reg) (n : BitVec 12) (b : Reg) : Nat :=
  base + a.toNat * 2 ^ 7 + n.toNat * 2 ^ 17 + b.toNat * 2 ^ 12

/-- Places the fields of TABORT (R73, R79, R82) above the fixed bits. -/
def wordK22w1 (base : Nat) (k : BitVec 1) : Nat :=
  base + k.toNat * 2 ^ 22

/-- Places the fields of BRK, SVC (R73, R79, R82) above the fixed bits. -/
def wordC17w8 (base : Nat) (c : BitVec 8) : Nat :=
  base + c.toNat * 2 ^ 17

/-- Places the fields of QMAP (R73, R79, R82) above the fixed bits. -/
def wordQ22w1 (base : Nat) (q : BitVec 1) : Nat :=
  base + q.toNat * 2 ^ 22

/-- Places the fields of C_MV, C_ADD, C_SUB, C_AND (R73, R79, R82) above the fixed bits. -/
def wordD5S10 (base : Nat) (d : Reg) (s : Reg) : Nat :=
  base + d.toNat * 2 ^ 5 + s.toNat * 2 ^ 10

/-- Places the fields of C_ADDI, C_LI (R73, R79, R82) above the fixed bits. -/
def wordD5I10w6 (base : Nat) (d : Reg) (i : BitVec 6) : Nat :=
  base + d.toNat * 2 ^ 5 + i.toNat * 2 ^ 10

/-- Places the fields of C_SLLI, C_SRLI (R73, R79, R82) above the fixed bits. -/
def wordD5N10w6 (base : Nat) (d : Reg) (n : BitVec 6) : Nat :=
  base + d.toNat * 2 ^ 5 + n.toNat * 2 ^ 10

/-- Places the fields of C_LW (R73, R79, R82) above the fixed bits. -/
def wordD5K10w6 (base : Nat) (d : Reg) (k : BitVec 6) : Nat :=
  base + d.toNat * 2 ^ 5 + k.toNat * 2 ^ 10

/-- Places the fields of C_SW (R73, R79, R82) above the fixed bits. -/
def wordS5K10w6 (base : Nat) (s : Reg) (k : BitVec 6) : Nat :=
  base + s.toNat * 2 ^ 5 + k.toNat * 2 ^ 10

/-- Places the fields of C_BEQ, C_BNE (R73, R79, R82) above the fixed bits. -/
def wordS5w3O8w8 (base : Nat) (s : BitVec 3) (o : BitVec 8) : Nat :=
  base + s.toNat * 2 ^ 5 + o.toNat * 2 ^ 8

/-- Places the fields of C_J (R73, R79, R82) above the fixed bits. -/
def wordO5w11 (base : Nat) (o : BitVec 11) : Nat :=
  base + o.toNat * 2 ^ 5

/-- The word of an instruction (R76 to R82); 0 for a device step, which has no encoding. -/
def encode : Instr → Nat
  | .add a b c => wordA7B12C17 0x1 a b c
  | .sub a b c => wordA7B12C17 0x400001 a b c
  | .and a b c => wordA7B12C17 0x800001 a b c
  | .or a b c => wordA7B12C17 0xc00001 a b c
  | .xor a b c => wordA7B12C17 0x1000001 a b c
  | .sll a b c => wordA7B12C17 0x1400001 a b c
  | .srl a b c => wordA7B12C17 0x1800001 a b c
  | .sra a b c => wordA7B12C17 0x1c00001 a b c
  | .slt a b c => wordA7B12C17 0x2000001 a b c
  | .sltz a b c => wordA7B12C17 0x2400001 a b c
  | .min a b c => wordA7B12C17 0x2800001 a b c
  | .max a b c => wordA7B12C17 0x2c00001 a b c
  | .minz a b c => wordA7B12C17 0x3000001 a b c
  | .maxz a b c => wordA7B12C17 0x3400001 a b c
  | .addw a b c => wordA7B12C17 0x3800001 a b c
  | .subw a b c => wordA7B12C17 0x3c00001 a b c
  | .sllw a b c => wordA7B12C17 0x4000001 a b c
  | .srlw a b c => wordA7B12C17 0x4400001 a b c
  | .sraw a b c => wordA7B12C17 0x4800001 a b c
  | .clz a b => wordA7B12 0x4c00001 a b
  | .ctz a b => wordA7B12 0x5000001 a b
  | .cnt a b => wordA7B12 0x5400001 a b
  | .andn a b c => wordA7B12C17 0x5800001 a b c
  | .orn a b c => wordA7B12C17 0x5c00001 a b c
  | .mul a b c => wordA7B12C17 0x3 a b c
  | .mulh a b c => wordA7B12C17 0x400003 a b c
  | .mulhz a b c => wordA7B12C17 0x800003 a b c
  | .mulw a b c => wordA7B12C17 0xc00003 a b c
  | .div a b c => wordA7B12C17 0x1000003 a b c
  | .divz a b c => wordA7B12C17 0x1400003 a b c
  | .rem a b c => wordA7B12C17 0x1800003 a b c
  | .remz a b c => wordA7B12C17 0x1c00003 a b c
  | .divw a b c => wordA7B12C17 0x2000003 a b c
  | .divzw a b c => wordA7B12C17 0x2400003 a b c
  | .remw a b c => wordA7B12C17 0x2800003 a b c
  | .remzw a b c => wordA7B12C17 0x2c00003 a b c
  | .addi a b i => wordA7B12I17w15 0x5 a b i
  | .addiw a b i => wordA7B12I17w15 0x7 a b i
  | .andi a b i => wordA7B12I17w15 0x9 a b i
  | .ori a b i => wordA7B12I17w15 0xb a b i
  | .xori a b i => wordA7B12I17w15 0xd a b i
  | .slti a b i => wordA7B12I17w15 0xf a b i
  | .sltiz a b i => wordA7B12I17w15 0x11 a b i
  | .slli a n b => wordA7N17w6B12 0x13 a n b
  | .srli a n b => wordA7N17w6B12 0x20000013 a n b
  | .srai a n b => wordA7N17w6B12 0x40000013 a n b
  | .slliw a n b => wordA7N17w6B12 0x60000013 a n b
  | .srliw a n b => wordA7N17w6B12 0x80000013 a n b
  | .sraiw a n b => wordA7N17w6B12 0xa0000013 a n b
  | .lui a i => wordA7I12w20 0x15 a i
  | .auipc a i => wordA7I12w20 0x17 a i
  | .beq a b o => wordA7B12O20w12 0x19 a b o
  | .bne a b o => wordA7B12O20w12 0x20019 a b o
  | .blt a b o => wordA7B12O20w12 0x40019 a b o
  | .bge a b o => wordA7B12O20w12 0x60019 a b o
  | .blo a b o => wordA7B12O20w12 0x80019 a b o
  | .bhs a b o => wordA7B12O20w12 0xa0019 a b o
  | .jal a o => wordA7O12w20 0x1b a o
  | .jalr a b i => wordA7B12I17w15 0x1d a b i
  | .loop a L => wordA7L12w10 0x1f a L
  | .loopImm n L => wordN22w10L12w10 0x1f n L
  | .lit a o => wordA7O12w20 0x29 a o
  | .lb a b o => wordA7B12O20w12 0x21 a b o
  | .lh a b o => wordA7B12O20w12 0x20021 a b o
  | .lw a b o => wordA7B12O20w12 0x40021 a b o
  | .ld a b o => wordA7B12O20w12 0x60021 a b o
  | .lbz a b o => wordA7B12O20w12 0x80021 a b o
  | .lhz a b o => wordA7B12O20w12 0xa0021 a b o
  | .lwz a b o => wordA7B12O20w12 0xc0021 a b o
  | .sb a b o => wordA7B12O20w12 0x23 a b o
  | .sh a b o => wordA7B12O20w12 0x20023 a b o
  | .sw a b o => wordA7B12O20w12 0x40023 a b o
  | .sd a b o => wordA7B12O20w12 0x60023 a b o
  | .lqw a b c => wordA7B12C17 0x25 a b c
  | .lqd a b c => wordA7B12C17 0x400025 a b c
  | .sqw a b c => wordA7B12C17 0x800025 a b c
  | .sqd a b c => wordA7B12C17 0xc00025 a b c
  | .amoadd a b c => wordA7B12C17 0x80000027 a b c
  | .amoaddw a b c => wordA7B12C17 0x27 a b c
  | .amoswap a b c => wordA7B12C17 0x80400027 a b c
  | .amoswapw a b c => wordA7B12C17 0x400027 a b c
  | .amocas a b c => wordA7B12C17 0x80800027 a b c
  | .amocasw a b c => wordA7B12C17 0x800027 a b c
  | .amoand a b c => wordA7B12C17 0x80c00027 a b c
  | .amoandw a b c => wordA7B12C17 0xc00027 a b c
  | .amoor a b c => wordA7B12C17 0x81000027 a b c
  | .amoorw a b c => wordA7B12C17 0x1000027 a b c
  | .amoxor a b c => wordA7B12C17 0x81400027 a b c
  | .amoxorw a b c => wordA7B12C17 0x1400027 a b c
  | .amomin a b c => wordA7B12C17 0x81800027 a b c
  | .amominw a b c => wordA7B12C17 0x1800027 a b c
  | .amomax a b c => wordA7B12C17 0x81c00027 a b c
  | .amomaxw a b c => wordA7B12C17 0x1c00027 a b c
  | .amominz a b c => wordA7B12C17 0x82000027 a b c
  | .amominzw a b c => wordA7B12C17 0x2000027 a b c
  | .amomaxz a b c => wordA7B12C17 0x82400027 a b c
  | .amomaxzw a b c => wordA7B12C17 0x2400027 a b c
  | .vld a b c t m => wordA7B12C17T28w4M22w3 0x2b a b c t m
  | .vlds a b c t m => wordA7B12C17T28w4M22w3 0x200002b a b c t m
  | .vldx a b c t m => wordA7B12C17T28w4M22w3 0x400002b a b c t m
  | .vst a b c t m => wordA7B12C17T28w4M22w3 0x2d a b c t m
  | .vsts a b c t m => wordA7B12C17T28w4M22w3 0x200002d a b c t m
  | .vstx a b c t m => wordA7B12C17T28w4M22w3 0x400002d a b c t m
  | .vadd a b c w m => wordA7B12C17W25w2M22w3 0x2f a b c w m
  | .vsub a b c w m => wordA7B12C17W25w2M22w3 0x800002f a b c w m
  | .vmul a b c w m => wordA7B12C17W25w2M22w3 0x1000002f a b c w m
  | .vmulh a b c w m => wordA7B12C17W25w2M22w3 0x1800002f a b c w m
  | .vand a b c w m => wordA7B12C17W25w2M22w3 0x2000002f a b c w m
  | .vor a b c w m => wordA7B12C17W25w2M22w3 0x2800002f a b c w m
  | .vxor a b c w m => wordA7B12C17W25w2M22w3 0x3000002f a b c w m
  | .vsll a b c w m => wordA7B12C17W25w2M22w3 0x3800002f a b c w m
  | .vsrl a b c w m => wordA7B12C17W25w2M22w3 0x4000002f a b c w m
  | .vsra a b c w m => wordA7B12C17W25w2M22w3 0x4800002f a b c w m
  | .vmin a b c w m => wordA7B12C17W25w2M22w3 0x5000002f a b c w m
  | .vmax a b c w m => wordA7B12C17W25w2M22w3 0x5800002f a b c w m
  | .vminz a b c w m => wordA7B12C17W25w2M22w3 0x6000002f a b c w m
  | .vmaxz a b c w m => wordA7B12C17W25w2M22w3 0x6800002f a b c w m
  | .vabs a b w m => wordA7B12W25w2M22w3 0x7000002f a b w m
  | .vceq a b c w m => wordA7B12C17W25w2M22w3 0x7800002f a b c w m
  | .vclt a b c w m => wordA7B12C17W25w2M22w3 0x8000002f a b c w m
  | .vclo a b c w m => wordA7B12C17W25w2M22w3 0x8800002f a b c w m
  | .vsel a b c m => wordA7B12C17M22w3 0x9400002f a b c m
  | .vsat a b k w m => wordA7B12K17W25w2M22w3 0x9800002f a b k w m
  | .vfadd a b c m => wordA7B12C17M22w3 0x31 a b c m
  | .vfsub a b c m => wordA7B12C17M22w3 0x2000031 a b c m
  | .vfmul a b c m => wordA7B12C17M22w3 0x4000031 a b c m
  | .vfma a b c m => wordA7B12C17M22w3 0x6000031 a b c m
  | .vfms a b c m => wordA7B12C17M22w3 0x8000031 a b c m
  | .vfmin a b c m => wordA7B12C17M22w3 0xa000031 a b c m
  | .vfmax a b c m => wordA7B12C17M22w3 0xc000031 a b c m
  | .vfabs a b m => wordA7B12M22w3 0xe000031 a b m
  | .vfneg a b m => wordA7B12M22w3 0x10000031 a b m
  | .vfceq a b c m => wordA7B12C17M22w3 0x12000031 a b c m
  | .vfclt a b c m => wordA7B12C17M22w3 0x14000031 a b c m
  | .vfcle a b c m => wordA7B12C17M22w3 0x16000031 a b c m
  | .vfrcp a b m => wordA7B12M22w3 0x18000031 a b m
  | .vfrsq a b m => wordA7B12M22w3 0x1a000031 a b m
  | .vfexp a b m => wordA7B12M22w3 0x1c000031 a b m
  | .vshuf a b c w m => wordA7B12C17W26w2M22w3 0x33 a b c w m
  | .vbcast a b w m => wordA7B12W26w2M22w3 0x10000033 a b w m
  | .vmvx a b c w => wordA7B12C17W26w2 0x20000033 a b c w
  | .vslide a b c w m => wordA7B12C17W26w2M22w3 0x30000033 a b c w m
  | .vzip a b c w m => wordA7B12C17W26w2M22w3 0x40000033 a b c w m
  | .vuzp a b c w m => wordA7B12C17W26w2M22w3 0x50000033 a b c w m
  | .vreds a b w m => wordA7B12W26w2M22w3 0x60000033 a b w m
  | .vredm a b w m => wordA7B12W26w2M22w3 0x70000033 a b w m
  | .vfreds a b m => wordA7B12M22w3 0x88000033 a b m
  | .vfredm a b m => wordA7B12M22w3 0x98000033 a b m
  | .vcvt a d s b => wordA7D17w4S22w4B12 0xa0000033 a d s b
  | .mand a b c => wordA7B12C17 0x35 a b c
  | .mor a b c => wordA7B12C17 0x2000035 a b c
  | .mxor a b c => wordA7B12C17 0x4000035 a b c
  | .mnot a b => wordA7B12 0x6000035 a b
  | .mpop a b => wordA7B12 0x8000035 a b
  | .mset a b => wordA7B12 0xa000035 a b
  | .guard b => wordB12 0x37 b
  | .join j => wordJ22w1 0x2000037 j
  | .qjoin => 0x4000037
  | .qleave => 0x6000037
  | .accz n k => wordN24w1K17 0x8000037 n k
  | .packx b => wordB12 0x39 b
  | .packy b => wordB12 0x2000039 b
  | .packxf b => wordB12 0x4000039 b
  | .packyf b => wordB12 0x6000039 b
  | .packk b => wordB12 0x8000039 b
  | .muls n b => wordN24w1B12 0x3b n b
  | .mulj n b => wordN24w1B12 0x200003b n b
  | .mmar b => wordB12 0x400003b b
  | .extr d n b x => wordD7N24w1B12X22w1 0x3d d n b x
  | .extrf d n b x => wordD7N24w1B12X22w1 0x200003d d n b x
  | .accrd a n b => wordA7N24w1B12 0x400003d a n b
  | .accwr a n b => wordA7N24w1B12 0x600003d a n b
  | .accmv d s => wordD24w1S23w1 0x800003d d s
  | .tld a b => wordA7B12 0x3f a b
  | .tst a b => wordA7B12 0x200003f a b
  | .tlds a b => wordA7B12 0x400003f a b
  | .act b c => wordB12C17 0x41 b c
  | .pre b c => wordB12C17 0x2000041 b c
  | .rowq a b => wordA7B12 0x4000041 a b
  | .twait a b => wordA7B12 0x43 a b
  | .tchk a b => wordA7B12 0x2000043 a b
  | .cpy a => wordA7 0x45 a
  | .cpygo => 0x2000045
  | .cpyq a => wordA7 0x4000045 a
  | .send a b c v r => wordA7B12C17V22w2R24w1 0x47 a b c v r
  | .sendl a b v r => wordA7B12V22w2R24w1 0x2000047 a b v r
  | .reply b c => wordB12C17 0x4400047 b c
  | .msgx a b v => wordA7B12V22w2 0x6000047 a b v
  | .vread a b r => wordA7B12R24w1 0x49 a b r
  | .vwrite b c r => wordB12C17R24w1 0x2000049 b c r
  | .vamo a b c r => wordA7B12C17R24w1 0x4000049 a b c r
  | .tnew b c => wordB12C17 0x4b b c
  | .tdec b k => wordB12K22w3 0x200004b b k
  | .tarm b => wordB12 0x400004b b
  | .fence s => wordS22w3 0x4d s
  | .signal s b c => wordS22w3B12C17 0x200004d s b c
  | .bar s b => wordS22w3B12 0x400004d s b
  | .oxl a b => wordA7B12 0x4f a b
  | .oxs a b => wordA7B12 0x200004f a b
  | .oxc a b c => wordA7B12C17 0x400004f a b c
  | .srd a n => wordA7N17w12 0x51 a n
  | .swr a n b => wordA7N17w12B12 0x20000051 a n b
  | .sset a n b => wordA7N17w12B12 0x40000051 a n b
  | .sclr a n b => wordA7N17w12B12 0x60000051 a n b
  | .tret => 0x53
  | .tabort k => wordK22w1 0x2000053 k
  | .tspill => 0x4000053
  | .tfill => 0x6000053
  | .brk c => wordC17w8 0x8000053 c
  | .svc c => wordC17w8 0xa000053 c
  | .endStream => 0x55
  | .nop => 0x2000055
  | .qmap q => wordQ22w1 0x4000055 q
  | .jrec a b => wordA7B12 0x57 a b
  | .jseal a => wordA7 0x2000057 a
  | .emit b c => wordB12C17 0x4000057 b c
  | .rngb a b => wordA7B12 0x59 a b
  | .cMv d s => wordD5S10 0x2 d s
  | .cAddi d i => wordD5I10w6 0x4 d i
  | .cLi d i => wordD5I10w6 0x6 d i
  | .cAdd d s => wordD5S10 0x8 d s
  | .cSub d s => wordD5S10 0xa d s
  | .cAnd d s => wordD5S10 0xc d s
  | .cSlli d n => wordD5N10w6 0xe d n
  | .cSrli d n => wordD5N10w6 0x10 d n
  | .cLw d k => wordD5K10w6 0x12 d k
  | .cSw s k => wordS5K10w6 0x14 s k
  | .cBeq s o => wordS5w3O8w8 0x16 s o
  | .cBne s o => wordS5w3O8w8 0x18 s o
  | .cJ o => wordO5w11 0x1a o
  | .cEnd => 0x1c
  | .cNop => 0x1e
  | .illop _ => 0
  | .wdog _ => 0
  | .kill _ => 0
  | .residencyRelease _ => 0
  | .reservationClearEnd _ => 0
  | .overflowChainMove _ => 0
  | .dispatch => 0
  | .quadRemotePerform _ => 0
  | .quadUnitMerge => 0
  | .mcfg => 0
  | .mpack => 0
  | .mmarCommand => 0
  | .mzero => 0
  | .mextr => 0
  | .mstat => 0
  | .illcmd => 0
  | .slewGrant => 0
  | .slewLevelStep => 0
  | .sliceWorkEnd => 0
  | .rslewWrite _ => 0
  | .tileOpStart => 0
  | .vaultBeat => 0
  | .tileOpComplete => 0
  | .pageMapResume _ => 0
  | .actAtHead => 0
  | .preAtHead => 0
  | .activationEnd _ => 0
  | .prechargeEnd _ => 0
  | .refresh _ => 0
  | .refreshEnd _ => 0
  | .rowRepair _ _ => 0
  | .tempSample _ => 0
  | .copy _ => 0
  | .restripe _ => 0
  | .fill _ => 0
  | .hostrd _ _ => 0
  | .hostwr _ => 0
  | .drain _ => 0
  | .badCopyCommand _ => 0
  | .copyCompletion _ => 0
  | .chunkMove _ => 0
  | .restripeSwitch _ => 0
  | .translationWalk _ _ => 0
  | .tableEntryChange _ _ _ _ => 0
  | .dirtyLogMerge _ => 0
  | .harvest _ => 0
  | .messageEnqueue _ => 0
  | .messageDepart => 0
  | .signalDecrement => 0
  | .signalAck _ => 0
  | .scopeMissBounce => 0
  | .barrierArrival _ _ _ => 0
  | .agentVread _ => 0
  | .agentVwrite _ => 0
  | .agentVamo _ => 0
  | .vfaddc _ => 0
  | .vfence _ => 0
  | .agentCompletion => 0
  | .gangEnd _ => 0
  | .batchShip _ => 0
  | .batchStore _ _ _ _ => 0
  | .journalAck _ _ _ => 0
  | .snapTruncation _ => 0
  | .egressRelease _ => 0
  | .heartbeat _ => 0
  | .peerLost _ => 0
  | .bindingFreeze _ => 0
  | .windowShip _ _ _ => 0
  | .windowAck _ _ => 0
  | .replay _ _ _ _ _ => 0
  | .snapcfg _ _ => 0
  | .snapshotCut _ => 0
  | .pageCopy _ _ => 0
  | .shingleDrain => 0
  | .shingleAck _ _ => 0
  | .drainWalk _ _ => 0
  | .snapshotSeal _ => 0
  | .scanVisit _ => 0
  | .scanEnd _ _ => 0
  | .spareRemap _ _ => 0
  | .ringNotify _ _ _ => 0
  | .placeAndStart _ _ => 0
  | .placeOnly _ _ => 0
  | .start _ => 0
  | .cancel _ => 0
  | .sealReread _ => 0
  | .launchForward _ _ _ => 0
  | .readyReport _ _ _ => 0
  | .commit _ => 0
  | .launchAbort _ => 0
  | .selfAbort _ => 0
  | .armedStart _ => 0
  | .launchReconsider _ => 0
  | .saveStart _ _ _ => 0
  | .saveUnitAck _ => 0
  | .saveFault _ => 0
  | .saveResume _ => 0
  | .saveAbandon _ => 0
  | .restore _ _ _ => 0
  | .gate _ => 0
  | .wake _ => 0
  | .gateFall _ => 0
  | .wakeAdmit => 0
  | .wakeComplete _ => 0
  | .controlWrite _ _ => 0
  | .flitReceive _ _ _ _ => 0
  | .nakReceive _ _ => 0
  | .flitAck _ _ => 0
  | .laneFailure _ _ => 0
  | .retrainEnd _ => 0
  | .moduleDead _ _ => 0
  | .sidebandTimeout _ => 0
  | .fabricPacket _ _ _ => 0
  | .fabricAck _ _ => 0
  | .gapTimeout _ => 0
  | .resendTimeout _ _ => 0
  | .linkDead _ => 0
  | .linkReturn _ => 0
  | .timingPacket _ _ => 0
  | .hostRead _ _ => 0
  | .hostWrite _ _ _ => 0
  | .cciWrite _ => 0
  | .ringcfg _ _ => 0
  | .cringcfg _ _ => 0
  | .wincfg _ _ => 0
  | .dmawcfg _ _ => 0
  | .badcmd _ _ => 0
  | .fwload _ _ => 0
  | .imgload _ _ _ _ _ => 0
  | .imgdrop _ _ => 0
  | .imageForward _ _ => 0
  | .powerUp => 0
  | .readyDeadline _ => 0
  | .hostMapTimeout => 0
  | .fabricNak _ _ => 0
  | .moduleRetrain _ _ => 0
  | .controllerFailure _ => 0

end Sys2Proof
end

