-- ==== Sys2Proof/Machine/State.lean ====
section
/-! DEFINITION. The state of the machine, as plain data: one core of the MB9-800 with the parts of its quad, its stack, its
package and its links that its programs and the device steps of the opcode table touch. -/

namespace Sys2Proof.Machine

/-- A byte memory: address and byte pairs, addresses strictly rising, no pair equal to the unlisted value 0. Log entry 6 (DESIGN CHOICE). -/
abbrev Mem := List Host.Cell

/-- A sparse table: keys strictly rising, no entry equal to the table's default. -/
abbrev Table (α : Type) := List (Nat × α)

/-- Keys strictly rise and no entry holds the default: the canonical form of a sparse table. -/
def Table.wf {α : Type} [DecidableEq α] (d : α) : Table α → Bool
  | [] => true
  | [(_, v)] => decide (v ≠ d)
  | (k, v) :: (k', v') :: rest => decide (v ≠ d) && decide (k < k') && Table.wf d ((k', v') :: rest)

/-- The canonical form of a byte memory: what an unlisted address reads as is the byte 0. Log entry 6 (DESIGN CHOICE). -/
def Memory.wf (m : Mem) : Bool := Table.wf (0 : Byte) m

/-- The kind of a stream (R13). -/
inductive Kind where
  | L | A | E
deriving DecidableEq, Repr

/-- One level of a stream's loop stack: start, end, remaining count (R103). -/
structure Loop where
  start : Word
  stop : Word
  remaining : Word
deriving DecidableEq, Repr

/-- The trap record of one level: TCAUSE, TEPC, TINFO, TMSG (R24, R25). -/
structure TrapRecord where
  cause : Word
  epc : Word
  info : Word
  msg : Word
deriving DecidableEq, Repr

/-- A TSPILL or TFILL in progress (R224, R225, R233): whether it writes, the address of its area with its page's word, the bytes that it writes or
has read, and the columns done. -/
structure Area where
  wr : Bool
  va : Nat
  word : Word
  bytes : List Byte
  done : Nat
deriving DecidableEq, Repr

/-- A stream slot and its stream (R11, R19 to R22, R24). The lists hold the innermost loop level first; tileBad is the first status
other than DONE among the stream's tile operations (R182); area is a TSPILL or TFILL in progress; due is a trap (cause, TEPC, TINFO) that waits for the stream's slice work (R162);
entered is the deepest level that the stream has entered (R309); wait is W of R298, and stalled marks an answer in which the instruction has not
issued. -/
structure Stream where
  active : Bool
  res : ResIx
  kind : Kind
  pc : Word
  x : Vector Word 32
  v : Vector VWord 32
  m : Vector (BitVec 16) 8
  ox : Vector (BitVec 128) 8
  qm : Bool
  fmode : BitVec 2
  fflags : BitVec 5
  tlevel : BitVec 2
  tvec : Word
  tsave : Word
  tsavelen : Word
  traps : Vector TrapRecord 2
  xbank : Vector (Vector Word 8) 2
  loops : List Loop
  loopBank : Vector (List Loop) 2
  tileBad : Option Word
  due : Option (Nat × Word × Word)
  entered : BitVec 2
  area : Option Area
  wait : Nat
  stalled : Bool
deriving DecidableEq, Repr

/-- An entry of a task's send buffer (R202, R203, R210, R214, R228). -/
inductive BufEntry where
  | msg (m : Msg)
  | fence (scope : BitVec 3)
  | bar (scope : BitVec 3) (off : Word)
  | emit (m : Msg) (nd : Bool) (dep : Word)
deriving DecidableEq, Repr

/-- What started an activation (R12, R285). -/
inductive Trigger where
  | message (m : Msg)
  | record (off : Nat)
  | launch
deriving DecidableEq, Repr

/-- The running task of a residency: its trigger, its slots, its send buffer, its BUDGET with the expiries seen so far, the graces given, the
streams that still owe a WDOG for the first expiry and for the second, the six queues of the group, and the cycle in which each entry of the buffer was
issued (R13, R21, R26, R202, R209, R304). -/
structure Task where
  trigger : Trigger
  slots : BitVec 4
  sendBuf : List BufEntry
  budget : Word
  expiries : Nat
  graces : Nat
  owed : BitVec 4
  owedAgain : BitVec 4
  sq : Vector (List Word) 4
  vq : Vector (List VWord) 2
  ages : List Word
deriving DecidableEq, Repr

/-- STATE of a bind record (R291). -/
inductive BindState where
  | free | bound | armed | running | draining | saving
deriving DecidableEq, Repr

/-- A handler or task descriptor: the entries and kinds of its streams and its frame (R403). -/
structure Descriptor where
  eaddr : BitVec 16
  aaddr : BitVec 16
  laddr : BitVec 16
  kinds : BitVec 3
  frame : BitVec 16
deriving DecidableEq, Repr

/-- The ROLE section of an image: the role's name without its padding, .entry, the image values of TVEC, TSAVE, TSAVELEN and BFMT, handlers by index, tasks in
order, and the code halfwords with their tags, true for data (R403, R404). -/
structure Role where
  name : List Byte
  entry : Option (BitVec 16)
  tvec : Word
  tsave : Word
  tsavelen : Word
  bfmt : Vector (BitVec 10) 16
  handlers : Table Descriptor
  tasks : List Descriptor
  code : List (BitVec 16 × Bool)
deriving DecidableEq, Repr

/-- A granule's records: the last writer and the reader mask (R123). -/
structure Granule where
  writer : Option (BitVec 2)
  readers : BitVec 4
deriving DecidableEq, Repr

/-- The sealed or unsealed journal batch (R227): its records and the tick at which the last one was staged (R377). -/
structure Batch where
  slots : List JSlot
  staged : Word
deriving DecidableEq, Repr

/-- STATE of a journal binding (R375). -/
inductive BindingState where
  | absent | bound | changing
deriving DecidableEq, Repr

/-- The journal state of a residency: the binding (R375), records staged and not sealed with the tick of the last, sealed batches not yet shippable, the
number of covered records (R380), the highest number shipped under the present PGEN, the egress gate (R228), the local window with
its slots in ring order, each live or truncated, and the ring position of the first (R378), whether a window ship awaits its
acknowledgement (R381), whether a window write waits at a fault (R378), and the time of the last heartbeat or traffic (R379). -/
structure Journal where
  state : BindingState
  pgen : BitVec 8
  ppkg : BitVec 17
  pstk : BitVec 2
  jid : BitVec 16
  jgrp : BitVec 16
  lnw : BitVec 4
  lbase : BitVec 48
  unsealed : List JSlot
  lastStaged : Word
  batches : List Batch
  unshipped : List (List JSlot)
  covered : Word
  applied : Option Word
  shipped : Option Word
  gate : List BufEntry
  window : List (JSlot × Bool)
  windowPos : Nat
  windowOut : Bool
  faulted : Bool
  lastHeard : Word
  peerLost : Bool
deriving DecidableEq, Repr

/-- A kill that waits for the slice work of the residency's streams, with what its report names (R162, R309). -/
structure KillDue where
  slot : Option SlotIx
  reason : Nat
  cause : Nat
  epc : Word
  info : Word
deriving DecidableEq, Repr

/-- A residency and its bind record (R16, R17, R24, R37, R39, R291). -/
structure Residency where
  state : BindState
  prio : BitVec 3
  kinds : BitVec 3
  slots : BitVec 4
  accs : BitVec 7
  quadMapped : Bool
  eh : Bool
  hidx : BitVec 8
  ibase : BitVec 9
  ilen : BitVec 9
  gang : BitVec 16
  gen : BitVec 4
  asid : Asid
  spbase : BitVec 16
  spsize : BitVec 16
  role : Role
  spflag : Word
  raceinfo : Word
  jseq : Word
  jack : Word
  nseq : BitVec 32
  appended : List (Nat × BitVec 32)
  handedOver : List (Nat × BitVec 32)
  copyOwner : Table (BitVec 4)
  copyIssued : Table Word
  lastCseq : BitVec 32
  nextTag : BitVec 32
  lastTag : BitVec 32
  statuses : List (BitVec 32 × Word)
  completed : Nat
  ovHead : Option Nat
  ovTail : Option Nat
  sinks : Nat
  pendingSignals : Nat
  abortCount : Nat
  killDue : Option KillDue
  killed : Bool
  quadRemote : Bool
  phase : Nat
  granules : Table Granule
  arrivals : List (BitVec 3 × Word)
  armed : List Nat
  clearing : Bool
  launchReady : Bool
  launchHeld : Bool
  readyAt : Nat
  freeSince : Word
  budget : Word
  startTick : Word
  args : Vector Word 4
  task : Option Task
  journal : Journal
  saveVa : Word
  saveLen : Word
  saveProgress : Nat
  saveFaulted : Bool
  mail : Bool
  mailSinks : Nat
deriving DecidableEq, Repr

/-- One digit's side state in an accumulator: exponent and the flags N, P, M (R67, R68). -/
structure DigitSide where
  exp : Int
  n : Bool
  p : Bool
  m : Bool
deriving DecidableEq, Repr

/-- An accumulator: value, side vector by digit, count and poison (R23). Log entry 12 (DEDUCED). -/
structure Acc where
  value : BitVec 4352
  side : Table DigitSide
  count : BitVec 32
  poison : Bool
deriving DecidableEq, Repr

/-- The special code of an element or digit (R66). -/
inductive Code where
  | pos | neg | zero | nan | pinf | ninf
deriving DecidableEq, Repr

/-- Side data of a buffer position: code and scale exponent (R147). -/
structure Side where
  code : Code
  scale : Int
deriving DecidableEq, Repr

/-- The three local spaces of the engines (R176, R189). -/
inductive Space where
  | xbuf | ybuf | spad
deriving DecidableEq, Repr

/-- An entry of the range-lock table (R121, R184, R191): its space, the byte ranges that it covers, the mode (write: WR), and its place in
the order of registration; for a lock of a copy record, the residency and the record's offset. -/
structure Lock where
  space : Space
  ranges : List (Nat × Nat)
  wr : Bool
  stamp : Nat
  owner : Option (ResIx × Nat)
deriving DecidableEq, Repr

/-- What an entry of the engine queue asks for (R173). -/
inductive EngKind where
  | tld | tst | tlds | act | pre
deriving DecidableEq, Repr

/-- An entry of the core's engine queue: the operation with its descriptor, tag, issuing stream and residency, its lock, and how
far it has come (R173, R178, R179): beats performed, the status it has ended with, whether it has started, the reason of the translation
fault at which it waits (0: none), the pages it has checked with their words, whether its stream still runs, and whether a FENCE of
that stream waits for it, and the cycle of its issue (R209). -/
structure EngOp where
  kind : EngKind
  res : ResIx
  slot : SlotIx
  desc : BitVec 128
  va : Word
  len : Word
  tag : BitVec 32
  lock : Option (Fin 8)
  started : Bool
  beats : Nat
  ended : Option (BitVec 8 × BitVec 8)
  faultWhy : Nat
  pages : List (Nat × Word)
  owned : Bool
  fenced : Bool
  at_ : Word
deriving DecidableEq, Repr

/-- A quad-remote access that has issued and is not yet performed (R126), or the upper half of an access of this core that spans two banks
(R112): the bytes already performed, with what they held, whether the value is sign-extended, the gang that issued it, and the size of the reservation
by which its bytes were in range when it committed (R28, R120), and the cycle of its issue (R209). -/
structure Remote where
  slot : SlotIx
  res : ResIx
  target : BitVec 2
  off : Word
  n : Nat
  write : Bool
  data : Word
  rd : Reg
  signed : Bool
  done : Nat
  low : Nat
  queued : Bool
  fenced : Bool
  gang : BitVec 16
  size : Nat
  at_ : Word
deriving DecidableEq, Repr

/-- The shape of a vector access: the memory format (none in the raw form), the base offset, the bits of a memory element, and the byte
offset of each element's first byte. -/
structure VecShape where
  kind : Nat
  fmt : Option (BitVec 10)
  base : Int
  ebits : Nat
  n : Nat
  width : Nat
  at_ : List Int
deriving DecidableEq, Repr

/-- A byte of a vector access: its offset in the reservation, the bits of it that a store writes, and their value. -/
abbrev VecCell := Nat × Byte × Byte

/-- Where a vector load puts what it has read: the register, the element type, the governing mask, and the shape of the access. -/
structure VecDest where
  reg : Reg
  t : BitVec 4
  m : BitVec 16
  shape : VecShape
deriving DecidableEq, Repr

/-- A vector access that has issued and is not yet performed whole (R132, R142): the slot that issued it, its bank accesses still to be performed, in
order, the bytes read so far by offset, the flags of its conversions (a store's), and for a load its destination. -/
structure VecRun where
  slot : SlotIx
  pieces : List (List VecCell)
  got : Mem
  flags : BitVec 5
  dest : Option VecDest
deriving DecidableEq, Repr

/-- The mode of a slew unit (R337). -/
inductive SlewMode where
  | idle | work | fill
deriving DecidableEq, Repr

/-- An operation of slice work: its work count, the slot of the stream that issued it, for a matrix command the command with its answer, and the
residency it acts for (R162, R171, R337). -/
structure SliceWork where
  count : Nat
  slot : Option SlotIx
  reply : Option (Msg × Msg)
  res : Option ResIx
deriving DecidableEq, Repr

/-- The slew unit of the core's slice pair, or of the quad while it is joined (R337): mode, level, step counter, work
done in eighths of a cycle, the operations present, the cycle in which its wait for a grant began (R339), and its own count of cycles. -/
structure Slew where
  mode : SlewMode
  level : Nat
  t : Nat
  acc : Nat
  work : List SliceWork
  quadUnit : Bool
  since : Option Nat
  clock : Nat
deriving DecidableEq, Repr

/-- A unit that waits for a grant: since when, its logical core, and 2 for a quad unit, else 1 (R339). -/
structure SlewWait where
  since : Nat
  core : Nat
  weight : Nat
deriving DecidableEq, Repr

/-- A slew region: RSLEW (R340), the grants of the last cycles with their weights, and the other units that wait, in order (R339). -/
structure SlewRegion where
  cap : BitVec 4
  gcnt : BitVec 16
  recent : List (Nat × Nat)
  waiting : List SlewWait
deriving DecidableEq, Repr

/-- A receive-queue entry: the message, the residency it is for, whether it is held by its activation, when it became ready (R198,
R297), and the tick of its arrival (R317). -/
structure RxEntry where
  m : Msg
  res : ResIx
  held : Bool
  at_ : Nat
  tick : Word
deriving DecidableEq, Repr

/-- An entry of the ready queue: residency, record offset and when it became ready (R39). -/
structure ReadyEntry where
  res : ResIx
  off : Nat
  at_ : Nat
deriving DecidableEq, Repr

/-- The core outside its streams and residencies (R23 to R25, R27, R34, R39, R121, R148, R173, R198). acts are the ACTs that have left the engine queue
while a walk for them waits: address space and range (R173, R187). Log entry 16 (DESIGN CHOICE). -/
structure Core where
  id : BitVec 15
  pkg : BitVec 17
  agelim : BitVec 16
  cycle : Word
  bfmt : Vector (BitVec 10) 16
  spad : Mem
  spadBad : List Nat
  xbuf : Mem
  ybuf : Mem
  xside : Table Side
  yside : Table Side
  xBad : List Nat
  yBad : List Nat
  accs : Vector Acc 64
  sq : BitVec 5
  wx : BitVec 7
  wy : BitVec 7
  jm : BitVec 2
  locks : Vector (Option Lock) 8
  stamp : Nat
  engQ : List EngOp
  acts : List (Asid × Nat × Nat)
  rxReq : List RxEntry
  rxRpy : List RxEntry
  rxSys : List RxEntry
  portQ : List Msg
  readyQ : List ReadyEntry
  remote : List Remote
  vecRun : Option VecRun
  slew : Slew
deriving DecidableEq, Repr

/-- What a quad-mate holds for a gang: its KINDS, its reservation with its uncorrectable words, and the records that accesses meet there (R32, R121 to
R124, R301). Log entries 1 and 20 (DESIGN CHOICE). -/
structure MateRes where
  gang : BitVec 16
  kinds : BitVec 3
  spbase : BitVec 16
  spsize : BitVec 16
  mem : Mem
  bad : List Nat
  granules : Table Granule
  quadRemote : Bool
  accs : Bool
  killed : Bool
deriving DecidableEq, Repr

/-- A quad-mate: its residencies, its range locks, its claim to join the quad, and the mode and level of its slice pair with whether that holds
unfinished work (R121, R150, R341). Log entries 1 and 20 (DESIGN CHOICE). -/
structure Mate where
  residencies : List MateRes
  locks : Vector (Option Lock) 8
  claim : Bool
  mode : SlewMode
  level : Nat
  busy : Bool
deriving DecidableEq, Repr

/-- The copy command of a chain that is in progress (R193, R279): the record's offset, whether it has ended and with which status,
detail and bytes done, the reason of the translation fault at which it waits (0: none), the bytes read of the present piece and those still to be
written (R233), and for a re-stripe the page, the number of chunks moved so far, the columns of the next chunk that have moved, and whether MIG has been
set for that page; at its completion whether DONE has been written, and the record still to be decremented (R193, R233). -/
structure CopyRun where
  off : Nat
  ended : Bool
  status : BitVec 8
  detail : BitVec 8
  done : Nat
  faultWhy : Nat
  got : List Byte
  out : Option (List Byte)
  page : Nat
  chunk : Nat
  col : Nat
  moving : Bool
  wrote : Bool
  decr : Option Nat
deriving DecidableEq, Repr

/-- The quad: instruction store with its tags (a halfword is code when its key is listed; R33, R336), uncorrectable
instruction words, whether images wait to be loaded again after a wake (R336), quad-mates, this core's claim, a release's QLEAVE that waits for slice
work (R150), the copy engine's command in progress for each residency with the chain that it served last (R193), and the scan's hold
(R192, R393). The dirty logs and access tables are those of all quads of the package: an entry names its quad, logical number with
the stack above it, and an access table entry is listed under quad × 4,096 + ASID (R276, R370). Log entry 16 (DESIGN CHOICE). -/
structure Quad where
  istore : Mem
  code : List Nat
  istoreBad : List Nat
  mates : Vector Mate 4
  claim : Bool
  leaveDue : Bool
  reload : Bool
  copyRun : Vector (Option CopyRun) 4
  copyTurn : Nat
  dirtyLog : List (BitVec 13 × Asid × Vpn × Bool)
  access : Table (BitVec 32)
  scanHold : Bool
deriving DecidableEq, Repr

/-- What a vault bank does besides holding a row open (R258 to R261): refreshRepair is a refresh that has fallen due during a repair. -/
inductive BankBusy where
  | idle | activating (row : Nat) | precharging | refreshing | repairing (row : Nat) | refreshRepair (row : Nat)
deriving DecidableEq, Repr

/-- A bank of the core's own vault (R253, R259 to R261): its open row, what it is busy with, the row commands that wait for it (a
row to open, or none to close it), a refresh that has fallen due, corrected errors by row, the spare rows used, and whether it has been reported
as having none left. -/
structure Bank where
  openRow : Option Nat
  busy : BankBusy
  want : List (Option Nat)
  refreshDue : Bool
  corrections : Table Nat
  spares : Nat
  full : Bool
deriving DecidableEq, Repr

/-- An entry of a translation buffer (R270, R276). -/
structure TlbEntry where
  asid : Asid
  vpn : Vpn
  word : Word
  mark : Option Bool
deriving DecidableEq, Repr

/-- A source of beats (R257): the tile engine, a chain of the copy engine, a stream's TSPILL or TFILL, or a column of an agent's request. -/
inductive Claimant where
  | tile
  | copy (r : ResIx)
  | spill (slot : SlotIx)
  | agent (job : Nat) (col : Nat)
  | host (access : Nat)
deriving DecidableEq, Repr

/-- A beat that waits in the queue of its bank (R257). -/
structure Beat where
  vault : Nat
  bank : BankIx
  who : Claimant
deriving DecidableEq, Repr

/-- Vault memory of the package by place (what no logical quad of this stack names stands above it, R253), the beats that wait, in arrival order, its bad words, words with a single-bit error, columns whose next beats fail their parity
(an entry for each failure), the core's own banks and layers, the translation buffers, table roots, the harvest number with
the pages that the last harvest reported, the harvest marks of other vaults' controllers (R276), snapshot epochs, the placements that the stack manager
has prepared for a mapping (R269, R414), and what the stack manager is told: table repairs, bus errors, malformed entries (R253 to R279, R389). Log entry
16 (DESIGN CHOICE). -/
structure Vault where
  mem : Mem
  bad : List Nat
  flipped : List Nat
  busBad : List Nat
  banks : Vector Bank 16
  beats : List Beat
  hot : Vector Bool 8
  throttled : Vector Bool 8
  ctrlBuf : List TlbEntry
  stackBuf : List TlbEntry
  roots : Table Word
  harvest : Nat
  harvested : List (Asid × Vpn)
  marks : List (Nat × Asid × Vpn × Bool)
  epochs : Table (BitVec 4)
  filled : List Word
  repairs : Nat
  busErrors : Nat
  malformed : Nat
deriving DecidableEq, Repr

/-- A request that waits at a vault agent or whose internal completion is on its way (R206, R235): the message, whether this core sent it,
the vault it was routed to, its number, the reason of the translation fault at which it waits (0: none), the status and detail it has ended
with, the bytes served, the placement word once it stands in its banks' queues (in a page under re-striping that of its chunk's holder, R242), the bytes
that its agent serves (R208), the page offsets of the columns not yet moved, and the bytes read (R257). -/
structure AgentJob where
  m : Msg
  own : Bool
  vault : Nat
  id : Nat
  faultWhy : Nat
  status : BitVec 8
  detail : BitVec 8
  served : Nat
  word : Option Word
  span : Nat
  left : List Nat
  got : Mem
deriving DecidableEq, Repr

/-- An entry that a task's end released to the network interface, in order, with the residency, the gang and the send buffer it came from, and the cycle
in which it was issued (R204, R209). -/
structure Released where
  res : ResIx
  gang : BitVec 16
  buf : Nat
  e : BufEntry
  at_ : Word
deriving DecidableEq, Repr

/-- A message of this core that has left its interface and is not yet performed (R203, R235): its gang, its send buffer, the core or vault it
goes to, and for a request the placement word under which it was sent (R242). -/
structure Flight where
  m : Msg
  gang : BitVec 16
  buf : Nat
  dest : BitVec 32
  word : Word
deriving DecidableEq, Repr

/-- A context that is switched out (R314, R317): it was saved from this core; what of it stays with the device: its gang, journal
binding, sinks, unacknowledged SIGNALs, barrier arrivals, armed records, and a launch task that has not run. -/
structure Away where
  asid : Asid
  gen : BitVec 4
  gang : BitVec 16
  journal : Journal
  sinks : Nat
  pendingSignals : Nat
  arrivals : List (BitVec 3 × Word)
  armed : List Nat
  launchHeld : Bool
deriving DecidableEq, Repr

/-- The network interface of the core (R198, R203, R204, R209 to R211, R317): flying are this core's messages that are not yet performed, leaving
are replies of the device on their way out, acks the SIGNALs of other cores that it has acknowledged, mesh the messages on their way to other cores
and packages, sent those that have arrived there, and nextId the next number of a send buffer or a request; inTicks are the ticks at which the inbound
messages arrived (R317). Log entry 1 (DESIGN CHOICE). -/
structure Net where
  outbound : List Released
  inbound : List Msg
  inTicks : List Word
  signals : List Msg
  bounces : List Msg
  agentQ : List AgentJob
  completions : List AgentJob
  flying : List Flight
  nextId : Nat
  leaving : List Msg
  acks : List Msg
  mesh : List Msg
  sent : List Msg
  arrivals : List (BitVec 16 × BitVec 3 × BitVec 32 × Word)
  spillAreas : List (Asid × BitVec 4 × Word)
  switchedOut : List Away
deriving DecidableEq, Repr

/-- A launch that waits for a placement (R294): its packet, its ring, its ring position, the package that forwarded it, if one did, the tick
since which it waits, and the other packages that have reported with their status (R296). -/
structure Waiting where
  packet : BitVec 1024
  ring : Option (Fin 24)
  pos : BitVec 32
  forwarded : Option (BitVec 17)
  since : Word
  ready : List (BitVec 17 × BitVec 8)
deriving DecidableEq, Repr

/-- A gang in the gang table (R291, R292, R296): its generation and packet, whether it has started, whether a residency was killed,
the package whose front end took the launch, if another one, the ring and position of its record, the packages that have reported with their
status, whether it is committed, the cores that are members of its barriers, those on which a residency of it has not been released, and the
first bank of its reservations in this core's quad. -/
structure Gang where
  gang : BitVec 16
  gen : BitVec 4
  packet : BitVec 1024
  started : Bool
  anyKilled : Bool
  forwarded : Option (BitVec 17)
  ring : Option (Fin 24)
  pos : BitVec 32
  ready : List (BitVec 17 × BitVec 8)
  committed : Bool
  members : List (BitVec 32)
  holders : List (BitVec 32)
  bank : BitVec 4
deriving DecidableEq, Repr

/-- What a launch front end or a stack manager sends to another package's stack manager (R296). -/
inductive LaunchMsg where
  | forward (packet : BitVec 1024) (n : BitVec 32)
  | commit (gang : BitVec 16)
  | abort (gang : BitVec 16)
  | report (gang : BitVec 16) (status : BitVec 8)
deriving DecidableEq, Repr

/-- A launch ring (R289, R290): host rings 0 to 7, device rings 8 to 23. -/
structure Ring where
  bound : Bool
  base : BitVec 48
  k : BitVec 4
  asid : Asid
  pi : BitVec 32
  ci : BitVec 32
  rereads : Nat
  doorbell : Option (Asid × BitVec 48)
deriving DecidableEq, Repr

/-- An image of the image table (R405, R409): loaded or loading, roles, placement entries and boot tree, the quads that hold their roles,
the region in the core's quad, the mailbox of its IMGLOAD, and whether that asked for vector 0. -/
structure Image where
  index : BitVec 8
  loaded : Bool
  mail : Fin 4
  irq : Bool
  roles : List Role
  placement : List (BitVec 15 × BitVec 15 × BitVec 6)
  tree : List (BitVec 11 × List (BitVec 11))
  holding : List (BitVec 11)
  base : BitVec 9
  size : BitVec 9
deriving DecidableEq, Repr

/-- The boot state of R412. -/
inductive BootState where
  | reset | rom | fwcheck | bringup | ready | failed
deriving DecidableEq, Repr

/-- The stack manager and the launch front end (R283 to R300, R306, R309, R310, R412). gens holds the next GEN of each ASID, launchOut what has been
sent to other packages' stack managers (R296, R310), candidates the end bounds that other cores give the quads of a waiting launch's range: gang, quad and
bound (R294), and notices is what the device tells the stack
manager's firmware, a code and a value: 1 a save that did not start (R312), 2 a save's fault (R315), 3 a refused restore (R318), 4 a lost
journal partner, or the lost serving side of a window (R379), 5 a journal window's fault (R378), 6 discarded retry-buffer messages (R356), 7 a lost vault (R397), 8 an address
space in a failed quad's touched sets (R396), 9 a sequence whose replay was refused (R386), 10 an error of a host write (R366), 11 the journal window of a residency that a retired quad lost
(R396), 12 an unsynchronised time base (R361), 13 a lost crossing (R356), 14 a full or faulting spill area (R317), 15 a restore's page fault (R318). Log entries 1 and 47 (DESIGN CHOICE). -/
structure Mgr where
  boot : BootState
  tick : Word
  corrected : Word
  synced : Bool
  occ : BitVec 5
  rings : Vector Ring 24
  gangs : List Gang
  gens : Table Nat
  launchOut : List (BitVec 17 × LaunchMsg)
  waiting : List Waiting
  candidates : List (BitVec 16 × BitVec 13 × Nat)
  images : List Image
  abortLog : List (Word × Word × Word × Word)
  abortOverflow : BitVec 32
  killQueue : List (BitVec 1024)
  dlcnt : BitVec 32
  dlhdr : Option (Word × Word)
  dlwhy : BitVec 8
  hostEntries : List (Word × Word × BitVec 6)
  reports : List (BitVec 16 × BitVec 8 × BitVec 8)
  quadMap : Table Nat
  notices : List (Nat × Word)
deriving DecidableEq, Repr

/-- STATE of QPWR (R331). -/
inductive QuadPower where
  | on | closing | gated | waking
deriving DecidableEq, Repr

/-- QPWR of a physical quad (R331), with a wake asked for while closing (R335). -/
structure Qpwr where
  state : QuadPower
  bb : BitVec 4
  bbnow : BitVec 4
  err : Bool
  queued : Bool
  wakeKept : Bool
deriving DecidableEq, Repr

/-- Power control of the stack: QPWR of the quads (those not listed are GATED as at power-up), the queue of the in-rush arbiter, each wake
with the cycle in which it was queued, the quads that wake, the slew regions, the other logical quads of this stack that hold a bind record or a copy
command (R332), and the quads of other stacks whose ports are closed (R331 to R336, R339). -/
structure Power where
  quads : List (Nat × Qpwr)
  queue : List (Nat × Word)
  waking : List Nat
  regions : Vector SlewRegion 30
  inUse : List (BitVec 11)
  closed : List (BitVec 13)
deriving DecidableEq, Repr

/-- A number of slots for each network (R352). -/
structure Credits where
  req : Nat
  rpy : Nat
  sys : Nat
deriving DecidableEq, Repr

/-- A UCIe module, seen from this stack: the transmitter's next number, its retry buffer and the flits it last sent again, the receiver's
expected number with what it answers, its width, whether it trains or is dead, the messages that wait for a flit, the replies of far agents that wait to
cross, the free slots of the far receiver, and the slots to return to it (R351 to R356); far is the number that the far receiver expects, and told the E that
a dead module's receiver has reported over the sideband (R356). -/
structure Module where
  next : BitVec 8
  retry : List (BitVec 8 × Flit)
  resent : List (BitVec 8)
  expected : BitVec 8
  nakOut : Option (BitVec 8)
  ackOut : Option (BitVec 8)
  narrow : Bool
  training : Bool
  dead : Bool
  pendingTx : List Msg
  inbox : List Msg
  credit : Credits
  owed : Credits
  far : BitVec 8
  told : Option (BitVec 8)
deriving DecidableEq, Repr

/-- A fabric flow at the destination (expected number, reorder buffer, answers) and at the source (next number, packets kept, and the sendings of
packets with the port of the package and the fabric links that each took) (R358, R359). -/
structure Flow where
  next : BitVec 32
  held : List (BitVec 32 × Msg)
  kept : List (BitVec 32 × Msg)
  paths : List (BitVec 32 × Fin 8 × List Nat)
  sendNext : BitVec 32
  nakOut : Option (BitVec 32)
  ackOut : Option (BitVec 32)
deriving DecidableEq, Repr

/-- The package links and pod fabric of the stack (R350 to R361): modules 0 to 3 of its east–west pair and 4 to 7 of its north–south
pair, the flows by number, the ports that are dead, the fabric's paths in the adaptive tables, each a port and the fabric links after it, and the fabric
links that are reported dead (R358, R360). Log entries 1 and 39 (DESIGN CHOICE). -/
structure Link where
  modules : Vector Module 8
  flows : List (Nat × Flow)
  portDead : Vector Bool 8
  fabric : List (Fin 8 × List Nat)
  fabricDead : List Nat
deriving DecidableEq, Repr

/-- A DMA window (R365, R368). -/
structure DmaWindow where
  entry : Word
  base : Word
  length : Word
deriving DecidableEq, Repr

/-- A mailbox (R364, R365): the command and body doublewords that the driver has written, the status, and the response. -/
structure Mailbox where
  command : Word
  body : Table Word
  status : Word
  response : List Word
deriving DecidableEq, Repr

/-- A BAR 2 access in progress (R365 to R367): its offset, length, the bytes of a write and whether it has the relaxed-ordering attribute; the window entry
under which it arrived; the number of bytes performed, and those read; and its number. -/
structure HostAccess where
  off : BitVec 36
  len : Nat
  data : Option (List Byte)
  relaxed : Bool
  win : Word
  done : Nat
  got : List Byte
  id : Nat
deriving DecidableEq, Repr

/-- An IMGLOAD whose file has still to be read: its mailbox, whether it asks for vector 0, its body, and the stack manager's choices (R364, R409). -/
structure ImageLoad where
  mail : Fin 4
  irq : Bool
  body : List Word
  index : BitVec 8
  base : BitVec 9
  room : Bool
deriving DecidableEq, Repr

/-- A firmware load: its mailbox, whether it asks for vector 0, and the file, once the host's memory has been read (R413). -/
structure Firmware where
  mail : Fin 4
  irq : Bool
  file : Option (List Byte)
deriving DecidableEq, Repr

/-- The host link (R362 to R369, R412): the windows, the completion ring (once CRINGCFG has set it), the vectors raised so far, the MSI-X table by
doublewords, the stack managers' mailboxes and the one whose command is served, the boot states that the other stacks report, the bytes written to the
host, what the last read of BAR 0 or BAR 2 to end returned (none: Unsupported Request), the BAR 2 accesses in progress, oldest first, the count of
refused writes, the vectors that wait behind their masks, the notify writes that wait, each with the numbers of the writes it waits for (R367), the image
files that have still to be read, and the firmware load. Log entry 51 (DESIGN CHOICE, PRESUMED). -/
structure HostLink where
  windows : Table Word
  dma : Vector DmaWindow 16
  cringSet : Bool
  cringBase : Word
  cringK : BitVec 4
  cpi : BitVec 32
  cci : BitVec 32
  msix : List Nat
  msixTable : Table Word
  mailboxes : Vector Mailbox 4
  mailAt : Fin 4
  stackBoots : Vector BootState 4
  written : List (Word × Byte)
  readData : Option (List Byte)
  pending : List HostAccess
  refusedWrites : Nat
  vectorsHeld : List Nat
  notifies : List (Fin 8 × BitVec 32 × List Nat)
  loads : List ImageLoad
  firmware : Option Firmware
deriving DecidableEq, Repr

/-- A snapshot in progress (R387 to R392), ordered through a mailbox: failed is the reason of R388, refuser the endpoint that refused. -/
structure Snapshot where
  mail : Fin 4
  asid : Asid
  step : BitVec 32
  tick : Word
  endpoints : List (BitVec 17)
  copied : Nat
  cut : Bool
  failed : BitVec 8
  refuser : BitVec 17
deriving DecidableEq, Repr

/-- A shingle: the stack that holds it, the header with the page's address, STEP, T and SE, the page's bytes, and the endpoint to which it has been sent,
if it has (R391). -/
structure Shingle where
  stack : Fin 4
  asid : Asid
  vpn : Vpn
  step : BitVec 32
  tick : Word
  epoch : BitVec 4
  bytes : Mem
  sent : Option (BitVec 17)
deriving DecidableEq, Repr

/-- An entry of a snapshot unit's copy table (R390): the stack of the unit, the page, the columns read so far with their bytes, and whether all of them
were good. -/
structure PageCopy where
  stack : Fin 4
  asid : Asid
  vpn : Vpn
  col : Nat
  bytes : Mem
  good : Bool
deriving DecidableEq, Repr

/-- The manifest of a sealed snapshot, as it goes to endpoint 0 (R392). -/
structure Manifest where
  endpoint : BitVec 17
  asid : Asid
  step : BitVec 32
  tick : Word
  pages : Nat
deriving DecidableEq, Repr

/-- A window that this stack's journal unit stores for a partner (R379): the records in stack PSTK, and their copies in stack PSTK XOR 2. -/
structure PartnerWindow where
  jid : BitVec 16
  jgrp : BitVec 16
  slots : List JSlot
  mirror : List JSlot
deriving DecidableEq, Repr

/-- A SYS message of a journal unit to a partner's stack (R379): up to 64 bytes of a slot, or the closing message with the highest number of a batch. -/
structure JournalMsg where
  pkg : BitVec 17
  stk : BitVec 2
  jid : BitVec 16
  pgen : BitVec 8
  content : List Byte
  top : Option Word
deriving DecidableEq, Repr

/-- The snapshot and scan engines and the stack's journal unit (R377, R379, R387 to R397). pools is the number of shingles that the overflow pool of each
stack holds; copying the copy tables; serviceNext and spareNext the quads that the two scan channels visit next; busyQuads the quads in which other cores
are at work (R393); remapping the retired quads whose vaults are being copied to a spare (R397); partnerHeard the cycle in which the unit last heard of the
serving side of a window it holds, and partnerPkgs that side's package, by JID; stagingOthers the entries of the stack's journal staging that other cores'
residencies use (R377). -/
structure Resilience where
  snapshots : List Snapshot
  shingles : List Shingle
  copying : List PageCopy
  manifests : List Manifest
  pools : Vector Nat 4
  scanning : List (BitVec 11 × Word)
  serviceNext : BitVec 11
  spareNext : BitVec 11
  passTick : Table Word
  touched : List (Asid × Bool × BitVec 11)
  failedQuads : List (BitVec 11)
  busyQuads : List (BitVec 11)
  remapping : List (BitVec 11 × Nat)
  partnerWindows : List PartnerWindow
  partnerPkgs : Table (BitVec 17)
  partnerAcks : List (BitVec 16 × BitVec 8 × Word)
  shippedOut : List JournalMsg
  partnerHeard : Table Word
  heartbeats : Nat
  stagingOthers : Nat
  lostVaults : List (BitVec 15)
deriving DecidableEq, Repr

/-- What another core or unit does that this core can observe. Log entries 1 and 20 (DESIGN CHOICE). -/
inductive Elsewhere where
  /-- A quad-mate performs an access of n bytes to the reservation of its gang on a core of the quad, its own included (R115, R118, R124). -/
  | access (gang : BitVec 16) (mate target : Fin 4) (write : Bool) (off : Word) (n : Nat) (data : Word)
  /-- A quad-mate's QJOIN records its claim (R150). -/
  | claim (mate : Fin 4)
  /-- A quad-mate's QLEAVE (R150). -/
  | leave (mate : Fin 4)
  /-- A quad-mate's slice pair stands in a mode at a level, with or without unfinished work (R341). -/
  | pair (mate : Fin 4) (mode : SlewMode) (level : Nat) (busy : Bool)
  /-- Slice work of a quad-mate in the joined quad's unit (R151, R337). -/
  | quadWork (count : Nat)
  /-- A range-lock entry of a quad-mate is set or cleared (R121). -/
  | lock (mate : Fin 4) (entry : Fin 8) (l : Option Lock)
  /-- Uncorrectable words of a quad-mate's reservation, by offset ÷ 8 (R301). -/
  | badWords (mate : Fin 4) (gang : BitVec 16) (words : List Nat)
  /-- A residency of a gang is placed on a quad-mate (R295). -/
  | placed (mate : Fin 4) (gang : BitVec 16)
  /-- The victims that other cores of a quad of a waiting launch's range would give have an end bound; with none, they give the quad no placement (R294). -/
  | endBound (gang : BitVec 16) (quad : BitVec 13) (bound : Option Nat)
  /-- A residency of a gang on a quad-mate is killed (R308). -/
  | killed (mate : Fin 4) (gang : BitVec 16)
  /-- A residency of a gang on another core ends under R37, after a kill or not (R37, R214, R308). -/
  | released (gang : BitVec 16) (core : BitVec 32) (killed : Bool)
  /-- The message at a place of those on their way is delivered; a request at another package's agent is performed, with a status and the bytes served
  (R203, R235). -/
  | delivered (place : Nat) (status : BitVec 8) (served : Nat)
  /-- The agent that holds a request, named by its number, goes on with it: agents of different vaults act in any order (R236, R326). -/
  | serve (job : Nat)
  /-- The stack manager prepares the page that a word places for a mapping: it writes it with the data that the mapping is for, or, with none, takes the
  data that stand there as those (R269, R414). -/
  | filled (word : Word) (data : Option Mem)
  /-- The port of a quad of another stack closes or opens (R255, R334). -/
  | port (quad : BitVec 13) (closed : Bool)
  /-- Another quad of this stack holds a bind record or a copy command, or no more (R332). -/
  | inUse (quad : BitVec 11) (busy : Bool)
  /-- Another slew unit of a region begins to wait for a grant (R339). -/
  | slewWait (region : Fin 30) (core : Nat) (weight : Nat)
  /-- The entries of the stack's journal staging that the residencies of other cores use become this many (R377). -/
  | staging (entries : Nat)
  /-- The stack manager places an overflow pool of shingles for a stack (R391). -/
  | pool (stack : Fin 4) (shingles : Nat)
  /-- The stack manager keeps a region for the window of a JID, whose serving side is a package (R379, R382). -/
  | partnerRegion (jid : BitVec 16) (pkg : BitVec 17)
  /-- Other cores of a quad of this stack are at work, or no more: a task, a tile operation, a copy command or a multiplier operation (R393). -/
  | working (quad : BitVec 11) (busy : Bool)
  /-- A heartbeat of the serving side of a window that this stack holds arrives (R379). -/
  | partnerBeat (jid : BitVec 16)
  /-- 27,000 cycles have passed without a heartbeat or journal traffic of that side (R379, R382). -/
  | partnerSilent (jid : BitVec 16)
  /-- The far receiver of a module accepts the next flit that it has been sent (R354). -/
  | crossed (m : Fin 8)
  /-- The adaptive tables hold these paths of the fabric: each a port of the package and the fabric links after it (R358). -/
  | fabricPaths (paths : List (Fin 8 × List Nat))
  /-- The fabric reports a link of its own dead, or trained again (R360). -/
  | fabricLink (link : Nat) (dead : Bool)
  /-- Another stack reports its boot state (R412). -/
  | booted (stack : Fin 4) (state : BootState)
  /-- A stack manager's firmware reports an error to the host with a vector of its choice (R369). -/
  | errorReport (vector : Fin 64)
  /-- The host reads BAR 0 (R363). -/
  | bar0Read (off : BitVec 20) (n : Nat)
  /-- The host writes BAR 0 (R363, R364), with or without the relaxed-ordering attribute; a command's free choices are the stack manager's, and the
  firmware file is what the ROM reads from the host (R409, R413). -/
  | bar0Write (off : BitVec 20) (n : Nat) (data : Word) (relaxed : Bool) (index : BitVec 8) (base : BitVec 9) (room : Bool) (file : List Byte)
deriving DecidableEq, Repr

/-- A move of the schedule: a device step, the issue of a stream, or what happens elsewhere. Log entry 3 (DESIGN CHOICE). -/
inductive Move where
  | device (i : Instr)
  | issue
  | elsewhere (a : Elsewhere)
deriving DecidableEq, Repr

/-- The machine. schedule, turn, cur and free are the model's own: the moves that come next, in order; whether the device goes before
the streams at the next step; the slot whose instruction executes; and the counter of free values. Log entry 1 (DESIGN CHOICE). -/
structure State where
  schedule : List Move
  turn : Bool
  cur : SlotIx
  free : Nat
  streams : Vector Stream 4
  res : Vector Residency 4
  core : Core
  quad : Quad
  vault : Vault
  net : Net
  mgr : Mgr
  power : Power
  link : Link
  host : HostLink
  resil : Resilience
deriving DecidableEq, Repr

/-- A trap record that nothing has written: 0 (R24). -/
def TrapRecord.zero : TrapRecord := ⟨0, 0, 0, 0⟩

/-- A slot without a stream: every register at the zero that a stream starts with (R14, R24). -/
def Stream.idle : Stream where
  active := false
  res := 0
  kind := .A
  pc := 0
  x := Vector.replicate 32 0
  v := Vector.replicate 32 0
  m := Vector.replicate 8 0
  ox := Vector.replicate 8 0
  qm := false
  fmode := 0
  fflags := 0
  tlevel := 0
  tvec := 0
  tsave := 0
  tsavelen := 0
  traps := Vector.replicate 2 TrapRecord.zero
  xbank := Vector.replicate 2 (Vector.replicate 8 0)
  loops := []
  loopBank := Vector.replicate 2 []
  tileBad := none
  due := none
  entered := 0
  area := none
  wait := 0
  stalled := false

/-- A role with no entry, handler, task or code. -/
def Role.empty : Role where
  name := []
  entry := none
  tvec := 0
  tsave := 0
  tsavelen := 0
  bfmt := Vector.replicate 16 0
  handlers := []
  tasks := []
  code := []

/-- The journal state a residency is placed with: STATE = ABSENT and nothing staged (R375). -/
def Journal.absent : Journal where
  state := .absent
  pgen := 0
  ppkg := 0
  pstk := 0
  jid := 0
  jgrp := 0
  lnw := 0
  lbase := 0
  unsealed := []
  lastStaged := 0
  batches := []
  unshipped := []
  covered := 0
  applied := none
  shipped := none
  gate := []
  window := []
  windowPos := 0
  windowOut := false
  faulted := false
  lastHeard := 0
  peerLost := false

/-- A FREE bind record; its counters stand at the values placement gives (R24, R174, R191). -/
def Residency.free : Residency where
  state := .free
  prio := 0
  kinds := 0
  slots := 0
  accs := 0
  quadMapped := false
  eh := false
  hidx := 0
  ibase := 0
  ilen := 0
  gang := 0
  gen := 0
  asid := 0
  spbase := 0
  spsize := 0
  role := Role.empty
  spflag := 0
  raceinfo := 0
  jseq := 0
  jack := 0
  nseq := 1
  appended := []
  handedOver := []
  copyOwner := []
  copyIssued := []
  lastCseq := 0
  nextTag := 1
  lastTag := 0
  statuses := []
  completed := 0
  ovHead := none
  ovTail := none
  sinks := 0
  pendingSignals := 0
  abortCount := 0
  killDue := none
  killed := false
  quadRemote := false
  phase := 0
  granules := []
  arrivals := []
  armed := []
  clearing := false
  launchReady := false
  launchHeld := false
  readyAt := 0
  freeSince := 0
  budget := 0
  startTick := 0
  args := Vector.replicate 4 0
  task := none
  journal := Journal.absent
  saveVa := 0
  saveLen := 0
  saveProgress := 0
  saveFaulted := false
  mail := false
  mailSinks := 0

/-- The side data that a buffer position holds at the start of a multiplier residency: ZERO and 0 (R148). -/
def Side.zero : Side := ⟨.zero, 0⟩

/-- A digit's side state after ACCZ (R67, R68). -/
def DigitSide.zero : DigitSide := ⟨0, false, false, false⟩

/-- An accumulator at the start of a residency (R23). -/
def Acc.zero : Acc := ⟨0, [], 0, false⟩

/-- An idle slew unit (R337). -/
def Slew.idle : Slew where
  mode := .idle
  level := 0
  t := 0
  acc := 0
  work := []
  quadUnit := false
  since := none
  clock := 0

/-- A slew region at reset: CAP 8 and no grant made (R340). -/
def SlewRegion.reset : SlewRegion := ⟨8, 0, [], []⟩

/-- The core at power-up: SRAM at zero, identifiers as the model names them (log entry 5), AGELIM 64, CYCLE 0. -/
def Core.reset : Core where
  id := 0
  pkg := 0
  agelim := 64
  cycle := 0
  bfmt := Vector.replicate 16 0
  spad := []
  spadBad := []
  xbuf := []
  ybuf := []
  xside := []
  yside := []
  xBad := []
  yBad := []
  accs := Vector.replicate 64 Acc.zero
  sq := 0
  wx := 0
  wy := 0
  jm := 0
  locks := Vector.replicate 8 none
  stamp := 0
  engQ := []
  acts := []
  rxReq := []
  rxRpy := []
  rxSys := []
  portQ := []
  readyQ := []
  remote := []
  vecRun := none
  slew := Slew.idle

/-- A quad-mate without residencies, locks, a claim or slice work. -/
def Mate.empty : Mate := ⟨[], Vector.replicate 8 none, false, .idle, 0, false⟩

/-- The quad after a wake: instruction store zero and tagged as data (R336). -/
def Quad.reset : Quad where
  istore := []
  code := []
  istoreBad := []
  mates := Vector.replicate 4 Mate.empty
  claim := false
  leaveDue := false
  reload := false
  copyRun := Vector.replicate 4 none
  copyTurn := 3
  dirtyLog := []
  access := []
  scanHold := false

/-- A closed, idle bank with its 16 spare rows unused (R254, R261). -/
def Bank.closed : Bank := ⟨none, .idle, [], false, [], 0, false⟩

/-- Vaults at power-up: every row closed, nothing written (R254). -/
def Vault.reset : Vault where
  mem := []
  bad := []
  flipped := []
  busBad := []
  banks := Vector.replicate 16 Bank.closed
  beats := []
  hot := Vector.replicate 8 false
  throttled := Vector.replicate 8 false
  ctrlBuf := []
  stackBuf := []
  roots := []
  harvest := 0
  harvested := []
  marks := []
  epochs := []
  filled := []
  repairs := 0
  busErrors := 0
  malformed := 0

/-- A network interface with nothing in it. -/
def Net.empty : Net where
  outbound := []
  inbound := []
  inTicks := []
  signals := []
  bounces := []
  agentQ := []
  completions := []
  flying := []
  nextId := 0
  leaving := []
  acks := []
  mesh := []
  sent := []
  arrivals := []
  spillAreas := []
  switchedOut := []

/-- A ring that no mailbox command has configured (R289). -/
def Ring.unbound : Ring := ⟨false, 0, 4, 0, 0, 0, 0, none⟩

/-- The stack manager at power-up: boot ROM starting (R412), OCC 16 (R293). -/
def Mgr.reset : Mgr where
  boot := .reset
  tick := 0
  corrected := 0
  synced := false
  occ := 16
  rings := Vector.replicate 24 Ring.unbound
  gangs := []
  gens := []
  launchOut := []
  waiting := []
  candidates := []
  images := []
  abortLog := []
  abortOverflow := 0
  killQueue := []
  dlcnt := 0
  dlhdr := none
  dlwhy := 0
  hostEntries := []
  reports := []
  quadMap := []
  notices := []

/-- Every quad GATED and no wake asked for (R331). -/
def Power.reset : Power := ⟨[], [], [], Vector.replicate 30 SlewRegion.reset, [], []⟩

/-- A module before its training at bring-up (R413), its numbers before any flit, the far receiver's 32 slots of each network free (R352). -/
def Module.reset : Module := ⟨0, [], [], 0, none, none, false, true, false, [], [], ⟨32, 32, 32⟩, ⟨0, 0, 0⟩, 0, none⟩

/-- A flow that has carried nothing. -/
def Flow.fresh : Flow := ⟨0, [], [], [], 0, none, none⟩

/-- The links before bring-up has trained them (R360, R413). -/
def Link.reset : Link := ⟨Vector.replicate 8 Module.reset, [], Vector.replicate 8 true, [], []⟩

/-- The host link before any command. -/
def HostLink.reset : HostLink where
  windows := []
  dma := Vector.replicate 16 ⟨0, 0, 0⟩
  cringSet := false
  cringBase := 0
  cringK := 4
  cpi := 0
  cci := 0
  msix := []
  msixTable := []
  mailboxes := Vector.replicate 4 ⟨0, [], 0, []⟩
  mailAt := 0
  stackBoots := Vector.replicate 4 .reset
  written := []
  readData := none
  pending := []
  refusedWrites := 0
  vectorsHeld := []
  notifies := []
  loads := []
  firmware := none

/-- No snapshot, scan or partner window. -/
def Resilience.reset : Resilience where
  snapshots := []
  shingles := []
  copying := []
  manifests := []
  pools := Vector.replicate 4 0
  scanning := []
  serviceNext := 0
  spareNext := 1600
  passTick := []
  touched := []
  failedQuads := []
  busyQuads := []
  remapping := []
  partnerWindows := []
  partnerPkgs := []
  partnerAcks := []
  shippedOut := []
  partnerHeard := []
  heartbeats := 0
  stagingOthers := 0
  lostVaults := []

/-- The machine right after reset: power-up (R413), with nothing placed. The values that the spec does not give are named in
log entry 5. -/
def State.reset : State where
  schedule := []
  turn := false
  cur := 0
  free := 0
  streams := Vector.replicate 4 Stream.idle
  res := Vector.replicate 4 Residency.free
  core := Core.reset
  quad := Quad.reset
  vault := Vault.reset
  net := Net.empty
  mgr := Mgr.reset
  power := Power.reset
  link := Link.reset
  host := HostLink.reset
  resil := Resilience.reset

/-- Why the machine stops. -/
inductive Fault where
  /-- Raised by step when the head of the schedule is a device move that names an encoded instruction: a stream alone issues
  encoded instructions (R11). Safe: the machine stops, and no rule says what would happen. -/
  | notADeviceStep
deriving DecidableEq, Repr

/-- Why an instruction has no meaning. -/
inductive Refusal where
  /-- Raised by exec for an instruction whose meaning is not written. Safe. -/
  | notModelled (mnemonic : String)
deriving DecidableEq, Repr

/-- What a meaning answers. -/
abbrev Res := Host.Outcome State Fault Refusal

end Sys2Proof.Machine
end

