-- ==== Sys2Proof/Machine/Bits.lean ====
section
/-! DEFINITION. Fields of bit patterns: reading them, replacing them, and extending their sign. -/

namespace Sys2Proof.Machine

/-- Bits lo + k − 1 down to lo of a value, as a number (R6). -/
def sel {n : Nat} (w : BitVec n) (lo k : Nat) : Nat := bits w.toNat lo k

/-- v with bits lo + k − 1 down to lo replaced by the low k bits of x. -/
def setField {n : Nat} (v : BitVec n) (lo k x : Nat) : BitVec n :=
  BitVec.ofNat n (v.toNat - bits v.toNat lo k * 2 ^ lo + x % 2 ^ k * 2 ^ lo)

/-- sext(v, n): the low n bits as a two's-complement value (R8). -/
def sextNat (v n : Nat) : Int :=
  let u := v % 2 ^ n
  if 2 * u < 2 ^ n then (u : Int) else (u : Int) - 2 ^ n

/-- An integer as a bit pattern of width n. -/
def wrap (n : Nat) (z : Int) : BitVec n := BitVec.ofInt n z

/-- The little-endian number of a list of bytes. -/
def bytesLE : List Byte → Nat
  | [] => 0
  | b :: bs => b.toNat + 2 ^ 8 * bytesLE bs

end Sys2Proof.Machine
end

