-- ==== Sys2Proof/Machine/Flags.lean ====
section
/-! DEFINITION. Number formats, conversions, rounding and the FFLAGS bits that they raise (R42 to R62). Every value is computed exactly
and rounded once. -/

namespace Sys2Proof.Machine

/-! ## Exact values and rounding -/

/-- The rounding mode of FMODE.RM (R25). -/
inductive RMode where
  | rne | rtz | rup | rdn
deriving DecidableEq, Repr

/-- The mode that FMODE.RM names: 0 RNE, 1 RTZ, 2 RUP, 3 RDN (R25). -/
def rmode (b : BitVec 2) : RMode := if b = 0 then .rne else if b = 1 then .rtz else if b = 2 then .rup else .rdn

/-- A value read from a format: a NaN (signalling or not), an infinity, or (−1)^neg × m × 2^e. -/
inductive FVal where
  | nan (signalling : Bool)
  | inf (neg : Bool)
  | num (neg : Bool) (m : Nat) (e : Int)
deriving DecidableEq, Repr

/-- The flags NV, DZ, OF, UF and NX in bits 4 to 0 (R25). -/
def flagNV : BitVec 5 := 16
/-- Division by zero. -/
def flagDZ : BitVec 5 := 8
/-- Overflow. -/
def flagOF : BitVec 5 := 4
/-- Underflow. -/
def flagUF : BitVec 5 := 2
/-- Inexact. -/
def flagNX : BitVec 5 := 1

/-- A flag when a condition holds. -/
def flagIf (c : Bool) (f : BitVec 5) : BitVec 5 := if c then f else 0

/-- The number of bits of a magnitude: ⌊log2 m⌋ + 1, and 0 for 0. -/
def bitLen (m : Nat) : Nat := if m = 0 then 0 else Nat.log2 m + 1

/-- m / 2^k rounded to an integer in a mode; neg is the sign of the value. In a B8 format with P = 1 every kept significand is 1, so a tie between
two powers of two has no even one (R51): it goes to the larger power. Log entry 11 (DESIGN CHOICE). -/
def roundShift (rm : RMode) (neg : Bool) (m k : Nat) : Nat :=
  let f := m / 2 ^ k
  let r := m % 2 ^ k
  let up := match rm with
    | .rne => decide (2 ^ k < 2 * r) || (decide (2 * r = 2 ^ k) && decide (f % 2 = 1))
    | .rtz => false
    | .rup => !neg && decide (r ≠ 0)
    | .rdn => neg && decide (r ≠ 0)
  if up then f + 1 else f

/-- A value m × 2^e rounded to p significant bits on a grid no finer than 2^q0: the integer M and exponent q of the result M × 2^q,
and whether it differs from the value (R51, R52). Log entry 11 (DEDUCED). -/
def roundTo (rm : RMode) (p : Nat) (q0 : Int) (neg : Bool) (m : Nat) (e : Int) : Nat × Int × Bool :=
  let q := max q0 (e + bitLen m - p)
  if q ≤ e then (m * 2 ^ (e - q).toNat, q, false)
  else
    let k := (q - e).toNat
    (roundShift rm neg m k, q, decide (m % 2 ^ k ≠ 0))

/-- Exponent and trailing bits of a rounded magnitude M × 2^q of a format with p significant bits and grid 2^q0; a carry out
of the significand moves into the exponent. -/
def packMag (p : Nat) (q0 : Int) (M : Nat) (q : Int) : Nat := (q - q0).toNat * 2 ^ (p - 1) + M

/-- The exact value of exponent and trailing bits, as in R45 and R47. -/
def unpackMag (p : Nat) (q0 : Int) (neg : Bool) (mag : Nat) : FVal :=
  let e := mag / 2 ^ (p - 1)
  let t := mag % 2 ^ (p - 1)
  if e = 0 then .num neg t q0 else .num neg (2 ^ (p - 1) + t) (q0 + (e : Int) - 1)

/-! ## Formats (R42 to R49) -/

/-- The fields of a 10-bit format field (R46). -/
structure Format where
  fmt : Nat
  p : Nat
  sgn : Bool
  inf : Bool
  sat : Bool
deriving DecidableEq, Repr

/-- A format field laid out as BFMTn[9:0] (R46). -/
def formatOf (f : BitVec 10) : Format where
  fmt := bits f.toNat 0 4
  p := bits f.toNat 4 3
  sgn := bits f.toNat 7 1 = 1
  inf := bits f.toNat 8 1 = 1
  sat := bits f.toNat 9 1 = 1

/-- Equality of format fields: FMT equal and, for B8, the other bits too (R46). -/
def formatEq (a b : BitVec 10) : Bool :=
  decide (bits a.toNat 0 4 = bits b.toNat 0 4) && (decide (bits a.toNat 0 4 ≠ 12) || decide (a = b))

/-- A format that a typed access may not use: a reserved code, or B8 with P = 0 (R26). -/
def formatBad (f : BitVec 10) : Bool :=
  decide (13 ≤ bits f.toNat 0 4) || (decide (bits f.toNat 0 4 = 12) && decide (bits f.toNat 4 3 = 0))

/-- Element bits of a format code; 0 for RAW and the reserved codes (R42). -/
def formatBits (c : Nat) : Nat :=
  match c with
  | 1 => 8
  | 2 => 8
  | 3 => 16
  | 4 => 16
  | 5 => 32
  | 6 => 32
  | 7 => 64
  | 8 => 4
  | 9 => 4
  | 10 => 16
  | 11 => 32
  | 12 => 8
  | _ => 0

/-- The signed integer formats: S8, S16, S32, S64, S4 (R42). -/
def formatSigned (c : Nat) : Bool := c = 1 || c = 3 || c = 5 || c = 7 || c = 8

/-- The integer formats (R42). -/
def formatInt (c : Nat) : Bool := decide (1 ≤ c) && decide (c ≤ 9)

/-- Exponent bias of a B8 format: 2^(w−1), with w = 8 − P or 9 − P (R47). -/
def b8Bias (f : Format) : Int := 2 ^ ((if f.sgn then 8 - f.p else 9 - f.p) - 1)

/-- The exponent of the B8 grid: 1 − B − (P − 1) (R51). -/
def b8Grid (f : Format) : Int := 1 - b8Bias f - ((f.p : Int) - 1)

/-- The NaN code of a B8 format (R51). -/
def b8Nan (f : Format) : Nat := if f.sgn then 0x80 else 0xFF

/-- The infinity magnitude of a B8 format (R47). -/
def b8Inf (f : Format) : Nat := if f.sgn then 0x7F else 0xFE

/-- The largest finite magnitude of a B8 format (R48). -/
def b8Max (f : Format) : Nat := if f.inf then b8Inf f - 1 else b8Inf f

/-- The value of a B8 code (R47). -/
def b8Val (f : Format) (c : Nat) : FVal :=
  let neg := f.sgn && decide (bits c 7 1 = 1)
  let mag := if f.sgn then c % 128 else c % 256
  if c % 256 = b8Nan f then .nan false
  else if f.inf ∧ mag = b8Inf f then .inf neg
  else unpackMag f.p (b8Grid f) neg mag

/-- The value of a binary floating code with p significant bits, grid 2^q0 and sign bit at n − 1 (R45). -/
def ieeeVal (n p : Nat) (q0 : Int) (b : Nat) : FVal :=
  let neg := decide (bits b (n - 1) 1 = 1)
  let mag := b % 2 ^ (n - 1)
  let top := 255 * 2 ^ (p - 1)
  if mag = top then .inf neg
  else if top < mag then .nan (decide (bits mag (p - 2) 1 = 0))
  else unpackMag p q0 neg mag

/-- The value of an FP32 pattern (R45). -/
def fp32Val (b : Nat) : FVal := ieeeVal 32 24 (-149) b

/-- The value of a BF16 pattern (R45). -/
def bf16Val (b : Nat) : FVal := ieeeVal 16 8 (-133) b

/-- The value of an integer of n bits (R42). -/
def intVal (signed : Bool) (n b : Nat) : FVal :=
  let z := if signed then sextNat b n else ((b % 2 ^ n : Nat) : Int)
  .num (decide (z < 0)) z.natAbs 0

/-- The value of an element's bits in a format other than RAW (R42, R45, R47). -/
def readElem (f : Format) (b : Nat) : FVal :=
  if f.fmt = 10 then bf16Val b
  else if f.fmt = 11 then fp32Val b
  else if f.fmt = 12 then b8Val f b
  else intVal (formatSigned f.fmt) (formatBits f.fmt) b

/-! ## Conversions and their flags (R50 to R54) -/

/-- Whether an overflow in a mode gives the infinity rather than the largest finite value (R52). -/
def overflowsToInf (rm : RMode) (neg : Bool) : Bool :=
  match rm with
  | .rne => true
  | .rtz => false
  | .rup => !neg
  | .rdn => neg

/-- A sign bit and a magnitude of an n-bit floating pattern. -/
def signMag (n : Nat) (neg : Bool) (mag : Nat) : Nat := neg.toNat * 2 ^ (n - 1) + mag

/-- Whether a nonzero value rounds, with an unbounded exponent, below the smallest normal 2^(q0 + p − 1): tininess after
rounding (R55). -/
def tinyAfter (rm : RMode) (p : Nat) (q0 : Int) (neg : Bool) (m : Nat) (e : Int) : Bool :=
  let r := roundTo rm p (q0 - 1000) neg m e
  decide (r.2.1 + bitLen r.1 < q0 + p)

/-- A finite value delivered as an n-bit binary floating pattern with p significant bits, with OF, UF and NX; convert selects the
underflow rule of R54, else that of R55. -/
def roundIeee (convert : Bool) (n p : Nat) (q0 : Int) (rm : RMode) (neg : Bool) (m : Nat) (e : Int) : Nat × BitVec 5 :=
  if m = 0 then (signMag n neg 0, 0)
  else
    let r := roundTo rm p q0 neg m e
    let mag := packMag p q0 r.1 r.2.1
    let top := 255 * 2 ^ (p - 1)
    if top ≤ mag then
      (signMag n neg (if overflowsToInf rm neg then top else top - 1), flagOF ||| flagNX)
    else
      let tiny := if convert then decide (mag < 2 ^ (p - 1)) else tinyAfter rm p q0 neg m e
      (signMag n neg mag, flagIf (r.2.2 && tiny) flagUF ||| flagIf r.2.2 flagNX)

/-- The canonical quiet NaN of FP32 (R45). -/
def nan32 : Nat := 0x7FC00000

/-- The canonical quiet NaN of BF16 (R45). -/
def nan16 : Nat := 0x7FC0

/-- A value converted to a binary floating format (R52, R54). -/
def toIeee (n p : Nat) (q0 : Int) (nan : Nat) (rm : RMode) : FVal → Nat × BitVec 5
  | .nan sg => (nan, flagIf sg flagNV)
  | .inf neg => (signMag n neg (255 * 2 ^ (p - 1)), 0)
  | .num neg m e => roundIeee true n p q0 rm neg m e

/-- A value converted to B8 (R51) with its flags (R54). Of the negative values that an unsigned format does not hold, one that rounds to zero raises
UF, and one that rounds to a nonzero subnormal magnitude does not: there 0x00 or NAN8 stands for the result, and the rounded one is none. Log entry
11 (DEDUCED). -/
def toB8 (f : Format) : FVal → Nat × BitVec 5
  | .nan sg => (b8Nan f, flagIf sg flagNV)
  | .inf neg =>
    if !f.sgn ∧ neg then (if f.sat then 0 else b8Nan f, flagNV)
    else if f.inf then (signMag 8 neg (b8Inf f), 0)
    else if f.sat then (signMag 8 neg (b8Max f), flagNX)
    else (b8Nan f, flagNV)
  | .num neg m e =>
    if m = 0 then (0, 0)
    else
      let r := roundTo .rne f.p (b8Grid f) neg m e
      let mag := packMag f.p (b8Grid f) r.1 r.2.1
      let uf := flagIf (r.2.2 && decide (mag < 2 ^ (f.p - 1))) flagUF
      if !f.sgn ∧ neg then
        if r.1 = 0 then (0, flagNV ||| uf) else (if f.sat then 0 else b8Nan f, flagNV)
      else if b8Max f < mag then
        if f.sat then (signMag 8 neg (b8Max f), flagOF ||| flagNX)
        else if f.inf then (signMag 8 neg (b8Inf f), flagOF ||| flagNX)
        else (b8Nan f, flagOF ||| flagNV)
      else if r.1 = 0 then (0, uf ||| flagNX)
      else (signMag 8 neg mag, uf ||| flagIf r.2.2 flagNX)

/-- The least and the greatest value of an integer format of n bits. -/
def intMin (signed : Bool) (n : Nat) : Int := if signed then -(2 ^ (n - 1)) else 0
/-- The greatest value of an integer format of n bits. -/
def intMax (signed : Bool) (n : Nat) : Int := if signed then 2 ^ (n - 1) - 1 else 2 ^ n - 1

/-- A value saturated to an integer format. -/
def saturate (signed : Bool) (n : Nat) (z : Int) : Int := max (intMin signed n) (min (intMax signed n) z)

/-- A value converted to an integer of n bits (R53) with its flags (R54); fromInt says that the source is an integer format. -/
def toInt (signed : Bool) (n : Nat) (rm : RMode) (fromInt : Bool) : FVal → Nat × BitVec 5
  | .nan _ => (0, flagNV)
  | .inf neg => ((wrap n (if neg then intMin signed n else intMax signed n)).toNat, flagNV)
  | .num neg m e =>
    let r : Nat × Bool := if 0 ≤ e then (m * 2 ^ e.toNat, false)
      else (roundShift rm neg m (-e).toNat, decide (m % 2 ^ (-e).toNat ≠ 0))
    let z : Int := if neg then -(r.1 : Int) else r.1
    if saturate signed n z = z then ((wrap n z).toNat, flagIf r.2 flagNX ||| flagIf (r.2 && decide (r.1 = 0)) flagUF)
    else ((wrap n (saturate signed n z)).toNat, flagIf (!fromInt) flagNV)

/-- A value written in a format other than RAW; BF16 and B8 targets round to nearest even whatever the mode (R50). Log entry 11 (DEDUCED). -/
def writeElem (f : Format) (rm : RMode) (fromInt : Bool) (v : FVal) : Nat × BitVec 5 :=
  if f.fmt = 10 then toIeee 16 8 (-133) nan16 .rne v
  else if f.fmt = 11 then toIeee 32 24 (-149) nan32 rm v
  else if f.fmt = 12 then toB8 f v
  else toInt (formatSigned f.fmt) (formatBits f.fmt) rm fromInt v

/-- One element converted from a format to another, neither RAW (R50 to R54). -/
def convertElem (src dst : Format) (rm : RMode) (b : Nat) : Nat × BitVec 5 :=
  writeElem dst rm (formatInt src.fmt) (readElem src b)

/-! ## FP32 arithmetic (R55 to R58) -/

/-- Whether a value is a NaN. -/
def FVal.isNan : FVal → Bool
  | .nan _ => true
  | _ => false

/-- Whether a value is a signalling NaN. -/
def FVal.isSignalling : FVal → Bool
  | .nan s => s
  | _ => false

/-- A value with its sign inverted. -/
def FVal.negate : FVal → FVal
  | .nan s => .nan s
  | .inf n => .inf (!n)
  | .num n m e => .num (!n) m e

/-- A finite value delivered in FP32 under R55. -/
def round32 (rm : RMode) (neg : Bool) (m : Nat) (e : Int) : Nat × BitVec 5 := roundIeee false 32 24 (-149) rm neg m e

/-- An FP32 infinity. -/
def inf32 (neg : Bool) : Nat := signMag 32 neg 0x7F800000

/-- (−1)^neg × m × 2^(e − e0), for e0 ≤ e. -/
def scaled (neg : Bool) (m : Nat) (e e0 : Int) : Int :=
  let v : Int := m * 2 ^ (e - e0).toNat
  if neg then -v else v

/-- The sum of two exact values, neither a NaN, rounded once, with R55's signs of zero. -/
def sum32 (rm : RMode) : FVal → FVal → Nat × BitVec 5
  | .inf a, .inf b => if a = b then (inf32 a, 0) else (nan32, flagNV)
  | .inf a, _ => (inf32 a, 0)
  | _, .inf b => (inf32 b, 0)
  | .num na ma ea, .num nb mb eb =>
    let e0 := min ea eb
    let z := scaled na ma ea e0 + scaled nb mb eb e0
    if z = 0 then
      if ma = 0 ∧ mb = 0 ∧ na = nb then (signMag 32 na 0, 0) else (signMag 32 (decide (rm = .rdn)) 0, 0)
    else round32 rm (decide (z < 0)) z.natAbs e0
  | _, _ => (nan32, 0)

/-- The exact product of two values; none for an infinity times a zero. -/
def product : FVal → FVal → Option FVal
  | .nan s, .nan t => some (.nan (s || t))
  | .nan s, _ => some (.nan s)
  | _, .nan s => some (.nan s)
  | .inf a, .inf b => some (.inf (a ^^ b))
  | .inf a, .num b m _ => if m = 0 then none else some (.inf (a ^^ b))
  | .num b m _, .inf a => if m = 0 then none else some (.inf (a ^^ b))
  | .num a m e, .num b n f => some (.num (a ^^ b) (m * n) (e + f))

/-- The sum of two FP32 patterns (R55, R56). -/
def fadd32 (rm : RMode) (a b : Nat) : Nat × BitVec 5 :=
  let x := fp32Val a
  let y := fp32Val b
  if x.isNan || y.isNan then (nan32, flagIf (x.isSignalling || y.isSignalling) flagNV) else sum32 rm x y

/-- The pattern with its sign bit inverted. -/
def fneg32 (a : Nat) : Nat := if bits a 31 1 = 1 then a - 2 ^ 31 else a + 2 ^ 31

/-- The pattern with its sign bit clear. -/
def fabs32 (a : Nat) : Nat := a % 2 ^ 31

/-- The difference of two FP32 patterns: the subtracted term enters with its sign inverted (R55). -/
def fsub32 (rm : RMode) (a b : Nat) : Nat × BitVec 5 := fadd32 rm a (fneg32 b)

/-- The product of two FP32 patterns (R55, R56). -/
def fmul32 (rm : RMode) (a b : Nat) : Nat × BitVec 5 :=
  let x := fp32Val a
  let y := fp32Val b
  match product x y with
  | none => (nan32, flagNV)
  | some (.nan _) => (nan32, flagIf (x.isSignalling || y.isSignalling) flagNV)
  | some (.inf n) => (inf32 n, 0)
  | some (.num n m e) => round32 rm n m e

/-- a × b + c with a single rounding (R55, R56). -/
def ffma32 (rm : RMode) (a b c : Nat) : Nat × BitVec 5 :=
  let x := fp32Val a
  let y := fp32Val b
  let z := fp32Val c
  match product x y with
  | none => (nan32, flagNV)
  | some p =>
    if p.isNan || z.isNan then (nan32, flagIf (x.isSignalling || y.isSignalling || z.isSignalling) flagNV)
    else sum32 rm p z

/-- The order of FP32 patterns that are no NaN, −0 below +0 (R57). -/
def order32 (a : Nat) : Int := if bits a 31 1 = 1 then -((a % 2 ^ 31 : Nat) : Int) - 1 else ((a % 2 ^ 31 : Nat) : Int)

/-- minimumNumber, or maximumNumber when big (R57). -/
def fminmax32 (big : Bool) (a b : Nat) : Nat × BitVec 5 :=
  let x := fp32Val a
  let y := fp32Val b
  let nv := flagIf (x.isSignalling || y.isSignalling) flagNV
  if x.isNan ∧ y.isNan then (nan32, nv)
  else if x.isNan then (b, nv)
  else if y.isNan then (a, nv)
  else if decide (order32 b < order32 a) = big then (a, nv) else (b, nv)

/-- Whether two values that are no NaN are equal; zeros of both signs are equal. -/
def feq32 (a b : Nat) : Bool := decide (a = b) || (decide (a % 2 ^ 31 = 0) && decide (b % 2 ^ 31 = 0))

/-- VFCEQ (R57). -/
def fceq32 (a b : Nat) : Bool × BitVec 5 :=
  let x := fp32Val a
  let y := fp32Val b
  (!x.isNan && !y.isNan && feq32 a b, flagIf (x.isSignalling || y.isSignalling) flagNV)

/-- VFCLT, or VFCLE when orEqual (R57). -/
def fcmp32 (orEqual : Bool) (a b : Nat) : Bool × BitVec 5 :=
  let x := fp32Val a
  let y := fp32Val b
  if x.isNan || y.isNan then (false, flagNV)
  else (if feq32 a b then orEqual else decide (order32 a < order32 b), 0)

/-- 1/x correctly rounded (R58): the quotient to 64 binary places with a sticky bit decides every rounding. -/
def frcp32 (rm : RMode) (a : Nat) : Nat × BitVec 5 :=
  match fp32Val a with
  | .nan s => (nan32, flagIf s flagNV)
  | .inf n => (signMag 32 n 0, 0)
  | .num n m e =>
    if m = 0 then (inf32 n, flagDZ)
    else
      let sticky := if 2 ^ 64 % m = 0 then 0 else 1
      round32 rm n (2 * (2 ^ 64 / m) + sticky) (-65 - e)

/-- The integer square root of n, bit by bit from bit k − 1 down; r is the root found so far. -/
def rootBits (n : Nat) : Nat → Nat → Nat
  | 0, r => r
  | k + 1, r => rootBits n k (if (r + 2 ^ k) * (r + 2 ^ k) ≤ n then r + 2 ^ k else r)

/-- 1/√x correctly rounded (R58): the root of 2^120/m to the integer with a sticky bit decides every rounding. -/
def frsq32 (rm : RMode) (a : Nat) : Nat × BitVec 5 :=
  match fp32Val a with
  | .nan s => (nan32, flagIf s flagNV)
  | .inf n => if n then (nan32, flagNV) else (0, 0)
  | .num n m e =>
    if m = 0 then (inf32 n, flagDZ)
    else if n then (nan32, flagNV)
    else
      let m' := if e % 2 = 0 then m else 2 * m
      let h := e / 2
      let q := rootBits (2 ^ 120 / m') 61 0
      let sticky := if q * q * m' = 2 ^ 120 then 0 else 1
      round32 rm false (2 * q + sticky) (-61 - h)

/-- Fractional bits of the fixed-point exponential. -/
def expBits : Nat := 512

/-- Terms of the exponential series of y / 2^512, from the n-th term t on. -/
def expSeries (y : Nat) : Nat → Nat → Nat → Nat
  | 0, _, _ => 0
  | k + 1, n, t => t + expSeries y k (n + 1) (t * y / 2 ^ expBits / (n + 1))

/-- Repeated squaring of a fixed-point number. -/
def squarings : Nat → Nat → Nat
  | 0, v => v
  | k + 1, v => squarings k (v * v / 2 ^ expBits)

/-- e^(m × 2^e) to 512 fractional bits, for a magnitude below 128: the series at 1/256 of the argument, squared eight times. -/
def expFixed (m : Nat) (e : Int) : Nat :=
  squarings 8 (expSeries (m * 2 ^ ((expBits : Int) - 8 + e).toNat) 110 0 (2 ^ expBits))

/-- e^x correctly rounded (R58). The fixed-point value is within 2^−480 of e^x in relative error, and e^x is never rational for
a nonzero FP32 x, so the sticky bit is always 1. Beyond ±128 the result overflows or falls below half the least subnormal. -/
def fexp32 (rm : RMode) (a : Nat) : Nat × BitVec 5 :=
  match fp32Val a with
  | .nan s => (nan32, flagIf s flagNV)
  | .inf n => (if n then 0 else inf32 false, 0)
  | .num n m e =>
    if m = 0 then (0x3F800000, 0)
    else if 7 < e + bitLen m then round32 rm false 1 (if n then -300 else 300)
    else
      let v := expFixed m e
      let w := if n then 2 ^ (2 * expBits) / v else v
      round32 rm false (2 * w + 1) (-(expBits : Int) - 1)

end Sys2Proof.Machine
end

