-- ==== Sys2Proof/Machine/Elements.lean ====
section
/-! DEFINITION. The elements of a vector register and of a vector access: their bits, their bytes in memory, and the bank accesses that perform
them (R20, R128 to R132). -/

namespace Sys2Proof.Machine

/-! ## Elements of a vector value (R20, R128) -/

/-- The element width in bits that a width field names (R133). -/
def elemWidth (w : BitVec 2) : Nat := 8 * 2 ^ w.toNat

/-- Element i of width w of a vector value (R20). -/
def elem (v : VWord) (w i : Nat) : Nat := bits v.toNat (w * i) w

/-- Whether element i of width w is active under a mask (R20, R128). -/
def active (m : BitVec 16) (w i : Nat) : Bool :=
  if w = 64 then m.getLsbD (2 * i) && m.getLsbD (2 * i + 1) else m.getLsbD (w * i / 32)

/-- The number whose digits of w bits are the elements of a list, the first lowest. -/
def packElems (w : Nat) : List Nat → Nat
  | [] => 0
  | x :: xs => x % 2 ^ w + 2 ^ w * packElems w xs

/-- A vector built from n elements of width w: f for the active ones, the old bits for the others (R128). -/
def mergeElems (w n : Nat) (m : BitVec 16) (old : VWord) (f : Nat → Nat) : VWord :=
  BitVec.ofNat 512 (packElems w ((List.range n).map (fun i => if active m w i then f i else elem old w i)))

/-- The flags that the active elements raise together (R59). -/
def gatherFlags (w n : Nat) (m : BitVec 16) (f : Nat → BitVec 5) : BitVec 5 :=
  (List.range n).foldl (fun acc i => if active m w i then acc ||| f i else acc) 0

/-! ## Bytes and elements of an access (R28, R129 to R132) -/

/-- The offsets off to off + n − 1, which never wrap. -/
def byteRange (off : Int) : Nat → List Int
  | 0 => []
  | n + 1 => off :: byteRange (off + 1) n

/-- Whether an offset lies in a reservation of a size. -/
def inRange (size : Nat) (o : Int) : Bool := decide (0 ≤ o) && decide (o < size)

/-- Uncorrectable words become correctable when all their 64 bits are written. Log entry 15 (DEDUCED). -/
def mendWords (bad : List Nat) (written : List Nat) : List Nat :=
  bad.filter (fun w => !(List.range 8).all (fun k => decide (8 * w + k ∈ written)))

/-- The active elements of a shape: index and first byte. -/
def VecShape.active (h : VecShape) (m : BitVec 16) : List (Nat × Int) :=
  ((List.range h.n).zip h.at_).filter (fun e => Machine.active m h.width e.1)

/-- The bytes of one memory element, at least one. -/
def VecShape.ebytes (h : VecShape) : Nat := max (h.ebits / 8) 1

/-- The bytes that the active elements touch. -/
def VecShape.offs (h : VecShape) (m : BitVec 16) : List Int :=
  (h.active m).flatMap (fun e => byteRange e.2 h.ebytes)

/-- Whether elements pass between memory and register unconverted (R130). -/
def VecShape.copies (h : VecShape) (t : BitVec 4) : Bool :=
  match h.fmt with
  | none => true
  | some f => decide (bits f.toNat 0 4 = 0) || formatEq f (t.setWidth 10)

/-- The bits of memory element i at offset o as stored; rd gives the byte at an offset. -/
def VecShape.element (h : VecShape) (rd : Int → Byte) (i : Nat) (o : Int) : Nat :=
  if h.ebits = 4 then bits (rd o).toNat (4 * (i % 2)) 4
  else bytesLE ((List.range (h.ebits / 8)).map (fun j => rd (o + j)))

/-- The element of a vector load and its flags (R130): rd gives the byte at an offset. -/
def loadElem (rm : RMode) (rd : Int → Byte) (t : BitVec 4) (h : VecShape) (i : Nat) : Nat × BitVec 5 :=
  let b := h.element rd i (h.at_.getD i 0)
  if h.copies t then (b, 0) else convertElem (formatOf (h.fmt.getD 0)) (formatOf (t.setWidth 10)) rm b

/-- The memory element of a vector store and its flags (R130). -/
def storeElem (rm : RMode) (t : BitVec 4) (h : VecShape) (v : VWord) (i : Nat) : Nat × BitVec 5 :=
  let b := elem v h.width i
  if h.copies t then (b, 0) else convertElem (formatOf (t.setWidth 10)) (formatOf (h.fmt.getD 0)) rm b

/-- The bytes of the memory element i at offset o, in rising order: offset, the bits that the element holds, and their value v; a half byte leaves the
other half (R43). -/
def VecShape.cells (h : VecShape) (v i : Nat) (o : Int) : List (Int × Byte × Byte) :=
  if h.ebits = 4 then [(o, BitVec.ofNat 8 (15 * 2 ^ (4 * (i % 2))), BitVec.ofNat 8 (v % 16 * 2 ^ (4 * (i % 2))))]
  else (List.range (h.ebits / 8)).map (fun (j : Nat) => (o + (j : Int), 0xFF, BitVec.ofNat 8 (v / 2 ^ (8 * j))))

/-- The cells of an access that lie in a reservation of a size. -/
def cellsInside (size : Nat) (l : List (Int × Byte × Byte)) : List VecCell :=
  (l.filter (fun c => inRange size c.1)).map (fun c => (c.1.toNat, c.2.1, c.2.2))

/-- Cells grouped by the bank that holds them, in the order in which the banks first come (R112, R132). -/
def bankGroups (l : List VecCell) : List (List VecCell) :=
  ((l.map (fun c => c.1 / 3072)).dedup).map (fun b => l.filter (fun c => decide (c.1 / 3072 = b)))

/-- The bank accesses of a vector access, in order: one for each bank of a unit stride, the lower bank first, and those of each active element in
rising index otherwise (R132). val gives the value that an element stores. -/
def VecShape.pieces (h : VecShape) (m : BitVec 16) (size : Nat) (val : Nat → Nat) : List (List VecCell) :=
  let cells (e : Nat × Int) := cellsInside size (h.cells (val e.1) e.1 e.2)
  if h.kind = 0 then bankGroups ((h.active m).flatMap cells) else (h.active m).flatMap (fun e => bankGroups (cells e))

end Sys2Proof.Machine
end

