-- ==== Sys2Proof/Machine/Ops.lean ====
section
/-! DEFINITION. Named operations over memory, registers and the core: reading and writing them, the end of an instruction, the
scratchpad with its checks, task records, taking an exception, abort, kill and the return from a trap. -/

namespace Sys2Proof.Machine

/-! ## Tables, memories and small lists -/

/-- The value of a table at a key; the default where it lists nothing. -/
def Table.get {α : Type} (d : α) : Table α → Nat → α
  | [], _ => d
  | (k, v) :: rest, a => if a = k then v else if a < k then d else Table.get d rest a

/-- Writes a value at a key; writing the default removes the entry. -/
def Table.put {α : Type} [DecidableEq α] (d : α) : Table α → Nat → α → Table α
  | [], a, v => if v = d then [] else [(a, v)]
  | (k, w) :: rest, a, v =>
    if a < k then (if v = d then (k, w) :: rest else (a, v) :: (k, w) :: rest)
    else if a = k then (if v = d then rest else (a, v) :: rest)
    else (k, w) :: Table.put d rest a v

/-- The byte at an address (R6). Log entry 6 (DESIGN CHOICE). -/
def readByte (m : Mem) (a : Nat) : Byte := Table.get 0 m a

/-- Stores one byte. -/
def writeByte (m : Mem) (a : Nat) (b : Byte) : Mem := Table.put 0 m a b

/-- The little-endian number in n bytes from an address (R6). -/
def readLE (m : Mem) (a : Nat) : Nat → Nat
  | 0 => 0
  | n + 1 => (readByte m a).toNat + 2 ^ 8 * readLE m (a + 1) n

/-- Stores the low n bytes of a number, little-endian (R6). -/
def writeLE (m : Mem) (a : Nat) (n v : Nat) : Mem :=
  match n with
  | 0 => m
  | n + 1 => writeLE (writeByte m a (BitVec.ofNat 8 v)) (a + 1) n (v / 2 ^ 8)

/-- The n bytes from an address. -/
def readList (m : Mem) (a : Nat) : Nat → List Byte
  | 0 => []
  | n + 1 => readByte m a :: readList m (a + 1) n

/-- Stores a list of bytes from an address. -/
def writeList (m : Mem) (a : Nat) : List Byte → Mem
  | [] => m
  | b :: bs => writeList (writeByte m a b) (a + 1) bs

/-- Clears the entries of a memory from lo to hi − 1. -/
def clearRange (m : Mem) (lo hi : Nat) : Mem := m.filter (fun c => decide (c.1 < lo) || decide (hi ≤ c.1))

/-- The low n bytes of a number, little-endian. -/
def leBytes : Nat → Nat → List Byte
  | 0, _ => []
  | n + 1, v => BitVec.ofNat 8 v :: leBytes n (v / 2 ^ 8)

/-- Replaces an element of a vector. -/
def vset {α : Type} {n : Nat} (v : Vector α n) (i : Fin n) (a : α) : Vector α n := v.set i.val a i.isLt

/-- The register number of a five-bit field. -/
def regIx (r : Reg) : Fin 32 := ⟨r.toNat, r.isLt⟩

/-- The mask or operand-extension register number of a five-bit field (R75: 0 to 7). -/
def reg8 (r : Reg) : Fin 8 := ⟨r.toNat % 8, Nat.mod_lt _ (by decide)⟩

/-- The mask register number of a governing mask field. -/
def maskIx (m : MaskField) : Fin 8 := ⟨m.toNat, m.isLt⟩

/-! ## The current stream and its residency -/

/-- The stream whose instruction executes. -/
def State.st (s : State) : Stream := s.streams[s.cur]

/-- Replaces the stream whose instruction executes. -/
def State.setSt (s : State) (t : Stream) : State := { s with streams := vset s.streams s.cur t }

/-- The index of the residency of the current stream. -/
def State.ri (s : State) : ResIx := s.st.res

/-- The residency of the current stream (R16). -/
def State.rs (s : State) : Residency := s.res[s.ri]

/-- Replaces a residency. -/
def State.setRes (s : State) (r : ResIx) (x : Residency) : State := { s with res := vset s.res r x }

/-- Replaces the residency of the current stream. -/
def State.setRs (s : State) (x : Residency) : State := s.setRes s.ri x

/-- A fresh stamp: the order in which locks are registered and activations become ready. -/
def State.bump (s : State) : State := { s with core := { s.core with stamp := s.core.stamp + 1 } }

/-- The next free value's index; the step that uses it advances it. Log entry 7 (DESIGN CHOICE). -/
def State.nextFree (s : State) : State := { s with free := s.free + 1 }

/-! ## Queue aliases and registers (R19 to R22, R114, R140) -/

/-- The scalar queue a register number names while QM is 1: x28 to x31 (R21). -/
def scalarQueue (r : Reg) : Option (Fin 4) :=
  if r = 28 then some 0 else if r = 29 then some 1 else if r = 30 then some 2 else if r = 31 then some 3 else none

/-- The vector queue a register number names while QM is 1: v30 and v31 (R21). -/
def vectorQueue (r : Reg) : Option (Fin 2) :=
  if r = 30 then some 0 else if r = 31 then some 1 else none

/-- The scalar queue an x field reaches now. -/
def State.xQueue (s : State) (r : Reg) : Option (Fin 4) := if s.st.qm then scalarQueue r else none

/-- The vector queue a v field reaches now. -/
def State.vQueue (s : State) (r : Reg) : Option (Fin 2) := if s.st.qm then vectorQueue r else none

/-- The value of a scalar register itself; x0 reads as 0 (R19). -/
def Stream.getX (t : Stream) (r : Reg) : Word := if r = 0 then 0 else t.x[regIx r]

/-- Writes a scalar register itself; a write to x0 is discarded (R19). -/
def Stream.putX (t : Stream) (r : Reg) (v : Word) : Stream := if r = 0 then t else { t with x := vset t.x (regIx r) v }

/-- The value of a mask register; m0 reads as all ones (R20). -/
def Stream.getM (t : Stream) (i : Fin 8) : BitVec 16 := if i = 0 then 0xFFFF else t.m[i]

/-- Writes a mask register; a write to m0 is discarded (R20). -/
def Stream.putM (t : Stream) (i : Fin 8) (v : BitVec 16) : Stream := if i = 0 then t else { t with m := vset t.m i v }

/-- The running task of the current stream, if it has one. -/
def State.task (s : State) : Option Task := s.rs.task

/-- Replaces the running task of the current residency. -/
def State.setTask (s : State) (t : Task) : State := s.setRs { s.rs with task := some t }

/-- Whether a quad-remote load of the current stream that has issued has yet to write register r (R109, R126). Log entry 8 (DEDUCED). -/
def State.inFlight (s : State) (r : Reg) : Bool :=
  decide (r ≠ 0) && s.core.remote.any (fun e => decide (e.slot = s.cur) && !e.write && decide (e.rd = r))

/-- Pushes onto a scalar queue of a residency that issued loads have yet to make. -/
def State.pendingPushes (s : State) (r : ResIx) (q : Fin 4) : Nat :=
  (s.core.remote.filter (fun e => decide (e.res = r) && !e.write && e.queued && decide (scalarQueue e.rd = some q))).length

/-- Reads a scalar source: a register, or the oldest entry of a queue, which it pops; none while the queue is empty
or the register's value is still in flight (R18, R21, R109). -/
def popX (r : Reg) (s : State) : Option (Word × State) :=
  if s.inFlight r then none else
  match s.xQueue r with
  | none => some (s.st.getX r, s)
  | some q =>
    match s.task with
    | none => none
    | some t =>
      match t.sq[q] with
      | [] => none
      | v :: rest => some (v, s.setTask { t with sq := vset t.sq q rest })

/-- Reads a vector source: a register, or the oldest entry of a queue, which it pops (R21, R140). -/
def popV (r : Reg) (s : State) : Option (VWord × State) :=
  match s.vQueue r with
  | none => some (s.st.v[regIx r], s)
  | some q =>
    match s.task with
    | none => none
    | some t =>
      match t.vq[q] with
      | [] => none
      | v :: rest => some (v, s.setTask { t with vq := vset t.vq q rest })

/-- Whether a scalar destination can take a value: a register that awaits no earlier result, a queue below its 8 entries to which no
load that issued earlier has yet to push (R18, R21, R109). -/
def roomX (r : Reg) (s : State) : Bool :=
  !s.inFlight r &&
  match s.xQueue r with
  | none => true
  | some q => match s.task with
    | none => false
    | some t => decide (t.sq[q].length < 8) && decide (s.pendingPushes s.ri q = 0)

/-- Whether a vector destination can take a value: a register always, a queue below its 4 entries (R18, R21). -/
def roomV (r : Reg) (s : State) : Bool :=
  match s.vQueue r with
  | none => true
  | some q => match s.task with
    | none => false
    | some t => decide (t.vq[q].length < 4)

/-- Writes a scalar destination: the register, or a push onto the queue (R19, R21). -/
def writeX (r : Reg) (v : Word) (s : State) : State :=
  match s.xQueue r with
  | none => s.setSt (s.st.putX r v)
  | some q => match s.task with
    | none => s
    | some t => s.setTask { t with sq := vset t.sq q (t.sq[q] ++ [v]) }

/-- Writes a vector destination: the register, or a push onto the queue (R20, R21). -/
def writeV (r : Reg) (v : VWord) (s : State) : State :=
  match s.vQueue r with
  | none => s.setSt { s.st with v := vset s.st.v (regIx r) v }
  | some q => match s.task with
    | none => s
    | some t => s.setTask { t with vq := vset t.vq q (t.vq[q] ++ [v]) }

/-- The old value a masked vector destination keeps in its inactive elements; zero for a queue (R128). -/
def oldV (r : Reg) (s : State) : VWord := if (s.vQueue r).isSome then 0 else s.st.v[regIx r]

/-- Writes a mask register. -/
def writeM (i : Fin 8) (v : BitVec 16) (s : State) : State := s.setSt (s.st.putM i v)

/-- The value of an operand-extension register (R22). -/
def State.oxv (s : State) (r : Reg) : BitVec 128 := s.st.ox[reg8 r]

/-- Writes an operand-extension register. -/
def writeOx (r : Reg) (v : BitVec 128) (s : State) : State := s.setSt { s.st with ox := vset s.st.ox (reg8 r) v }

/-- ORs flags into FFLAGS, which is sticky (R59). -/
def orFlags (f : BitVec 5) (s : State) : State := s.setSt { s.st with fflags := s.st.fflags ||| f }

/-! ## Vector accesses under way (R132, R142) -/

/-- The rounding mode of the stream. -/
def State.rm (s : State) : RMode := rmode s.st.fmode

/-- The next bank access of the vector access in progress is performed at the scratchpad: a load reads its bytes, a store writes its cells and mends
the uncorrectable words that it replaces whole. Log entry 15 (DEDUCED). -/
def vecPiece (q : VecRun) (p : List VecCell) (s : State) : VecRun × State :=
  let base := s.res[s.streams[q.slot].res].spbase.toNat
  if q.dest.isSome then ({ q with got := p.foldl (fun g c => writeByte g c.1 (readByte s.core.spad (base + c.1))) q.got }, s)
  else
    let put (g : Mem) (c : VecCell) : Mem :=
      writeByte g (base + c.1) (readByte g (base + c.1) &&& ~~~c.2.1 ||| c.2.2 &&& c.2.1)
    (q, { s with core := { s.core with
      spad := p.foldl put s.core.spad
      spadBad := mendWords s.core.spadBad ((p.filter (fun c => decide (c.2.1 = 0xFF))).map (fun c => base + c.1)) } })

/-- A vector access is complete: a load's elements are converted and reach the destination, and the flags of the conversions join FFLAGS (R130,
R132). -/
def vecEnd (q : VecRun) (s : State) : State :=
  let s1 := { s with core := { s.core with vecRun := none }, cur := q.slot }
  let s2 := match q.dest with
    | none => orFlags q.flags s1
    | some d =>
      let h := d.shape
      let rd (o : Int) : Byte := if o < 0 then 0 else readByte q.got o.toNat
      let r := (List.range h.n).map (loadElem s1.rm rd d.t h)
      let v := mergeElems h.width h.n d.m (oldV d.reg s1) (fun j => (r.getD j (0, 0)).1)
      writeV d.reg v (orFlags (gatherFlags h.width h.n d.m (fun j => (r.getD j (0, 0)).2)) s1)
  { s2 with cur := s.cur }

/-- The next bank access of the vector access in progress is performed; with the last of them the access is complete (R132, R142). -/
def vecStep (s : State) : State :=
  match s.core.vecRun with
  | none => s
  | some q =>
    match q.pieces with
    | [] => vecEnd q s
    | p :: ps =>
      let a := vecPiece q p s
      if ps = [] then vecEnd a.1 a.2 else { a.2 with core := { a.2.core with vecRun := some { a.1 with pieces := ps } } }

/-- The vector access in progress is performed to its end. -/
def finishVec (s : State) : State :=
  match s.core.vecRun with
  | none => s
  | some q => (List.range (q.pieces.length + 1)).foldl (fun s _ => vecStep s) s

/-! ## The end of an instruction (R72, R103 to R106) -/

/-- The stream is not ready: nothing happens except that the slot is marked until something else moves (R18, R109, R298). -/
def stall (s : State) : Res := .next (s.setSt { s.st with stalled := true })

/-- What the loop stack and the program counter become after an instruction at a of n bytes that transfers no control; true
when it straddles the end of the innermost level (R104). -/
def fallThrough (a : Word) (n : Nat) : List Loop → List Loop × Word × Bool
  | [] => ([], a + BitVec.ofNat 64 n, false)
  | lv :: rest =>
    if a.toNat < lv.stop.toNat ∧ lv.stop.toNat < a.toNat + n then (rest, a + BitVec.ofNat 64 n, true)
    else if a + BitVec.ofNat 64 n ≠ lv.stop then (lv :: rest, a + BitVec.ofNat 64 n, false)
    else if 1 < lv.remaining.toNat then ({ lv with remaining := lv.remaining - 1 } :: rest, lv.start, false)
    else fallThrough a n rest

/-- The loop levels that a transfer to t keeps: levels whose body does not hold t are popped (R105). -/
def keepLoops (t : Word) : List Loop → List Loop
  | [] => []
  | lv :: rest => if lv.start.toNat ≤ t.toNat ∧ t.toNat < lv.stop.toNat then lv :: rest else keepLoops t rest

/-- Where a stream that arrives at t goes on, and the levels it keeps (R106). -/
def arrive (t : Word) : List Loop → List Loop × Word
  | [] => ([], t)
  | lv :: rest =>
    if t = lv.stop then
      if 1 < lv.remaining.toNat then ({ lv with remaining := lv.remaining - 1 } :: rest, lv.start)
      else arrive t rest
    else if lv.start.toNat ≤ t.toNat ∧ t.toNat < lv.stop.toNat then (lv :: rest, t)
    else arrive t rest

/-! ## Receive queues, sinks and dead letters (R198, R202, R310) -/

/-- The receive queue of a virtual network (R198). -/
def Core.rx (c : Core) (vn : Nat) : List RxEntry := if vn = 0 then c.rxReq else if vn = 1 then c.rxRpy else c.rxSys

/-- Replaces the receive queue of a virtual network. -/
def Core.setRx (c : Core) (vn : Nat) (q : List RxEntry) : Core :=
  if vn = 0 then { c with rxReq := q } else if vn = 1 then { c with rxRpy := q } else { c with rxSys := q }

/-- The number of entries of a receive queue: REQ 32, RPY 64, SYS 16 (R198). -/
def rxDepth (vn : Nat) : Nat := if vn = 0 then 32 else if vn = 1 then 64 else 16

/-- Header doubleword 0 (R196). -/
def msgD0 (m : Msg) : Word :=
  BitVec.ofNat 64 (m.src.toNat * 2 ^ 32 + m.seq.toNat * 2 ^ 16 + m.hidx.toNat * 2 ^ 8 + m.rhidx.toNat)

/-- Header doubleword 1 (R196). -/
def msgD1 (m : Msg) : Word :=
  BitVec.ofNat 64 (m.dest.toNat * 2 ^ 32 + m.gen.toNat * 2 ^ 28 + m.asid.toNat * 2 ^ 16 + m.scope.toNat * 2 ^ 13
    + m.vn.toNat * 2 ^ 11 + m.spl.toNat * 2 ^ 10 + m.dev.toNat * 2 ^ 9 + m.rq.toNat * 2 ^ 8 + m.sg.toNat * 2 ^ 7
    + m.len.toNat)

/-- A message as it arrives: its payload bytes beyond LEN are zero (R196). -/
def trimmed (m : Msg) : Msg := { m with payload := BitVec.ofNat 512 (m.payload.toNat % 2 ^ (8 * m.len.toNat)) }

/-- Whether a message travels to a vault agent (R197). -/
def toAgent (m : Msg) : Bool := decide (0xF0 ≤ m.hidx.toNat) && decide (m.hidx.toNat ≤ 0xF4)

/-- A payload doubleword. -/
def msgPayload (m : Msg) (i : Nat) : Word := BitVec.ofNat 64 (bits m.payload.toNat (64 * i) 64)

/-- Whether a message is for the context of a residency: CTX matches GEN and ASID (R197); a gang-end message is for another gang of the
same ASID (R292). -/
def Residency.takes (r : Residency) (m : Msg) : Bool :=
  decide (r.state ≠ .free) && decide (r.asid = m.asid)
    && (if m.dev ∧ m.vn = 2 then decide (r.gang.toNat ≠ bits m.payload.toNat 16 16) else decide (r.gen = m.gen))

/-- The messages of a network that wait for a residency's context; a held trigger is not counted (R198). -/
def waitingFor (c : Core) (r : ResIx) (vn : Nat) : Nat :=
  ((c.rx vn).filter (fun e => decide (e.res = r) && !e.held)).length

/-- Reply sinks held by all residencies of the core and by its switched-out contexts (R198). -/
def State.sinksHeld (s : State) : Nat := (s.res.toList.map Residency.sinks).sum + (s.net.switchedOut.map Away.sinks).sum

/-- Free reply sinks: the RPY queue has 64 (R198). -/
def State.sinksFree (s : State) : Nat := 64 - s.sinksHeld

/-- Gives back n sinks of a residency. -/
def freeSinks (r : ResIx) (n : Nat) (s : State) : State :=
  s.setRes r { s.res[r] with sinks := s.res[r].sinks - n }

/-- The number of RPY messages in the receive queue for a residency: each has taken up one of its sinks. -/
def repliesHeld (s : State) (r : ResIx) : Nat := (s.core.rxRpy.filter (fun (e : RxEntry) => decide (e.res = r))).length

/-- A sink of a context is given back: a residency's, of which one is reserved for a reply that has not come, or a switched-out context's. -/
def giveSink (asid : Asid) (gen : BitVec 4) (s : State) : State :=
  match (List.finRange 4).find? (fun r => decide (s.res[r].state ≠ .free) && decide (s.res[r].asid = asid) && decide (s.res[r].gen = gen)) with
  | some r => if repliesHeld s r < s.res[r].sinks then freeSinks r 1 s else s
  | none => { s with net := { s.net with switchedOut := s.net.switchedOut.map (fun (a : Away) =>
      if a.asid = asid ∧ a.gen = gen then { a with sinks := a.sinks - 1 } else a) } }

/-- A message of this core is performed, or has gone: it is no more on its way (R203, R235). -/
def landed (m : Msg) (s : State) : State :=
  { s with net := { s.net with flying := s.net.flying.eraseP (fun f => decide (f.m = m)) } }

/-- Whether a buffered or leaving message holds a sink: it asked for a reply, or is a SIGNAL, which always does (R202,
R210). -/
def BufEntry.holdsSink : BufEntry → Bool
  | .msg m => m.rq
  | _ => false

/-- Sinks held by the entries of a send buffer. -/
def bufSinks (b : List BufEntry) : Nat := (b.filter BufEntry.holdsSink).length

/-- Counts a dead letter and latches the first header with its reason (R310). Log entry 47 (DESIGN CHOICE). -/
def deadLetter (why : Nat) (m : Msg) (s : State) : State :=
  { s with mgr := { s.mgr with
      dlcnt := if s.mgr.dlcnt = BitVec.allOnes 32 then s.mgr.dlcnt else s.mgr.dlcnt + 1
      dlhdr := match s.mgr.dlhdr with
        | none => some (msgD0 m, msgD1 m)
        | some h => some h
      dlwhy := match s.mgr.dlhdr with
        | none => BitVec.ofNat 8 why
        | some _ => s.mgr.dlwhy } }

/-- The pod-wide address of the core (R4). -/
def State.address (s : State) : BitVec 32 := BitVec.ofNat 32 (s.core.pkg.toNat * 2 ^ 15 + s.core.id.toNat)

/-- The payload of a bounce or NOTARGET reply (R211): the code, the original header and the first 40 payload bytes. -/
def bouncePayload (code : Nat) (m : Msg) : BitVec 512 :=
  BitVec.ofNat 512 (code + (msgD0 m).toNat * 2 ^ 64 + (msgD1 m).toNat * 2 ^ 128 + bits m.payload.toNat 0 320 * 2 ^ 192)

/-- The reply the device makes to a message: on RPY, to its source, DEV set (R211). -/
def deviceReply (code : Nat) (h : BitVec 8) (m : Msg) (here : BitVec 32) : Msg where
  dest := m.src
  gen := m.gen
  asid := m.asid
  scope := m.scope
  vn := 1
  spl := false
  dev := true
  rq := false
  sg := false
  len := 64
  src := here
  seq := m.seq
  hidx := h
  rhidx := 0
  payload := bouncePayload code m

/-- A message arrives at this core's interface, at the present tick (R198, R317). -/
def arriveInbound (m : Msg) (s : State) : State :=
  { s with net := { s.net with inbound := s.net.inbound ++ [m], inTicks := s.net.inTicks ++ [s.mgr.tick] } }

/-- Sends a device reply: into the core's own inbound list when it is addressed to this core, out of it otherwise; one with the handler index of a
vault agent goes to the agent (R197). -/
def postReply (m : Msg) (s : State) : State :=
  if m.dest = s.address ∧ toAgent m = false then arriveInbound m s
  else { s with net := { s.net with leaving := s.net.leaving ++ [m] } }

/-- Drops a message as a dead letter of the given reason; with RQ set and a reason of 1 to 3, a NOTARGET reply returns
(R310). -/
def dropMessage (why : Nat) (m : Msg) (s : State) : State :=
  let s := deadLetter why m s
  if m.rq ∧ why ≤ 3 then postReply (deviceReply 0x10 m.rhidx m s.address) s else s

/-- A message of which nothing returns is dropped: a reply for a context of this core frees the sink that was reserved for it (R198, R308, R310). -/
def dropDead (why : Nat) (m : Msg) (s : State) : State :=
  let s := dropMessage why m s
  if m.vn = 1 ∧ m.dest = s.address then giveSink m.asid m.gen s else s

/-! ## Task records and the ready queue (R39, R212, R213) -/

/-- The doubleword at a byte offset of a residency's reservation, physically (R27). -/
def recWord (s : State) (r : ResIx) (off : Nat) : Nat := readLE s.core.spad (s.res[r].spbase.toNat + off) 8

/-- Writes a doubleword of a residency's reservation. -/
def setRecWord (s : State) (r : ResIx) (off v : Nat) : State :=
  { s with core := { s.core with spad := writeLE s.core.spad (s.res[r].spbase.toNat + off) 8 v } }

/-- Sets or clears one bit of a record's doubleword 0. -/
def setRecBit (s : State) (r : ResIx) (off bit : Nat) (b : Bool) : State :=
  let w := recWord s r off
  setRecWord s r off (w - bits w bit 1 * 2 ^ bit + b.toNat * 2 ^ bit)

/-- Appends a record to the ready queue, or to the tail of the residency's overflow chain, which it ends (R39, R212). Log entry 21 (DEDUCED). -/
def enqueueReady (r : ResIx) (off : Nat) (s : State) : State :=
  if s.core.readyQ.length < 16 ∧ s.res[r].ovHead = none then
    { s with core := { s.core with readyQ := s.core.readyQ ++ [⟨r, off, s.core.cycle.toNat⟩] } }
  else
    let link (t v : Nat) (s : State) : State := setRecWord s r (t + 8) (recWord s r (t + 8) / 2 ^ 16 * 2 ^ 16 + v)
    let s := link off 0xFFFF (match s.res[r].ovTail with
      | none => s
      | some t => link t off s)
    s.setRes r { s.res[r] with ovHead := some (s.res[r].ovHead.getD off), ovTail := some off }

/-- ready(rec): a queued record is marked for re-arming, another is queued (R213). -/
def readyRecord (r : ResIx) (off : Nat) (s : State) : State :=
  let s := s.setRes r { s.res[r] with armed := s.res[r].armed.filter (· ≠ off) }
  if bits (recWord s r off) 49 1 = 1 then setRecBit s r off 50 true
  else enqueueReady r off (setRecBit s r off 49 true)

/-- dec(off, k): a decrement of a record, readying it when an armed counter reaches zero (R213). A record out of range takes
no effect (R28). Log entry 38 (DEDUCED). -/
def decRecord (r : ResIx) (off k : Nat) (s : State) : State :=
  if s.res[r].spsize.toNat < off + 64 then s
  else
    let w := recWord s r off
    let old := bits w 0 32
    let cnt := old - k
    let s := setRecWord s r off (w - old + cnt)
    if bits w 48 1 = 1 ∧ 0 < old ∧ cnt = 0 then readyRecord r off (setRecBit s r off 48 false) else s

/-! ## Abort, kill and taking an exception (R301 to R309) -/

/-- Bytes of a residency's image region (R401). -/
def Residency.regionEnd (r : Residency) : Nat := (r.ilen.toNat + 1) * 64

/-- The physical instruction-store address of a region address (R401). -/
def Residency.istoreAddr (r : Residency) (a : Nat) : Nat := r.ibase.toNat * 64 + a

/-- The handler address of a cause; none where the cause has no vector (R302). -/
def vectorOf (s : State) (cause : Nat) : Option Word :=
  let r := s.rs
  let base := bits s.st.tvec.toNat 6 9 * 64
  if bits s.st.tvec.toNat 15 1 = 0 ∨ r.regionEnd < base + 64 ∨ cause = 0x1D then none
  else
    let h := readLE s.quad.istore (r.istoreAddr (base + 2 * cause)) 2
    if bits h 15 1 = 1 then some (BitVec.ofNat 64 (bits h 0 14 * 2)) else none

/-- TMSG of a trigger: SRC, SEQ and HIDX of the message, 0 for the others (R25, R301). -/
def Trigger.tmsg : Trigger → Word
  | .message m => BitVec.ofNat 64 (m.src.toNat * 2 ^ 32 + m.seq.toNat * 2 ^ 16 + m.hidx.toNat * 2 ^ 8)
  | _ => 0

/-- TMSG of a residency's running task. -/
def Residency.tmsg (r : Residency) : Word :=
  match r.task with
  | none => 0
  | some t => t.trigger.tmsg

/-- CTX of a residency: GEN and ASID (R25). -/
def Residency.ctx (r : Residency) : Nat := r.gen.toNat * 2 ^ 12 + r.asid.toNat

/-- Releases the range locks of a residency's appended copy records (R192). -/
def dropCopyLocks (r : ResIx) (offs : List Nat) (ls : Vector (Option Lock) 8) : Vector (Option Lock) 8 :=
  ls.map (fun l => match l with
    | some k => match k.owner with
      | some (r', off) => if r' = r ∧ off ∈ offs then none else l
      | none => l
    | none => l)

/-- The engine operations and remote accesses of a slot lose the fence marks of a stream that has ended; its loads write nothing
any more, and slice work that it issued runs on for no stream (R162). -/
def forgetSlot (c : Core) (p : SlotIx → Bool) : Core :=
  { c with
    remote := (c.remote.filter (fun e => e.write || !p e.slot)).map (fun e => if p e.slot then { e with fenced := false } else e)
    engQ := c.engQ.map (fun e => if p e.slot then { e with fenced := false, owned := false } else e)
    slew := { c.slew with work := c.slew.work.map (fun w => if w.slot.any p then { w with slot := none } else w) } }

/-- Stops every stream of a residency: its slots become free (R15, R221). A vector access that one of them has issued is performed first. -/
def stopStreams (r : ResIx) (s : State) : State :=
  let s := if s.core.vecRun.any (fun q => decide (s.streams[q.slot].res = r)) then finishVec s else s
  { s with core := forgetSlot s.core (fun i => s.streams[i].active && decide (s.streams[i].res = r)), streams := s.streams.map (fun t => if t.active ∧ t.res = r then { t with active := false, loops := [], due := none, area := none, stalled := false, qm := false } else t) }

/-- Discards what an activation leaves unreleased: its send buffer with the sinks it holds, and its appended copy records with
their locks (R192, R204, R221). -/
def discardWork (r : ResIx) (s : State) : State :=
  let x := s.res[r]
  let held := match x.task with
    | none => 0
    | some t => bufSinks t.sendBuf
  let arrivals := match x.task with
    | none => x.arrivals
    | some t => x.arrivals.filter (fun a => !t.sendBuf.any (fun e => match e with
        | .bar sc off => decide (sc = a.1 ∧ off = a.2)
        | _ => false))
  let s := { s with core := { s.core with locks := dropCopyLocks r (x.appended.map Prod.fst) s.core.locks } }
  s.setRes r { x with sinks := x.sinks - held, appended := [], copyOwner := [], arrivals := arrivals }

/-- Removes the held trigger of a residency from its receive queue; a reply so consumed frees its sink (R198). -/
def removeTrigger (r : ResIx) (m : Msg) (s : State) : State :=
  let vn := m.vn.toNat
  let q := s.core.rx vn
  let s := { s with core := s.core.setRx vn (q.filter (fun e => !(e.held && decide (e.res = r)))) }
  if vn = 1 then freeSinks r 1 s else s

/-- Returns the held trigger to the head of its queue: it waits again (R198, R221). -/
def returnTrigger (r : ResIx) (m : Msg) (s : State) : State :=
  let vn := m.vn.toNat
  { s with core := s.core.setRx vn ((s.core.rx vn).map (fun e => if e.held ∧ e.res = r then { e with held := false } else e)) }

/-- Writes an abort-log entry, or counts it when the 1,024 entries are full (R306). Log entry 47 (DESIGN CHOICE). -/
def logAbort (e : Word × Word × Word × Word) (s : State) : State :=
  if s.mgr.abortLog.length < 1024 then { s with mgr := { s.mgr with abortLog := s.mgr.abortLog ++ [e] } }
  else { s with mgr := { s.mgr with abortOverflow :=
    if s.mgr.abortOverflow = BitVec.allOnes 32 then s.mgr.abortOverflow else s.mgr.abortOverflow + 1 } }

/-- Concatenates doublewords, the first in the low bits. -/
def packWords : List Word → Nat
  | [] => 0
  | w :: ws => w.toNat + 2 ^ 64 * packWords ws

/-- The stream a kill report names: the lowest slot of the task for reasons 2 and 3, the deepest level (lowest slot among
equals) for reason 4 (R309). -/
def reportSlot (r : ResIx) (reason : Nat) (s : State) : Option SlotIx :=
  let act := (List.finRange 4).filter (fun i => s.streams[i].active && decide (s.streams[i].res = r))
  match act with
  | [] => none
  | i :: rest =>
    if reason = 4 then
      some (rest.foldl (fun b j => if s.streams[b].tlevel.toNat < s.streams[j].tlevel.toNat then j else b) i)
    else some i

/-- The trap record of level n of a stream for the kill report; zero where the stream has not entered the level (R309). -/
def reportRecord (t : Stream) (n : Fin 2) : List Word :=
  if n.val < t.entered.toNat then [t.traps[n].cause, t.traps[n].epc, t.traps[n].info, t.traps[n].msg] else [0, 0, 0, 0]

/-- The 128-byte kill report (R309). Log entry 47 (DESIGN CHOICE). -/
def killReport (r : ResIx) (slot : Option SlotIx) (reason cause : Nat) (epc info : Word) (s : State) : BitVec 1024 :=
  let x := s.res[r]
  let recs := match slot with
    | none => List.replicate 8 0
    | some i => reportRecord s.streams[i] 0 ++ reportRecord s.streams[i] 1
  let sl := match slot with
    | none => 0
    | some i => i.val
  let d0 := x.ctx * 2 ^ 48 + x.gang.toNat * 2 ^ 32 + s.core.id.toNat * 2 ^ 16 + sl * 2 ^ 8 + reason
  BitVec.ofNat 1024 (packWords (BitVec.ofNat 64 d0 :: recs ++ [BitVec.ofNat 64 cause, epc, info]))

/-- Removes a residency's waiting messages from a receive queue, counting each as a dead letter of reason 7 (R308). -/
def dropWaiting (r : ResIx) (vn : Nat) (s : State) : State :=
  let gone := (s.core.rx vn).filter (fun e => decide (e.res = r))
  let s := { s with core := s.core.setRx vn ((s.core.rx vn).filter (fun e => decide (e.res ≠ r))) }
  let s := gone.foldl (fun s e => deadLetter 7 e.m s) s
  if vn = 1 then freeSinks r gone.length s else s

/-- Whether slice work for a residency is in progress: that of its streams, of an activation that was aborted, or of a matrix command (R162,
R172). -/
def State.workOf (s : State) (r : ResIx) : Bool := s.core.slew.work.any (fun w => decide (w.res = some r))

/-- The kill itself (R308): it stops the streams, discards unreleased work, the trigger, the ready entries and the
waiting messages, marks the residency and its gang killed, and writes the kill report. -/
def killNow (r : ResIx) (slot : Option SlotIx) (reason cause : Nat) (epc info : Word) (s : State) : State :=
  let report := killReport r slot reason cause epc info s
  let trigger := s.res[r].task.map Task.trigger
  let s := discardWork r (stopStreams r s)
  let s := match trigger with
    | some (.message m) => removeTrigger r m s
    | _ => s
  let s := dropWaiting r 2 (dropWaiting r 1 (dropWaiting r 0 s))
  let g := s.res[r].gang
  let s := { s with
    core := { s.core with readyQ := s.core.readyQ.filter (fun e => decide (e.res ≠ r)) }
    mgr := { s.mgr with
      killQueue := s.mgr.killQueue ++ [report]
      gangs := s.mgr.gangs.map (fun (y : Gang) => if y.gang = g then { y with anyKilled := true } else y) } }
  s.setRes r { s.res[r] with
    task := none, killDue := none, killed := true, ovHead := none, ovTail := none, armed := [], launchHeld := false, launchReady := false,
    freeSince := s.core.cycle }

/-- Kills a residency on the core: at once, or, while an MMAR or other slice work for it is in progress, when that has ended; until then its
streams do not issue, and a kill already due stands (R162, R308). Log entry 12 (DEDUCED). -/
def killResidency (r : ResIx) (slot : Option SlotIx) (reason cause : Nat) (epc info : Word) (s : State) : State :=
  if s.workOf r then s.setRes r { s.res[r] with killDue := some (s.res[r].killDue.getD ⟨slot, reason, cause, epc, info⟩) }
  else killNow r slot reason cause epc info s

/-- A kill that is due is carried out once the residency has no slice work (R162). -/
def finishKill (r : ResIx) (s : State) : State :=
  match s.res[r].killDue with
  | none => s
  | some k => if s.workOf r then s else killNow r k.slot k.reason k.cause k.epc k.info s

/-- Ends an activation without its END (R221, R306, R307): keep says whether the trigger returns. reason: 0 TABORT, 1 no vector, 2
UEDATA. The sixteenth abort that would return the trigger kills the context. -/
def abortActivation (r : ResIx) (keep : Bool) (reason cause : Nat) (epc info : Word) (s : State) : State :=
  let x := s.res[r]
  let count := if keep then x.abortCount + 1 else x.abortCount
  let trigger := x.task.map Task.trigger
  let entry : Word × Word × Word × Word :=
    (x.tmsg, BitVec.ofNat 64 (x.ctx * 2 ^ 48 + s.core.id.toNat * 2 ^ 32 + cause * 2 ^ 24 + reason * 2 ^ 16 + count), epc, info)
  let s := logAbort entry s
  let s := s.setRes r { s.res[r] with abortCount := count }
  if keep ∧ 16 ≤ count then killResidency r (reportSlot r 2 s) 2 0 0 0 s
  else
    let s := discardWork r (stopStreams r s)
    let s := s.setRes r { s.res[r] with task := none, freeSince := s.core.cycle }
    match trigger with
    | some (.message m) => if keep then returnTrigger r m s else removeTrigger r m s
    | some (.record off) => if keep then readyRecord r off s else s
    | some .launch => s.setRes r { s.res[r] with launchHeld := keep, launchReady := keep, readyAt := s.core.cycle.toNat }
    | none => s

/-- The quad-mate residency of a gang on core k of the quad; a killed one is as if it were not there (R308). -/
def mateRes (s : State) (k : Fin 4) (gang : BitVec 16) : Option MateRes :=
  s.quad.mates[k].residencies.find? (fun m => decide (m.gang = gang) && !m.killed)

/-- Replaces the residency of a gang on quad-mate k. -/
def setMateRes (s : State) (k : Fin 4) (m : MateRes) : State :=
  let x := s.quad.mates[k]
  let x' := { x with residencies := x.residencies.map (fun y => if y.gang = m.gang then m else y) }
  { s with quad := { s.quad with mates := vset s.quad.mates k x' } }

/-- A byte of a quad-mate's reservation; 0 out of range (R28, R32). -/
def MateRes.byte (m : MateRes) (off : Nat) : Byte := if off < m.spsize.toNat then readByte m.mem off else 0

/-- n bytes of a quad-mate's reservation, little-endian. -/
def MateRes.rd (m : MateRes) (off : Nat) : Nat → Nat
  | 0 => 0
  | n + 1 => (m.byte off).toNat + 2 ^ 8 * MateRes.rd m (off + 1) n

/-- Stores the low n bytes of v in a quad-mate's reservation; bytes out of range are dropped. -/
def MateRes.wr (m : MateRes) (off n v : Nat) : MateRes :=
  match n with
  | 0 => m
  | n + 1 =>
    MateRes.wr (if off < m.spsize.toNat then { m with mem := writeByte m.mem off (BitVec.ofNat 8 v) } else m) (off + 1) n (v / 2 ^ 8)

/-- A store of n bytes in a quad-mate's reservation mends the words that it replaces whole. Log entry 15 (DEDUCED). -/
def MateRes.store (m : MateRes) (off n v : Nat) : MateRes :=
  let m := m.wr off n v
  { m with bad := m.bad.filter (fun w => !(decide (off ≤ 8 * w) && decide (8 * w + 8 ≤ off + n))) }

/-- Bytes of an access at off that one bank access performs: those below the next bank, where in-range bytes lie on both sides (R112). -/
def firstPart (off n size : Nat) : Nat :=
  let edge := (off / 3072 + 1) * 3072
  if edge < off + n ∧ edge < size then edge - off else n

/-- n bytes of a residency's reservation, little-endian; 0 out of range (R28). -/
def ownRd (s : State) (r : ResIx) (off : Nat) : Nat → Nat
  | 0 => 0
  | n + 1 =>
    (if off < s.res[r].spsize.toNat then (readByte s.core.spad (s.res[r].spbase.toNat + off)).toNat else 0) + 2 ^ 8 * ownRd s r (off + 1) n

/-- Stores the low n bytes of v in a residency's reservation; bytes out of range are dropped (R28). -/
def ownWr (r : ResIx) (off n v : Nat) (s : State) : State :=
  match n with
  | 0 => s
  | n + 1 =>
    ownWr r (off + 1) n (v / 2 ^ 8)
      (if off < s.res[r].spsize.toNat then
        { s with core := { s.core with spad := writeByte s.core.spad (s.res[r].spbase.toNat + off) (BitVec.ofNat 8 v) } }
      else s)

/-- A store of n bytes in a residency's reservation mends the words that it replaces whole. Log entry 15 (DEDUCED). -/
def ownStore (r : ResIx) (off n v : Nat) (s : State) : State :=
  let s := ownWr r off n v s
  let a := s.res[r].spbase.toNat + off
  { s with core := { s.core with
      spadBad := s.core.spadBad.filter (fun w => !(decide (a ≤ 8 * w) && decide (8 * w + 8 ≤ min (a + n) (s.res[r].spbase.toNat + s.res[r].spsize.toNat)))) } }

/-- The core's index in its quad (R4). -/
def State.coreInQuad (s : State) : BitVec 2 := s.core.id.setWidth 2

/-- Whether a pending access is at this core's own scratchpad: the upper half of a local access (R112). -/
def Remote.own (s : State) (e : Remote) : Bool := decide (e.target = s.coreInQuad)

/-- The quad-mate's reservation at which a pending access acts: that of the gang which issued it (R32, R116). -/
def targetMate (s : State) (e : Remote) : Option MateRes := mateRes s ⟨e.target.toNat, e.target.isLt⟩ e.gang

/-- The n low bytes of a number, of those from off on that were in range when the access committed (R28, R120). -/
def Remote.kept (e : Remote) (off n : Nat) : Nat := min n (e.size - off)

/-- n bytes at off of the reservation at which a pending access acts; 0 for those that were out of range when it committed (R28, R120). -/
def targetRd (s : State) (e : Remote) (off n : Nat) : Nat :=
  if e.own s then ownRd s e.res off (e.kept off n)
  else match targetMate s e with
    | none => 0
    | some m => m.rd off (e.kept off n)

/-- Stores n bytes at off of the reservation at which a pending access acts; those that were out of range when it committed are dropped (R28, R120). -/
def targetWr (e : Remote) (off n v : Nat) (s : State) : State :=
  if e.own s then ownStore e.res off (e.kept off n) v s
  else match targetMate s e with
    | none => s
    | some m => setMateRes s ⟨e.target.toNat, e.target.isLt⟩ (m.store off (e.kept off n) v)

/-- A load's value reaches its destination: the register of the stream that issued it, or its group's queue. -/
def deliverLoad (e : Remote) (v : Nat) (s : State) : State :=
  let w : Word := if e.signed then wrap 64 (sextNat v (8 * e.n)) else BitVec.ofNat 64 v
  let t := s.streams[e.slot]
  if e.queued then
    match scalarQueue e.rd, s.res[e.res].task with
    | some q, some k => s.setRes e.res { s.res[e.res] with task := some { k with sq := vset k.sq q (k.sq[q] ++ [w]) } }
    | _, _ => s
  else if t.active ∧ t.res = e.res then { s with streams := vset s.streams e.slot (t.putX e.rd w) }
  else s

/-- The next bank access of the pending access at place i of the list is performed: the bytes of one bank, the lower bank first; with the last of
them the access ends (R112, R126). Log entry 8 (DEDUCED). -/
def performRemote (i : Nat) (s : State) : State :=
  match s.core.remote[i]? with
  | none => s
  | some e =>
    let off := e.off.toNat + e.done
    let k := firstPart off (e.n - e.done) e.size
    let v := e.low + 2 ^ (8 * e.done) * targetRd s e off k
    let s1 := if e.write then targetWr e off k (e.data.toNat / 2 ^ (8 * e.done)) s else s
    if e.done + k < e.n then
      { s1 with core := { s1.core with remote := s1.core.remote.set i { e with done := e.done + k, low := v } } }
    else
      let s2 := { s1 with core := { s1.core with remote := s1.core.remote.eraseIdx i } }
      if e.write then s2 else deliverLoad e v s2

/-- The first pending access of which p holds has its next bank access performed. -/
def performFirst (p : Remote → Bool) (s : State) : State :=
  match s.core.remote.findIdx? p with
  | none => s
  | some i => performRemote i s

/-- Every pending access of which p holds is performed; an access of at most 8 bytes takes two bank accesses at most (R112). -/
def performAll (p : Remote → Bool) (s : State) : State := (List.range (2 * s.core.remote.length)).foldl (fun s _ => performFirst p s) s

/-- Every access of the current stream is performed: no result is in flight afterwards (R110). Log entry 8 (DEDUCED). -/
def drainRemote (s : State) : State := finishVec (performAll (fun e => decide (e.slot = s.cur)) s)

/-- The rest of what the core has issued at its own scratchpad is performed before its next instruction issues: the upper halves of accesses that span
two banks, and the bank accesses of a vector access (R112, R127, R142). -/
def finishHalves (s : State) : State := finishVec (performAll (fun e => e.own s) s)

/-- The current stream takes a trap (R303): at level 2 the context is killed; UEDATA and a cause without a vector abort the
activation; otherwise the next level's record is written, x24 to x31 and the loop stack are banked, and the stream goes on at the
handler. TEPC keeps the bits of R25's field, where the address is wider. Log entry 14 (DEDUCED). -/
def takeTrap (cause : Nat) (epc info : Word) (s : State) : State :=
  let s := drainRemote s
  let t := s.st
  if 2 ≤ t.tlevel.toNat then killResidency t.res (some s.cur) 1 cause epc info s
  else
    match vectorOf s cause with
    | none => abortActivation t.res true (if cause = 0x1D then 2 else 1) cause epc info s
    | some h =>
      let n : Fin 2 := if t.tlevel = 0 then 0 else 1
      s.setSt { t with
        traps := vset t.traps n ⟨BitVec.ofNat 64 cause, epc &&& 0x7FFE, info, s.rs.tmsg⟩
        xbank := vset t.xbank n (Vector.ofFn (fun (i : Fin 8) => t.x[24 + i.val]'(by omega)))
        x := Vector.ofFn (fun (i : Fin 32) => if i.val < 24 then t.x[i] else 0)
        loopBank := vset t.loopBank n t.loops
        loops := []
        tlevel := t.tlevel + 1
        entered := if t.entered.toNat < t.tlevel.toNat + 1 then t.tlevel + 1 else t.entered
        pc := h
        due := none
        area := none
        wait := 0
        stalled := false }

/-- Whether slice work that the current stream issued is still in progress (R162, R337). -/
def State.sliceBusy (s : State) : Bool := s.core.slew.work.any (fun w => decide (w.slot = some s.cur))

/-- The current stream raises a trap: it is entered at once, or kept until the slice work of the stream has ended (R162). -/
def raise (cause : Nat) (epc info : Word) (s : State) : Res :=
  if s.sliceBusy then .next (s.setSt { s.st with due := some (cause, epc, info), stalled := false }) else .next (takeTrap cause epc info s)

/-- The instruction traps: a cause with TEPC at the instruction (R8, R83, R301). -/
def trap (cause : Nat) (info : Word) (s : State) : Res := raise cause s.st.pc info s

/-- The return from a trap at level 1 or 2 (R220): x24 to x31 and the loop stack come back, the level falls by one, and the stream
arrives at TEPC. -/
def returnFromTrap (s : State) : State :=
  let t := s.st
  let n : Fin 2 := if t.tlevel.toNat ≤ 1 then 0 else 1
  let (ls, pc) := arrive t.traps[n].epc t.loopBank[n]
  s.setSt { t with
    x := Vector.ofFn (fun (i : Fin 32) => if h : 24 ≤ i.val then t.xbank[n][i.val - 24]'(by omega) else t.x[i])
    xbank := vset t.xbank n (Vector.ofFn (fun (i : Fin 8) => t.x[24 + i.val]'(by omega)))
    loops := ls
    loopBank := vset t.loopBank n []
    tlevel := t.tlevel - 1
    pc := pc
    wait := 0
    stalled := false }

/-- An instruction has completed without transferring control: the program counter moves past it, with the loop-end rule and
its straddle trap (R72, R104). -/
def retire (i : Instr) (s : State) : Res :=
  let t := s.st
  match fallThrough t.pc i.len t.loops with
  | (ls, pc, false) => .next (s.setSt { t with pc := pc, loops := ls, wait := 0, stalled := false })
  | (ls, pc, true) => raise 0x01 pc (BitVec.ofNat 64 (encode i)) (s.setSt { t with pc := pc, loops := ls, wait := 0, stalled := false })

/-- An instruction has completed by transferring control to t (R105). -/
def jumpTo (t : Word) (s : State) : Res :=
  .next (s.setSt { s.st with pc := t, loops := keepLoops t s.st.loops, wait := 0, stalled := false })

end Sys2Proof.Machine
end

