-- ==== Sys2Proof/Machine/Operands.lean ====
section
/-! DEFINITION. Operand forms: reading scalar, vector and mask operands with the queue aliases, and the scratchpad accesses with the
order of checks of R120 and R132. Each form passes what it read to the rest of the instruction; a stall or a trap acts on the state from
before any pop. -/

namespace Sys2Proof.Machine

/-! ## Register operands -/

/-- Reads scalar operand r: s0 is the state at issue, s the state after earlier pops (R21, R109). -/
def withX (r : Reg) (s0 s : State) (k : Word → State → Res) : Res :=
  match popX r s with
  | none => stall s0
  | some (x, s1) => k x s1

/-- Reads vector operand r (R21, R140). -/
def withV (r : Reg) (s0 s : State) (k : VWord → State → Res) : Res :=
  match popV r s with
  | none => stall s0
  | some (x, s1) => k x s1

/-- Goes on only when scalar destination r can take a value (R18, R21). -/
def withRoomX (r : Reg) (s0 s : State) (k : Res) : Res := if roomX r s then k else stall s0

/-- Goes on only when vector destination r can take a value (R18, R140). -/
def withRoomV (r : Reg) (s0 s : State) (k : Res) : Res := if roomV r s then k else stall s0

/-- The instruction completes, writing scalar destination r. -/
def finishX (i : Instr) (r : Reg) (v : Word) (s : State) : Res := retire i (writeX r v s)

/-- The instruction completes, writing vector destination r. -/
def finishV (i : Instr) (r : Reg) (v : VWord) (s : State) : Res := retire i (writeV r v s)

/-- A register-register instruction: rd ← f X Y (R93). -/
def binary (i : Instr) (a b c : Reg) (f : Word → Word → Word) (s : State) : Res :=
  withX b s s fun x s1 => withX c s s1 fun y s2 => withRoomX a s s2 (finishX i a (f x y) s2)

/-- A one-source instruction: rd ← f X. -/
def unary (i : Instr) (a b : Reg) (f : Word → Word) (s : State) : Res :=
  withX b s s fun x s1 => withRoomX a s s1 (finishX i a (f x) s1)

/-! ## Byte ranges of the scratchpad (R28, R111) -/

/-- The in-range offsets of an access, as numbers. -/
def inOffsets (size : Nat) : List Int → List Nat
  | [] => []
  | o :: os => if inRange size o then o.toNat :: inOffsets size os else inOffsets size os

/-- The out-of-range offsets of an access. -/
def outOffsets (size : Nat) (offs : List Int) : List Int := offs.filter (fun o => !inRange size o)

/-- The least of a list of integers. -/
def leastInt : List Int → Option Int
  | [] => none
  | o :: os => match leastInt os with
    | none => some o
    | some m => some (min o m)

/-- The least of a list of numbers. -/
def leastNat : List Nat → Option Nat
  | [] => none
  | o :: os => match leastNat os with
    | none => some o
    | some m => some (min o m)

/-- The byte at an offset of the current residency's reservation; 0 out of range (R27, R28). -/
def spadByte (s : State) (off : Int) : Byte :=
  if inRange s.rs.spsize.toNat off then readByte s.core.spad (s.rs.spbase.toNat + off.toNat) else 0

/-- spad_rd(off, n) without its checks. -/
def spadRd (s : State) (off : Int) : Nat → Nat
  | 0 => 0
  | n + 1 => (spadByte s off).toNat + 2 ^ 8 * spadRd s (off + 1) n

/-- Stores a byte at an offset; out of range it is dropped. -/
def spadPut (s : State) (off : Int) (b : Byte) : State :=
  if inRange s.rs.spsize.toNat off then
    { s with core := { s.core with spad := writeByte s.core.spad (s.rs.spbase.toNat + off.toNat) b } }
  else s

/-- spad_wr(off, n, v) without its checks. -/
def spadWr (s : State) (off : Int) (n v : Nat) : State :=
  match n with
  | 0 => s
  | n + 1 => spadWr (spadPut s off (BitVec.ofNat 8 v)) (off + 1) n (v / 2 ^ 8)

/-- A write of the offsets replaces whole uncorrectable words of the scratchpad. -/
def mendSpad (s : State) (offs : List Int) : State :=
  if s.core.spadBad = [] then s
  else
    let w := (inOffsets s.rs.spsize.toNat offs).map (fun o => s.rs.spbase.toNat + o)
    { s with core := { s.core with spadBad := mendWords s.core.spadBad w } }

/-! ## Checks (R120 to R125) -/

/-- Whether an entry covers a byte in the range lo to hi − 1 (R121, R184). -/
def Lock.meets (l : Lock) (lo hi : Nat) : Bool := l.ranges.any (fun r => decide (r.1 < hi) && decide (lo < r.2))

/-- The lowest entry of a lock table that meets a byte of the scratchpad: WR meets every access, RD meets writes (R121). -/
def lockHit (ls : Vector (Option Lock) 8) (write : Bool) (b : Nat) : Option (Fin 8) :=
  (List.finRange 8).find? (fun k => match ls[k] with
    | some l => decide (l.space = .spad) && (l.wr || write) && l.meets b (b + 1)
    | none => false)

/-- TINFO of the RLOCK that an access takes, if it takes one (R122). -/
def rlockInfo (ls : Vector (Option Lock) 8) (write : Bool) (core base : Nat) (ins : List Nat) : Option Word :=
  match leastNat (ins.filter (fun o => (lockHit ls write (base + o)).isSome)) with
  | none => none
  | some o =>
    let k := match lockHit ls write (base + o) with
      | none => 0
      | some k => k.val
    some (BitVec.ofNat 64 (write.toNat * 2 ^ 24 + core * 2 ^ 20 + k * 2 ^ 16 + o))

/-- Inserts a number into a rising list, once. -/
def insertNat (n : Nat) : List Nat → List Nat
  | [] => [n]
  | m :: ms => if n < m then n :: m :: ms else if n = m then m :: ms else m :: insertNat n ms

/-- The granules that an access touches, lowest first (R123). -/
def granulesOf : List Nat → List Nat
  | [] => []
  | o :: os => insertNat (o / 256) (granulesOf os)

/-- A granule without a record (R123). -/
def Granule.none : Granule := ⟨.none, 0⟩

/-- Whether a granule fails the race check of core c (R124). -/
def raceFails (gs : Table Granule) (c : BitVec 2) (write : Bool) (g : Nat) : Bool :=
  let x := Table.get Granule.none gs g
  let others := x.readers &&& ~~~(1#4 <<< c.toNat)
  decide (x.writer ≠ .none ∧ x.writer ≠ some c) || (write && decide (others ≠ 0))

/-- A granule's records after an access of core c that passed (R124). -/
def raceRecord (c : BitVec 2) (write : Bool) (gs : Table Granule) (g : Nat) : Table Granule :=
  let x := Table.get Granule.none gs g
  Table.put Granule.none gs g (if write then { x with writer := some c } else { x with readers := x.readers ||| (1#4 <<< c.toNat) })

/-- RACEINFO of a failing granule (R125). -/
def raceInfo (gs : Table Granule) (write : Bool) (phase owner g : Nat) (ins : List Nat) : Word :=
  let x := Table.get Granule.none gs g
  let wcr := match x.writer with
    | .none => 0
    | some k => k.toNat
  let off := (leastNat (ins.filter (fun o => decide (o / 256 = g)))).getD 0
  BitVec.ofNat 64 (2 ^ 63 + write.toNat * 2 ^ 62 + wcr * 2 ^ 60 + x.readers.toNat * 2 ^ 56 + phase % 2 ^ 16 * 2 ^ 40 + owner * 2 ^ 16 + off)

/-- The lowest uncorrectable byte among the physical bytes of an access. Log entry 15 (DEDUCED). -/
def badByte (bad : List Nat) (base : Nat) (ins : List Nat) : Option Nat :=
  if bad = [] then none else leastNat (ins.filter (fun o => decide ((base + o) / 8 ∈ bad)))

/-- SPFLAG after an access with the out-of-range offsets given (R25, R28): only the first is recorded. -/
def spflagAfter (old : Word) (write q : Bool) (cr : Nat) (outs : List Int) : Word :=
  match leastInt outs with
  | none => old
  | some o =>
    if bits old.toNat 63 1 = 1 then old
    else BitVec.ofNat 64 (2 ^ 63 + write.toNat * 2 ^ 62 + q.toNat * 2 ^ 61 + cr * 2 ^ 59 + (o % 2 ^ 32).toNat)

/-- The access commits: SPFLAG is updated (R28, R120). -/
def commitFlag (write q : Bool) (cr : Nat) (outs : List Int) (s : State) : State :=
  s.setRs { s.rs with spflag := spflagAfter s.rs.spflag write q cr outs }

/-- Whether a FENCE at QUAD scope or wider still holds the current stream's scratchpad accesses and engine instructions: a quad-remote
write, a TST or a hand-over that it issued before the FENCE is not performed (R210). -/
def fenceHolds (s : State) : Bool :=
  s.core.remote.any (fun e => decide (e.slot = s.cur) && e.fenced)
    || s.core.engQ.any (fun e => decide (e.slot = s.cur) && e.fenced)
    || s.rs.copyOwner.any (fun e => decide (bits e.2.toNat 0 2 = s.cur.val ∧ bits e.2.toNat 2 1 = 1))

/-- The race check of a local access (R124): nothing in a residency that is not quad-mapped. -/
def localRace (s : State) (write : Bool) (ins : List Nat) : Option Nat :=
  if s.rs.quadMapped then (granulesOf ins).find? (raceFails s.rs.granules s.coreInQuad write) else none

/-- The granule records after a local access that passed. -/
def recordLocal (write : Bool) (ins : List Nat) (s : State) : State :=
  if s.rs.quadMapped then
    s.setRs { s.rs with granules := (granulesOf ins).foldl (raceRecord s.coreInQuad write) s.rs.granules }
  else s

/-- A local scratchpad access of the given offsets (R120, R132): the wait of a FENCE, the range-lock check, the race check and, for a
read, the check for an uncorrectable word; then it commits and k performs it. s0 is the state before any pop. Log entry 15 (DEDUCED). -/
def localAccess (s0 : State) (read write : Bool) (offs : List Int) (s : State) (k : State → Res) : Res :=
  if fenceHolds s then stall s0
  else
    let size := s.rs.spsize.toNat
    let base := s.rs.spbase.toNat
    let ins := inOffsets size offs
    match rlockInfo s.core.locks write s.coreInQuad.toNat base ins with
    | some info => trap 0x15 info s0
    | none =>
      match localRace s write ins with
      | some g =>
        let info := raceInfo s.rs.granules write s.rs.phase s.coreInQuad.toNat g ins
        trap 0x14 info (s0.setRs { s0.rs with raceinfo := info })
      | none =>
        match (if read then badByte s.core.spadBad base ins else none) with
        | some o => trap 0x1D (BitVec.ofNat 64 (0x10000 + o)) s0
        | none => k (recordLocal write ins (commitFlag write false 0 (outOffsets size offs) s))

/-- Whether the in-range bytes of a scalar access lie in two banks (R112). -/
def spansBanks (s : State) (off : Int) (n : Nat) : Bool :=
  decide (0 ≤ off) && decide (firstPart off.toNat n s.rs.spsize.toNat < n)

/-- The lower half of a local access that spans two banks is performed; the upper half follows (R112). -/
def firstHalf (off : Int) (n : Nat) (write : Bool) (data : Word) (rd : Reg) (signed : Bool) (s : State) : State :=
  let e : Remote :=
    { slot := s.cur, res := s.ri, target := s.coreInQuad, off := BitVec.ofInt 64 off, n := n, write := write, data := data, rd := rd,
      signed := signed, done := 0, low := 0, queued := (s.xQueue rd).isSome, fenced := false, gang := s.rs.gang, size := s.rs.spsize.toNat, at_ := s.core.cycle }
  performRemote s.core.remote.length { s with core := { s.core with remote := s.core.remote ++ [e] } }

/-- The value of a load of n bytes: sign- or zero-extended (R113). -/
def loaded (signed : Bool) (n v : Nat) : Word := if signed then wrap 64 (sextNat v (8 * n)) else BitVec.ofNat 64 v

/-- A load of n bytes at off into scalar destination a, sign- or zero-extended (R112 to R114). -/
def loadX (i : Instr) (a : Reg) (off : Int) (n : Nat) (signed : Bool) (s0 s : State) : Res :=
  withRoomX a s0 s (localAccess s0 true false (byteRange off n) s fun s' =>
    if spansBanks s' off n then retire i (firstHalf off n false 0 a signed s') else finishX i a (loaded signed n (spadRd s' off n)) s')

/-- A store of the low n bytes of v at off (R112, R113). -/
def storeX (i : Instr) (off : Int) (n : Nat) (v : Nat) (s0 s : State) : Res :=
  localAccess s0 false true (byteRange off n) s fun s' =>
    if spansBanks s' off n then retire i (firstHalf off n true (BitVec.ofNat 64 v) 0 false s')
    else retire i (mendSpad (spadWr s' off n v) (byteRange off n))

/-- The offset of a LOAD or STORE: base plus a signed 12-bit displacement, modulo 2^64 (R113). -/
def memOffset (x : Word) (o : BitVec 12) : Int := ((x + o.signExtend 64).toNat : Int)

/-! ## Vector masks (R128) -/

/-- The governing mask that a mask field names (R128). -/
def State.mask (s : State) (m : MaskField) : BitVec 16 := s.st.getM (maskIx m)

end Sys2Proof.Machine
end

