-- ==== Sys2Proof/Machine/Scalar.lean ====
section
/-! DEFINITION. Scalar integer and control instructions (R93 to R107). -/

namespace Sys2Proof.Machine

/-! ## Values (R94 to R99) -/

/-- The low 32 bits of a value, sign-extended: the result of a word form (R94). -/
def word32 (x : Word) : Word := (x.setWidth 32).signExtend 64

/-- A truth value as a register value. -/
def boolWord (b : Bool) : Word := if b then 1 else 0

/-- The shift amount of a 64-bit shift: the low six bits. -/
def sh64 (y : Word) : Nat := y.toNat % 64

/-- The shift amount of a word shift: the low five bits. -/
def sh32 (y : Word) : Nat := y.toNat % 32

/-- Leading zero bits; 64 for 0. -/
def countLead (x : Word) : Nat := 64 - bitLen x.toNat

/-- Trailing zero bits; 64 for 0. -/
def countTrail (x : Word) : Nat := (List.range 64).findIdx (fun k => x.getLsbD k)

/-- One bits among the low n bits of a value. -/
def countOnes {w : Nat} (n : Nat) (x : BitVec w) : Nat := ((List.range n).filter (fun k => x.getLsbD k)).length

/-- SLLW, SRLW and SRAW by an amount (R94). -/
def shiftW (left arith : Bool) (x : Word) (n : Nat) : Word :=
  let v : BitVec 32 := x.setWidth 32
  (if left then v <<< n else if arith then v.sshiftRight n else v >>> n).signExtend 64

/-- A signed immediate of 15 bits, extended (R74). -/
def imm15 (i : BitVec 15) : Word := i.signExtend 64

/-- U of LUI and AUIPC: sext(imm20 << 12, 32) extended (R99). -/
def upper (i : BitVec 20) : Word := ((i.setWidth 32 : BitVec 32) <<< 12).signExtend 64

/-- The address of a transfer: PC plus twice a signed offset in halfwords (R100, R101). -/
def target {n : Nat} (pc : Word) (o : BitVec n) : Word := pc + o.signExtend 64 * 2

/-- A divide or remainder member: DIVZERO with the dividend when the tested divisor is zero (R96), once its destination queue, if rd names one, has
room. Log entry 49 (DEDUCED). -/
def divide (i : Instr) (a b c : Reg) (word : Bool) (f : Word → Word → Word) (s : State) : Res :=
  withX b s s fun x s1 => withX c s s1 fun y s2 => withRoomX a s s2 <|
    if (if word then y.setWidth 32 = (0 : BitVec 32) else y = 0) then trap 0x08 x s else finishX i a (f x y) s2

/-- A conditional branch on two operands (R100). -/
def branch {n : Nat} (i : Instr) (b c : Reg) (o : BitVec n) (taken : Word → Word → Bool) (s : State) : Res :=
  withX b s s fun x s1 => withX c s s1 fun y s2 =>
    if taken x y then jumpTo (target s2.st.pc o) s2 else retire i s2

/-- JAL: the link first, then the transfer (R101). -/
def jumpLink {n : Nat} (i : Instr) (a : Reg) (o : BitVec n) (s : State) : Res :=
  withRoomX a s s (jumpTo (target s.st.pc o) (writeX a (s.st.pc + BitVec.ofNat 64 i.len) s))

/-- LOOP with a count (R103): skip the body, refuse a third level or an end beyond the enclosing one, or push a level. A skipped body whose end lies a
halfword past an enclosing level's end makes no straddle trap: the rule gives its last instruction no address and no length. Log entry 53 (DEDUCED). -/
def enterLoop (i : Instr) (count : Word) (L : BitVec 10) (s0 s : State) : Res :=
  let t := s.st
  let start := t.pc + 4
  let stop := start + BitVec.ofNat 64 (2 * L.toNat)
  if count = 0 then
    match fallThrough stop 0 t.loops with
    | (ls, pc, _) => .next (s.setSt { t with pc := pc, loops := ls, wait := 0, stalled := false })
  else if 2 ≤ t.loops.length ∨ t.loops.any (fun lv => decide (lv.stop.toNat < stop.toNat)) then
    trap 0x01 (BitVec.ofNat 64 (encode i)) s0
  else .next (s.setSt { t with pc := start, loops := ⟨start, stop, count⟩ :: t.loops, wait := 0, stalled := false })

/-! ## Meanings -/

/-- ADD (R94). -/
def execAdd (a b c : Reg) (s : State) : Res :=
  binary (.add a b c) a b c (fun x y => x + y) s

/-- SUB (R94). -/
def execSub (a b c : Reg) (s : State) : Res :=
  binary (.sub a b c) a b c (fun x y => x - y) s

/-- AND (R94). -/
def execAnd (a b c : Reg) (s : State) : Res :=
  binary (.and a b c) a b c (fun x y => x &&& y) s

/-- OR (R94). -/
def execOr (a b c : Reg) (s : State) : Res :=
  binary (.or a b c) a b c (fun x y => x ||| y) s

/-- XOR (R94). -/
def execXor (a b c : Reg) (s : State) : Res :=
  binary (.xor a b c) a b c (fun x y => x ^^^ y) s

/-- SLL (R94). -/
def execSll (a b c : Reg) (s : State) : Res :=
  binary (.sll a b c) a b c (fun x y => x <<< sh64 y) s

/-- SRL (R94). -/
def execSrl (a b c : Reg) (s : State) : Res :=
  binary (.srl a b c) a b c (fun x y => x >>> sh64 y) s

/-- SRA (R94). -/
def execSra (a b c : Reg) (s : State) : Res :=
  binary (.sra a b c) a b c (fun x y => x.sshiftRight (sh64 y)) s

/-- SLT (R94). -/
def execSlt (a b c : Reg) (s : State) : Res :=
  binary (.slt a b c) a b c (fun x y => boolWord (x.slt y)) s

/-- SLTZ (R94). -/
def execSltz (a b c : Reg) (s : State) : Res :=
  binary (.sltz a b c) a b c (fun x y => boolWord (x.ult y)) s

/-- MIN (R94). -/
def execMin (a b c : Reg) (s : State) : Res :=
  binary (.min a b c) a b c (fun x y => if x.slt y then x else y) s

/-- MAX (R94). -/
def execMax (a b c : Reg) (s : State) : Res :=
  binary (.max a b c) a b c (fun x y => if x.slt y then y else x) s

/-- MINZ (R94). -/
def execMinz (a b c : Reg) (s : State) : Res :=
  binary (.minz a b c) a b c (fun x y => if x.ult y then x else y) s

/-- MAXZ (R94). -/
def execMaxz (a b c : Reg) (s : State) : Res :=
  binary (.maxz a b c) a b c (fun x y => if x.ult y then y else x) s

/-- ADDW (R94). -/
def execAddw (a b c : Reg) (s : State) : Res :=
  binary (.addw a b c) a b c (fun x y => word32 (x + y)) s

/-- SUBW (R94). -/
def execSubw (a b c : Reg) (s : State) : Res :=
  binary (.subw a b c) a b c (fun x y => word32 (x - y)) s

/-- SLLW (R94). -/
def execSllw (a b c : Reg) (s : State) : Res :=
  binary (.sllw a b c) a b c (fun x y => shiftW true false x (sh32 y)) s

/-- SRLW (R94). -/
def execSrlw (a b c : Reg) (s : State) : Res :=
  binary (.srlw a b c) a b c (fun x y => shiftW false false x (sh32 y)) s

/-- SRAW (R94). -/
def execSraw (a b c : Reg) (s : State) : Res :=
  binary (.sraw a b c) a b c (fun x y => shiftW false true x (sh32 y)) s

/-- CLZ (R94). -/
def execClz (a b : Reg) (s : State) : Res :=
  unary (.clz a b) a b (fun x => BitVec.ofNat 64 (countLead x)) s

/-- CTZ (R94). -/
def execCtz (a b : Reg) (s : State) : Res :=
  unary (.ctz a b) a b (fun x => BitVec.ofNat 64 (countTrail x)) s

/-- CNT (R94). -/
def execCnt (a b : Reg) (s : State) : Res :=
  unary (.cnt a b) a b (fun x => BitVec.ofNat 64 (countOnes 64 x)) s

/-- ANDN (R94). -/
def execAndn (a b c : Reg) (s : State) : Res :=
  binary (.andn a b c) a b c (fun x y => x &&& ~~~y) s

/-- ORN (R94). -/
def execOrn (a b c : Reg) (s : State) : Res :=
  binary (.orn a b c) a b c (fun x y => x ||| ~~~y) s

/-- MUL (R95). -/
def execMul (a b c : Reg) (s : State) : Res :=
  binary (.mul a b c) a b c (fun x y => x * y) s

/-- MULH (R95). -/
def execMulh (a b c : Reg) (s : State) : Res :=
  binary (.mulh a b c) a b c (fun x y => wrap 64 (x.toInt * y.toInt / 2 ^ 64)) s

/-- MULHZ (R95). -/
def execMulhz (a b c : Reg) (s : State) : Res :=
  binary (.mulhz a b c) a b c (fun x y => BitVec.ofNat 64 (x.toNat * y.toNat / 2 ^ 64)) s

/-- MULW (R95). -/
def execMulw (a b c : Reg) (s : State) : Res :=
  binary (.mulw a b c) a b c (fun x y => word32 (x * y)) s

/-- DIV (R95, R96). -/
def execDiv (a b c : Reg) (s : State) : Res :=
  divide (.div a b c) a b c false (fun x y => x.sdiv y) s

/-- DIVZ (R95, R96). -/
def execDivz (a b c : Reg) (s : State) : Res :=
  divide (.divz a b c) a b c false (fun x y => x / y) s

/-- REM (R95, R96). -/
def execRem (a b c : Reg) (s : State) : Res :=
  divide (.rem a b c) a b c false (fun x y => x.srem y) s

/-- REMZ (R95, R96). -/
def execRemz (a b c : Reg) (s : State) : Res :=
  divide (.remz a b c) a b c false (fun x y => x % y) s

/-- DIVW (R95, R96). -/
def execDivw (a b c : Reg) (s : State) : Res :=
  divide (.divw a b c) a b c true (fun x y => ((x.setWidth 32 : BitVec 32).sdiv (y.setWidth 32)).signExtend 64) s

/-- DIVZW (R95, R96). -/
def execDivzw (a b c : Reg) (s : State) : Res :=
  divide (.divzw a b c) a b c true (fun x y => ((x.setWidth 32 : BitVec 32) / (y.setWidth 32)).signExtend 64) s

/-- REMW (R95, R96). -/
def execRemw (a b c : Reg) (s : State) : Res :=
  divide (.remw a b c) a b c true (fun x y => ((x.setWidth 32 : BitVec 32).srem (y.setWidth 32)).signExtend 64) s

/-- REMZW (R95, R96). -/
def execRemzw (a b c : Reg) (s : State) : Res :=
  divide (.remzw a b c) a b c true (fun x y => ((x.setWidth 32 : BitVec 32) % (y.setWidth 32)).signExtend 64) s

/-- ADDI (R97). -/
def execAddi (a b : Reg) (i : BitVec 15) (s : State) : Res :=
  unary (.addi a b i) a b (fun x => x + imm15 i) s

/-- ADDIW (R97). -/
def execAddiw (a b : Reg) (i : BitVec 15) (s : State) : Res :=
  unary (.addiw a b i) a b (fun x => word32 (x + imm15 i)) s

/-- ANDI (R97). -/
def execAndi (a b : Reg) (i : BitVec 15) (s : State) : Res :=
  unary (.andi a b i) a b (fun x => x &&& imm15 i) s

/-- ORI (R97). -/
def execOri (a b : Reg) (i : BitVec 15) (s : State) : Res :=
  unary (.ori a b i) a b (fun x => x ||| imm15 i) s

/-- XORI (R97). -/
def execXori (a b : Reg) (i : BitVec 15) (s : State) : Res :=
  unary (.xori a b i) a b (fun x => x ^^^ imm15 i) s

/-- SLTI (R97). -/
def execSlti (a b : Reg) (i : BitVec 15) (s : State) : Res :=
  unary (.slti a b i) a b (fun x => boolWord (x.slt (imm15 i))) s

/-- SLTIZ (R97). -/
def execSltiz (a b : Reg) (i : BitVec 15) (s : State) : Res :=
  unary (.sltiz a b i) a b (fun x => boolWord (x.ult (imm15 i))) s

/-- SLLI (R98). -/
def execSlli (a : Reg) (n : BitVec 6) (b : Reg) (s : State) : Res :=
  unary (.slli a n b) a b (fun x => x <<< n.toNat) s

/-- SRLI (R98). -/
def execSrli (a : Reg) (n : BitVec 6) (b : Reg) (s : State) : Res :=
  unary (.srli a n b) a b (fun x => x >>> n.toNat) s

/-- SRAI (R98). -/
def execSrai (a : Reg) (n : BitVec 6) (b : Reg) (s : State) : Res :=
  unary (.srai a n b) a b (fun x => x.sshiftRight n.toNat) s

/-- SLLIW (R98). -/
def execSlliw (a : Reg) (n : BitVec 6) (b : Reg) (s : State) : Res :=
  unary (.slliw a n b) a b (fun x => shiftW true false x n.toNat) s

/-- SRLIW (R98). -/
def execSrliw (a : Reg) (n : BitVec 6) (b : Reg) (s : State) : Res :=
  unary (.srliw a n b) a b (fun x => shiftW false false x n.toNat) s

/-- SRAIW (R98). -/
def execSraiw (a : Reg) (n : BitVec 6) (b : Reg) (s : State) : Res :=
  unary (.sraiw a n b) a b (fun x => shiftW false true x n.toNat) s

/-- LUI (R99). -/
def execLui (a : Reg) (i : BitVec 20) (s : State) : Res :=
  withRoomX a s s (finishX (.lui a i) a (upper i) s)

/-- AUIPC (R99): PC is the address of the AUIPC. -/
def execAuipc (a : Reg) (i : BitVec 20) (s : State) : Res :=
  withRoomX a s s (finishX (.auipc a i) a (s.st.pc + upper i) s)

/-- BEQ (R100): field b is popped before field a (R21), and a is rs1. -/
def execBeq (a b : Reg) (o : BitVec 12) (s : State) : Res :=
  branch (.beq a b o) b a o (fun y x => decide (x = y)) s

/-- BNE (R100): field b is popped before field a (R21), and a is rs1. -/
def execBne (a b : Reg) (o : BitVec 12) (s : State) : Res :=
  branch (.bne a b o) b a o (fun y x => decide (x ≠ y)) s

/-- BLT (R100): field b is popped before field a (R21), and a is rs1. -/
def execBlt (a b : Reg) (o : BitVec 12) (s : State) : Res :=
  branch (.blt a b o) b a o (fun y x => x.slt y) s

/-- BGE (R100): field b is popped before field a (R21), and a is rs1. -/
def execBge (a b : Reg) (o : BitVec 12) (s : State) : Res :=
  branch (.bge a b o) b a o (fun y x => !x.slt y) s

/-- BLO (R100): field b is popped before field a (R21), and a is rs1. -/
def execBlo (a b : Reg) (o : BitVec 12) (s : State) : Res :=
  branch (.blo a b o) b a o (fun y x => x.ult y) s

/-- BHS (R100): field b is popped before field a (R21), and a is rs1. -/
def execBhs (a b : Reg) (o : BitVec 12) (s : State) : Res :=
  branch (.bhs a b o) b a o (fun y x => !x.ult y) s

/-- JAL (R101). -/
def execJal (a : Reg) (o : BitVec 20) (s : State) : Res :=
  jumpLink (.jal a o) a o s

/-- JALR (R101, R102): an odd target takes IALIGN and writes nothing. It waits for room in its destination queue before the target is looked at, as every
instruction that writes a queue does; the spec gives no order of the two. Log entry 49 (DEDUCED). -/
def execJalr (a b : Reg) (i : BitVec 15) (s : State) : Res :=
  withX b s s fun x s1 => withRoomX a s s1 <|
    if (x + imm15 i).getLsbD 0 then trap 0x03 (x + imm15 i) s
    else jumpTo (x + imm15 i) (writeX a (s1.st.pc + 4) s1)

/-- LOOP with a count register (R103). -/
def execLoop (a : Reg) (L : BitVec 10) (s : State) : Res :=
  withX a s s fun x s1 => enterLoop (.loop a L) x L s s1

/-- LOOP with a count in the instruction (R103). -/
def execLoopImm (n : BitVec 10) (L : BitVec 10) (s : State) : Res :=
  enterLoop (.loopImm n L) (n.setWidth 64) L s s

/-- LIT (R107, R85): the doubleword at the target, whatever its tags; IBOUND when a byte lies outside the region. A word of the store
that is uncorrectable takes UEDATA as a fetch of it does (log entry 14). It waits for room in its destination queue first. Log entry 49 (DEDUCED). -/
def execLit (a : Reg) (o : BitVec 20) (s : State) : Res :=
  let t := target s.st.pc o
  withRoomX a s s <|
    if s.rs.regionEnd < t.toNat + 8 then trap 0x04 t s
    else match badByte s.quad.istoreBad (s.rs.istoreAddr t.toNat) [0, 1, 2, 3, 4, 5, 6, 7] with
      | some k => trap 0x1D (BitVec.ofNat 64 (0x20000 + s.rs.istoreAddr t.toNat + k)) s
      | none => finishX (.lit a o) a (BitVec.ofNat 64 (readLE s.quad.istore (s.rs.istoreAddr t.toNat) 8)) s

end Sys2Proof.Machine
end

