-- ==== Sys2Proof/Machine/LocalMem.lean ====
section
/-! DEFINITION. Scratchpad loads and stores, quad-remote accesses and atomics (R111 to R127). -/

namespace Sys2Proof.Machine

/-! ## Loads and stores (R113, R114) -/

/-- A LOAD of n bytes, sign- or zero-extended. -/
def load (i : Instr) (a b : Reg) (o : BitVec 12) (n : Nat) (signed : Bool) (s : State) : Res :=
  withX b s s fun x s1 => loadX i a (memOffset x o) n signed s s1

/-- A STORE of n bytes: the base is popped before the data (R114). -/
def store (i : Instr) (a b : Reg) (o : BitVec 12) (n : Nat) (s : State) : Res :=
  withX b s s fun x s1 => withX a s s1 fun v s2 => storeX i (memOffset x o) n v.toNat s s2

/-- Sign extension of the low n bits of what was read. -/
def sextRead (n v : Nat) : Word := wrap 64 (sextNat v n)

/-- Zero extension. -/
def zextRead (v : Nat) : Word := BitVec.ofNat 64 v

/-! ## Quad-remote accesses (R115, R116, R126) -/

/-- The size of the reservation that the current residency's gang holds on core k of the quad: 0 where it holds none, and for a
residency that is not quad-mapped (R32, R116). -/
def remoteSize (s : State) (k : Fin 4) : Nat :=
  if s.rs.quadMapped then
    match mateRes s k s.rs.gang with
    | none => 0
    | some m => m.spsize.toNat
  else 0

/-- The residency's quad-remote flag is set by an access that crosses the quad (R38, R116). -/
def markRemote (s : State) : State := s.setRs { s.rs with quadRemote := true }

/-- The access joins the accesses that are under way to their targets' banks (R126). -/
def queueRemote (k : Fin 4) (off : Word) (n : Nat) (write : Bool) (data : Word) (rd : Reg) (signed : Bool) (s : State) : State :=
  let e : Remote :=
    { slot := s.cur, res := s.ri, target := BitVec.ofNat 2 k.val, off := off, n := n, write := write, data := data, rd := rd,
      signed := signed, done := 0, low := 0, queued := (s.xQueue rd).isSome, fenced := false, gang := s.rs.gang, size := remoteSize s k, at_ := s.core.cycle }
  { s with core := { s.core with remote := s.core.remote ++ [e] } }

/-- The granule records of the target after an access that passed. -/
def recordRemote (k : Fin 4) (write : Bool) (ins : List Nat) (s : State) : State :=
  match mateRes s k s.rs.gang with
  | none => s
  | some m => setMateRes s k { m with granules := (granulesOf ins).foldl (raceRecord s.coreInQuad write) m.granules }

/-- A quad-remote access to another core of the quad (R116, R120): the wait of a FENCE, the flag, the range-lock and race checks at
the target, for a read the check for an uncorrectable word (R301), the commit; then k goes on. Log entry 15 (DEDUCED). -/
def remoteAccess (k : Fin 4) (write : Bool) (offs : List Int) (s0 s : State) (cont : State → Res) : Res :=
  if fenceHolds s then stall s0
  else
    let outs := outOffsets (remoteSize s k) offs
    let ins := inOffsets (remoteSize s k) offs
    if !s.rs.quadMapped then cont (commitFlag write true k.val outs s)
    else
      let s0 := markRemote s0
      let s := markRemote s
      match mateRes s k s.rs.gang with
      | none => cont (commitFlag write true k.val outs s)
      | some m =>
        match rlockInfo s.quad.mates[k].locks write k.val m.spbase.toNat ins with
        | some info => trap 0x15 info s0
        | none =>
          match (granulesOf ins).find? (raceFails m.granules s.coreInQuad write) with
          | some g =>
            let info := raceInfo m.granules write s.rs.phase k.val g ins
            trap 0x14 info (s0.setRs { s0.rs with raceinfo := info })
          | none =>
            match (if write then none else badByte m.bad 0 ins) with
            | some o => trap 0x1D (BitVec.ofNat 64 (0x10000 + o)) s0
            | none => cont (recordRemote k write ins (commitFlag write true k.val outs s))

/-- LQW and LQD: the local load when the index names this core, else a load at the target (R115, R116). -/
def loadQuad (i : Instr) (a b c : Reg) (n : Nat) (signed : Bool) (s : State) : Res :=
  withX b s s fun x s1 => withX c s s1 fun y s2 =>
    if y.setWidth 2 = s2.coreInQuad then loadX i a x.toNat n signed s s2
    else
      let k : Fin 4 := ⟨y.toNat % 4, Nat.mod_lt _ (by decide)⟩
      withRoomX a s s2 <| remoteAccess k false (byteRange x.toNat n) s s2 fun s3 =>
        if s3.rs.quadMapped then retire i (queueRemote k x n false 0 a signed s3) else finishX i a 0 s3

/-- SQW and SQD (R115, R116). -/
def storeQuad (i : Instr) (a b c : Reg) (n : Nat) (s : State) : Res :=
  withX b s s fun x s1 => withX c s s1 fun y s2 => withX a s s2 fun v s3 =>
    if y.setWidth 2 = s3.coreInQuad then storeX i x.toNat n v.toNat s s3
    else
      let k : Fin 4 := ⟨y.toNat % 4, Nat.mod_lt _ (by decide)⟩
      remoteAccess k true (byteRange x.toNat n) s s3 fun s4 =>
        if s4.rs.quadMapped then retire i (queueRemote k x n true v 0 false s4) else retire i s4

/-! ## Atomics (R117, R118) -/

/-- The functions of R117. -/
inductive AmoFn where
  | add | swap | cas | and | or | xor | min | max | minz | maxz
deriving DecidableEq, Repr

/-- The function of a number, in the order of R117. -/
def amoFn (n : Nat) : AmoFn :=
  match n with
  | 0 => .add
  | 1 => .swap
  | 2 => .cas
  | 3 => .and
  | 4 => .or
  | 5 => .xor
  | 6 => .min
  | 7 => .max
  | 8 => .minz
  | _ => .maxz

/-- new(func, old, b) on n-bit values; none where CAS finds another value than expected (R117). -/
def amoNew (f : AmoFn) (n old b expected : Nat) : Option Nat :=
  match f with
  | .add => some ((old + b) % 2 ^ n)
  | .swap => some b
  | .cas => if old = expected then some b else none
  | .and => some (old &&& b)
  | .or => some (old ||| b)
  | .xor => some (old ^^^ b)
  | .min => some (if sextNat old n ≤ sextNat b n then old else b)
  | .max => some (if sextNat old n ≤ sextNat b n then b else old)
  | .minz => some (min old b)
  | .maxz => some (max old b)

/-- The whole effect of an AMO of n bytes (R118); the destination is a source only for AMOCAS, and then it is read last. SPFLAG records a wholly
out-of-range AMO as a write. Log entry 49 (DEDUCED). -/
def amo (i : Instr) (f : AmoFn) (n : Nat) (a b c : Reg) (s : State) : Res :=
  let body (x y e : Word) (s3 : State) : Res :=
    withRoomX a s s3 <|
      let off : Int := ((x.toNat - x.toNat % n : Nat) : Int)
      localAccess s true true (byteRange off n) s3 fun s4 =>
        let old := spadRd s4 off n
        let v : Word := if n = 4 then sextRead 32 old else zextRead old
        match amoNew f (8 * n) old (y.toNat % 2 ^ (8 * n)) (e.toNat % 2 ^ (8 * n)) with
        | none => finishX i a v s4
        | some new => finishX i a v (mendSpad (spadWr s4 off n new) (byteRange off n))
  withX b s s fun x s1 => withX c s s1 fun y s2 =>
    if f = .cas then withX a s s2 fun e s3 => body x y e s3 else body x y 0 s2

/-! ## Meanings -/

/-- LB (R113). -/
def execLb (a b : Reg) (o : BitVec 12) (s : State) : Res :=
  load (.lb a b o) a b o 1 true s

/-- LH (R113). -/
def execLh (a b : Reg) (o : BitVec 12) (s : State) : Res :=
  load (.lh a b o) a b o 2 true s

/-- LW (R113). -/
def execLw (a b : Reg) (o : BitVec 12) (s : State) : Res :=
  load (.lw a b o) a b o 4 true s

/-- LD (R113). -/
def execLd (a b : Reg) (o : BitVec 12) (s : State) : Res :=
  load (.ld a b o) a b o 8 false s

/-- LBZ (R113). -/
def execLbz (a b : Reg) (o : BitVec 12) (s : State) : Res :=
  load (.lbz a b o) a b o 1 false s

/-- LHZ (R113). -/
def execLhz (a b : Reg) (o : BitVec 12) (s : State) : Res :=
  load (.lhz a b o) a b o 2 false s

/-- LWZ (R113). -/
def execLwz (a b : Reg) (o : BitVec 12) (s : State) : Res :=
  load (.lwz a b o) a b o 4 false s

/-- SB (R113). -/
def execSb (a b : Reg) (o : BitVec 12) (s : State) : Res :=
  store (.sb a b o) a b o 1 s

/-- SH (R113). -/
def execSh (a b : Reg) (o : BitVec 12) (s : State) : Res :=
  store (.sh a b o) a b o 2 s

/-- SW (R113). -/
def execSw (a b : Reg) (o : BitVec 12) (s : State) : Res :=
  store (.sw a b o) a b o 4 s

/-- SD (R113). -/
def execSd (a b : Reg) (o : BitVec 12) (s : State) : Res :=
  store (.sd a b o) a b o 8 s

/-- LQW (R115). -/
def execLqw (a b c : Reg) (s : State) : Res :=
  loadQuad (.lqw a b c) a b c 4 true s

/-- LQD (R115). -/
def execLqd (a b c : Reg) (s : State) : Res :=
  loadQuad (.lqd a b c) a b c 8 false s

/-- SQW (R115). -/
def execSqw (a b c : Reg) (s : State) : Res :=
  storeQuad (.sqw a b c) a b c 4 s

/-- SQD (R115). -/
def execSqd (a b c : Reg) (s : State) : Res :=
  storeQuad (.sqd a b c) a b c 8 s

/-- AMOADD (R117, R118). -/
def execAmoadd (a b c : Reg) (s : State) : Res :=
  amo (.amoadd a b c) .add 8 a b c s

/-- AMOADDW (R117, R118). -/
def execAmoaddw (a b c : Reg) (s : State) : Res :=
  amo (.amoaddw a b c) .add 4 a b c s

/-- AMOSWAP (R117, R118). -/
def execAmoswap (a b c : Reg) (s : State) : Res :=
  amo (.amoswap a b c) .swap 8 a b c s

/-- AMOSWAPW (R117, R118). -/
def execAmoswapw (a b c : Reg) (s : State) : Res :=
  amo (.amoswapw a b c) .swap 4 a b c s

/-- AMOCAS (R117, R118). -/
def execAmocas (a b c : Reg) (s : State) : Res :=
  amo (.amocas a b c) .cas 8 a b c s

/-- AMOCASW (R117, R118). -/
def execAmocasw (a b c : Reg) (s : State) : Res :=
  amo (.amocasw a b c) .cas 4 a b c s

/-- AMOAND (R117, R118). -/
def execAmoand (a b c : Reg) (s : State) : Res :=
  amo (.amoand a b c) .and 8 a b c s

/-- AMOANDW (R117, R118). -/
def execAmoandw (a b c : Reg) (s : State) : Res :=
  amo (.amoandw a b c) .and 4 a b c s

/-- AMOOR (R117, R118). -/
def execAmoor (a b c : Reg) (s : State) : Res :=
  amo (.amoor a b c) .or 8 a b c s

/-- AMOORW (R117, R118). -/
def execAmoorw (a b c : Reg) (s : State) : Res :=
  amo (.amoorw a b c) .or 4 a b c s

/-- AMOXOR (R117, R118). -/
def execAmoxor (a b c : Reg) (s : State) : Res :=
  amo (.amoxor a b c) .xor 8 a b c s

/-- AMOXORW (R117, R118). -/
def execAmoxorw (a b c : Reg) (s : State) : Res :=
  amo (.amoxorw a b c) .xor 4 a b c s

/-- AMOMIN (R117, R118). -/
def execAmomin (a b c : Reg) (s : State) : Res :=
  amo (.amomin a b c) .min 8 a b c s

/-- AMOMINW (R117, R118). -/
def execAmominw (a b c : Reg) (s : State) : Res :=
  amo (.amominw a b c) .min 4 a b c s

/-- AMOMAX (R117, R118). -/
def execAmomax (a b c : Reg) (s : State) : Res :=
  amo (.amomax a b c) .max 8 a b c s

/-- AMOMAXW (R117, R118). -/
def execAmomaxw (a b c : Reg) (s : State) : Res :=
  amo (.amomaxw a b c) .max 4 a b c s

/-- AMOMINZ (R117, R118). -/
def execAmominz (a b c : Reg) (s : State) : Res :=
  amo (.amominz a b c) .minz 8 a b c s

/-- AMOMINZW (R117, R118). -/
def execAmominzw (a b c : Reg) (s : State) : Res :=
  amo (.amominzw a b c) .minz 4 a b c s

/-- AMOMAXZ (R117, R118). -/
def execAmomaxz (a b c : Reg) (s : State) : Res :=
  amo (.amomaxz a b c) .maxz 8 a b c s

/-- AMOMAXZW (R117, R118). -/
def execAmomaxzw (a b c : Reg) (s : State) : Res :=
  amo (.amomaxzw a b c) .maxz 4 a b c s

end Sys2Proof.Machine
end

