-- ==== Sys2Proof/Machine/Vault.lean ====
section
/-! DEFINITION. Vaults (R253 to R279): placement words, places, the walker and the translation buffers, access tables, the beats of
the vertical bus and their queues, the rows of the core's banks, doorbells, and the dirty logs. -/

namespace Sys2Proof.Machine

/-! ## Scopes (R3) -/

/-- Whether two pod-wide core addresses lie in one instance of a scope: CORE, QUAD, STACK, PKG or POD (R3). -/
def sameScope (sc : Nat) (a b : BitVec 32) : Bool :=
  match sc with
  | 0 => decide (a = b)
  | 1 => decide (a.toNat / 2 ^ 2 = b.toNat / 2 ^ 2)
  | 2 => decide (a.toNat / 2 ^ 13 = b.toNat / 2 ^ 13)
  | 3 => decide (a.toNat / 2 ^ 15 = b.toNat / 2 ^ 15)
  | _ => true

/-! ## Placement words (R265 to R267) -/

/-- A byte of vault memory: vault, layer, bank, row, column and byte of the beat (R253). -/
structure Place where
  vault : Nat
  layer : Nat
  bank : Nat
  row : Nat
  col : Nat
  byte : Nat
deriving DecidableEq, Repr

/-- The number of a place in the vault memory of the package. -/
def Place.addr (p : Place) : Nat :=
  ((((p.vault * 8 + p.layer) * 2 + p.bank) * 1024 + p.row) * 128 + p.col) * 16 + p.byte

/-- The index of a place's bank in its vault (R260). -/
def Place.bankIx (p : Place) : BankIx := ⟨(2 * p.layer + p.bank) % 16, Nat.mod_lt _ (by decide)⟩

/-- GEO (R265). -/
def pwGeo (w : Word) : Nat := sel w 50 3

/-- The bytes of an interleave chunk: 16 × 2^CHUNK (R265). -/
def pwChunk (w : Word) : Nat := 16 * 2 ^ sel w 47 3

/-- The number of banks that BMASK names. -/
def pwBanks (w : Word) : Nat := sel w 34 1 + sel w 35 1

/-- The lowest set bit of a small number. -/
def lowestBit (n k : Nat) : Nat := ((List.range k).find? (fun i => n.testBit i)).getD 0

/-- The number of ones in the low k bits. -/
def onesIn (n k : Nat) : Nat := ((List.range k).filter (fun i => n.testBit i)).length

/-- Z, the bytes of the page that each vault holds (R266). -/
def pwShare (w : Word) : Nat := 2 ^ 18 / 2 ^ sel w 44 3

/-- Whether a placement word breaks a limit of R266. -/
def malformed (w : Word) : Bool :=
  let geo := pwGeo w
  let vcnt := sel w 44 3
  let lmask := sel w 36 8
  let nb := pwBanks w
  let row := sel w 24 10
  let colb := sel w 15 3
  let base := sel w 0 15
  let z := pwShare w
  let rows := (z + 16384 * nb - 1) / (16384 * nb)
  let fits := decide (nb ≠ 0) && decide (row + rows ≤ 1024)
    && (if z < 16384 then decide (colb * 256 + z / 8 ≤ 2048) else decide (colb = 0))
  let wide := decide (lmask = 0xFF) && fits
  let good := match geo with
    | 0 => decide (vcnt = 0) && decide (sel w 47 3 = 0) && decide (onesIn lmask 8 = 1) && decide (nb = 1)
        && decide (row + 127 ≤ 1023) && decide (colb = 0)
    | 1 => decide (vcnt = 0) && decide (sel w 47 3 = 0) && wide
    | 2 => decide (vcnt = 2) && wide && decide (base % 4 = 0)
    | 3 => decide (4 ≤ vcnt) && wide && decide (base % 2 ^ vcnt = 0) && decide (base % 2 ^ 13 + 2 ^ vcnt ≤ 6400)
    | 4 => decide (1 ≤ vcnt) && wide && decide (base % 2 ^ 13 < 6400)
    | 5 => decide (1 ≤ vcnt) && wide && decide (base % 2 ^ 13 < 6400)
    | _ => false
  !good

/-- Vault number i of a placement word (R266). -/
def pwVault (w : Word) (i : Nat) : Nat :=
  let base := sel w 0 15
  let local_ := sel w 0 13
  let stack := sel w 13 2
  let n := 2 ^ sel w 44 3
  match pwGeo w with
  | 2 => base + i
  | 3 => base + i
  | 4 => stack * 2 ^ 13 + (local_ + i * (6400 / n)) % 6400
  | 5 =>
    let v := (6400 * stack + local_ + i * (25600 / n)) % 25600
    v / 6400 * 2 ^ 13 + v % 6400
  | _ => base

/-- place(word, o): where byte o of a page lies (R267). -/
def place (w : Word) (o : Nat) : Place :=
  let bm := lowestBit (sel w 34 2) 2
  let row := sel w 24 10
  if pwGeo w = 0 then
    { vault := sel w 0 15, layer := lowestBit (sel w 36 8) 8, bank := bm, row := row + o / 2 ^ 11, col := o / 16 % 128,
      byte := o % 16 }
  else
    let chunk := pwChunk w
    let k := o / chunk
    let n := 2 ^ sel w 44 3
    let b := k / n * chunk + o % chunk
    let c := b / 16
    let u := c / 8
    let two := pwBanks w = 2
    { vault := pwVault w (k % n), layer := c % 8, bank := if two then u / 128 % 2 else bm,
      row := if two then row + u / 256 else row + u / 128, col := 16 * sel w 15 3 + u % 128, byte := b % 16 }

/-- The word of the mirror of a table page (R273). -/
def mirrorWord (w : Word) : Word := w ^^^ BitVec.ofNat 64 (2 ^ 14)

/-- The page number of a virtual address (R272). -/
def pageOf (va : Nat) : Nat := va / 2 ^ 18

/-- Whether a word places a byte of its page at an address. -/
def inPage (w : Word) (a : Nat) : Bool :=
  let n := 2 ^ sel w 44 3
  let v := a / 2 ^ 25
  let layer := a / 2 ^ 22 % 8
  let bank := a / 2 ^ 21 % 2
  let row := a / 2 ^ 11 % 1024
  let col := a / 16 % 128
  let row0 := sel w 24 10
  if pwGeo w = 0 then
    decide (v = sel w 0 15) && decide (layer = lowestBit (sel w 36 8) 8) && decide (bank = lowestBit (sel w 34 2) 2)
      && decide (row0 ≤ row) && decide (row < row0 + 128)
  else
    let col0 := 16 * sel w 15 3
    let two := decide (pwBanks w = 2)
    let u := (if two then (row - row0) * 256 + bank * 128 else (row - row0) * 128) + (col - col0)
    (List.range n).any (fun i => decide (pwVault w i = v)) && (two || decide (bank = lowestBit (sel w 34 2) 2))
      && decide (row0 ≤ row) && decide (col0 ≤ col) && decide (u < pwShare w / 128)

/-! ## Beats (R263, R264) -/

/-- The pod-wide number of the core's own vault within the package (R253). -/
def State.ownVault (s : State) : Nat := s.core.id.toNat

/-- The logical quad of a vault with its stack above it (R4, R370). -/
def vaultQuad (v : Nat) : BitVec 13 := BitVec.ofNat 13 (v / 4)

/-- The column of 16 bytes that holds an address is moved over the bus: parity failures that await it are consumed, the first
cleared by the retry, the second fatal (R263). Log entry 16 (DESIGN CHOICE). -/
def busCheck (a : Nat) (s : State) : Bool × State :=
  let c := a / 16
  let n := s.vault.busBad.count c
  if n = 0 then (false, s)
  else
    let rest := (s.vault.busBad.erase c).erase c
    (decide (2 ≤ n), { s with vault := { s.vault with busBad := rest, busErrors := s.vault.busErrors + 1 } })

/-- The bank and row of the core's own vault that an address lies in. -/
def ownRow (s : State) (a : Nat) : Option (BankIx × Nat) :=
  if a / 2 ^ 25 = s.ownVault then some (⟨a / 2 ^ 21 % 16, Nat.mod_lt _ (by decide)⟩, a / 2 ^ 11 % 1024) else none

/-- Replaces a bank of the own vault. -/
def setBank (b : BankIx) (x : Bank) (s : State) : State :=
  { s with vault := { s.vault with banks := vset s.vault.banks b x } }

/-- The row whose fourth correction calls for a repair, while the bank has a spare (R261). -/
def Bank.repairDue (x : Bank) : Option Nat :=
  if x.spares < 16 then (x.corrections.find? (fun e => decide (4 ≤ e.2))).map Prod.fst else none

/-- A bank that has nothing in progress takes up the first row command that waits (R259). -/
def startCommand (x : Bank) : List (Option Nat) → Bank
  | [] => { x with want := [] }
  | none :: rest =>
    match x.openRow with
    | some _ => { x with busy := .precharging, openRow := none, want := rest }
    | none => startCommand x rest
  | some r :: rest =>
    match x.openRow with
    | none => { x with busy := .activating r, want := rest }
    | some r' => if r' = r then startCommand x rest else { x with busy := .precharging, openRow := none, want := some r :: rest }

/-- What an idle bank does next: a refresh that is due, a repair, a row command (R259 to R261). -/
def kickBank (x : Bank) : Bank :=
  if x.busy ≠ .idle then x
  else if x.refreshDue then { x with busy := .refreshing, refreshDue := false }
  else match x.repairDue with
    | some row => { x with busy := .repairing row }
    | none => startCommand x x.want

/-- A corrected error advances the count of its row; the fourth starts the repair as the beat ends (R261, R263). -/
def countCorrected (a : Nat) (s : State) : State :=
  match ownRow s a with
  | none => s
  | some (b, row) =>
    let x := s.vault.banks[b]
    setBank b (kickBank { x with corrections := Table.put 0 x.corrections row (Table.get 0 x.corrections row + 1) }) s

/-- The corrections that a read of words of a column yields: one for each with a single bit in error. -/
def correctWords (ws : List Nat) (s : State) : State :=
  ws.foldl (fun s w => if w ∈ s.vault.flipped ∧ w ∉ s.vault.bad then countCorrected (8 * w) s else s) s

/-- Whether an address lies in a vault that was lost as its controller failed: its words are uncorrectable (R397).
Log entry 42 (DESIGN CHOICE). -/
def lostVault (a : Nat) (s : State) : Bool := s.resil.lostVaults.any (fun v => decide (v.toNat = a / 2 ^ 25))

/-- A read beat of the column that holds an address, of which the words ws are asked for: 0, or the DETAIL of UEDATA (R263).
Log entry 16 (DESIGN CHOICE). -/
def readWords (a : Nat) (ws : List Nat) (s : State) : Nat × State :=
  if lostVault a s then (1, s) else
  match busCheck a s with
  | (true, s) => (2, s)
  | (false, s) =>
    let s := correctWords [a / 16 * 2, a / 16 * 2 + 1] s
    (if ws.any (fun w => decide (w ∈ s.vault.bad)) then 1 else 0, s)

/-- The check of a read beat of the column that holds an address. -/
def beatRead (a : Nat) (s : State) : Nat × State := readWords a [a / 16 * 2, a / 16 * 2 + 1] s

/-- Whether a write of the n bytes from an address touches a word of 8 bytes. -/
def touchesWord (a n w : Nat) : Bool := decide (8 * w < a + n) && decide (a < 8 * w + 8)

/-- Whether a word of 8 bytes is written only in part by the n bytes from an address. -/
def partWord (a n w : Nat) : Bool := touchesWord a n w && !(decide (a ≤ 8 * w) && decide (8 * w + 8 ≤ a + n))

/-- The words that a write touches hold good data again (R263, R264). -/
def mendVault (a n : Nat) (s : State) : State :=
  { s with vault := { s.vault with
      bad := s.vault.bad.filter (fun w => !touchesWord a n w)
      flipped := s.vault.flipped.filter (fun w => !touchesWord a n w) } }

/-- Stores bytes in vault memory without checks. -/
def vaultPut (a : Nat) (bs : List Byte) (s : State) : State :=
  { s with vault := { s.vault with mem := writeList s.vault.mem a bs } }

/-- A write beat within one column: 0, or the DETAIL of UEDATA, and then nothing is written. A word written in part is read first (R263, R264). -/
def beatWrite (a : Nat) (bs : List Byte) (s : State) : Nat × State :=
  if lostVault a s then (1, s) else
  match busCheck a s with
  | (true, s) => (2, s)
  | (false, s) =>
    let parts := [a / 16 * 2, a / 16 * 2 + 1].filter (partWord a bs.length)
    let s := correctWords parts s
    if parts.any (fun w => decide (w ∈ s.vault.bad)) then (1, s) else (0, mendVault a bs.length (vaultPut a bs s))

/-! ## Closed ports (R331, R334) -/

/-- The physical quad of a logical quad of this stack: the table's entry less one, or the same number where the table lists none
(R4). -/
def physQuad (s : State) (logical : Nat) : Nat :=
  match Table.get 0 s.mgr.quadMap logical with
  | 0 => logical
  | n + 1 => n

/-- QPWR of a quad that nothing has written: GATED (R331). -/
def Qpwr.gated (q : Nat) : Qpwr := ⟨.gated, Config.fusedBias q, Config.fusedBias q, false, false, false⟩

/-- QPWR of a physical quad (R331). -/
def qpwr (s : State) (q : Nat) : Qpwr :=
  match s.power.quads.find? (fun e => decide (e.1 = q)) with
  | some e => e.2
  | none => Qpwr.gated q

/-- The logical number of the core's quad in its stack (R4). -/
def State.ownQuad (s : State) : Nat := s.core.id.toNat / 4 % 2 ^ 11

/-- The core's stack (R4). -/
def State.ownStack (s : State) : Nat := s.core.id.toNat / 2 ^ 13

/-- Whether the core's quad is ON and has not been retired (R331, R396). -/
def State.quadOn (s : State) : Bool :=
  decide ((qpwr s (physQuad s s.ownQuad)).state = .on) && !s.resil.failedQuads.any (fun q => decide (q.toNat = s.ownQuad))

/-- Whether the core's quad is being scanned (R393, R394). -/
def State.inScan (s : State) : Bool := s.resil.scanning.any (fun e => decide (e.1.toNat = s.ownQuad))

/-- Whether a request for a vault meets a closed port (R334): the quad is not ON. -/
def vaultGated (s : State) (v : Nat) : Bool :=
  if v / 2 ^ 13 = s.ownStack then decide ((qpwr s (physQuad s (v / 4 % 2 ^ 11))).state ≠ .on) else decide (vaultQuad v ∈ s.power.closed)

/-- Whether a core of this stack lies in a quad that failed its scan and has no spare yet: its port is closed to its cores (R396, R397). -/
def quadRetired (s : State) (core : Nat) : Bool :=
  decide (core / 2 ^ 13 = s.ownStack) && s.resil.failedQuads.any (fun q => decide (q.toNat = core / 4 % 2 ^ 11))

/-- Replaces QPWR of a physical quad. -/
def setQpwr (q : Nat) (x : Qpwr) (s : State) : State :=
  { s with power := { s.power with quads := (q, x) :: s.power.quads.filter (fun e => decide (e.1 ≠ q)) } }

/-- The logical quad of this stack that a physical quad serves (R4, R253). -/
def logicalOf (s : State) (q : Nat) : Option Nat := (List.range 1600).find? (fun l => decide (physQuad s l = q))

/-- Whether a number is that of a physical quad: a stack has 1,640 (R1). -/
def isQuad (q : Nat) : Bool := decide (q < 1640)

/-- A wake command (R335): a GATED quad's wake is queued, a CLOSING quad's is kept; none where it has no effect. -/
def tryWake (q : Nat) (s : State) : Option State :=
  let x := qpwr s q
  if !isQuad q then none else
  match x.state with
  | .gated =>
    if x.queued then none
    else
      let s := setQpwr q { x with queued := true } s
      some { s with power := { s.power with queue := s.power.queue ++ [(q, s.core.cycle)] } }
  | .closing => if x.wakeKept then none else some (setQpwr q { x with wakeKept := true } s)
  | _ => none

/-- Device-internal traffic for a vault behind a closed port queues a wake of its quad (R334); none where that has been done. -/
def wakeVault (v : Nat) (s : State) : Option State := if vaultGated s v then tryWake (physQuad s (v / 4 % 2 ^ 11)) s else none

/-! ## Rows and the beats of the device's own traffic (R257 to R260) -/

/-- The row that a bank will hold open when every waiting command is done. -/
def Bank.eventual (x : Bank) : Option Nat :=
  match x.want.getLast? with
  | some r => r
  | none => match x.busy with
    | .activating r => some r
    | .precharging => none
    | _ => x.openRow

/-- A bank at the end of a precharge: closed (R259). -/
def Bank.precharged (x : Bank) : Bank := { x with busy := .idle, openRow := none }

/-- A bank at the end of an activation: the row is open (R259). -/
def Bank.activated (row : Nat) (x : Bank) : Bank := { x with busy := .idle, openRow := some row }

/-- The row commands that open a row in a bank with nothing in progress, to their ends: a precharge where another row is open, then the activation
(R259). -/
def Bank.opened (row : Nat) (x : Bank) : Bank :=
  if x.openRow = some row then x else (if x.openRow.isSome then x.precharged else x).activated row

/-- A row command for a bank: opens the row unless it is or will be open (R259). -/
def askRow (row : Nat) (x : Bank) : Bank :=
  if x.eventual = some row then x else kickBank { x with want := x.want ++ [some row] }

/-- A row command for a bank: closes the row if it is or will be open (R187). -/
def askClose (row : Nat) (x : Bank) : Bank :=
  if x.eventual = some row then kickBank { x with want := x.want ++ [none] } else x

/-- Whether a beat of the own vault can move now: its bank idle with no refresh due, and its row open (R257, R260). -/
def beatReady (x : Bank) (row : Nat) : Bool := decide (x.busy = .idle) && !x.refreshDue && decide (x.openRow = some row)

/-- Whether a write that stands in a queue of a vault may be waiting for the device itself: the quad's log is full (R277), or a snapshot still has pages
to copy (R275). -/
def writesHeld (s : State) (vault : Nat) : Bool :=
  decide (256 ≤ (s.quad.dirtyLog.filter (fun x => decide (x.1 = vaultQuad vault))).length) || s.resil.snapshots.any (fun x => x.cut)

/-- Whether traffic for a vault is held at its port while its retired quad's vaults are copied to a spare (R397). -/
def vaultMoving (s : State) (v : Nat) : Bool :=
  decide (v / 2 ^ 13 = s.ownStack) && s.resil.remapping.any (fun e => decide (e.1.toNat = v / 4 % 2 ^ 11))

/-- A beat of the walker, of a merge, a harvest, a re-stripe or another access that the device makes for itself goes to its column: none while its
bank is at work, or while an earlier beat stands in its queue (R257), unless that may be a write which waits for this very access. Its row commands are
part of its own step (R259). Log entry 10 (DESIGN CHOICE). -/
def openColumn (p : Place) (s : State) : Option State :=
  if vaultMoving s p.vault then none
  else if s.vault.beats.any (fun b => decide (b.vault = p.vault) && decide (b.bank = p.bankIx)) && !writesHeld s p.vault then none
  else if p.vault = s.ownVault then
    let x := s.vault.banks[p.bankIx]
    if x.busy = .idle ∧ x.refreshDue = false ∧ x.want = [] then some (setBank p.bankIx (x.opened p.row) s) else none
  else some s

/-! ## Tables and the walker (R272, R273) -/

/-- What a translation gives: a leaf placement word, the reason of a fault (R179), or a wait at the vault that holds a table: behind its closed port
(R334), or for its bank (R257). -/
inductive Lookup where
  | ok (w : Word)
  | bad (why : Nat)
  | held (v : Nat)
deriving DecidableEq, Repr

/-- The place of entry i of the table that an interior word places (R272). -/
def entryPlace (w : Word) (i : Nat) : Place := place w (sel w 18 5 * 8192 + 8 * i)

/-- Its address. -/
def entryAddr (w : Word) (i : Nat) : Nat := (entryPlace w i).addr

/-- The entry that both copies hold: the primary, or the mirror where that is uncorrectable; none when both are (R273). -/
def entryWord (w : Word) (i : Nat) (s : State) : Option Word :=
  let copy (a : Nat) : Option Word := if a / 8 ∈ s.vault.bad ∨ lostVault a s then none else some (BitVec.ofNat 64 (readLE s.vault.mem a 8))
  (copy (entryAddr w i)).orElse (fun _ => copy (entryAddr (mirrorWord w) i))

/-- The table that the indices lead to from an interior word; none where an entry on the way places none. -/
def tableAt (w : Word) : List Nat → State → Option Word
  | [], _ => some w
  | i :: rest, s =>
    match entryWord w i s with
    | none => none
    | some e => if sel e 63 1 = 0 ∨ malformed e = true ∨ sel e 23 1 = 0 ∨ 1 < pwGeo e then none else tableAt e rest s

/-- One copy of an entry is read: a wait at its vault, or whether it is good (R273). -/
def readCopy (p : Place) (s : State) : Option (Bool × State) :=
  if vaultGated s p.vault then none
  else (openColumn p s).map (fun s => let r := readWords p.addr [p.addr / 8] s; (decide (r.1 = 0), r.2))

/-- read_entry (R273): the primary, or the mirror with the repair of the primary; the inner none when both are uncorrectable, the outer a wait. -/
def readEntry (w : Word) (i : Nat) (s : State) : Option (Option Word) × State :=
  let a := entryAddr w i
  match readCopy (entryPlace w i) s with
  | none => (none, s)
  | some (true, s) => (some (some (BitVec.ofNat 64 (readLE s.vault.mem a 8))), s)
  | some (false, s1) =>
    match readCopy (entryPlace (mirrorWord w) i) s1 with
    | none => (none, s)
    | some (true, s1) =>
      let v := readList s1.vault.mem (entryAddr (mirrorWord w) i) 8
      let s2 := if a / 8 ∈ s1.vault.bad then (beatWrite a v s1).2 else s1
      (some (some (BitVec.ofNat 64 (bytesLE v))), { s2 with vault := { s2.vault with repairs := s2.vault.repairs + 1 } })
    | some (false, s1) => (some none, s1)

/-- The vault at which the reading of an entry waits: that of the copy whose port is closed, else of the primary. -/
def waitVault (w : Word) (i : Nat) (s : State) : Nat :=
  let m := (entryPlace (mirrorWord w) i).vault
  if vaultGated s (entryPlace w i).vault = false ∧ vaultGated s m = true then m else (entryPlace w i).vault

/-- walk (R272) from an interior word through the entries with the indices given, the last of them a leaf. -/
def walkFrom (w : Word) : List Nat → State → Lookup × State
  | [], s => (.ok w, s)
  | i :: rest, s =>
    if sel w 53 1 = 0 then (.bad 2, s)
    else match readEntry w i s with
      | (none, s) => (.held (waitVault w i s), s)
      | (some none, s) => (.bad 3, s)
      | (some (some e), s) =>
        let last := rest.isEmpty
        if sel e 63 1 = 0 then (.bad 1, s)
        else if malformed e ∨ (last = false ∧ (sel e 23 1 = 0 ∨ 1 < pwGeo e)) ∨ (last = true ∧ sel e 23 1 = 1) then
          (.bad 1, { s with vault := { s.vault with malformed := s.vault.malformed + 1 } })
        else walkFrom e rest s

/-- The root placement word of an address space; 0 where the stack managers hold none (R272). -/
def rootOf (s : State) (asid : Asid) : Word := Table.get 0 s.vault.roots asid.toNat

/-- The indices of a page in the three levels (R272). -/
def levelIndices (vpn : Nat) : List Nat := [vpn / 2 ^ 20 % 1024, vpn / 2 ^ 10 % 1024, vpn % 1024]

/-- walk(asid, vpn) (R272). -/
def walk (asid : Asid) (vpn : Nat) (s : State) : Lookup × State :=
  let w := rootOf s asid
  if sel w 63 1 = 0 ∨ sel w 23 1 = 0 then (.bad 1, s)
  else walkFrom w (levelIndices vpn) s

/-- The vault at which a walk to the leaf entry of a page waits (R257, R334). -/
def walkHeld (asid : Asid) (vpn : Nat) (s : State) : Option Nat :=
  match (walk asid vpn s).1 with
  | .held v => some v
  | _ => none

/-- The places of a page's entry at a level of its table, 0 to 2, and of its mirror (R272, R273); none where no table holds it. -/
def levelEntry (level : Nat) (asid : Asid) (vpn : Nat) (s : State) : Option (Place × Place) :=
  let w := rootOf s asid
  if sel w 63 1 = 0 ∨ sel w 23 1 = 0 then none
  else (tableAt w ((levelIndices vpn).take level) s).map (fun t =>
    let i := (levelIndices vpn).getD level 0
    (entryPlace t i, entryPlace (mirrorWord t) i))

/-- The leaf word of a page as its table holds it; 0 where no table holds one, or both copies are uncorrectable. -/
def leafWord (s : State) (asid : Asid) (vpn : Nat) : Word :=
  let w := rootOf s asid
  if sel w 63 1 = 0 ∨ sel w 23 1 = 0 then 0
  else ((tableAt w ((levelIndices vpn).take 2) s).bind (fun t => entryWord t (vpn % 1024) s)).getD 0

/-- Whether a copy of an entry cannot be reached now: behind a closed port (R334), or its bank is at work (R257). -/
def copyHeld (s : State) (p : Place) : Bool := vaultGated s p.vault || (openColumn p s).isNone

/-- The vault at which a change of the leaf entry of a page waits: at a table on the way, or at one of the copies (R257, R334). -/
def leafHeld (asid : Asid) (vpn : Nat) (s : State) : Option Nat :=
  match walkHeld asid vpn s with
  | some v => some v
  | none => match levelEntry 2 asid vpn s with
    | none => none
    | some (p, m) => if copyHeld s p then some p.vault else if copyHeld s m then some m.vault else none

/-- A word is written over a copy of an entry, as a whole; a beat that fails its parity twice writes nothing (R263, R274). -/
def putCopy (p : Place) (w : Word) (s : State) : State := (beatWrite p.addr (leBytes 8 w.toNat) ((openColumn p s).getD s)).2

/-- The leaf entry of a page takes a new word, the mirror first (R274). -/
def writeLeaf (asid : Asid) (vpn : Nat) (w : Word) (s : State) : State :=
  match levelEntry 2 asid vpn s with
  | none => s
  | some (p, m) => putCopy p w (putCopy m w s)

/-- Bits of a copy of an entry change, as one indivisible step: it is read, and written whole; one that cannot be read stays (R263, R264, R277). -/
def changeCopy (p : Place) (f : Word → Word) (s : State) : State :=
  match readWords p.addr [p.addr / 8] ((openColumn p s).getD s) with
  | (0, s) => (beatWrite p.addr (leBytes 8 (f (BitVec.ofNat 64 (readLE s.vault.mem p.addr 8))).toNat) s).2
  | (_, s) => s

/-- Bits of both copies of the leaf entry of a page change, the mirror first; the tables on the way are read as a walk reads them (R264, R273, R274,
R277). -/
def changeLeaf (asid : Asid) (vpn : Nat) (f : Word → Word) (s : State) : State :=
  match levelEntry 2 asid vpn s with
  | none => s
  | some (p, m) => changeCopy p f (changeCopy m f (walk asid vpn s).2)

/-! ## Translation buffers (R270, R274) -/

/-- The entry of a page in a buffer. -/
def bufFind (b : List TlbEntry) (asid : Asid) (vpn : Nat) : Option TlbEntry :=
  b.find? (fun e => decide (e.asid = asid) && decide (e.vpn.toNat = vpn))

/-- Puts an entry at the front of a buffer of n entries: the least recently used entry goes when it is full (R270). -/
def bufTouch (n : Nat) (e : TlbEntry) (b : List TlbEntry) : List TlbEntry :=
  (e :: b.filter (fun x => !(decide (x.asid = e.asid) && decide (x.vpn = e.vpn)))).take n

/-- A page leaves both buffers (R274). -/
def invalidate (asid : Asid) (vpn : Nat) (s : State) : State :=
  let keep (b : List TlbEntry) := b.filter (fun e => !(decide (e.asid = asid) && decide (e.vpn.toNat = vpn)))
  { s with vault := { s.vault with
      ctrlBuf := keep s.vault.ctrlBuf, stackBuf := keep s.vault.stackBuf
      marks := s.vault.marks.filter (fun e => !(decide (e.2.1 = asid) && decide (e.2.2.1.toNat = vpn))) } }

/-- Translation through the stack buffer, which the walker fills (R270). -/
def translateStack (asid : Asid) (vpn : Nat) (s : State) : Lookup × State :=
  if 2 ^ 30 ≤ vpn then (.bad 1, s)
  else match bufFind s.vault.stackBuf asid vpn with
    | some e => (.ok e.word, { s with vault := { s.vault with stackBuf := bufTouch 4096 e s.vault.stackBuf } })
    | none =>
      match walk asid vpn s with
      | (.ok w, s) =>
        (.ok w, { s with vault := { s.vault with stackBuf := bufTouch 4096 ⟨asid, BitVec.ofNat 30 vpn, w, none⟩ s.vault.stackBuf } })
      | e => e

/-- Translation through the controller buffer, then the stack buffer, then the walker (R270). -/
def translate (asid : Asid) (vpn : Nat) (s : State) : Lookup × State :=
  match bufFind s.vault.ctrlBuf asid vpn with
  | some e => (.ok e.word, { s with vault := { s.vault with ctrlBuf := bufTouch 64 e s.vault.ctrlBuf } })
  | none =>
    match translateStack asid vpn s with
    | (.ok w, s) =>
      (.ok w, { s with vault := { s.vault with ctrlBuf := bufTouch 64 ⟨asid, BitVec.ofNat 30 vpn, w, none⟩ s.vault.ctrlBuf } })
    | e => e

/-! ## Permissions and access tables (R268, R370, R371) -/

/-- Whether a placement word grants what an access requires (R268). -/
def permits (w : Word) (rd wr : Bool) : Bool := (!rd || decide (sel w 53 1 = 1)) && (!wr || decide (sel w 54 1 = 1))

/-- The access table entry of a quad for an address space (R370). -/
def accessEntry (s : State) (quad : BitVec 13) (asid : Asid) : BitVec 32 :=
  Table.get 0 s.quad.access (quad.toNat * 4096 + asid.toNat)

/-- Whether a quad's entry has V and a right, and a requester at an address within its RSC of the vault (R370, R371).
Log entry 34 (DEDUCED). -/
def accessAllows (s : State) (vault : Nat) (asid : Asid) (right : Nat) (requester : BitVec 32) : Bool :=
  let e := accessEntry s (vaultQuad vault) asid
  let target : BitVec 32 := BitVec.ofNat 32 (s.core.pkg.toNat * 2 ^ 15 + vault)
  decide (sel e 31 1 = 1) && decide (sel e right 1 = 1) && decide (sel e 21 3 ≤ 4) && sameScope (sel e 21 3) requester target

/-! ## The queues of the banks (R257) -/

/-- Whether a source still has beats to move. -/
def Claimant.live (s : State) : Claimant → Bool
  | .tile => match s.core.engQ with
    | [] => false
    | e :: _ => e.started && e.ended.isNone && decide (e.faultWhy = 0)
  | .copy r => match s.quad.copyRun[r] with
    | none => false
    | some c => !c.ended && decide (c.faultWhy = 0)
  | .spill i => s.streams[i].active && s.streams[i].area.isSome
  | .agent n col => s.net.agentQ.any (fun j => decide (j.id = n) && decide (col ∈ j.left))
  | .host n => s.host.pending.any (fun a => decide (a.id = n))

/-- A beat joins the queue of its bank, unless it stands there; its source stands in no other bank's. -/
def joinQueue (who : Claimant) (p : Place) (s : State) : State :=
  let me : Beat := ⟨p.vault, p.bankIx, who⟩
  let q := s.vault.beats.filter (fun b => b.who.live s && (decide (b.who ≠ who) || decide (b = me)))
  { s with vault := { s.vault with beats := if me ∈ q then q else q ++ [me] } }

/-- A beat at its bank (R257): it joins the queue, and may move when it is the oldest there, its bank is free and its row is open; the row
command of the oldest is issued. -/
def reachBeat (who : Claimant) (p : Place) (s : State) : Bool × State :=
  let s := joinQueue who p s
  if s.vault.beats.find? (fun b => decide (b.vault = p.vault) && decide (b.bank = p.bankIx)) ≠ some ⟨p.vault, p.bankIx, who⟩ ∨ vaultMoving s p.vault = true then (false, s)
  else if p.vault ≠ s.ownVault then (true, s)
  else
    let x := s.vault.banks[p.bankIx]
    if beatReady x p.row then (true, s) else (false, setBank p.bankIx (askRow p.row x) s)

/-- Whether the beat of a source stands in the queue of a place's bank. -/
def queued (who : Claimant) (p : Place) (s : State) : Bool := decide ((⟨p.vault, p.bankIx, who⟩ : Beat) ∈ s.vault.beats)

/-- The beat of a source has moved. -/
def leaveQueue (who : Claimant) (s : State) : State :=
  { s with vault := { s.vault with beats := s.vault.beats.filter (fun b => decide (b.who ≠ who)) } }

/-- A step that only waited, kept where it changed a queue or a bank. -/
def waited (s s' : State) : Option State :=
  if s'.vault.beats = s.vault.beats ∧ s'.vault.banks = s.vault.banks ∧ s'.vault.ctrlBuf = s.vault.ctrlBuf ∧ s'.vault.stackBuf = s.vault.stackBuf then none
  else some s'

/-! ## Dirty logs (R276, R277) -/

/-- The parity of the present harvest number (R276). -/
def State.parity (s : State) : Bool := decide (s.vault.harvest % 2 = 1)

/-- Whether the controller of a vault holds the mark of the present parity for a page (R276): of other vaults' controllers the model keeps the marks
alone. -/
def marked (asid : Asid) (vpn vault : Nat) (s : State) : Bool :=
  if vault = s.ownVault then (match bufFind s.vault.ctrlBuf asid vpn with
    | some e => decide (e.mark = some s.parity)
    | none => false)
  else decide ((vault, asid, BitVec.ofNat 30 vpn, s.parity) ∈ s.vault.marks)

/-- The controller of a vault takes the mark of the present parity for a page (R276): in the own vault its buffer's entry, which it fills from the
stack's where it has none; a page that neither holds, since an invalidation has dropped it, has no entry to mark. -/
def markPage (asid : Asid) (vpn vault : Nat) (s : State) : State :=
  let v : Vpn := BitVec.ofNat 30 vpn
  if vault = s.ownVault then
    match (bufFind s.vault.ctrlBuf asid vpn).orElse (fun _ => bufFind s.vault.stackBuf asid vpn) with
    | none => s
    | some e => { s with vault := { s.vault with ctrlBuf := bufTouch 64 { e with mark := some s.parity } s.vault.ctrlBuf } }
  else
    { s with vault := { s.vault with marks :=
        (vault, asid, v, s.parity) :: s.vault.marks.filter (fun e => !(decide (e.1 = vault) && decide (e.2.1 = asid) && decide (e.2.2.1 = v))) } }

/-- Whether a write to a page at a vault must wait for a merge: it has to append to the log of the vault's quad, which is full (R276, R277). -/
def logFull (asid : Asid) (vpn vault : Nat) (s : State) : Bool :=
  !marked asid vpn vault s && decide (256 ≤ (s.quad.dirtyLog.filter (fun x => decide (x.1 = vaultQuad vault))).length)

/-- A write to a page at a vault has been performed (R276): the page is appended to the log of the vault's quad unless its mark says so already.
Log entry 34 (DEDUCED). -/
def logDirty (asid : Asid) (vpn vault : Nat) (s : State) : State :=
  if marked asid vpn vault s then s
  else
    let s := markPage asid vpn vault s
    { s with quad := { s.quad with dirtyLog := s.quad.dirtyLog ++ [(vaultQuad vault, asid, BitVec.ofNat 30 vpn, s.parity)] } }

/-! ## Requests (R206) -/

/-- The virtual address of a request (R206). -/
def reqVa (m : Msg) : Nat := sel m.payload 0 48

/-- d1 of a request's payload. -/
def reqD1 (m : Msg) : Nat := sel m.payload 64 64

/-- The address that a request acts on: a VAMO is aligned down to its width, a VFADDC to 8 (R206). -/
def reqAddr (m : Msg) : Nat :=
  let va := reqVa m
  if m.hidx = 0xF2 then (let n := if bits (reqD1 m) 4 1 = 1 then 8 else 4; va - va % n)
  else if m.hidx = 0xF3 then va - va % 8 else va

/-! ## Doorbells (R289) -/

/-- A ring's producer index takes a new value; one more than 2^k ahead of CI acts as CI + 2^k (R289, R290). -/
def setProducer (ring : Fin 24) (pi : BitVec 32) (s : State) : State :=
  let x := s.mgr.rings[ring]
  if !x.bound then s
  else
    let ahead := (pi - x.ci).toNat
    let pi := if 2 ^ x.k.toNat < ahead then x.ci + BitVec.ofNat 32 (2 ^ x.k.toNat) else pi
    { s with mgr := { s.mgr with rings := vset s.mgr.rings ring { x with pi := pi } } }

/-- The rings whose doorbell doubleword an agent's write of n bytes at a virtual address touches take its new value (R289); a is the address in
vault memory. -/
def ringDoorbells (asid : Asid) (va a n : Nat) (s : State) : State :=
  (List.finRange 24).foldl (fun s k => match s.mgr.rings[k].doorbell with
    | none => s
    | some (x, d) =>
      if x = asid ∧ va < d.toNat + 8 ∧ d.toNat < va + n then setProducer k (BitVec.ofNat 32 (readLE s.vault.mem (a + d.toNat - va) 4)) s
      else s) s

/-- Bytes of one column are written by an agent (R233, R263, R276, R289): a wait for the dirty log, or 0 or the DETAIL of UEDATA. -/
def storeColumn (asid : Asid) (va : Nat) (p : Place) (bs : List Byte) (s : State) : Option (Nat × State) :=
  if logFull asid (pageOf va) p.vault s then none
  else match beatWrite p.addr bs s with
    | (0, s) => some (0, ringDoorbells asid va p.addr bs.length (logDirty asid (pageOf va) p.vault s))
    | e => some e

/-! ## Snapshot epochs (R275, R389) -/

/-- The snapshot epoch of an address space. -/
def epochOf (s : State) (asid : Asid) : BitVec 4 := Table.get 0 s.vault.epochs asid.toNat

/-- Whether a write to a page waits for its copy to a shingle (R275). -/
def epochStale (s : State) (asid : Asid) (w : Word) : Bool := decide (sel w 55 4 ≠ (epochOf s asid).toNat)

/-- A write of a core of a logical quad of this stack in an address space: the quad joins the touched set of the present epoch's
parity (R395). -/
def touchQuad (asid : Asid) (quad : Nat) (s : State) : State :=
  let e : Asid × Bool × BitVec 11 := (asid, decide ((epochOf s asid).toNat % 2 = 1), BitVec.ofNat 11 quad)
  if e ∈ s.resil.touched then s else { s with resil := { s.resil with touched := s.resil.touched ++ [e] } }

end Sys2Proof.Machine
end

