-- ==== Sys2Proof/Machine/Vector.lean ====
section
/-! DEFINITION. Vector instructions (R128 to R142). -/

namespace Sys2Proof.Machine

/-! ## Loads and stores (R129 to R132) -/

/-- The raw BFMT field of an in-range offset: that of the physical bank which holds it (R27). -/
def bankField (s : State) (off : Nat) : BitVec 10 :=
  s.core.bfmt[(s.rs.spbase.toNat + off) / 3072 % 16]'(Nat.mod_lt _ (by decide))

/-- bank_fmt of a base offset; out of range it reads as format 0 (R27, R130). -/
def memFormat (s : State) (base : Int) : BitVec 10 :=
  if inRange s.rs.spsize.toNat base then bankField s base.toNat else 0

/-- The register element width of ET (R130). -/
def etWidth (t : BitVec 4) : Nat := if t = 0 then 32 else formatBits t.toNat

/-- Bits of a memory element (R130). -/
def memBits (t : BitVec 4) (f : BitVec 10) : Nat :=
  if t = 0 then 32 else if bits f.toNat 0 4 = 0 then etWidth t else formatBits (bits f.toNat 0 4)

/-- The addressing of the three kinds of vector access (R129). -/
inductive VecKind where
  | unit
  | stride (d : Int)
  | index (v : VWord)
deriving DecidableEq, Repr

/-- The number of a kind in the encoding (R129). -/
def VecKind.num : VecKind → Nat
  | .unit => 0
  | .stride _ => 1
  | .index _ => 2

/-- The shape of an access with element type t (R129, R130): eb is the element size in bytes by which indices are scaled.
Log entry 11 (DEDUCED). -/
def vecShape (s : State) (t : BitVec 4) (base : Int) (k : VecKind) : VecShape :=
  let f := memFormat s base
  let w := etWidth t
  let n := 512 / w
  let eb := memBits t f
  let first (i : Nat) : Int := match k with
    | .unit => base + ((i * eb / 8 : Nat) : Int)
    | .stride d => base + i * d
    | .index v => base + ((elem v w i * (max (eb / 8) 1) : Nat) : Int)
  { kind := k.num, fmt := if t = 0 then none else some f, base := base, ebits := eb, n := n, width := w,
    at_ := (List.range n).map first }

/-- The first in-range offset among the given ones whose bank has another format than f (R29, R131). -/
def strayByte (s : State) (f : BitVec 10) (ins : List Nat) : Option Nat :=
  ins.find? (fun o => !formatEq (bankField s o) f)

/-- TINFO of the FMTBAD that an access takes, if it takes one (R26, R29, R131). A raw form never does. R29 and R131 compare the formats of the
banks also where one of them is RAW, while R44 says that an access to a RAW bank never raises FMTBAD: that sentence is read as one about an access
all of whose bytes lie in RAW banks, so an access with bytes in a RAW bank and in a typed one takes FMTBAD whichever holds its base.
A base offset out of range has format RAW (R130), and no bank's format is tested against it: a unit stride whose in-range bytes lie in one bank is
copied raw and takes no FMTBAD, whatever that bank's format, 13 to 15 or 12 with P = 0 included (R26 is then read as R131 says, of F only). TINFO of an
offset that is negative or 2^64 or more is the offset modulo 2^64. Log entry 11 (DEDUCED; DESIGN CHOICE for the last two). -/
def vecFormatFault (s : State) (h : VecShape) (m : BitVec 16) : Option Word :=
  match h.fmt with
  | none => none
  | some f =>
    let size := s.rs.spsize.toNat
    if formatBad f then some (wrap 64 h.base)
    else if h.kind = 0 then
      -- the whole span: the first byte whose bank differs from the bank of the first byte in range
      (match inOffsets size (byteRange h.base (h.ebits * h.n / 8)) with
      | [] => none
      | o :: rest => (strayByte s (bankField s o) rest).map (BitVec.ofNat 64))
    else if bits f.toNat 0 4 ≠ 0 ∧ h.ebits = 4 then
      some (match h.active m with
        | [] => wrap 64 h.base
        | e :: _ => wrap 64 e.2)
    else
      -- the first byte of the first active element that has a byte in a bank of another format
      ((h.active m).find? (fun e => (strayByte s f (inOffsets size (byteRange e.2 h.ebytes))).isSome)).map (fun e => wrap 64 e.2)

/-- A vector access that has passed its checks starts: its first bank access is performed at once; the others follow (R132, R142). -/
def startVec (q : VecRun) (s : State) : State := vecStep { s with core := { s.core with vecRun := some q } }

/-- A vector load (R132). -/
def vecLoad (i : Instr) (a : Reg) (t : BitVec 4) (m : MaskField) (base : Int) (k : VecKind) (s0 s : State) : Res :=
  withRoomV a s0 s <|
    if fenceHolds s then stall s0
    else
      let h := vecShape s t base k
      let g := s.mask m
      match vecFormatFault s h g with
      | some info => trap 0x0B info s0
      | none => localAccess s0 true false (h.offs g) s fun s' =>
          retire i (startVec ⟨s'.cur, h.pieces g s'.rs.spsize.toNat (fun _ => 0), [], 0, some ⟨a, t, g, h⟩⟩ s')

/-- A vector store: the active elements in rising index (R132). A store of half bytes reads the bytes that it changes, so an uncorrectable word
there is UEDATA even where both its halves are written. Log entry 15 (DEDUCED). -/
def vecStore (i : Instr) (t : BitVec 4) (m : MaskField) (base : Int) (k : VecKind) (v : VWord) (s0 s : State) : Res :=
  if fenceHolds s then stall s0
  else
    let h := vecShape s t base k
    let g := s.mask m
    match vecFormatFault s h g with
    | some info => trap 0x0B info s0
    | none => localAccess s0 (decide (h.ebits = 4)) true (h.offs g) s fun s' =>
        let r := (List.range h.n).map (storeElem s'.rm t h v)
        let fl := gatherFlags h.width h.n g (fun j => (r.getD j (0, 0)).2)
        retire i (startVec ⟨s'.cur, h.pieces g s'.rs.spsize.toNat (fun j => (r.getD j (0, 0)).1), [], fl, none⟩ s')

/-- The base offset of the unit-stride kinds: X + 64 × the signed c field, unbounded (R129). -/
def unitBase (x : Word) (c : Reg) : Int := (x.toNat : Int) + c.toInt * 64

/-! ## Shapes of computing instructions -/

/-- A VALU instruction with two sources (R133): f on the active elements of width w. -/
def vecBinary (i : Instr) (a b c : Reg) (w : Nat) (m : MaskField) (f : Nat → Nat → Nat) (s : State) : Res :=
  withV b s s fun x s1 => withV c s s1 fun y s2 => withRoomV a s s2 <|
    finishV i a (mergeElems w (512 / w) (s2.mask m) (oldV a s2) (fun j => f (elem x w j) (elem y w j))) s2

/-- A VALU instruction with one source. -/
def vecUnary (i : Instr) (a b : Reg) (w : Nat) (m : MaskField) (f : Nat → Nat) (s : State) : Res :=
  withV b s s fun x s1 => withRoomV a s s1 <|
    finishV i a (mergeElems w (512 / w) (s1.mask m) (oldV a s1) (fun j => f (elem x w j))) s1

/-- Whether a mask bit is one that the active elements of width w cover (R128, R134). -/
def bitActive (g : BitVec 16) (w j : Nat) : Bool := if w = 64 then active g 64 (j / 2) else g.getLsbD j

/-- A mask after a comparison (R134): r is the result for each element of width w. -/
def compareMask (w : Nat) (g old : BitVec 16) (r : Nat → Bool) : BitVec 16 :=
  let bit (j : Nat) : Bool :=
    if bitActive g w j then
      (if w = 64 then r (j / 2) else (List.range (32 / w)).all (fun k => r (32 / w * j + k)))
    else old.getLsbD j
  BitVec.ofNat 16 (packElems 1 ((List.range 16).map (fun j => (bit j).toNat)))

/-- An integer comparison into a mask (R134). -/
def vecCompare (i : Instr) (a b c : Reg) (w : Nat) (m : MaskField) (f : Nat → Nat → Bool) (s : State) : Res :=
  withV b s s fun x s1 => withV c s s1 fun y s2 =>
    retire i (writeM (reg8 a) (compareMask w (s2.mask m) (s2.st.getM (reg8 a)) (fun j => f (elem x w j) (elem y w j))) s2)

/-- An FP32 instruction on lists of element results (R135): the active results and their flags are taken. -/
def finishFp (i : Instr) (a : Reg) (m : MaskField) (r : List (Nat × BitVec 5)) (s : State) : Res :=
  finishV i a (mergeElems 32 16 (s.mask m) (oldV a s) (fun j => (r.getD j (0, 0)).1))
    (orFlags (gatherFlags 32 16 (s.mask m) (fun j => (r.getD j (0, 0)).2)) s)

/-- A VFPU instruction with two sources. -/
def fpBinary (i : Instr) (a b c : Reg) (m : MaskField) (f : RMode → Nat → Nat → Nat × BitVec 5) (s : State) : Res :=
  withV b s s fun x s1 => withV c s s1 fun y s2 => withRoomV a s s2 <|
    finishFp i a m ((List.range 16).map (fun j => f s2.rm (elem x 32 j) (elem y 32 j))) s2

/-- A VFPU instruction with one source. -/
def fpUnary (i : Instr) (a b : Reg) (m : MaskField) (f : RMode → Nat → Nat × BitVec 5) (s : State) : Res :=
  withV b s s fun x s1 => withRoomV a s s1 <| finishFp i a m ((List.range 16).map (fun j => f s1.rm (elem x 32 j))) s1

/-- VFMA and VFMS: the addend is the old vd, popped last (R21, R135, R140). -/
def fpFused (i : Instr) (a b c : Reg) (m : MaskField) (f : RMode → Nat → Nat → Nat → Nat × BitVec 5) (s : State) : Res :=
  withV b s s fun x s1 => withV c s s1 fun y s2 => withV a s s2 fun z s3 => withRoomV a s s3 <|
    finishFp i a m ((List.range 16).map (fun j => f s3.rm (elem x 32 j) (elem y 32 j) (elem z 32 j))) s3

/-- An FP32 comparison into a mask (R57, R135). -/
def fpCompare (i : Instr) (a b c : Reg) (m : MaskField) (f : Nat → Nat → Bool × BitVec 5) (s : State) : Res :=
  withV b s s fun x s1 => withV c s s1 fun y s2 =>
    let r := (List.range 16).map (fun j => f (elem x 32 j) (elem y 32 j))
    retire i (writeM (reg8 a) (compareMask 32 (s2.mask m) (s2.st.getM (reg8 a)) (fun j => (r.getD j (false, 0)).1))
      (orFlags (gatherFlags 32 16 (s2.mask m) (fun j => (r.getD j (false, 0)).2)) s2))

/-- One level of the reduction tree: neighbours are combined, and an inactive input lets the other pass (R61, R62). -/
def reduceOnce (f : Nat → Nat → Nat × BitVec 5) : List (Option Nat) → List (Option Nat) × BitVec 5
  | some x :: some y :: rest =>
    let v := f x y
    let r := reduceOnce f rest
    (some v.1 :: r.1, v.2 ||| r.2)
  | some x :: none :: rest =>
    let r := reduceOnce f rest
    (some x :: r.1, r.2)
  | none :: y :: rest =>
    let r := reduceOnce f rest
    (y :: r.1, r.2)
  | l => (l, 0)

/-- The tree of k levels. -/
def reduceTree (f : Nat → Nat → Nat × BitVec 5) : Nat → List (Option Nat) → List (Option Nat) × BitVec 5
  | 0, l => (l, 0)
  | k + 1, l =>
    let r := reduceOnce f l
    let t := reduceTree f k r.1
    (t.1, r.2 ||| t.2)

/-- A reduction of the active elements of width w with its identity and flags (R61, R62). -/
def reduceElems (w : Nat) (g : BitVec 16) (x : VWord) (identity : Nat) (f : Nat → Nat → Nat × BitVec 5) : Nat × BitVec 5 :=
  let l := (List.range (512 / w)).map (fun j => if active g w j then some (elem x w j) else none)
  let r := reduceTree f (bitLen (512 / w) - 1) l
  match r.1 with
  | some v :: _ => (v, r.2)
  | _ => (identity, r.2)

/-- A reduction instruction: element 0 takes the result and every other element 0 (R137). -/
def reduction (i : Instr) (a b : Reg) (w : Nat) (m : MaskField) (identity : Nat) (f : RMode → Nat → Nat → Nat × BitVec 5)
    (s : State) : Res :=
  withV b s s fun x s1 => withRoomV a s s1 <|
    let r := reduceElems w (s1.mask m) x identity (f s1.rm)
    finishV i a (BitVec.ofNat 512 r.1) (orFlags r.2 s1)

/-- A mask instruction with two sources (R139). -/
def maskBinary (i : Instr) (a b c : Reg) (f : BitVec 16 → BitVec 16 → BitVec 16) (s : State) : Res :=
  retire i (writeM (reg8 a) (f (s.st.getM (reg8 b)) (s.st.getM (reg8 c))) s)

/-- A bit pattern of w bits shifted right arithmetically. -/
def sraNat (w x n : Nat) : Nat := (wrap w (sextNat x w / 2 ^ n)).toNat

/-- The shift amount of an element: its low log2 w bits (R133). -/
def shAmt (w y : Nat) : Nat := y % w

/-! ## Meanings -/

/-- VLD (R129, R130). -/
def execVld (a b c : Reg) (t : BitVec 4) (m : MaskField) (s : State) : Res :=
  withX b s s fun x s1 => vecLoad (.vld a b c t m) a t m (unitBase x c) .unit s s1

/-- VLDS (R129, R131). -/
def execVlds (a b c : Reg) (t : BitVec 4) (m : MaskField) (s : State) : Res :=
  withX b s s fun x s1 => withX c s s1 fun y s2 => vecLoad (.vlds a b c t m) a t m x.toNat (.stride y.toInt) s s2

/-- VLDX (R129, R131). -/
def execVldx (a b c : Reg) (t : BitVec 4) (m : MaskField) (s : State) : Res :=
  withX b s s fun x s1 => withV c s s1 fun y s2 => vecLoad (.vldx a b c t m) a t m x.toNat (.index y) s s2

/-- VST (R129, R130). -/
def execVst (a b c : Reg) (t : BitVec 4) (m : MaskField) (s : State) : Res :=
  withX b s s fun x s1 => withV a s s1 fun v s2 => vecStore (.vst a b c t m) t m (unitBase x c) .unit v s s2

/-- VSTS (R129, R131). -/
def execVsts (a b c : Reg) (t : BitVec 4) (m : MaskField) (s : State) : Res :=
  withX b s s fun x s1 => withX c s s1 fun y s2 => withV a s s2 fun v s3 =>
    vecStore (.vsts a b c t m) t m x.toNat (.stride y.toInt) v s s3

/-- VSTX (R129, R131). -/
def execVstx (a b c : Reg) (t : BitVec 4) (m : MaskField) (s : State) : Res :=
  withX b s s fun x s1 => withV c s s1 fun y s2 => withV a s s2 fun v s3 =>
    vecStore (.vstx a b c t m) t m x.toNat (.index y) v s s3

/-- VADD (R133). -/
def execVadd (a b c : Reg) (w : BitVec 2) (m : MaskField) (s : State) : Res :=
  vecBinary (.vadd a b c w m) a b c (elemWidth w) m (fun x y => x + y) s

/-- VSUB (R133). -/
def execVsub (a b c : Reg) (w : BitVec 2) (m : MaskField) (s : State) : Res :=
  vecBinary (.vsub a b c w m) a b c (elemWidth w) m (fun x y => x + 2 ^ elemWidth w - y) s

/-- VMUL (R133). -/
def execVmul (a b c : Reg) (w : BitVec 2) (m : MaskField) (s : State) : Res :=
  vecBinary (.vmul a b c w m) a b c (elemWidth w) m (fun x y => x * y) s

/-- VMULH (R133). -/
def execVmulh (a b c : Reg) (w : BitVec 2) (m : MaskField) (s : State) : Res :=
  vecBinary (.vmulh a b c w m) a b c (elemWidth w) m (fun x y => (wrap (elemWidth w) (sextNat x (elemWidth w) * sextNat y (elemWidth w) / 2 ^ elemWidth w)).toNat) s

/-- VAND (R133). -/
def execVand (a b c : Reg) (w : BitVec 2) (m : MaskField) (s : State) : Res :=
  vecBinary (.vand a b c w m) a b c (elemWidth w) m (fun x y => x &&& y) s

/-- VOR (R133). -/
def execVor (a b c : Reg) (w : BitVec 2) (m : MaskField) (s : State) : Res :=
  vecBinary (.vor a b c w m) a b c (elemWidth w) m (fun x y => x ||| y) s

/-- VXOR (R133). -/
def execVxor (a b c : Reg) (w : BitVec 2) (m : MaskField) (s : State) : Res :=
  vecBinary (.vxor a b c w m) a b c (elemWidth w) m (fun x y => x ^^^ y) s

/-- VSLL (R133). -/
def execVsll (a b c : Reg) (w : BitVec 2) (m : MaskField) (s : State) : Res :=
  vecBinary (.vsll a b c w m) a b c (elemWidth w) m (fun x y => x * 2 ^ shAmt (elemWidth w) y) s

/-- VSRL (R133). -/
def execVsrl (a b c : Reg) (w : BitVec 2) (m : MaskField) (s : State) : Res :=
  vecBinary (.vsrl a b c w m) a b c (elemWidth w) m (fun x y => x / 2 ^ shAmt (elemWidth w) y) s

/-- VSRA (R133). -/
def execVsra (a b c : Reg) (w : BitVec 2) (m : MaskField) (s : State) : Res :=
  vecBinary (.vsra a b c w m) a b c (elemWidth w) m (fun x y => sraNat (elemWidth w) x (shAmt (elemWidth w) y)) s

/-- VMIN (R133). -/
def execVmin (a b c : Reg) (w : BitVec 2) (m : MaskField) (s : State) : Res :=
  vecBinary (.vmin a b c w m) a b c (elemWidth w) m (fun x y => if sextNat x (elemWidth w) ≤ sextNat y (elemWidth w) then x else y) s

/-- VMAX (R133). -/
def execVmax (a b c : Reg) (w : BitVec 2) (m : MaskField) (s : State) : Res :=
  vecBinary (.vmax a b c w m) a b c (elemWidth w) m (fun x y => if sextNat x (elemWidth w) ≤ sextNat y (elemWidth w) then y else x) s

/-- VMINZ (R133). -/
def execVminz (a b c : Reg) (w : BitVec 2) (m : MaskField) (s : State) : Res :=
  vecBinary (.vminz a b c w m) a b c (elemWidth w) m (fun x y => min x y) s

/-- VMAXZ (R133). -/
def execVmaxz (a b c : Reg) (w : BitVec 2) (m : MaskField) (s : State) : Res :=
  vecBinary (.vmaxz a b c w m) a b c (elemWidth w) m (fun x y => max x y) s

/-- VABS (R133): the most negative value stays. -/
def execVabs (a b : Reg) (w : BitVec 2) (m : MaskField) (s : State) : Res :=
  vecUnary (.vabs a b w m) a b (elemWidth w) m (fun x => (sextNat x (elemWidth w)).natAbs) s

/-- VCEQ (R134). -/
def execVceq (a b c : Reg) (w : BitVec 2) (m : MaskField) (s : State) : Res :=
  vecCompare (.vceq a b c w m) a b c (elemWidth w) m (fun x y => decide (x = y)) s

/-- VCLT (R134). -/
def execVclt (a b c : Reg) (w : BitVec 2) (m : MaskField) (s : State) : Res :=
  vecCompare (.vclt a b c w m) a b c (elemWidth w) m (fun x y => decide (sextNat x (elemWidth w) < sextNat y (elemWidth w))) s

/-- VCLO (R134). -/
def execVclo (a b c : Reg) (w : BitVec 2) (m : MaskField) (s : State) : Res :=
  vecCompare (.vclo a b c w m) a b c (elemWidth w) m (fun x y => decide (x < y)) s

/-- VSEL (R134): the mask field selects, and every element is written. -/
def execVsel (a b c : Reg) (m : MaskField) (s : State) : Res :=
  withV b s s fun x s1 => withV c s s1 fun y s2 => withRoomV a s s2 <|
    finishV (.vsel a b c m) a (mergeElems 32 16 (s2.mask m) y (fun j => elem x 32 j)) s2

/-- VSAT (R134): clamped to k + 1 bits. -/
def execVsat (a b : Reg) (k : BitVec 5) (w : BitVec 2) (m : MaskField) (s : State) : Res :=
  vecUnary (.vsat a b k w m) a b (elemWidth w) m
    (fun x => (wrap (elemWidth w) (saturate true (k.toNat + 1) (sextNat x (elemWidth w)))).toNat) s

/-- VFADD (R135). -/
def execVfadd (a b c : Reg) (m : MaskField) (s : State) : Res :=
  fpBinary (.vfadd a b c m) a b c m (fun r x y => fadd32 r x y) s

/-- VFSUB (R135). -/
def execVfsub (a b c : Reg) (m : MaskField) (s : State) : Res :=
  fpBinary (.vfsub a b c m) a b c m (fun r x y => fsub32 r x y) s

/-- VFMUL (R135). -/
def execVfmul (a b c : Reg) (m : MaskField) (s : State) : Res :=
  fpBinary (.vfmul a b c m) a b c m (fun r x y => fmul32 r x y) s

/-- VFMA (R135). -/
def execVfma (a b c : Reg) (m : MaskField) (s : State) : Res :=
  fpFused (.vfma a b c m) a b c m (fun r x y z => ffma32 r x y z) s

/-- VFMS (R135). -/
def execVfms (a b c : Reg) (m : MaskField) (s : State) : Res :=
  fpFused (.vfms a b c m) a b c m (fun r x y z => ffma32 r x y (fneg32 z)) s

/-- VFMIN (R57). -/
def execVfmin (a b c : Reg) (m : MaskField) (s : State) : Res :=
  fpBinary (.vfmin a b c m) a b c m (fun _ x y => fminmax32 false x y) s

/-- VFMAX (R57). -/
def execVfmax (a b c : Reg) (m : MaskField) (s : State) : Res :=
  fpBinary (.vfmax a b c m) a b c m (fun _ x y => fminmax32 true x y) s

/-- VFABS (R56). -/
def execVfabs (a b : Reg) (m : MaskField) (s : State) : Res :=
  fpUnary (.vfabs a b m) a b m (fun _ x => (fabs32 x, 0)) s

/-- VFNEG (R56). -/
def execVfneg (a b : Reg) (m : MaskField) (s : State) : Res :=
  fpUnary (.vfneg a b m) a b m (fun _ x => (fneg32 x, 0)) s

/-- VFCEQ (R57, R135). -/
def execVfceq (a b c : Reg) (m : MaskField) (s : State) : Res :=
  fpCompare (.vfceq a b c m) a b c m (fceq32) s

/-- VFCLT (R57, R135). -/
def execVfclt (a b c : Reg) (m : MaskField) (s : State) : Res :=
  fpCompare (.vfclt a b c m) a b c m (fcmp32 false) s

/-- VFCLE (R57, R135). -/
def execVfcle (a b c : Reg) (m : MaskField) (s : State) : Res :=
  fpCompare (.vfcle a b c m) a b c m (fcmp32 true) s

/-- VFRCP (R58). -/
def execVfrcp (a b : Reg) (m : MaskField) (s : State) : Res :=
  fpUnary (.vfrcp a b m) a b m frcp32 s

/-- VFRSQ (R58). -/
def execVfrsq (a b : Reg) (m : MaskField) (s : State) : Res :=
  fpUnary (.vfrsq a b m) a b m frsq32 s

/-- VFEXP (R58). -/
def execVfexp (a b : Reg) (m : MaskField) (s : State) : Res :=
  fpUnary (.vfexp a b m) a b m fexp32 s

/-- VSHUF (R136). -/
def execVshuf (a b c : Reg) (w : BitVec 2) (m : MaskField) (s : State) : Res :=
  withV b s s fun x s1 => withV c s s1 fun y s2 => withRoomV a s s2 <|
    finishV (.vshuf a b c w m) a (mergeElems (elemWidth w) (512 / elemWidth w) (s2.mask m) (oldV a s2) (fun j =>
      if elem y (elemWidth w) j < 512 / elemWidth w then elem x (elemWidth w) (elem y (elemWidth w) j) else 0)) s2

/-- VBCAST (R136). -/
def execVbcast (a b : Reg) (w : BitVec 2) (m : MaskField) (s : State) : Res :=
  withX b s s fun x s1 => withRoomV a s s1 <|
    finishV (.vbcast a b w m) a (mergeElems (elemWidth w) (512 / elemWidth w) (s1.mask m) (oldV a s1) (fun _ => x.toNat)) s1

/-- VMVX (R136). -/
def execVmvx (a b c : Reg) (w : BitVec 2) (s : State) : Res :=
  withV b s s fun x s1 => withX c s s1 fun y s2 => withRoomX a s s2 <|
    finishX (.vmvx a b c w) a (if y.toNat < 512 / elemWidth w then wrap 64 (sextNat (elem x (elemWidth w) y.toNat) (elemWidth w)) else 0) s2

/-- VSLIDE (R136). -/
def execVslide (a b c : Reg) (w : BitVec 2) (m : MaskField) (s : State) : Res :=
  withV b s s fun x s1 => withX c s s1 fun y s2 => withRoomV a s s2 <|
    finishV (.vslide a b c w m) a (mergeElems (elemWidth w) (512 / elemWidth w) (s2.mask m) (oldV a s2) (fun j =>
      if inRange (512 / elemWidth w) ((j : Int) + y.toInt) then elem x (elemWidth w) ((j : Int) + y.toInt).toNat else 0)) s2

/-- VZIP (R136). -/
def execVzip (a b c : Reg) (w : BitVec 2) (m : MaskField) (s : State) : Res :=
  withV b s s fun x s1 => withV c s s1 fun y s2 => withRoomV a s s2 <|
    finishV (.vzip a b c w m) a (mergeElems (elemWidth w) (512 / elemWidth w) (s2.mask m) (oldV a s2) (fun j =>
      if j % 2 = 0 then elem x (elemWidth w) (j / 2) else elem y (elemWidth w) (j / 2))) s2

/-- VUZP (R136). -/
def execVuzp (a b c : Reg) (w : BitVec 2) (m : MaskField) (s : State) : Res :=
  withV b s s fun x s1 => withV c s s1 fun y s2 => withRoomV a s s2 <|
    finishV (.vuzp a b c w m) a (mergeElems (elemWidth w) (512 / elemWidth w) (s2.mask m) (oldV a s2) (fun j =>
      if j < 256 / elemWidth w then elem x (elemWidth w) (2 * j) else elem y (elemWidth w) (2 * (j - 256 / elemWidth w)))) s2

/-- VREDS (R61, R137). -/
def execVreds (a b : Reg) (w : BitVec 2) (m : MaskField) (s : State) : Res :=
  reduction (.vreds a b w m) a b (elemWidth w) m 0 (fun _ x y => ((x + y) % 2 ^ elemWidth w, 0)) s

/-- VREDM (R61, R137): the signed maximum. -/
def execVredm (a b : Reg) (w : BitVec 2) (m : MaskField) (s : State) : Res :=
  reduction (.vredm a b w m) a b (elemWidth w) m (2 ^ (elemWidth w - 1))
    (fun _ x y => (if sextNat x (elemWidth w) ≤ sextNat y (elemWidth w) then y else x, 0)) s

/-- VFREDS (R61, R137). -/
def execVfreds (a b : Reg) (m : MaskField) (s : State) : Res :=
  reduction (.vfreds a b m) a b 32 m 0 fadd32 s

/-- VFREDM (R61, R137). -/
def execVfredm (a b : Reg) (m : MaskField) (s : State) : Res :=
  reduction (.vfredm a b m) a b 32 m 0xFF800000 (fun _ x y => fminmax32 true x y) s

/-- VCVT (R138): the fields of B8 come from ox7; a bad one takes FMTBAD with the low 64 bits of ox7 (log entry 11, DEDUCED), after
the waits for its source queue and for room in its destination queue (log entry 49, DEDUCED). -/
def execVcvt (a : Reg) (d : BitVec 4) (f : BitVec 4) (b : Reg) (s : State) : Res :=
  withV b s s fun x s1 => withRoomV a s s1 <|
    let o := s1.st.ox[7]
    let src : BitVec 10 := if f = 12 then BitVec.ofNat 10 (sel o 0 10) else f.setWidth 10
    let dst : BitVec 10 := if d = 12 then BitVec.ofNat 10 (sel o 16 10) else d.setWidth 10
    if (f = 12 ∧ (bits src.toNat 0 4 ≠ 12 ∨ formatBad src)) ∨ (d = 12 ∧ (bits dst.toNat 0 4 ≠ 12 ∨ formatBad dst)) then
      trap 0x0B (o.setWidth 64) s
    else
      let ws := formatBits f.toNat
      let wd := formatBits d.toNat
      let r := (List.range (512 / max ws wd)).map (fun j => convertElem (formatOf src) (formatOf dst) s1.rm (bits x.toNat (ws * j) ws))
      finishV (.vcvt a d f b) a (BitVec.ofNat 512 (packElems wd (r.map Prod.fst)))
        (orFlags (r.foldl (fun acc e => acc ||| e.2) 0) s1)

/-- MAND (R139). -/
def execMand (a b c : Reg) (s : State) : Res :=
  maskBinary (.mand a b c) a b c (fun x y => x &&& y) s

/-- MOR (R139). -/
def execMor (a b c : Reg) (s : State) : Res :=
  maskBinary (.mor a b c) a b c (fun x y => x ||| y) s

/-- MXOR (R139). -/
def execMxor (a b c : Reg) (s : State) : Res :=
  maskBinary (.mxor a b c) a b c (fun x y => x ^^^ y) s

/-- MNOT (R139). -/
def execMnot (a b : Reg) (s : State) : Res :=
  retire (.mnot a b) (writeM (reg8 a) (~~~(s.st.getM (reg8 b))) s)

/-- MPOP (R139). -/
def execMpop (a b : Reg) (s : State) : Res :=
  withRoomX a s s (finishX (.mpop a b) a (BitVec.ofNat 64 (countOnes 16 (s.st.getM (reg8 b)))) s)

/-- MSET (R139). -/
def execMset (a b : Reg) (s : State) : Res :=
  withX b s s fun x s1 => retire (.mset a b) (writeM (reg8 a) (x.setWidth 16) s1)

end Sys2Proof.Machine
end

