-- ==== Sys2Proof/Machine/Wide.lean ====
section
/-! DEFINITION. The wide multiplier (R63 to R71, R143 to R167): configuration, packing, multiplication and extraction. The operations
take the residency they act for, since matrix commands use them too. -/

namespace Sys2Proof.Machine

/-- What a multiplier operation answers: a state, a trap (the state tells what a RACE has recorded), or a wait for its turn in the
multiplier order. -/
inductive Wide where
  | ok (s : State)
  | trap (cause info : Nat) (s : State)
  | wait
deriving DecidableEq, Repr

/-- Whether matrix commands that have arrived stand before a stream's next multiplier instruction in the multiplier order (R144, R172). -/
def State.behindCommands (s : State) : Bool := decide (s.core.portQ ≠ [])

/-- A stream's multiplier instruction ends: s0 is the state before any pop. Behind matrix commands it waits, in a residency with a grant (R144). -/
def finishWide (i : Instr) (s0 : State) (w : Wide) : Res :=
  if s0.rs.accs ≠ 0 ∧ s0.behindCommands = true then stall s0
  else match w with
    | .ok s => retire i s
    | .trap cause info s => trap cause (BitVec.ofNat 64 info) (s0.setRs { s0.rs with raceinfo := s.rs.raceinfo })
    | .wait => stall s0

/-! ## Configuration (R23, R63, R143 to R151) -/

/-- The digit width s = 4 × SQ (R63). -/
def digitWidth (c : Core) : Nat := 4 * c.sq.toNat

/-- W_X: 16, 32 or 128 bits for JM 0, 1 and 2 (R63, R147). -/
def entryWidth (c : Core) : Nat := if c.jm = 0 then 16 else if c.jm = 1 then 32 else 128

/-- The number of X entries (R147). -/
def entryCount (c : Core) : Nat := 65536 / entryWidth c

/-- D = ⌊4,096/s⌋ (R63). -/
def rowDigits (c : Core) : Nat := 4096 / digitWidth c

/-- t = ⌊W_X/s⌋ (R63). -/
def entryDigits (c : Core) : Nat := entryWidth c / digitWidth c

/-- SQ lies in 1 to 18 (R26). -/
def sqGood (c : Core) : Bool := decide (1 ≤ c.sq.toNat) && decide (c.sq.toNat ≤ 18)

/-- GUARDCFG passes R26. -/
def guardGood (c : Core) : Bool :=
  sqGood c && decide (c.wx ≠ 0) && decide (c.wy ≠ 0) && decide (c.wx.toNat + c.wy.toNat + 1 ≤ 4 * c.sq.toNat)

/-- The TINFO of a configuration fault: bit 63 (R69). -/
def cfgFault : Nat := 2 ^ 63

/-- The TINFO of a descriptor fault at a bit (R145 step 2). -/
def fieldFault (bit : Nat) : Nat := 2 ^ 62 + bit

/-- Whether a residency may name accumulator n (R23). -/
def granted (r : Residency) (n : Nat) : Bool := decide (n < 64) && decide (n % 32 < r.accs.toNat / 2)

/-- The first accumulator of a list outside the grant. -/
def ungranted (r : Residency) (ns : List Nat) : Option Nat := ns.find? (fun n => !granted r n)

/-- The accumulator with a number. -/
def accOf (c : Core) (n : Nat) : Acc := c.accs[n % 64]'(Nat.mod_lt _ (by decide))

/-- Replaces an accumulator. -/
def setAcc (n : Nat) (a : Acc) (s : State) : State :=
  { s with core := { s.core with accs := s.core.accs.set (n % 64) a (Nat.mod_lt _ (by decide)) } }

/-- Whether the multiplier cannot start an instruction: slice work is in progress, or the four pairs have yet to merge (R144,
R150). -/
def multBusy (s : State) : Bool := decide (s.core.slew.work ≠ []) || (decide (s.core.jm = 2) && !s.core.slew.quadUnit)

/-- The first checks of R145 (R143, R144, R23): the residency has a grant, the multiplier can start, and the accumulators lie in the
grant; then k goes on. -/
def multCheck (r : ResIx) (accs : List Nat) (s : State) (k : Wide) : Wide :=
  if s.res[r].accs = 0 then .trap 0x01 64 s
  else if multBusy s then .wait
  else match ungranted s.res[r] accs with
    | some n => .trap 0x01 n s
    | none => k

/-- Whether an engine's lock on a buffer range holds back an instruction that uses bytes lo to hi − 1 of it (R146). -/
def bufferHeld (c : Core) (sp : Space) (write : Bool) (lo hi : Nat) : Bool :=
  c.locks.toList.any (fun l => match l with
    | some l => decide (l.space = sp) && (l.wr || write) && l.meets lo hi
    | none => false)

/-- GUARD: the three fields of a value (R149). -/
def guardOp (r : ResIx) (x : Word) (s : State) : Wide :=
  multCheck r [] s <|
    .ok { s with core := { s.core with
      sq := BitVec.ofNat 5 (sel x 0 5), wx := BitVec.ofNat 7 (sel x 8 7), wy := BitVec.ofNat 7 (sel x 16 7) } }

/-- JOIN j (R149). -/
def joinOp (r : ResIx) (j : BitVec 1) (s : State) : Wide :=
  multCheck r [] s <|
    if s.core.jm = 2 then .trap 0x0A cfgFault s else .ok { s with core := { s.core with jm := j.setWidth 2 } }

/-- Whether core k of the quad holds a multiplier residency of a gang. -/
def mateMultiplies (s : State) (k : Fin 4) (gang : BitVec 16) : Bool :=
  (s.quad.mates[k].residencies.any (fun m => decide (m.gang = gang) && m.accs))

/-- The fourth claim has been recorded: JM becomes 2 (R150). -/
def quadJoin (s : State) : State :=
  let others := (List.finRange 4).filter (fun k => decide (k.val ≠ s.coreInQuad.toNat))
  if s.quad.claim && others.all (fun k => s.quad.mates[k].claim) then { s with core := { s.core with jm := 2 } } else s

/-- QJOIN (R150): a claim for this core; the fourth claim of the quad sets JM to 2. -/
def qjoinOp (r : ResIx) (s : State) : Wide :=
  multCheck r [] s <|
    let others := (List.finRange 4).filter (fun k => decide (k.val ≠ s.coreInQuad.toNat))
    match others.find? (fun k => !mateMultiplies s k s.res[r].gang) with
    | some k => .trap 0x0A (cfgFault + k.val * 2 ^ 16) s
    | none =>
      .ok (quadJoin { s with quad := { s.quad with claim := true } })

/-- The claims of the quad are cleared, JM becomes 0, and each pair takes the mode and level of the quad unit (R150, R341). -/
def quadSplit (s : State) : State :=
  let u := s.core.slew
  let joined (m : Mate) : Mate := if u.quadUnit then { m with claim := false, mode := u.mode, level := u.level } else { m with claim := false }
  { s with
    core := { s.core with jm := 0, slew := { u with quadUnit := false, t := if u.quadUnit then 0 else u.t } }
    quad := { s.quad with claim := false, leaveDue := false, mates := s.quad.mates.map joined } }

/-- A QLEAVE whose predecessors have completed (R150): under JM 2 the quad splits, else the core's claim is withdrawn. -/
def quadLeave (s : State) : State :=
  if s.core.jm = 2 then quadSplit s else { s with quad := { s.quad with claim := false } }

/-- Whether a quad-mate's pair holds unfinished slice work. -/
def mateWorks (s : State) : Bool := (List.finRange 4).any (fun k => decide (k.val ≠ s.coreInQuad.toNat) && s.quad.mates[k].busy)

/-- Whether slice work of the quad is unfinished: in the quad unit, or, before the pairs have merged, in any of the four (R150, R341). -/
def quadWorks (s : State) : Bool := decide (s.core.slew.work ≠ []) || (!s.core.slew.quadUnit && mateWorks s)

/-- The QLEAVE of a release (R150): under JM 2 it takes effect once the quad's slice work has ended. -/
def quadRelease (s : State) : State :=
  if s.core.jm = 2 ∧ quadWorks s = true then { s with quad := { s.quad with leaveDue := true } } else quadLeave s

/-- A release's QLEAVE that waited takes effect once no unit of the quad holds unfinished slice work (R150, R341). -/
def settleLeave (s : State) : State := if s.quad.leaveDue ∧ quadWorks s = false then quadSplit s else s

/-- QLEAVE (R150). -/
def qleaveOp (r : ResIx) (s : State) : Wide := multCheck r [] s <| .ok (quadLeave s)

/-- ACCZ of accumulators N to N + k (R149). -/
def acczOp (r : ResIx) (n k : Nat) (s : State) : Wide :=
  let ns := (List.range (k + 1)).map (fun i => n + i)
  multCheck r ns s <| .ok (ns.foldl (fun s n => setAcc n Acc.zero s) s)

/-! ## Packing (R64 to R66, R152 to R155) -/

/-- What pack_align gives an element: its integer, its special code, and the group's scale exponent (R65). -/
structure Packed where
  q : Int
  code : Code
  scale : Int
deriving DecidableEq, Repr

/-- ⌊log2 |x|⌋ of a finite nonzero value. -/
def FVal.exponent : FVal → Option Int
  | .num _ m e => if m = 0 then none else some (e + bitLen m - 1)
  | _ => none

/-- The greatest exponent of a group; 0 where no element is finite and nonzero (R65). -/
def groupExp : List FVal → Option Int
  | [] => none
  | x :: xs => match x.exponent, groupExp xs with
    | none, g => g
    | some e, none => some e
    | some e, some g => some (max e g)

/-- m × 2^e rounded to the nearest integer, ties to even. -/
def nearestInt (neg : Bool) (m : Nat) (e : Int) : Int :=
  let v : Nat := if 0 ≤ e then m * 2 ^ e.toNat else roundShift .rne neg m (-e).toNat
  if neg then -(v : Int) else v

/-- One element of pack_align with scale sc and window w; a fixed scale clamps on both sides (R65, R154). -/
def alignElem (w : Nat) (fix : Bool) (sc : Int) : FVal → Packed
  | .nan _ => ⟨0, .nan, sc⟩
  | .inf n => ⟨0, if n then .ninf else .pinf, sc⟩
  | .num n m e =>
    if m = 0 then ⟨0, .zero, sc⟩
    else
      let q := min (nearestInt n m (e - sc)) (2 ^ (w - 1) - 1)
      ⟨if fix then max q (-(2 ^ (w - 1))) else q, if n then .neg else .pos, sc⟩

/-- pack_align of a group (R65); with a fixed scale, FIXE replaces E − (w − 2) (R154). -/
def packAlign (w : Nat) (fixed : Option Int) (xs : List FVal) : List Packed :=
  let sc := match fixed with
    | some f => f
    | none => (groupExp xs).getD 0 - ((w : Int) - 2)
  xs.map (alignElem w fixed.isSome sc)

/-- An integer element as packed: its exact value, code by sign, scale 0 (R64, R66). -/
def packInt : FVal → Packed
  | .num n m _ => if m = 0 then ⟨0, .zero, 0⟩ else if n then ⟨-(m : Int), .neg, 0⟩ else ⟨m, .pos, 0⟩
  | _ => ⟨0, .zero, 0⟩

/-- The pack instructions (R152, R155). -/
inductive PackFn where
  | x | y | xf | yf | k
deriving DecidableEq, Repr

/-- A pack's descriptor as read: the shape R × C with its stride, the destination and the options (R152, R155). -/
structure PackDesc where
  toY : Bool
  fmt : BitVec 10
  spad : Bool
  fix : Option Int
  soff : Nat
  stride : Nat
  rows : Nat
  cols : Nat
  dst : Nat
  rev : Bool
deriving DecidableEq, Repr

/-- A field of a descriptor. -/
def fld (d : BitVec 128) (lo n : Nat) : Nat := bits d.toNat lo n

/-- Reads a pack descriptor (R152, R155). Log entry 17 (DEDUCED). -/
def packDesc (f : PackFn) (d : BitVec 128) : PackDesc where
  toY := match f with
    | .x => false
    | .y => true
    | .xf => false
    | .yf => true
    | .k => decide (fld d 13 1 = 1)
  fmt := BitVec.ofNat 10 (fld d 0 10)
  spad := decide (fld d 10 1 = 1)
  fix := if fld d 11 1 = 1 then some (sextNat (fld d 88 9) 9) else none
  soff := fld d 16 16
  stride := if f = .k then 0 else fld d 32 16
  rows := if f = .k then 1 else fld d 48 7
  cols := if f = .k then fld d 32 7 else fld d 56 11
  dst := fld d 72 12
  rev := f == .k && decide (fld d 12 1 = 1)

/-- The first failing field of the tile descriptor, in rising bit order (R145 step 2, R152). With SQ = 0, ⌊4,096/s⌋ is undefined: a Y tile's C is then
not tested against it, and the configuration fault of step 3 remains. Log entry 17 (DEDUCED; DESIGN CHOICE for SQ = 0). -/
def tileFault (c : Core) (f : PackFn) (d : BitVec 128) : Option Nat :=
  let p := packDesc f d
  let rok := decide (1 ≤ p.rows) && decide (p.rows ≤ 64)
  let cok := decide (1 ≤ p.cols) && decide (p.cols ≤ 1024)
  let beyond := if p.toY then decide (63 < p.dst + p.rows - 1) else cok && decide (entryCount c ≤ p.dst + p.rows * p.cols - 1)
  let checks : List (Nat × Bool) :=
    [(0, formatBad p.fmt), (11, p.fix.isSome && (f == .x || f == .y)), (12, decide (fld d 12 4 ≠ 0)),
     (48, !rok || beyond), (55, decide (fld d 55 1 ≠ 0)),
     (56, !cok || (decide (formatBits (bits p.fmt.toNat 0 4) = 4) && decide (p.cols % 2 = 1))
       || (p.toY && decide (c.sq ≠ 0) && decide (rowDigits c < p.cols))),
     (67, decide (fld d 67 5 ≠ 0)), (84, decide (fld d 84 4 ≠ 0)), (97, decide (fld d 97 31 ≠ 0))]
  (checks.find? (fun k => k.2)).map Prod.fst

/-- The first failing field of a PACKK descriptor (R155); T is not tested for an X entry whose configuration gives no digits. For a Y row with SQ = 0,
⌊4,096/s⌋ is undefined: T is then tested against 127 alone. Log entry 17 (DEDUCED; DESIGN CHOICE for SQ = 0). -/
def groupFault (c : Core) (d : BitVec 128) : Option Nat :=
  let p := packDesc .k d
  let badCount (l : Nat) : Bool :=
    decide (p.cols = 0) || decide (l < p.cols) || (decide (formatBits (bits p.fmt.toNat 0 4) = 4) && decide (p.cols % 2 = 1))
  let untested := !p.toY && !(sqGood c && decide (1 ≤ entryDigits c))
  let checks : List (Nat × Bool) :=
    [(0, formatBad p.fmt), (11, p.fix.isSome && formatInt (bits p.fmt.toNat 0 4)), (14, decide (fld d 14 2 ≠ 0)),
     (32, !untested && badCount (if !p.toY then entryDigits c else if c.sq = 0 then 127 else min (rowDigits c) 127)),
     (39, decide (fld d 39 17 ≠ 0)), (56, decide (fld d 56 16 ≠ 0)),
     (72, if p.toY then decide (63 < p.dst) else decide (entryCount c ≤ p.dst)),
     (84, decide (fld d 84 4 ≠ 0)), (97, decide (fld d 97 31 ≠ 0))]
  (checks.find? (fun k => k.2)).map Prod.fst

/-- Whether a pack accepts a format code (R154, R155). -/
def packAccepts (f : PackFn) (code : Nat) : Bool :=
  let int := formatInt code
  let flt := decide (10 ≤ code) && decide (code ≤ 12)
  match f with
  | .x => int
  | .y => int
  | .xf => flt
  | .yf => flt
  | .k => int || flt

/-- The configuration check of a pack (R145 step 3, R26, R63, R154, R155): the tile packs are those of row-broadcast multiplication, so w_x must not
exceed W_X; PACKK is that of joined multiplication, so an X operand must have a digit. Log entry 17 (DEDUCED). -/
def packConfigGood (c : Core) (f : PackFn) : Bool :=
  guardGood c && match f with
    | .x => decide (c.jm ≠ 2) && decide (c.wx.toNat ≤ entryWidth c)
    | .xf => decide (c.jm ≠ 2) && decide (c.wx.toNat ≤ entryWidth c)
    | .y => decide (c.wx.toNat ≤ entryWidth c)
    | .yf => decide (c.wx.toNat ≤ entryWidth c)
    | .k => decide (1 ≤ entryDigits c)

/-- The source bytes of a pack: one range per row (R153). -/
def packRows (p : PackDesc) : List (Nat × Nat) :=
  let eb := formatBits (bits p.fmt.toNat 0 4)
  (List.range p.rows).map (fun r => (p.soff + r * p.stride, p.cols * eb / 8))

/-- Every source byte. -/
def packBytes (p : PackDesc) : List Nat := (packRows p).flatMap (fun r => (List.range r.2).map (fun k => r.1 + k))

/-- The size of a buffer: X 8 KiB, Y 32 KiB (R34). -/
def bufSize (toY : Bool) : Nat := if toY then 32768 else 8192

/-- The buffer of a pack's destination. -/
def bufOf (c : Core) (toY : Bool) : Mem := if toY then c.ybuf else c.xbuf

/-- The uncorrectable words of a buffer. -/
def bufBad (c : Core) (toY : Bool) : List Nat := if toY then c.yBad else c.xBad

/-- A source byte of a pack: of the residency's reservation, or of the destination's own buffer; 0 outside (R153). -/
def packByte (s : State) (r : ResIx) (p : PackDesc) (o : Nat) : Byte :=
  if p.spad then (if o < s.res[r].spsize.toNat then readByte s.core.spad (s.res[r].spbase.toNat + o) else 0)
  else if o < bufSize p.toY then readByte (bufOf s.core p.toY) o else 0

/-- The bits of source element (row, col) (R153). -/
def packElem (s : State) (r : ResIx) (p : PackDesc) (row col : Nat) : Nat :=
  let eb := formatBits (bits p.fmt.toNat 0 4)
  let o := p.soff + row * p.stride + col * eb / 8
  if eb = 4 then bits (packByte s r p o).toNat (4 * (col % 2)) 4
  else bytesLE ((List.range (eb / 8)).map (fun k => packByte s r p (o + k)))

/-- The packed elements of a tile, row by row (R154, R155). -/
def packValues (s : State) (r : ResIx) (f : PackFn) (p : PackDesc) (w : Nat) : List (List Packed) :=
  let fm := formatOf p.fmt
  let v (row col : Nat) : FVal := readElem fm (packElem s r p row col)
  if formatInt fm.fmt then (List.range p.rows).map (fun m => (List.range p.cols).map (fun k => packInt (v m k)))
  else if f = .yf then
    let cols := (List.range p.cols).map (fun j => packAlign w p.fix ((List.range p.rows).map (fun k => v k j)))
    (List.range p.rows).map (fun k => cols.map (fun c => c.getD k ⟨0, .zero, 0⟩))
  else (List.range p.rows).map (fun m => packAlign w p.fix ((List.range p.cols).map (fun k => v m k)))

/-- The exact sum Σ q_j × 2^(j·w) of a list of digits (R63). -/
def digitSum (w : Nat) : List Packed → Int
  | [] => 0
  | d :: ds => d.q + 2 ^ w * digitSum w ds

/-- Writes side data at n positions from p on: the code at the first, ZERO at the others, and one scale (R148, R154).
Log entry 44 (DEDUCED). -/
def putSide (t : Table Side) (p n : Nat) (code : Code) (scale : Int) : Table Side :=
  (List.range n).foldl (fun t k => Table.put Side.zero t (p + k) ⟨if k = 0 then code else .zero, scale⟩) t

/-- Side data of digits of q positions each, from position p on; beyond them ZERO and 0 up to n positions (R154, R155). -/
def putDigits (t : Table Side) (p q n : Nat) (ds : List Packed) : Table Side :=
  let t := (ds.zipIdx).foldl (fun t e => putSide t (p + e.2 * q) q e.1.code e.1.scale) t
  putSide t (p + ds.length * q) (n - ds.length * q) .zero 0

/-- Words of a buffer that a write of whole words replaces. Log entry 15 (DEDUCED). -/
def mendRange (bad : List Nat) (lo hi : Nat) : List Nat := bad.filter (fun w => !(decide (lo ≤ 8 * w) && decide (8 * w + 8 ≤ hi)))

/-- Stores the operand of X entry e with its side data. -/
def putEntry (e : Nat) (v : Int) (ds : List Packed) (q : Nat) (s : State) : State :=
  let w := entryWidth s.core
  { s with core := { s.core with
      xbuf := writeLE s.core.xbuf (e * w / 8) (w / 8) (wrap w v).toNat
      xBad := mendRange s.core.xBad (e * w / 8) (e * w / 8 + w / 8)
      xside := putDigits s.core.xside (e * w / 4) q (w / 4) ds } }

/-- Stores Y row r with its side data. -/
def putRow (r : Nat) (v : Int) (ds : List Packed) (q : Nat) (s : State) : State :=
  { s with core := { s.core with
      ybuf := writeLE s.core.ybuf (512 * r) 512 (wrap 4096 v).toNat
      yBad := mendRange s.core.yBad (512 * r) (512 * r + 512)
      yside := putDigits s.core.yside (1024 * r) q 1024 ds } }

/-- Pads a list of digits with zeros of a scale up to n. Log entry 44 (DEDUCED). -/
def padDigits (n : Nat) (scale : Int) (ds : List Packed) : List Packed := ds ++ List.replicate (n - ds.length) ⟨0, .zero, scale⟩

/-- The buffer bytes that a pack writes. -/
def packDstRange (c : Core) (f : PackFn) (p : PackDesc) : Nat × Nat :=
  if p.toY then (512 * p.dst, 512 * (p.dst + p.rows))
  else
    let n := if f = .k then 1 else p.rows * p.cols
    (p.dst * entryWidth c / 8, (p.dst + n) * entryWidth c / 8)

/-- Writes the destination of a pack (R154, R155). An uncorrectable word of the X buffer that the entries together replace whole becomes correctable.
Log entry 15 (DEDUCED). -/
def packStore (f : PackFn) (p : PackDesc) (v : List (List Packed)) (s : State) : State :=
  let sw := digitWidth s.core
  let q := s.core.sq.toNat
  match f with
  | .k =>
    let g := v.headD []
    let g := if p.rev then g.reverse else g
    let sc := match g with
      | [] => 0
      | d :: _ => d.scale
    if p.toY then
      let ds := padDigits (rowDigits s.core) sc g
      putRow p.dst (digitSum sw ds) ds q s
    else
      let ds := padDigits (entryDigits s.core) sc g
      putEntry p.dst (digitSum sw ds) ds q s
  | _ =>
    if p.toY then
      (v.zipIdx).foldl (fun s e =>
        let ds := padDigits (rowDigits s.core) 0 e.1
        putRow (p.dst + e.2) (digitSum sw ds) ds q s) s
    else
      let s1 := (v.flatten.zipIdx).foldl (fun s e => putEntry (p.dst + e.2) e.1.q [e.1] (entryWidth s.core / 4) s) s
      let dst := packDstRange s.core f p
      { s1 with core := { s1.core with xBad := mendRange s1.core.xBad dst.1 dst.2 } }

/-- Whether a window holds every value of an integer format (R64); floating formats have no such limit. -/
def windowGood (w code : Nat) : Bool :=
  !formatInt code || decide (formatBits code + (if formatSigned code then 0 else 1) ≤ w)

/-- The scratchpad checks of a pack's source (R145 step 5, R153). fence says whether a FENCE of the issuing stream holds; the stall it
asks for is a wait. -/
def packSource (r : ResIx) (p : PackDesc) (s : State) (k : State → Wide) : Wide :=
  if p.spad then
    let x := s.res[r]
    let offs : List Int := (packBytes p).map (fun (o : Nat) => (o : Int))
    let ins := inOffsets x.spsize.toNat offs
    match rlockInfo s.core.locks false s.coreInQuad.toNat x.spbase.toNat ins with
    | some info => .trap 0x15 info.toNat s
    | none =>
      match (if x.quadMapped then (granulesOf ins).find? (raceFails x.granules s.coreInQuad false) else none) with
      | some g =>
        let info := raceInfo x.granules false x.phase s.coreInQuad.toNat g ins
        .trap 0x14 info.toNat (s.setRes r { x with raceinfo := info })
      | none =>
        match badByte s.core.spadBad x.spbase.toNat ins with
        | some o => .trap 0x1D (0x10000 + o) s
        | none =>
          let gs := if x.quadMapped then (granulesOf ins).foldl (raceRecord s.coreInQuad false) x.granules else x.granules
          k (s.setRes r { x with granules := gs, spflag := spflagAfter x.spflag false false 0 (outOffsets x.spsize.toNat offs) })
  else
    match leastNat ((packBytes p).filter (fun o => decide (o < bufSize p.toY) && decide (o / 8 ∈ bufBad s.core p.toY))) with
    | some o => .trap 0x1D (0x200 + o / 8) s
    | none => k s

/-- PACKX, PACKY, PACKXF, PACKYF and PACKK with a descriptor (R145, R152 to R155). Log entry 12 (DEDUCED). -/
def packOp (r : ResIx) (f : PackFn) (d : BitVec 128) (s : State) : Wide :=
  multCheck r [] s <|
    let c := s.core
    let p := packDesc f d
    let code := bits p.fmt.toNat 0 4
    let w := if p.toY then c.wy.toNat else c.wx.toNat
    match (if f = .k then groupFault c d else tileFault c f d) with
    | some bit => .trap 0x0B (fieldFault bit) s
    | none =>
      if !packConfigGood c f then .trap 0x0A cfgFault s
      else if !packAccepts f code then .trap 0x0B p.fmt.toNat s
      else if !windowGood w code then .trap 0x0A cfgFault s
      else
        let sp : Space := if p.toY then .ybuf else .xbuf
        let dst := packDstRange c f p
        let held := bufferHeld c sp true dst.1 dst.2
          || (!p.spad && (packRows p).any (fun e => bufferHeld c sp false e.1 (e.1 + e.2)))
        if held then .wait
        else packSource r p s fun s => .ok (packStore f p (packValues s r f p w) s)

/-! ## Multiplication (R67 to R69, R156 to R163) -/

/-- Side data of an X position. -/
def xSide (c : Core) (p : Nat) : Side := Table.get Side.zero c.xside p

/-- Side data of a Y position. -/
def ySide (c : Core) (p : Nat) : Side := Table.get Side.zero c.yside p

/-- The value of an X entry, sign-extended (R156). -/
def entryValue (c : Core) (e : Nat) : Int := sextNat (readLE c.xbuf (e * entryWidth c / 8) (entryWidth c / 8)) (entryWidth c)

/-- The value of a Y row (R63). -/
def rowValue (c : Core) (r : Nat) : Int := sextNat (readLE c.ybuf (512 * r) 512) 4096

/-- Side data of the digits of a Y row (R147). -/
def rowSides (c : Core) (r : Nat) : List Side := (List.range (rowDigits c)).map (fun j => ySide c (1024 * r + j * c.sq.toNat))

/-- Side data of the digits of an X entry: one in row-broadcast, t in joined multiplication (R147). -/
def entrySides (c : Core) (joined : Bool) (e : Nat) : List Side :=
  if joined then (List.range (entryDigits c)).map (fun i => xSide c (e * entryWidth c / 4 + i * c.sq.toNat))
  else [xSide c (e * entryWidth c / 4)]

/-- The most digits that an accumulator can have: those of s = 4. -/
def maxDigits : Nat := 1088

/-- ⌊4,352/s⌋ (R70). -/
def accDigits (c : Core) : Nat := 4352 / digitWidth c

/-- A digit's side state. -/
def Acc.digit (a : Acc) (j : Nat) : DigitSide := Table.get DigitSide.zero a.side j

/-- An accumulator's side vector rebuilt digit by digit. Log entry 12 (DEDUCED). -/
def mapDigits (a : Acc) (f : Nat → DigitSide → DigitSide) : Table DigitSide :=
  ((List.range maxDigits).map (fun j => (j, f j (a.digit j)))).filter (fun e => decide (e.2 ≠ DigitSide.zero))

/-- Whether a code is an infinity. -/
def Code.isInf : Code → Bool
  | .pinf => true
  | .ninf => true
  | _ => false

/-- Whether a code's sign is negative (R68). -/
def Code.isNeg : Code → Bool
  | .neg => true
  | .ninf => true
  | _ => false

/-- The flags N, P and M that a product of two codes sets (R68). -/
def productFlags (x y : Code) : Bool × Bool × Bool :=
  if x = .nan ∨ y = .nan then (true, false, false)
  else if (x.isInf ∧ y = .zero) ∨ (x = .zero ∧ y.isInf) then (true, false, false)
  else if x.isInf ∨ y.isInf then (if x.isNeg = y.isNeg then (false, true, false) else (false, false, true))
  else (false, false, false)

/-- A digit with further flags. -/
def DigitSide.addFlags (d : DigitSide) (f : Bool × Bool × Bool) : DigitSide :=
  { d with n := d.n || f.1, p := d.p || f.2.1, m := d.m || f.2.2 }

/-- A code that can set a flag. -/
def Code.special : Code → Bool
  | .nan => true
  | .pinf => true
  | .ninf => true
  | _ => false

/-- The flags that an entry and a row give digit d of the accumulator: every product x_i × y_(d − i) (R68, R157). -/
def digitFlags (xs ys : List Side) (d : Nat) (e : DigitSide) : DigitSide :=
  (xs.zipIdx).foldl (fun e x =>
    if x.2 ≤ d then
      match ys[d - x.2]? with
      | some y => e.addFlags (productFlags x.1.code y.code)
      | none => e
    else e) e

/-- ⌈log2 c⌉ for c ≥ 1. -/
def ceilLog2 (c : Nat) : Nat := bitLen (c - 1)

/-- A count that saturates at 2^32 − 1. -/
def satCount (c : Nat) : Nat := min c (2 ^ 32 - 1)

/-- The first accumulator whose count check fails, with its TINFO (R69). -/
def countFault (c : Core) (inc : Nat) (ns : List Nat) : Option Nat :=
  (ns.find? (fun n =>
      decide (digitWidth c < c.wx.toNat + c.wy.toNat + ceilLog2 ((accOf c n).count.toNat + inc) + 1))).map
    (fun n => satCount ((accOf c n).count.toNat + inc) * 2 ^ 16 + n)

/-- The first poisoned accumulator of a list (R145 step 6). -/
def poisoned (c : Core) (ns : List Nat) : Option Nat := ns.find? (fun n => (accOf c n).poison)

/-- The exponents that one multiply gives the digits: D of them in row-broadcast, every digit in joined multiplication (R67). -/
def mulExps (c : Core) (joined : Bool) (e r : Nat) : List Int :=
  let x := (entrySides c joined e).headD Side.zero
  if joined then List.replicate (accDigits c) (x.scale + (ySide c (1024 * r)).scale)
  else (rowSides c r).map (fun y => x.scale + y.scale)

/-- Whether the digits of an operand all carry one scale exponent (R67). -/
def oneScale : List Side → Bool
  | [] => true
  | x :: xs => xs.all (fun y => decide (y.scale = x.scale))

/-- The lowest digit at which a list of exponents differs from a reference. -/
def expMismatch (ref now : List Int) : Option Nat := ((ref.zip now).zipIdx.find? (fun e => decide (e.1.1 ≠ e.1.2))).map Prod.snd

/-- The exponents that an accumulator's digits carry, as many as a multiply writes. Log entry 12 (DEDUCED). -/
def accExps (a : Acc) (n : Nat) : List Int := (List.range n).map (fun j => (a.digit j).exp)

/-- A multiply-accumulate into accumulator n, after its checks (R156, R157). -/
def accumulate (joined : Bool) (n e r : Nat) (s : State) : State :=
  let c := s.core
  let a := accOf c n
  let es := mulExps c joined e r
  let xs := entrySides c joined e
  let ys := rowSides c r
  let quiet := !(xs.any (fun x => x.code.special)) && !(ys.any (fun y => y.code.special))
  let side := mapDigits a (fun j d =>
    let d := { d with exp := es.getD j d.exp }
    if quiet then d else digitFlags xs ys j d)
  setAcc n { a with
    value := wrap 4352 (a.value.toInt + entryValue c e * rowValue c r)
    side := side
    count := BitVec.ofNat 32 (satCount (a.count.toNat + (if joined then entryDigits c else 1))) } s

/-- Whether an entry or a row holds an uncorrectable word (R163). -/
def operandBad (c : Core) (e r : Nat) : Bool :=
  c.xBad.any (fun w => decide (w = e * entryWidth c / 64) || decide (w = (e * entryWidth c + entryWidth c - 1) / 64))
    || c.yBad.any (fun w => decide (64 * r ≤ w) && decide (w < 64 * r + 64))

/-- An accumulator is poisoned and its count advances (R163). -/
def poisonAcc (n inc : Nat) (s : State) : State :=
  let a := accOf s.core n
  setAcc n { a with poison := true, count := BitVec.ofNat 32 (satCount (a.count.toNat + inc)) } s

/-- Slice work of a count joins the slew unit, for a residency (R162, R337). -/
def addWork (w : Nat) (slot : Option SlotIx) (r : Option ResIx) (s : State) : State :=
  { s with core := { s.core with slew := { s.core.slew with work := s.core.slew.work ++ [⟨w, slot, none, r⟩] } } }

/-- MULS and MULJ (R145, R156, R157, R163): selector x, accumulator n; FMTBAD for scales that differ within an operand names the
accumulator beside 0xFFFF (R67). Log entries 12 and 17 (DEDUCED). -/
def mulOp (r : ResIx) (joined : Bool) (n : Nat) (x : Word) (slot : Option SlotIx) (s : State) : Wide :=
  multCheck r [n] s <|
    let c := s.core
    let e := sel x 0 12
    let row := sel x 16 6
    if entryCount c ≤ e then .trap 0x0B (fieldFault 0) s
    else if !guardGood c then .trap 0x0A cfgFault s
    else if (if joined then decide (entryDigits c = 0) else decide (entryWidth c < c.wx.toNat)) then .trap 0x0A cfgFault s
    else if !joined && decide (c.jm = 2) then .trap 0x0A cfgFault s
    else if c.jm = 1 ∧ 32 ≤ n then .trap 0x0A (cfgFault + n) s
    else if bufferHeld c .xbuf false (e * entryWidth c / 8) ((e + 1) * entryWidth c / 8)
        || bufferHeld c .ybuf false (512 * row) (512 * row + 512) then .wait
    else if (accOf c n).poison then .trap 0x1D (0x100 + n) s
    else if joined ∧ !(oneScale (entrySides c true e) && oneScale (rowSides c row)) then .trap 0x0B (n * 2 ^ 16 + 0xFFFF) s
    else
      let es := mulExps c joined e row
      let inc := if joined then entryDigits c else 1
      match (if (accOf c n).count = 0 then none else expMismatch (accExps (accOf c n) es.length) es) with
      | some j => .trap 0x0B (n * 2 ^ 16 + j) s
      | none =>
        match countFault c inc [n] with
        | some info => .trap 0x0A info s
        | none => .ok (addWork 1 slot (some r) (if operandBad c e row then poisonAcc n inc s else accumulate joined n e row s))

/-- The accumulators of an MMAR, in order of m; R160 gives none under JM = 2. -/
def mmarAccs (jm : BitVec 2) (abase m : Nat) : List Nat :=
  if jm = 2 then [] else (List.range m).map (fun i => if jm = 1 then abase + i else 32 * (i % 2) + abase + i / 2)

/-- The first failing field of an MMAR descriptor (R160, R145 step 2); the limits of M and ABASE are those of JM 0 and 1. Log entry 17 (DEDUCED). -/
def mmarFault (c : Core) (d : BitVec 128) : Option Nat :=
  let m := fld d 24 7
  let k := fld d 32 7
  let ab := fld d 40 5
  let mok := decide (c.jm = 2) || (decide (1 ≤ m) && decide (m ≤ if c.jm = 1 then 32 else 64))
  let kok := decide (1 ≤ k) && decide (k ≤ 64)
  let top := if c.jm = 1 then ab + m - 1 else ab + (m + 1) / 2 - 1
  let checks : List (Nat × Bool) :=
    [(0, mok && kok && decide (entryCount c ≤ fld d 0 12 + m * k - 1)), (12, kok && decide (63 < fld d 12 6 + k - 1)),
     (18, decide (fld d 18 6 ≠ 0)), (24, !mok || (decide (c.jm ≠ 2) && decide (31 < top))), (31, decide (fld d 31 1 ≠ 0)), (32, !kok),
     (39, decide (fld d 39 1 ≠ 0)), (45, decide (fld d 45 83 ≠ 0))]
  (checks.find? (fun e => e.2)).map Prod.fst

/-- The lowest digit at which a later k-step of row m differs from the accumulator's exponents or the first step (R161).
Log entry 17 (DEDUCED). -/
def mmarMismatch (c : Core) (n x0 y0 k : Nat) : Option Nat :=
  let steps := (List.range k).map (fun i => mulExps c false (x0 + i) (y0 + i))
  let ref := if (accOf c n).count = 0 then steps.headD [] else accExps (accOf c n) (rowDigits c)
  leastNat (steps.filterMap (expMismatch ref))

/-- MMAR with a descriptor (R145, R160 to R163): an M or ABASE that names an accumulator outside the grant, or none there is, takes step 1's ILLOP
before step 2 looks at the field (log entry 17, DEDUCED); then every check for the whole sequence first, then the k-steps; an uncorrectable operand stops it
before its k-step and poisons every accumulator of the macro. Log entry 12 (DEDUCED). -/
def mmarOp (r : ResIx) (d : BitVec 128) (slot : Option SlotIx) (s : State) : Wide :=
  let c := s.core
  let m := fld d 24 7
  let k := fld d 32 7
  let x0 := fld d 0 12
  let y0 := fld d 12 6
  let ns := mmarAccs c.jm (fld d 40 5) m
  multCheck r ns s <|
    match mmarFault c d with
    | some bit => .trap 0x0B (fieldFault bit) s
    | none =>
      if !guardGood c || decide (c.jm = 2) || decide (entryWidth c < c.wx.toNat) then .trap 0x0A cfgFault s
      else if bufferHeld c .xbuf false (x0 * entryWidth c / 8) ((x0 + m * k) * entryWidth c / 8)
          || bufferHeld c .ybuf false (512 * y0) (512 * (y0 + k)) then .wait
      else
        match poisoned c ns with
        | some n => .trap 0x1D (0x100 + n) s
        | none =>
          match (ns.zipIdx).findSome? (fun e => (mmarMismatch c e.1 (x0 + e.2 * k) y0 k).map (fun j => e.1 * 2 ^ 16 + j)) with
          | some info => .trap 0x0B info s
          | none =>
            match countFault c k ns with
            | some info => .trap 0x0A info s
            | none =>
              let good := (List.range k).takeWhile (fun i =>
                !((List.range m).any (fun row => operandBad c (x0 + row * k + i) (y0 + i))))
              let s1 := good.foldl (fun s i => (ns.zipIdx).foldl (fun s e => accumulate false e.1 (x0 + e.2 * k + i) (y0 + i) s) s) s
              let s2 := if good.length < k then ns.foldl (fun s n => poisonAcc n (k - good.length) s) s1 else s1
              .ok (addWork (if c.jm = 0 then k * ((m + 1) / 2) else k * m) slot (some r) s2)

/-! ## Extraction and moves (R70, R71, R164 to R166) -/

/-- The first n digits of width w, borrows taken into account (R70). -/
def digitWalk (w : Nat) : Nat → Int → List Int
  | 0, _ => []
  | n + 1, rest =>
    let d := sextNat (rest % 2 ^ w).toNat w
    d :: digitWalk w n ((rest - d) / 2 ^ w)

/-- Digits j to j + n − 1 of an accumulator; 0 at and above ⌊4,352/s⌋ (R70, R164). -/
def digitsFrom (c : Core) (a : Acc) (j n : Nat) : List Int :=
  let ds := digitWalk (digitWidth c) (min (j + n) (accDigits c)) a.value.toInt
  (List.range n).map (fun i => ds.getD (j + i) 0)

/-- EXTRF of digit i with value d (R71); +0 beyond the digits. -/
def digitFp (c : Core) (a : Acc) (i : Nat) (d : Int) : Nat :=
  let e := a.digit i
  if accDigits c ≤ i then 0
  else if e.n ∨ (e.p ∧ e.m) then nan32
  else if e.p then 0x7F800000
  else if e.m then 0xFF800000
  else if d = 0 then 0
  else (roundIeee false 32 24 (-149) .rne (decide (d < 0)) d.natAbs e.exp).1

/-- n lanes of 32 bits from digit j on (R164). -/
def extractLanes (c : Core) (fp : Bool) (a : Acc) (j n : Nat) : List Nat :=
  ((digitsFrom c a j n).zipIdx).map (fun e =>
    if fp then digitFp c a (j + e.2) e.1 else (wrap 32 (saturate true 32 e.1)).toNat)

/-- The checks of EXTR and EXTRF, then k with the accumulator (R145, R164). -/
def extractCheck (r : ResIx) (n : Nat) (s : State) (k : Acc → Wide) : Wide :=
  multCheck r [n] s <|
    if !sqGood s.core then .trap 0x0A cfgFault s
    else if (accOf s.core n).poison then .trap 0x1D (0x100 + n) s
    else k (accOf s.core n)

/-- EXTR and EXTRF into an x register (R164). -/
def extractX (r : ResIx) (fp : Bool) (n : Nat) (x : Word) (d : Reg) (s : State) : Wide :=
  extractCheck r n s fun a =>
    let j := sel x 0 16
    let v := (digitsFrom s.core a j 1).headD 0
    .ok (writeX d (if fp then BitVec.ofNat 64 (digitFp s.core a j v) else wrap 64 (saturate true 64 v)) s)

/-- EXTR and EXTRF into a v register (R164). -/
def extractV (r : ResIx) (fp : Bool) (n : Nat) (x : Word) (d : Reg) (s : State) : Wide :=
  extractCheck r n s fun a =>
    .ok (writeV d (BitVec.ofNat 512 (packElems 32 (extractLanes s.core fp a (sel x 0 16) 16))) s)

/-- The value that ACCRD gives for index i (R165). -/
def accPiece (a : Acc) (i : Nat) : Word :=
  if i < 68 then BitVec.ofNat 64 (bits a.value.toNat (64 * i) 64)
  else if i = 68 then BitVec.ofNat 64 (a.count.toNat + a.poison.toNat * 2 ^ 32)
  else 0

/-- ACCRD's checks, then k with its value (R165). -/
def accReadOp (r : ResIx) (n : Nat) (x : Word) (s : State) (k : Word → Wide) : Wide :=
  multCheck r [n] s <|
    if (accOf s.core n).poison then .trap 0x1D (0x100 + n) s else k (accPiece (accOf s.core n) (sel x 0 7))

/-- ACCWR (R165). -/
def accWriteOp (r : ResIx) (n : Nat) (x v : Word) (s : State) : Wide :=
  multCheck r [n] s <|
    let a := accOf s.core n
    let i := sel x 0 7
    if i < 68 then .ok (setAcc n { a with value := setField a.value (64 * i) 64 v.toNat } s)
    else if i = 68 then .ok (setAcc n { a with count := v.setWidth 32 } s)
    else .ok s

/-- ACCMV (R166): with D = S nothing changes, and a poisoned source traps all the same. Where both numbers lie outside the grant, TINFO names D.
Log entry 17 (DESIGN CHOICE). -/
def accMoveOp (r : ResIx) (d n : Nat) (s : State) : Wide :=
  multCheck r [d, n] s <|
    if (accOf s.core n).poison then .trap 0x1D (0x100 + n) s else .ok (setAcc d (accOf s.core n) s)

/-! ## Meanings -/

/-- GUARD (R149). -/
def execGuard (b : Reg) (s : State) : Res := withX b s s fun x s1 => finishWide (.guard b) s (guardOp s1.ri x s1)

/-- JOIN (R149). -/
def execJoin (j : BitVec 1) (s : State) : Res := finishWide (.join j) s (joinOp s.ri j s)

/-- QJOIN (R150). -/
def execQjoin (s : State) : Res := finishWide .qjoin s (qjoinOp s.ri s)

/-- QLEAVE (R150). -/
def execQleave (s : State) : Res := finishWide .qleave s (qleaveOp s.ri s)

/-- ACCZ (R149). -/
def execAccz (n : AccNum) (k : BitVec 5) (s : State) : Res := finishWide (.accz n k) s (acczOp s.ri n.toNat k.toNat s)

/-- A pack of a stream: one with a scratchpad source waits for the stream's FENCE (R210). -/
def streamPack (i : Instr) (f : PackFn) (b : Reg) (s : State) : Res :=
  if (packDesc f (s.oxv b)).spad ∧ fenceHolds s then stall s else finishWide i s (packOp s.ri f (s.oxv b) s)

/-- PACKX (R152, R154). -/
def execPackx (b : Reg) (s : State) : Res := streamPack (.packx b) .x b s

/-- PACKY (R152, R154). -/
def execPacky (b : Reg) (s : State) : Res := streamPack (.packy b) .y b s

/-- PACKXF (R152, R154). -/
def execPackxf (b : Reg) (s : State) : Res := streamPack (.packxf b) .xf b s

/-- PACKYF (R152, R154). -/
def execPackyf (b : Reg) (s : State) : Res := streamPack (.packyf b) .yf b s

/-- PACKK (R155). -/
def execPackk (b : Reg) (s : State) : Res := streamPack (.packk b) .k b s

/-- MULS (R156). The multiplier instructions take their operands, from a queue if x names one, before the checks of R145. Log entry 49 (DEDUCED). -/
def execMuls (n : AccNum) (b : Reg) (s : State) : Res :=
  withX b s s fun x s1 => finishWide (.muls n b) s (mulOp s1.ri false n.toNat x (some s.cur) s1)

/-- MULJ (R157, R159). -/
def execMulj (n : AccNum) (b : Reg) (s : State) : Res :=
  withX b s s fun x s1 => finishWide (.mulj n b) s (mulOp s1.ri true n.toNat x (some s.cur) s1)

/-- MMAR (R160, R161). -/
def execMmar (b : Reg) (s : State) : Res := finishWide (.mmar b) s (mmarOp s.ri (s.oxv b) (some s.cur) s)

/-- An extract of a stream: the destination is an x register where x is 1, else a v register (R164). It waits for an operand and for room in its
destination queue before the checks of R145. Log entry 49 (DEDUCED). -/
def streamExtract (i : Instr) (fp : Bool) (d : Reg) (n : AccNum) (b : Reg) (x : BitVec 1) (s : State) : Res :=
  withX b s s fun v s1 =>
    if x = 1 then withRoomX d s s1 (finishWide i s (extractX s1.ri fp n.toNat v d s1))
    else withRoomV d s s1 (finishWide i s (extractV s1.ri fp n.toNat v d s1))

/-- EXTR (R164). -/
def execExtr (d : Reg) (n : AccNum) (b : Reg) (x : BitVec 1) (s : State) : Res := streamExtract (.extr d n b x) false d n b x s

/-- EXTRF (R164, R71). -/
def execExtrf (d : Reg) (n : AccNum) (b : Reg) (x : BitVec 1) (s : State) : Res := streamExtract (.extrf d n b x) true d n b x s

/-- ACCRD (R165). -/
def execAccrd (a : Reg) (n : AccNum) (b : Reg) (s : State) : Res :=
  withX b s s fun x s1 => withRoomX a s s1 (finishWide (.accrd a n b) s (accReadOp s1.ri n.toNat x s1 fun v => .ok (writeX a v s1)))

/-- ACCWR (R165): field a supplies the data and is popped last. -/
def execAccwr (a : Reg) (n : AccNum) (b : Reg) (s : State) : Res :=
  withX b s s fun x s1 => withX a s s1 fun v s2 => finishWide (.accwr a n b) s (accWriteOp s2.ri n.toNat x v s2)

/-- ACCMV (R166). -/
def execAccmv (d n : AccNum) (s : State) : Res := finishWide (.accmv d n) s (accMoveOp s.ri d.toNat n.toNat s)

end Sys2Proof.Machine
end

