-- ==== Sys2Proof/Machine/VaultInstr.lean ====
section
/-! DEFINITION. Tile, row and copy instructions as their streams issue them (R173 to R195). What the engines do with them is in
VaultSteps and CopySteps. -/

namespace Sys2Proof.Machine

/-! ## Tile descriptors (R176, R177, R184) -/

/-- VA of a tile descriptor (R176). -/
def tdVa (d : BitVec 128) : Nat := fld d 0 48
/-- LOFF. -/
def tdLoff (d : BitVec 128) : Nat := fld d 48 16
/-- RLEN, in beats. -/
def tdRlen (d : BitVec 128) : Nat := fld d 64 12
/-- NROW. -/
def tdNrow (d : BitVec 128) : Nat := fld d 80 7
/-- VSTR, in units of 16 bytes. -/
def tdVstr (d : BitVec 128) : Nat := fld d 88 16
/-- LSTR. -/
def tdLstr (d : BitVec 128) : Nat := fld d 104 16
/-- LSP. -/
def tdLsp (d : BitVec 128) : Nat := fld d 120 2

/-- The local space that LSP names. -/
def tdSpace (d : BitVec 128) : Space := if tdLsp d = 0 then .xbuf else if tdLsp d = 1 then .ybuf else .spad

/-- The bytes of a buffer: X 8,192 and Y 32,768 (R177). -/
def bufferSize (sp : Space) : Nat := match sp with
  | .xbuf => 8192
  | .ybuf => 32768
  | .spad => 0

/-- The failing checks of a tile descriptor by bit number (R177): multiplier says whether the residency is the core's multiplier
residency. -/
def tileChecks (k : EngKind) (multiplier : Bool) (d : BitVec 128) : List (Nat × Bool) :=
  let lsp := tdLsp d
  let loff := decide (tdLoff d % 16 ≠ 0)
  let rlen := decide (tdRlen d = 0) || decide (2048 < tdRlen d)
  let nrow := decide (tdNrow d = 0) || decide (64 < tdNrow d)
  let lstr := decide (tdLstr d % 16 ≠ 0)
  let past := decide (lsp < 2) && !loff && !rlen && !nrow && !lstr
    && decide (bufferSize (tdSpace d) < tdLoff d + (tdNrow d - 1) * tdLstr d + 16 * tdRlen d)
  let space := decide (lsp = 3) || (decide (lsp = 2) && decide (k = .tld)) || (decide (lsp < 2) && decide (k = .tlds))
    || (decide (lsp < 2) && !multiplier)
  [(0, decide (tdVa d % 16 ≠ 0)), (48, loff || past), (64, rlen), (76, decide (fld d 76 4 ≠ 0)), (80, nrow),
    (87, decide (fld d 87 1 ≠ 0)), (104, lstr), (120, space), (122, decide (fld d 122 6 ≠ 0))]

/-- DETAIL of the BADDESC that a tile descriptor gives, if it fails (R177). -/
def tileBadBit (k : EngKind) (multiplier : Bool) (d : BitVec 128) : Option Nat :=
  ((tileChecks k multiplier d).find? (fun c => c.2)).map Prod.fst

/-- The local bytes that a tile operation moves, row by row, as ranges of its space; none for a failing descriptor (R184, R121).
Log entry 13 (DEDUCED). -/
def tileRanges (r : Residency) (bad : Bool) (d : BitVec 128) : List (Nat × Nat) :=
  let row (i : Nat) : Nat × Nat :=
    let lo := tdLoff d + i * tdLstr d
    if tdSpace d = .spad then (r.spbase.toNat + min lo r.spsize.toNat, r.spbase.toNat + min (lo + 16 * tdRlen d) r.spsize.toNat)
    else (lo, lo + 16 * tdRlen d)
  if bad then [] else (List.range (tdNrow d)).map row

/-- The lowest scratchpad offset outside the reservation that a tile operation names (R28, R177). -/
def tileOutside (r : Residency) (d : BitVec 128) : List Int :=
  let size := r.spsize.toNat
  let row (i : Nat) : List Nat :=
    let a := tdLoff d + i * tdLstr d
    if size < a + 16 * tdRlen d then [max a size] else []
  match leastNat ((List.range (tdNrow d)).flatMap row) with
  | none => []
  | some o => [(o : Int)]

/-! ## Engine queue and lock table (R173, R184) -/

/-- The first free entry of the range-lock table. -/
def freeLock (ls : Vector (Option Lock) 8) : Option (Fin 8) := (List.finRange 8).find? (fun k => ls[k].isNone)

/-- The number of free entries of the range-lock table. -/
def freeLocks (ls : Vector (Option Lock) 8) : Nat := ((List.finRange 8).filter (fun k => ls[k].isNone)).length

/-- Registers a lock in the first free entry; nothing when there is none. Log entry 13 (DEDUCED). -/
def addLock (sp : Space) (ranges : List (Nat × Nat)) (wr : Bool) (owner : Option (ResIx × Nat)) (s : State) : State :=
  match freeLock s.core.locks with
  | none => s
  | some k => { s with core := { s.core with
      locks := vset s.core.locks k (some ⟨sp, ranges, wr, s.core.stamp, owner⟩) } }

/-- An entry of the engine queue for the current stream. -/
def newEngOp (k : EngKind) (s : State) (d : BitVec 128) (va len : Word) (tag : BitVec 32) (lock : Option (Fin 8)) : EngOp :=
  { kind := k, res := s.ri, slot := s.cur, desc := d, va := va, len := len, tag := tag, lock := lock, started := false, beats := 0,
    ended := none, faultWhy := 0, pages := [], owned := true, fenced := false, at_ := s.core.cycle }

/-- Appends an entry to the engine queue. -/
def pushEng (e : EngOp) (s : State) : State := { s with core := { s.core with engQ := s.core.engQ ++ [e] } }

/-- The number after a tag: 0xFFFF_FFFF is followed by 1 (R174). -/
def tagAfter (t : BitVec 32) : BitVec 32 := if t = BitVec.allOnes 32 then 1 else t + 1

/-- TLD, TLDS and TST (R173 to R177, R184): the wait for an entry of the queue and of the lock table, then the tag, the lock, the
classification of scratchpad bytes, and the queue. Log entry 18 (DEDUCED). -/
def issueTile (i : Instr) (k : EngKind) (a b : Reg) (s : State) : Res :=
  withRoomX a s s <|
    if fenceHolds s then stall s
    else if 16 ≤ s.core.engQ.length then stall s
    else match freeLock s.core.locks with
      | none => stall s
      | some l =>
        let d := s.oxv b
        let bad := (tileBadBit k (decide (s.rs.accs ≠ 0)) d).isSome
        let tag := s.rs.nextTag
        let s1 := s.bump
        let s2 := addLock (tdSpace d) (tileRanges s1.rs bad d) (decide (k ≠ .tst)) none s1
        let s3 := pushEng (newEngOp k s2 d 0 0 tag (some l)) s2
        let s4 := if bad = false ∧ tdSpace d = .spad then commitFlag (decide (k ≠ .tst)) false 0 (tileOutside s3.rs d) s3 else s3
        let s5 := s4.setRs { s4.rs with nextTag := tagAfter tag, lastTag := tag }
        finishX i a (BitVec.ofNat 64 tag.toNat) s5

/-- ACT and PRE (R187): an entry of the queue. -/
def issueRow (i : Instr) (k : EngKind) (b c : Reg) (s : State) : Res :=
  withX b s s fun x s1 => withX c s s1 fun y s2 =>
    if fenceHolds s then stall s
    else if 16 ≤ s2.core.engQ.length then stall s
    else retire i (pushEng (newEngOp k s2 0 x y 0 none) s2)

/-- TLD (R175). -/
def execTld (a b : Reg) (s : State) : Res := issueTile (.tld a b) .tld a b s
/-- TST (R175). -/
def execTst (a b : Reg) (s : State) : Res := issueTile (.tst a b) .tst a b s
/-- TLDS (R175). -/
def execTlds (a b : Reg) (s : State) : Res := issueTile (.tlds a b) .tlds a b s
/-- ACT (R187). -/
def execAct (b c : Reg) (s : State) : Res := issueRow (.act b c) .act b c s
/-- PRE (R187). -/
def execPre (b c : Reg) (s : State) : Res := issueRow (.pre b c) .pre b c s

/-! ## ROWQ, TWAIT, TCHK (R181, R182, R188) -/

/-- Whether a page lies whole in the core's own vault. -/
def pageIsLocal (s : State) (w : Word) : Bool := decide (pwGeo w ≤ 1) && decide (sel w 0 15 = s.ownVault)

/-- Whether a bank is refreshing or under repair, its row closed meanwhile (R188, R258, R261). -/
def Bank.away (x : Bank) : Bool := match x.busy with
  | .refreshing => true
  | .repairing _ => true
  | .refreshRepair _ => true
  | _ => false

/-- What ROWQ answers for an address (R188). -/
def rowStatus (s : State) (x : Word) : Word :=
  match bufFind s.vault.ctrlBuf s.rs.asid (pageOf x.toNat) with
  | none => 0
  | some e =>
    if pageIsLocal s e.word then
      let p := place e.word (x.toNat % 2 ^ 18)
      let bank := s.vault.banks[p.bankIx]
      BitVec.ofNat 64 (2 ^ 63 + (decide (bank.openRow = some p.row) && !bank.away).toNat * 2 ^ 62
        + bank.away.toNat * 2 ^ 61 + sel e.word 60 1 * 2 ^ 60
        + p.layer * 2 ^ 16 + p.bank * 2 ^ 12 + p.row)
    else 0

/-- ROWQ (R188). -/
def execRowq (a b : Reg) (s : State) : Res :=
  withX b s s fun x s1 => withRoomX a s s1 <| finishX (.rowq a b) a (rowStatus s1 x) s1

/-- A status word (R181). -/
def statusWord (bytes tag detail status : Nat) : Word :=
  BitVec.ofNat 64 (bytes % 2 ^ 32 * 2 ^ 32 + tag % 2 ^ 16 * 2 ^ 16 + detail % 2 ^ 8 * 2 ^ 8 + status % 2 ^ 8)

/-- Whether an entry of the queue is a tile operation. -/
def EngOp.isTile (e : EngOp) : Bool := match e.kind with
  | .tld => true
  | .tst => true
  | .tlds => true
  | .act => false
  | .pre => false

/-- What TWAIT and TCHK find for xt (R182): a status, or an operation that is still open. -/
def tileStatus (s : State) (t : BitVec 32) : Option Word :=
  if t = 0 then
    if s.core.engQ.any (fun e => e.isTile && e.owned && decide (e.slot = s.cur)) then none
    else some (s.st.tileBad.getD 0)
  else if s.rs.lastTag.toNat < t.toNat then some (statusWord 0 t.toNat 0 9)
  else if s.core.engQ.any (fun e => e.isTile && decide (e.res = s.ri) && decide (e.tag = t)) then none
  else match s.rs.statuses.find? (fun e => decide (e.1 = t)) with
    | some e => some e.2
    | none => some (statusWord 0 t.toNat 0 10)

/-- TWAIT (R182). -/
def execTwait (a b : Reg) (s : State) : Res :=
  withX b s s fun x s1 => withRoomX a s s1 <|
    match tileStatus s1 (x.setWidth 32) with
    | none => stall s
    | some w => finishX (.twait a b) a w s1

/-- TCHK (R182). -/
def execTchk (a b : Reg) (s : State) : Res :=
  withX b s s fun x s1 => withRoomX a s s1 <|
    finishX (.tchk a b) a ((tileStatus s1 (x.setWidth 32)).getD (statusWord 0 (x.setWidth 32).toNat 0 1)) s1

/-! ## Copy records (R189 to R192) -/

/-- The bits lo + n − 1 to lo of a copy record. -/
def crFld (rec : BitVec 512) (lo n : Nat) : Nat := bits rec.toNat lo n

/-- CMD. -/
def crCmd (rec : BitVec 512) : Nat := crFld rec 0 4
/-- LEN. -/
def crLen (rec : BitVec 512) : Nat := crFld rec 64 40
/-- SFMT. -/
def crSfmt (rec : BitVec 512) : BitVec 10 := BitVec.ofNat 10 (crFld rec 104 10)
/-- DFMT. -/
def crDfmt (rec : BitVec 512) : BitVec 10 := BitVec.ofNat 10 (crFld rec 114 10)
/-- SRC. -/
def crSrc (rec : BitVec 512) : Nat := crFld rec 128 48
/-- SSP. -/
def crSsp (rec : BitVec 512) : Nat := crFld rec 176 3
/-- DST. -/
def crDst (rec : BitVec 512) : Nat := crFld rec 192 48
/-- DSP. -/
def crDsp (rec : BitVec 512) : Nat := crFld rec 240 3
/-- ARG0. -/
def crArg0 (rec : BitVec 512) : Nat := crFld rec 256 64
/-- ARG1. -/
def crArg1 (rec : BitVec 512) : Nat := crFld rec 320 64

/-- Whether a command reads a source range: COPY and HOSTWR (R190). -/
def crUsesSrc (cmd : Nat) : Bool := decide (cmd = 0) || decide (cmd = 4)

/-- Whether a command writes a destination range: COPY, FILL and HOSTRD (R190). -/
def crUsesDst (cmd : Nat) : Bool := decide (cmd = 0) || decide (cmd = 2) || decide (cmd = 3)

/-- The local space that a space number names: 1 scratchpad, 2 X buffer, 3 Y buffer (R189). -/
def localSpace (n : Nat) : Option Space := match n with
  | 1 => some .spad
  | 2 => some .xbuf
  | 3 => some .ybuf
  | _ => none

/-- The local source of a record. -/
def crLocalSrc (rec : BitVec 512) : Option Space := if crUsesSrc (crCmd rec) then localSpace (crSsp rec) else none

/-- The local destination of a record. -/
def crLocalDst (rec : BitVec 512) : Option Space := if crUsesDst (crCmd rec) then localSpace (crDsp rec) else none

/-- Whether a COPY converts: both formats other than RAW, and not equal (R195). -/
def crConverts (rec : BitVec 512) : Bool :=
  decide (bits (crSfmt rec).toNat 0 4 ≠ 0) && decide (bits (crDfmt rec).toNat 0 4 ≠ 0) && !formatEq (crSfmt rec) (crDfmt rec)

/-- The bytes of the destination (R195). -/
def crDstLen (rec : BitVec 512) : Nat :=
  if crCmd rec = 0 ∧ crConverts rec = true then
    crLen rec * formatBits (bits (crDfmt rec).toNat 0 4) / formatBits (bits (crSfmt rec).toNat 0 4)
  else crLen rec

/-- The bytes of a range as a range of its space: physical for the scratchpad, clipped to the reservation or the buffer (R121).
Log entry 13 (DEDUCED). -/
def localRange (r : Residency) (sp : Space) (a n : Nat) : Nat × Nat :=
  match sp with
  | .spad => (r.spbase.toNat + min a r.spsize.toNat, r.spbase.toNat + min (a + n) r.spsize.toNat)
  | sp => (min a (bufferSize sp), min (a + n) (bufferSize sp))

/-- The field that CPY gives a scratchpad endpoint: BFMT of its first byte, or 0x00F where the banks it spans are not all equal (R46,
R191). Bytes out of range belong to no bank (R29). -/
def endpointFormat (s : State) (a n : Nat) : BitVec 10 :=
  let hi := min (a + n) s.rs.spsize.toNat
  if hi ≤ a then 0
  else
    let first := bankField s a
    let b0 := (s.rs.spbase.toNat + a) / 3072
    let b1 := (s.rs.spbase.toNat + hi - 1) / 3072
    let same := (List.range (b1 - b0 + 1)).all (fun i => formatEq first (s.core.bfmt[(b0 + i) % 16]'(Nat.mod_lt _ (by decide))))
    if same then first else 0x00F

/-- The lowest offset outside the reservation of a scratchpad range; an empty range has none (R28). -/
def rangeOutside (size a n : Nat) : List Int := if 0 < n ∧ size < a + n then [((max a size : Nat) : Int)] else []

/-- A format field of a record replaced. -/
def crSetFmt (rec : BitVec 512) (lo : Nat) (f : BitVec 10) : BitVec 512 := setField rec lo 10 f.toNat

/-- The record as CPY stores it (R191): LINK 0xFFFF, the RO fields 0, and for COPY the formats of its local endpoints. The bytes of a scratchpad
destination are counted with the format of its first byte. -/
def cpyRecord (s : State) (ox : BitVec 512) : BitVec 512 :=
  let rec0 := setField (setField (setField (setField ox 32 16 0xFFFF) 384 64 0) 448 32 0) 480 8 0
  if crCmd ox = 0 then
    let rec1 := match localSpace (crSsp ox) with
      | some .spad => crSetFmt rec0 104 (endpointFormat s (crSrc ox) (crLen ox))
      | some _ => crSetFmt rec0 104 0
      | none => rec0
    match localSpace (crDsp ox) with
    | some .spad =>
      let rec2 := crSetFmt rec1 114 (endpointFormat s (crDst ox) 1)
      crSetFmt rec2 114 (endpointFormat s (crDst ox) (crDstLen rec2))
    | some _ => crSetFmt rec1 114 0
    | none => rec1
  else rec0

/-- The offset of the residency's last record that is appended or handed over (R191). Log entry 36 (DEDUCED). -/
def lastRecord (r : Residency) : Option Nat :=
  match (r.handedOver ++ r.appended).getLast? with
  | none => none
  | some e => some e.1

/-- What CPY does once its record has passed the checks (R191). Of two local ranges with bytes out of range, SPFLAG records the source's, W = 0,
whatever the offsets: the source is read before the destination is written. Log entries 18 (DESIGN CHOICE) and 36 (DEDUCED). -/
def cpyEffect (at_ : Nat) (rec : BitVec 512) (s : State) : State :=
  let r := s.ri
  let s := spadWr s at_ 64 rec.toNat
  let s := mendSpad s (byteRange at_ 64)
  let s := s.bump
  let s := addLock .spad [localRange s.rs .spad at_ 64] false (some (r, at_)) s
  let s := match crLocalSrc rec with
    | some sp => addLock sp [localRange s.rs sp (crSrc rec) (crLen rec)] false (some (r, at_)) s
    | none => s
  let s := match crLocalDst rec with
    | some sp => addLock sp [localRange s.rs sp (crDst rec) (crDstLen rec)] true (some (r, at_)) s
    | none => s
  let s := if crLocalSrc rec = some .spad then commitFlag false false 0 (rangeOutside s.rs.spsize.toNat (crSrc rec) (crLen rec)) s else s
  let s := if crLocalDst rec = some .spad then commitFlag true false 0 (rangeOutside s.rs.spsize.toNat (crDst rec) (crDstLen rec)) s else s
  let s := match lastRecord s.rs with
    | none => s
    | some p =>
      let w := recWord s r p
      setRecWord s r p (w - bits w 32 16 * 2 ^ 32 + at_ * 2 ^ 32)
  s.setRs { s.rs with
    appended := s.rs.appended ++ [(at_, s.rs.nseq)], nseq := tagAfter s.rs.nseq, copyIssued := Table.put 0 s.rs.copyIssued at_ s.core.cycle }

/-- The 512 bits of ox3 to ox0 (R189). -/
def oxRecord (s : State) : BitVec 512 := s.st.ox[3] ++ s.st.ox[2] ++ s.st.ox[1] ++ s.st.ox[0]

/-- CPY (R191): the two refusals, then the checks of R122 and R124 on the record as a write. Log entry 18 (DEDUCED). -/
def execCpy (a : Reg) (s : State) : Res :=
  withRoomX a s s <|
    if fenceHolds s then stall s
    else
      let ox := oxRecord s
      let at_ := crFld ox 16 16
      let k := 1 + (crLocalSrc ox).isSome.toNat + (crLocalDst ox).isSome.toNat
      if at_ % 64 ≠ 0 ∨ s.rs.spsize.toNat ≤ at_ + 63 then finishX (.cpy a) a 0 s
      else if freeLocks s.core.locks < k + 2 then finishX (.cpy a) a 0 s
      else localAccess s false true (byteRange at_ 64) s fun s1 =>
        finishX (.cpy a) a (BitVec.ofNat 64 s1.rs.nseq.toNat) (cpyEffect at_ (cpyRecord s1 ox) s1)

/-- Hands a residency's appended records to the copy engine, for a stream slot that a FENCE may hold (R192, R210): bits 1 to 0 of an
owner are the slot, bit 2 a fence, and bit 3 marks the entry. -/
def handOver (r : ResIx) (slot : Option SlotIx) (s : State) : State :=
  let x := s.res[r]
  let own := match slot with
    | none => x.copyOwner
    | some k => x.appended.foldl (fun t e => Table.put 0 t e.1 (BitVec.ofNat 4 (8 + k.val))) x.copyOwner
  s.setRes r { x with handedOver := x.handedOver ++ x.appended, appended := [], copyOwner := own }

/-- CPYGO (R192). -/
def execCpygo (s : State) : Res :=
  if fenceHolds s then stall s else retire .cpygo (handOver s.ri (some s.cur) s)

/-- CPYQ (R192). -/
def execCpyq (a : Reg) (s : State) : Res :=
  withRoomX a s s <|
    finishX (.cpyq a) a (BitVec.ofNat 64 (s.rs.appended.length % 2 ^ 16 * 2 ^ 48 + s.rs.handedOver.length % 2 ^ 16 * 2 ^ 32
      + s.rs.lastCseq.toNat)) s

end Sys2Proof.Machine
end

