-- ==== Sys2Proof/Machine/VaultSteps.lean ====
section
/-! DEFINITION. The steps of the tile engine, the vault banks, the walker and the dirty logs (R178 to R187, R257 to R278). A step whose
condition does not hold leaves the state as it is (log entry 9). -/

namespace Sys2Proof.Machine

/-- A device step: the state it makes, or the same state where its condition does not hold. Log entry 9 (DESIGN CHOICE). -/
def orStay (t : Option State) (s : State) : Res := .next (t.getD s)

/-! ## Tile operations (R178 to R184) -/

/-- The address that beat n of a tile operation names (R176). -/
def beatVa (d : BitVec 128) (n : Nat) : Nat := tdVa d + 16 * (n / tdRlen d * tdVstr d + n % tdRlen d)

/-- The local offset of beat n (R176). -/
def beatLocal (d : BitVec 128) (n : Nat) : Nat := tdLoff d + n / tdRlen d * tdLstr d + 16 * (n % tdRlen d)

/-- The beats of a tile operation. -/
def tileBeats (d : BitVec 128) : Nat := tdNrow d * tdRlen d

/-- Replaces the head of the engine queue. -/
def setHead (e : EngOp) (s : State) : State := { s with core := { s.core with engQ := e :: s.core.engQ.tail } }

/-- A tile operation ends early with a status and DETAIL. -/
def endTile (e : EngOp) (status detail : Nat) (s : State) : State :=
  setHead { e with ended := some (BitVec.ofNat 8 status, BitVec.ofNat 8 detail), faultWhy := 0 } s

/-- Whether a lock has to wait for an earlier one: the same space, a byte in common, and one of the two a write (R184).
Log entry 13 (DEDUCED). -/
def lockBefore (x me : Lock) : Bool :=
  decide (x.stamp < me.stamp) && decide (x.space = me.space) && (x.wr || me.wr) && me.ranges.any (fun r => x.meets r.1 r.2)

/-- Whether an entry of the lock table waits for another (R184). -/
def lockWaits (ls : Vector (Option Lock) 8) (me : Lock) : Bool :=
  ls.toList.any (fun l => match l with
    | some x => lockBefore x me
    | none => false)

/-- Whether the lock of an operation waits. Log entry 13 (DEDUCED). -/
def opWaits (s : State) (e : EngOp) : Bool :=
  match e.lock with
  | none => false
  | some k => match s.core.locks[k] with
    | none => false
    | some l => lockWaits s.core.locks l

/-- TILE_OP_START (R177, R178, R180, R184): the head operation fails its descriptor, meets a closed router, waits for a range lock,
or starts. Log entry 18 (DEDUCED). -/
def tryTileOpStart (s : State) : Option State :=
  match s.core.engQ with
  | [] => none
  | e :: _ =>
    if !e.isTile || e.started then none
    else match tileBadBit e.kind (decide (s.res[e.res].accs ≠ 0)) e.desc with
      | some bit => some (endTile { e with started := true } 5 bit s)
      | none =>
        if !s.quadOn then some (endTile { e with started := true } 4 0 s)
        else if opWaits s e then none
        else some (setHead { e with started := true } s)

/-- TILE_OP_START. -/
def execTileOpStart (s : State) : Res := orStay (tryTileOpStart s) s

/-- What page_check decides (R179). -/
inductive PageCheck where
  | ok (w : Word)
  | wait
  | fault (why : Nat)
  | stop (status detail : Nat)
deriving DecidableEq, Repr

/-- page_check of a tile operation (R179), with the access table's check after translation (R370, R371). Log entries 18 and 34 (DEDUCED). -/
def pageCheck (e : EngOp) (vpn : Nat) (s : State) : PageCheck × State :=
  let asid := s.res[e.res].asid
  let tst := decide (e.kind = .tst)
  match translate asid vpn s with
  | (.bad why, s) => (if s.res[e.res].killed then .stop 7 4 else .fault why, s)
  | (.held _, s) => (.wait, s)
  | (.ok w, s) =>
    if !permits w (!tst) tst then (if s.res[e.res].killed then .stop 7 4 else .fault 2, s)
    else if sel w 60 1 = 1 then (.wait, s)
    else if 1 < pwGeo w then (.stop 2 (pwGeo w), s)
    else if sel w 0 15 ≠ s.ownVault then (.stop 2 (128 + pwGeo w), s)
    else if !accessAllows s s.ownVault asid (if tst then 29 else 30) s.address then (.stop 8 0, s)
    else if tst && epochStale s asid w then (.wait, s)
    else (.ok w, s)

/-- The 16 local bytes of a tile beat; none where one of their words is uncorrectable (R28, R178, R180). -/
def tileRead (s : State) (r : Residency) (sp : Space) (lo : Nat) : Option (List Byte) :=
  match sp with
  | .xbuf => if lo / 8 ∈ s.core.xBad ∨ lo / 8 + 1 ∈ s.core.xBad then none else some (readList s.core.xbuf lo 16)
  | .ybuf => if lo / 8 ∈ s.core.yBad ∨ lo / 8 + 1 ∈ s.core.yBad then none else some (readList s.core.ybuf lo 16)
  | .spad =>
    let at_ (i : Nat) : Nat := r.spbase.toNat + lo + i
    let inside (i : Nat) : Bool := decide (lo + i < r.spsize.toNat)
    if (List.range 16).any (fun i => inside i && decide (at_ i / 8 ∈ s.core.spadBad)) then none
    else some ((List.range 16).map (fun i => if inside i then readByte s.core.spad (at_ i) else 0))

/-- The side data that an engine write leaves at n positions from p on: POS and 0 at each (R148). Log entry 44 (DEDUCED). -/
def engineSide (t : Table Side) (p n : Nat) : Table Side :=
  (List.range n).foldl (fun t k => Table.put Side.zero t (p + k) ⟨.pos, 0⟩) t

/-- Stores bytes in a buffer: their positions take POS and 0, and whole words are correct again (R148). Log entry 44 (DEDUCED). -/
def bufferWrite (sp : Space) (lo : Nat) (bs : List Byte) (s : State) : State :=
  let n := bs.length
  match sp with
  | .xbuf => { s with core := { s.core with
      xbuf := writeList s.core.xbuf lo bs, xside := engineSide s.core.xside (2 * lo) (2 * n)
      xBad := mendRange s.core.xBad lo (lo + n) } }
  | .ybuf => { s with core := { s.core with
      ybuf := writeList s.core.ybuf lo bs, yside := engineSide s.core.yside (2 * lo) (2 * n)
      yBad := mendRange s.core.yBad lo (lo + n) } }
  | .spad => s

/-- Stores bytes at an offset of a residency's reservation as an engine does: no checks, and bytes out of range are dropped
(R28, R30). -/
def engineWrite (r : Residency) (lo : Nat) (bs : List Byte) (s : State) : State :=
  let inside := bs.take (r.spsize.toNat - lo)
  { s with core := { s.core with
      spad := writeList s.core.spad (r.spbase.toNat + lo) inside
      spadBad := mendRange s.core.spadBad (r.spbase.toNat + lo) (r.spbase.toNat + lo + inside.length) } }

/-- Stores bytes in a local space. Log entry 15 (DEDUCED). -/
def localWrite (r : Residency) (sp : Space) (lo : Nat) (bs : List Byte) (s : State) : State :=
  match sp with
  | .spad => engineWrite r lo bs s
  | sp => bufferWrite sp lo bs s

/-- Moves the next beat of the head operation, whose page has word w and whose row is open (R178, R180, R263). -/
def moveBeat (e : EngOp) (w : Word) (s : State) : Option State :=
  let va := beatVa e.desc e.beats
  let lo := beatLocal e.desc e.beats
  let p := place w (va % 2 ^ 18)
  let r := s.res[e.res]
  let done (s : State) : State := setHead { e with beats := e.beats + 1 } s
  if e.kind = .tst then
    match tileRead s r (tdSpace e.desc) lo with
    | none => some (endTile e 6 3 s)
    | some bs =>
      match storeColumn r.asid va p bs s with
      | none => none
      | some (0, s) => some (done (touchQuad r.asid s.ownQuad s))
      | some (d, s) => some (endTile e 6 d s)
  else
    match beatRead p.addr s with
    | (0, s) => some (done (localWrite r (tdSpace e.desc) lo (readList s.vault.mem p.addr 16) s))
    | (d, s) => some (endTile e 6 d s)

/-- The word of the page of the next beat, as the operation has checked it. Log entry 46 (DEDUCED). -/
def knownPage (s : State) (e : EngOp) (vpn : Nat) : Option Word :=
  match e.pages.find? (fun p => decide (p.1 = vpn)) with
  | none => none
  | some p => if e.kind = .tst ∧ epochStale s s.res[e.res].asid p.2 = true then none else some p.2

/-- The places of the columns of a tile operation's first row that lie in the page of its first beat (R176, R186). -/
def firstRow (d : BitVec 128) (w : Word) : List Place :=
  (List.range (tdRlen d)).filterMap (fun n => if pageOf (beatVa d n) = pageOf (tdVa d) then some (place w (beatVa d n % 2 ^ 18)) else none)

/-- The activation of the closed rows that the first row of a tile operation needs begins in every layer, the first row of each bank at whose queue no
other beat waits (R186, R257). -/
def openFirstRow (d : BitVec 128) (w : Word) (s : State) : State :=
  ((firstRow d w).foldl (fun (acc : List BankIx × State) p =>
    if p.bankIx ∈ acc.1 ∨ p.vault ≠ s.ownVault then acc
    else
      let waits := acc.2.vault.beats.any (fun b => decide (b.vault = p.vault) && decide (b.bank = p.bankIx) && decide (b.who ≠ .tile))
      (p.bankIx :: acc.1, if waits then acc.2 else setBank p.bankIx (askRow p.row acc.2.vault.banks[p.bankIx]) acc.2)) ([], s)).2

/-- VAULT_BEAT with the page's word: the beat moves, or it waits in its bank's queue (R257, R259, R277); the first opens the rows of its row of the tile
(R186). Log entry 46 (DEDUCED). -/
def beatOnPage (e : EngOp) (w : Word) (fresh : Bool) (s : State) : Option State :=
  let s := if fresh && decide (e.beats = 0) then openFirstRow e.desc w s else s
  match reachBeat .tile (place w (beatVa e.desc e.beats % 2 ^ 18)) s with
  | (true, s1) => match moveBeat e w s1 with
    | some s2 => some (leaveQueue .tile s2)
    | none => waited s (setHead e s1)
  | (false, s1) => if fresh then some (setHead e s1) else waited s s1

/-- VAULT_BEAT (R178 to R180, R257): the next beat of the head operation. Log entry 10 (DESIGN CHOICE). -/
def tryVaultBeat (s : State) : Option State :=
  match s.core.engQ with
  | [] => none
  | e :: _ =>
    if !e.isTile || !e.started || e.ended.isSome || decide (e.faultWhy ≠ 0) || decide (tileBeats e.desc ≤ e.beats) then none
    else
      let vpn := pageOf (beatVa e.desc e.beats)
      match knownPage s e vpn with
      | some w =>
        if !accessAllows s s.ownVault s.res[e.res].asid (if e.kind = .tst then 29 else 30) s.address then some (endTile e 8 0 (leaveQueue .tile s))
        else beatOnPage e w false s
      | none =>
        match pageCheck e vpn s with
        | (.wait, _) => none
        | (.fault why, s) => some (setHead { e with faultWhy := why } s)
        | (.stop st d, s) => some (endTile e st d s)
        | (.ok w, s) => beatOnPage { e with pages := (vpn, w) :: e.pages.filter (fun p => decide (p.1 ≠ vpn)) } w true s

/-- VAULT_BEAT. -/
def execVaultBeat (s : State) : Res := orStay (tryVaultBeat s) s

/-- Releases an entry of the lock table. -/
def dropLock (k : Option (Fin 8)) (s : State) : State :=
  match k with
  | none => s
  | some k => { s with core := { s.core with locks := vset s.core.locks k none } }

/-- A completed tile operation's status word is recorded: the core keeps the 64 most recent of the residency, and its stream the
first that is not DONE (R174, R182). -/
def recordStatus (e : EngOp) (w : Word) (s : State) : State :=
  let x := s.res[e.res]
  let kept := x.statuses ++ [(e.tag, w)]
  let s := s.setRes e.res { x with statuses := kept.drop (kept.length - 64), completed := x.completed + 1 }
  let t := s.streams[e.slot]
  if e.owned ∧ t.tileBad = none ∧ sel w 0 8 ≠ 0 then
    { s with streams := vset s.streams e.slot { t with tileBad := some w } }
  else s

/-- The head tile operation leaves the queue with a status (R181, R184). -/
def completeTile (e : EngOp) (status detail : Nat) (s : State) : State :=
  let s := dropLock e.lock { s with core := { s.core with engQ := s.core.engQ.tail } }
  recordStatus e (statusWord (16 * e.beats) e.tag.toNat detail status) s

/-- TILE_OP_COMPLETE (R181): the head operation has ended, or has moved its last beat. -/
def tryTileOpComplete (s : State) : Option State :=
  match s.core.engQ with
  | [] => none
  | e :: _ =>
    if !e.isTile || !e.started then none
    else match e.ended with
      | some (st, d) => some (completeTile e st.toNat d.toNat s)
      | none => if tileBeats e.desc ≤ e.beats then some (completeTile e 0 0 s) else none

/-- TILE_OP_COMPLETE. -/
def execTileOpComplete (s : State) : Res := orStay (tryTileOpComplete s) s

/-- DETAIL of a FAULT that the stack manager could not clear: 4 where the context has been killed meanwhile, else the reason found (R179). -/
def faultDetail (killed : Bool) (why : Nat) : Nat := if killed then 4 else why

/-- The stack manager's answer to a fault of a copy command in progress (R190). -/
def resumeCopy (mapped killed : Bool) (c : CopyRun) : CopyRun :=
  if mapped then { c with faultWhy := 0 }
  else { c with faultWhy := 0, ended := true, status := 7, detail := BitVec.ofNat 8 (faultDetail killed c.faultWhy) }

/-- Whether the context of an agent's request is a killed one of this core. -/
def killedSender (s : State) (m : Msg) : Bool :=
  decide (m.src = s.address) && s.res.toList.any (fun x => decide (x.state ≠ .free) && decide (x.asid = m.asid) && decide (x.gen = m.gen) && x.killed)

/-- Whether a chain's command in progress waits at a translation fault. -/
def copyFaulted (c : Option CopyRun) : Bool := match c with
  | some c => decide (c.faultWhy ≠ 0)
  | none => false

/-- PAGE_MAP_RESUME (R179, R190, R208): the stack manager answers a translation fault, mapping the page or not. The fault is the head tile
operation's, else the first of a copy command, else the first of an agent request. Log entry 46 (DEDUCED). -/
def tryPageMapResume (mapped : Bool) (s : State) : Option State :=
  let agents : Option State :=
    match s.net.agentQ.findIdx? (fun j => decide (j.faultWhy ≠ 0)) with
    | none => none
    | some k => some { s with net := { s.net with agentQ := s.net.agentQ.modify k (fun j =>
        if mapped then { j with faultWhy := 0 }
        else { j with faultWhy := 0, status := 7, detail := BitVec.ofNat 8 (faultDetail (killedSender s j.m) j.faultWhy) }) } }
  let rest : Option State :=
    match (List.finRange 4).find? (fun r => copyFaulted s.quad.copyRun[r]) with
    | none => agents
    | some r => some { s with quad := { s.quad with copyRun := vset s.quad.copyRun r ((s.quad.copyRun[r]).map (resumeCopy mapped s.res[r].killed)) } }
  match s.core.engQ with
  | [] => rest
  | e :: _ =>
    if e.faultWhy = 0 then rest
    else if mapped then some (setHead { e with faultWhy := 0 } s)
    else some (endTile e 7 (faultDetail s.res[e.res].killed e.faultWhy) s)

/-! ## ACT and PRE at the head (R187, R259) -/

/-- Row commands for the columns from byte lo to byte hi − 1 of a page, in rising order. -/
def rowCommands (open_ : Bool) (w : Word) (lo hi : Nat) (s : State) : State :=
  let first := lo / 16
  (List.range ((hi + 15) / 16 - first)).foldl (fun s i =>
    let p := place w (16 * (first + i))
    let x := s.vault.banks[p.bankIx]
    setBank p.bankIx (if open_ then askRow p.row x else askClose p.row x) s) s

/-- The word of a page that an ACT or PRE of a residency acts on, none for a page that is not local or faults; ACT walks on a miss (R187). The outer
none is a walk that waits (R257, R334). -/
def rowPage (open_ : Bool) (asid : Asid) (vpn : Nat) (s : State) : Option (Option Word × State) :=
  let use (w : Word) : Option Word := if sel w 60 1 = 0 ∧ pageIsLocal s w = true then some w else none
  match bufFind s.vault.ctrlBuf asid vpn with
  | some e => some (use e.word, s)
  | none =>
    if open_ then
      match translate asid vpn s with
      | (.ok w, s) => some (use w, s)
      | (.bad _, s) => some (none, s)
      | (.held _, _) => none
    else match bufFind s.vault.stackBuf asid vpn with
      | some e => some (use e.word, s)
      | none => some (none, s)

/-- The row commands of n pages from page vpn on, for the bytes lo to hi − 1 (R187); none while a walk waits. -/
def rowPages (open_ : Bool) (asid : Asid) (lo hi : Nat) : Nat → Nat → State → Option State
  | 0, _, s => some s
  | n + 1, vpn, s =>
    match rowPage open_ asid vpn s with
    | none => none
    | some (none, s) => rowPages open_ asid lo hi n (vpn + 1) s
    | some (some w, s) =>
      rowPages open_ asid lo hi n (vpn + 1)
        (rowCommands open_ w (max lo (vpn * 2 ^ 18) - vpn * 2 ^ 18) (min hi ((vpn + 1) * 2 ^ 18) - vpn * 2 ^ 18) s)

/-- The row commands of an ACT or PRE for the bytes lo to hi − 1 of an address space; none while a walk for it waits (R187, R334). -/
def rowRange (open_ : Bool) (asid : Asid) (lo hi : Nat) (s : State) : Option State :=
  rowPages open_ asid lo hi (pageOf (hi - 1) - pageOf lo + 1) (pageOf lo) s

/-- An ACT that has left the queue and whose walk waited issues its row commands (R173, R187). -/
def tryPendingAct (s : State) : Option State :=
  match s.core.acts with
  | [] => none
  | a :: rest => (rowRange true a.1 a.2.1 a.2.2 s).map (fun t => { t with core := { t.core with acts := rest } })

/-- An ACT or PRE at the head issues its row commands and leaves the queue; an ACT leaves it also while a walk for it waits, and issues them after that
(R173, R187, R334). -/
def tryRowHead (k : EngKind) (s : State) : Option State :=
  match s.core.engQ with
  | [] => none
  | e :: rest =>
    if e.kind ≠ k then none
    else
      let s := { s with core := { s.core with engQ := rest } }
      let lo := e.va.toNat
      let hi := min (e.va.toNat + e.len.toNat) (2 ^ 48)
      if hi ≤ lo then some s
      else match (if s.core.acts.isEmpty || decide (k ≠ .act) then rowRange (decide (k = .act)) s.res[e.res].asid lo hi s else none) with
        | some s => some s
        | none => some { s with core := { s.core with acts := s.core.acts ++ [(s.res[e.res].asid, lo, hi)] } }

/-- ACT_AT_HEAD (R187): an ACT whose walk waited goes before the head. -/
def execActAtHead (s : State) : Res := orStay ((tryPendingAct s).orElse (fun _ => tryRowHead .act s)) s

/-- PRE_AT_HEAD (R187). -/
def execPreAtHead (s : State) : Res := orStay (tryRowHead .pre s) s

/-! ## Banks (R258 to R262) -/

/-- ACTIVATION_END (R259): the row is open. -/
def tryActivationEnd (b : BankIx) (s : State) : Option State :=
  let x := s.vault.banks[b]
  match x.busy with
  | .activating r => some (setBank b (kickBank (x.activated r)) s)
  | _ => none

/-- ACTIVATION_END. -/
def execActivationEnd (b : BankIx) (s : State) : Res := orStay (tryActivationEnd b s) s

/-- PRECHARGE_END (R259): the bank is closed. -/
def tryPrechargeEnd (b : BankIx) (s : State) : Option State :=
  let x := s.vault.banks[b]
  if x.busy = .precharging then some (setBank b (kickBank x.precharged) s) else none

/-- PRECHARGE_END. -/
def execPrechargeEnd (b : BankIx) (s : State) : Res := orStay (tryPrechargeEnd b s) s

/-- Whether a refresh of a bank falls due in the cycles after one up to another (R260): every 10,530 cycles, or 5,265 while its layer is hot. -/
def refreshFalls (hot : Bool) (b : BankIx) (before now : Nat) : Bool :=
  let n := if hot then 5265 else 10530
  let c := (if hot then 329 else 658) * b.val % n
  decide ((before + n - c) / n ≠ (now + n - c) / n)

/-- Whether the own vault refreshes itself, its schedule suspended: from the fall of its quad's domain to the end of its wake (R255, R333, R336). -/
def selfRefresh (s : State) : Bool :=
  let q := (qpwr s (physQuad s s.ownQuad)).state
  decide (q = .gated) || decide (q = .waking)

/-- The banks of the own vault in which a refresh has fallen due by a cycle (R255, R260). -/
def dueRefreshes (before now : Nat) (s : State) : Vector Bank 16 :=
  if !selfRefresh s then Vector.ofFn (fun (b : Fin 16) =>
    let x := s.vault.banks[b]
    if refreshFalls s.vault.hot[b.val / 2] b before now then { x with refreshDue := true } else x)
  else s.vault.banks

/-- REFRESH (R260): one that has fallen due begins when the bank has no activation or precharge in progress; a repair does not put it off. -/
def tryRefresh (b : BankIx) (s : State) : Option State :=
  let x := s.vault.banks[b]
  if x.refreshDue then
    match x.busy with
    | .idle => some (setBank b (kickBank x) s)
    | .repairing row => some (setBank b { x with busy := .refreshRepair row, refreshDue := false } s)
    | _ => none
  else none

/-- REFRESH. -/
def execRefresh (b : BankIx) (s : State) : Res := orStay (tryRefresh b s) s

/-- REFRESH_END (R258): the row that was open is open again; a repair under way goes on. -/
def tryRefreshEnd (b : BankIx) (s : State) : Option State :=
  let x := s.vault.banks[b]
  match x.busy with
  | .refreshing => some (setBank b (kickBank { x with busy := .idle }) s)
  | .refreshRepair row => some (setBank b { x with busy := .repairing row } s)
  | _ => none

/-- REFRESH_END. -/
def execRefreshEnd (b : BankIx) (s : State) : Res := orStay (tryRefreshEnd b s) s

/-- A bank at the end of a repair: the row has moved to a spare and starts a new count (R261). -/
def Bank.repaired (row : Nat) (x : Bank) : Bank := { x with spares := x.spares + 1, corrections := Table.put 0 x.corrections row 0 }

/-- ROW_REPAIR (R261): the repair of a row ends, and the row that was open is open again, unless a refresh is under way; a bank without a spare is
reported. -/
def tryRowRepair (b : BankIx) (row : BitVec 10) (s : State) : Option State :=
  let x := s.vault.banks[b]
  if x.busy = .repairing row.toNat then
    some (setBank b (kickBank (x.repaired row.toNat |> fun y => { y with busy := .idle })) s)
  else if x.busy = .refreshRepair row.toNat then some (setBank b { x.repaired row.toNat with busy := .refreshing } s)
  else if 4 ≤ Table.get 0 x.corrections row.toNat ∧ 16 ≤ x.spares ∧ x.full = false then some (setBank b { x with full := true } s)
  else none

/-- ROW_REPAIR. -/
def execRowRepair (b : BankIx) (row : BitVec 10) (s : State) : Res := orStay (tryRowRepair b row s) s

/-- The state that a sample leaves a layer in: hot above 85 °C until 80, throttled above 105 °C until 100 (R262).
Log entry 40 (DESIGN CHOICE). -/
def sampleLayer (limit clear : Nat) (old : Bool) (temp : Option Nat) : Bool :=
  match temp with
  | none => old
  | some t => if limit < t then true else if t ≤ clear then false else old

/-- TEMP_SAMPLE (R262, R180) with the temperatures of the layers in °C, rounded up: a TLD or TLDS that is transferring when a layer
enters throttle ends with THERMAL and the lowest such layer. Log entry 40 (DESIGN CHOICE). -/
def execTempSample (temps : List Nat) (s : State) : Res :=
  let hot := Vector.ofFn (fun (i : Fin 8) => sampleLayer 85 80 s.vault.hot[i] temps[i.val]?)
  let thr := Vector.ofFn (fun (i : Fin 8) => sampleLayer 105 100 s.vault.throttled[i] temps[i.val]?)
  let entered := (List.finRange 8).find? (fun i => thr[i] && !s.vault.throttled[i])
  let s' := { s with vault := { s.vault with hot := hot, throttled := thr } }
  match entered, s'.core.engQ with
  | some layer, e :: _ =>
    if (e.kind = .tld ∨ e.kind = .tlds) ∧ e.started = true ∧ e.ended = none ∧ e.beats < tileBeats e.desc then
      .next (endTile e 3 layer.val s')
    else .next s'
  | _, _ => .next s'

/-! ## Walks, table entries, dirty logs and harvests (R270 to R278) -/

/-- TRANSLATION_WALK (R270, R272): a page that both buffers miss is walked, and the result fills both. -/
def tryTranslationWalk (asid : Asid) (vpn : Vpn) (s : State) : Option State :=
  if (bufFind s.vault.ctrlBuf asid vpn.toNat).isSome then none else some (translate asid vpn.toNat s).2

/-- TRANSLATION_WALK. -/
def execTranslationWalk (asid : Asid) (vpn : Vpn) (s : State) : Res := orStay (tryTranslationWalk asid vpn s) s

/-- The pages whose entry at a level is the one of a page leave both buffers (R274). -/
def invalidateLevel (level : Fin 3) (asid : Asid) (vpn : Nat) (s : State) : State :=
  let n := 2 ^ (10 * (2 - level.val))
  let keep (b : List TlbEntry) := b.filter (fun e => !(decide (e.asid = asid) && decide (e.vpn.toNat / n = vpn / n)))
  { s with vault := { s.vault with
      ctrlBuf := keep s.vault.ctrlBuf, stackBuf := keep s.vault.stackBuf
      marks := s.vault.marks.filter (fun e => !(decide (e.2.1 = asid) && decide (e.2.2.1.toNat / n = vpn / n))) } }

/-- The bits of a placement word that name where its page lies (R265). -/
def placement (w : Word) : Nat := sel w 0 53

/-- The whole page that a word places is written with zeros (R254, R414). -/
def zeroPage (w : Word) (s : State) : State :=
  { s with vault := { s.vault with
      mem := s.vault.mem.filter (fun c => !inPage w c.1)
      bad := s.vault.bad.filter (fun x => !inPage w (8 * x))
      flipped := s.vault.flipped.filter (fun x => !inPage w (8 * x)) } }

/-- Whether a word is a leaf entry that maps a page (R272). -/
def mapsPage (w : Word) : Bool := decide (sel w 63 1 = 1) && decide (sel w 23 1 = 0) && !malformed w

/-- Whether a new leaf word maps a page at rows that the old one did not place there: the page is filled first (R414). -/
def mapsAnew (old new : Word) : Bool := mapsPage new && (decide (sel old 63 1 = 0) || decide (placement old ≠ placement new))

/-- The leaf entries under a word with their places in its tables: of the word itself at level 2, else of its table's entries (R272). -/
def leavesUnder (s : State) : Nat → Word → List (Nat × Word)
  | 0, w => if mapsPage w then [(0, w)] else []
  | k + 1, w =>
    if sel w 63 1 = 0 ∨ sel w 23 1 = 0 ∨ malformed w = true ∨ 1 < pwGeo w then []
    else (List.range 1024).flatMap (fun i => match entryWord w i s with
      | none => []
      | some e => (leavesUnder s k e).map (fun x => (i * 2 ^ (10 * k) + x.1, x.2)))

/-- The pages that become mapped when a word of a table takes the place of another: leaf words that the old one did not hold at the same page. -/
def newLeaves (s : State) (k : Nat) (old new : Word) : List Word :=
  let before := leavesUnder s k old
  ((leavesUnder s k new).filter (fun x => !before.any (fun y => decide (y.1 = x.1) && !mapsAnew y.2 x.2))).map Prod.snd

/-- Whether the stack manager has prepared the rows of a word for the mapping (R269, R414). -/
def prepared (s : State) (w : Word) : Bool := s.vault.filled.any (fun x => decide (placement x = placement w))

/-- Pages are filled before they are first mapped: with zeros, but for those whose rows the stack manager has prepared for the mapping (R269, R414).
Log entry 46 (DEDUCED). -/
def fillPages (ws : List Word) (s : State) : State :=
  let s1 := (ws.filter (fun w => !prepared s w)).foldl (fun s w => zeroPage w s) s
  { s1 with vault := { s1.vault with filled := s1.vault.filled.filter (fun x => !ws.any (fun w => decide (placement x = placement w))) } }

/-- Whether the rows of a word that are to be filled with zeros lie behind a closed port. -/
def fillHeld (s : State) (w : Word) : Bool :=
  !prepared s w && (List.range (2 ^ sel w 44 3)).any (fun i => vaultGated s (pwVault w i))

/-- Whether a page under a word of a table, k levels above the leaves, still has to be copied for a snapshot (R392). -/
def copyOwed (s : State) (asid : Asid) (k : Nat) (old : Word) : Bool :=
  s.resil.snapshots.any (fun (x : Snapshot) => decide (x.asid = asid) && x.cut)
    && (leavesUnder s k old).any (fun x => epochStale s asid x.2)

/-- TABLE_ENTRY_CHANGE (R274): mirror, primary, invalidation. Pages that a snapshot still has to copy are copied first (R392), and those that are
mapped anew are filled first (R414). Log entries 34 and 46 (DEDUCED). -/
def tryTableEntryChange (level : Fin 3) (asid : Asid) (vpn : Vpn) (word : Word) (s : State) : Option State :=
  match levelEntry level.val asid vpn.toNat s with
  | none => none
  | some (p, m) =>
    let old := BitVec.ofNat 64 (readLE s.vault.mem p.addr 8)
    let fills := newLeaves s (2 - level.val) old word
    if copyOwed s asid (2 - level.val) old || copyHeld s p || copyHeld s m || fills.any (fillHeld s) then none
    else
      some (invalidateLevel level asid vpn.toNat (putCopy p word (putCopy m word (fillPages fills s))))

/-- TABLE_ENTRY_CHANGE. -/
def execTableEntryChange (level : Fin 3) (asid : Asid) (vpn : Vpn) (word : Word) (s : State) : Res :=
  orStay (tryTableEntryChange level asid vpn word s) s

/-- A word with DIRTY bit 61 + parity set (R277). -/
def withDirty (parity : Bool) (w : Word) : Word := setField w (61 + parity.toNat) 1 1

/-- The entries of a quad's dirty log. -/
def logOf (s : State) (quad : BitVec 13) : List (BitVec 13 × Asid × Vpn × Bool) := s.quad.dirtyLog.filter (fun e => decide (e.1 = quad))

/-- Whether the leaf entry of a page stands in a table that can be read no more, so that its DIRTY bit cannot be set (R273). -/
def leafPoisoned (asid : Asid) (vpn : Nat) (s : State) : Bool := decide ((walk asid vpn s).1 = .bad 3)

/-- The first entry of a quad's log is merged into both copies of its leaf entry and is free; one whose page has no entry any more is free, too, and one
whose table is uncorrectable stays behind the others (R277). Log entry 34 (DEDUCED). -/
def mergeEntry (e : BitVec 13 × Asid × Vpn × Bool) (s : State) : State :=
  let s := { s with quad := { s.quad with dirtyLog := s.quad.dirtyLog.erase e } }
  if leafPoisoned e.2.1 e.2.2.1.toNat s then { s with quad := { s.quad with dirtyLog := s.quad.dirtyLog ++ [e] } }
  else changeLeaf e.2.1 e.2.2.1.toNat (withDirty e.2.2.2) s

/-- The entries of a quad's log are merged in order (R277). -/
def mergeLog (quad : BitVec 13) (s : State) : State := (logOf s quad).foldl (fun s e => mergeEntry e s) s

/-- Whether the merge of a quad's log can be carried out: no entry waits for a table or a copy (R257, R334), and one at least can be freed. -/
def canMerge (quad : BitVec 13) (s : State) : Bool :=
  (logOf s quad).all (fun e => (leafHeld e.2.1 e.2.2.1.toNat s).isNone)
    && ((logOf s quad).isEmpty || (logOf s quad).any (fun e => !leafPoisoned e.2.1 e.2.2.1.toNat s))

/-- DIRTY_LOG_MERGE (R277): a quad's log is merged when it holds 128 entries; the merge waits for a table behind a closed port (R334). -/
def tryMerge (quad : BitVec 13) (s : State) : Option State :=
  if 128 ≤ (logOf s quad).length ∧ canMerge quad s = true then some (mergeLog quad s) else none

/-- DIRTY_LOG_MERGE. -/
def execDirtyLogMerge (quad : BitVec 13) (s : State) : Res := orStay (tryMerge quad s) s

/-- The valid entries of a table with their indices. -/
def tableEntries (s : State) (w : Word) : List (Nat × Word) :=
  (List.range 1024).filterMap (fun i => match entryWord w i s with
    | none => none
    | some e => if sel e 63 1 = 1 then some (i, e) else none)

/-- The pages that the tables of an address space map (R272). -/
def mappedPages (s : State) (asid : Asid) : List Nat :=
  let w := rootOf s asid
  if sel w 63 1 = 0 ∨ sel w 23 1 = 0 then []
  else (tableEntries s w).flatMap (fun a =>
    if sel a.2 23 1 = 0 then [] else (tableEntries s a.2).flatMap (fun b =>
      if sel b.2 23 1 = 0 then [] else (tableEntries s b.2).map (fun c => a.1 * 2 ^ 20 + b.1 * 2 ^ 10 + c.1)))

/-- HARVEST (R278): the harvest number advances and marks of the new parity become unlogged; every quad merges its log; the DIRTY bit of
the interval before is read and cleared in every page of the address space; none while a table that it needs is held (R334). -/
def tryHarvest (asid : Asid) (s : State) : Option State :=
  let quads := (s.quad.dirtyLog.map Prod.fst).dedup
  let pages := mappedPages s asid
  if !quads.all (fun q => canMerge q s) || pages.any (fun vpn => (leafHeld asid vpn s).isSome) then none
  else
    let h := s.vault.harvest + 1
    let odd := decide (h % 2 = 1)
    let clear (b : List TlbEntry) := b.map (fun e => if e.mark = some odd then { e with mark := none } else e)
    let s := { s with vault := { s.vault with
      harvest := h, ctrlBuf := clear s.vault.ctrlBuf, stackBuf := clear s.vault.stackBuf, marks := s.vault.marks.filter (fun e => decide (e.2.2.2 ≠ odd)) } }
    let s := quads.foldl (fun s q => mergeLog q s) s
    let bit := 61 + (h - 1) % 2
    let dirty := pages.filter (fun vpn => decide (sel (leafWord s asid vpn) bit 1 = 1))
    let s := dirty.foldl (fun s vpn => changeLeaf asid vpn (fun w => setField w bit 1 0) s) s
    some { s with vault := { s.vault with harvested := dirty.map (fun vpn => (asid, BitVec.ofNat 30 vpn)) } }

/-- HARVEST (R278). -/
def execHarvest (asid : Asid) (s : State) : Res := orStay (tryHarvest asid s) s

end Sys2Proof.Machine
end

