-- ==== Sys2Proof/Machine/CopySteps.lean ====
section
/-! DEFINITION. The copy engine of the quad (R189 to R195, R242, R279, R368): commands of a residency's chain, one at a time. -/

namespace Sys2Proof.Machine

/-! ## The command at the head of a chain (R190, R193) -/

/-- The 64-byte record at an offset of a residency's reservation. -/
def readRecord (s : State) (r : ResIx) (off : Nat) : BitVec 512 :=
  BitVec.ofNat 512 (readLE s.core.spad (s.res[r].spbase.toNat + off) 64)

/-- The record at the head of a residency's chain, with its offset. -/
def chainHead (s : State) (r : ResIx) : Option (Nat × BitVec 512) :=
  match s.res[r].handedOver with
  | [] => none
  | e :: _ => some (e.1, readRecord s r e.1)

/-- Whether a residency has copy commands handed over, or one whose completion is not done (R193). -/
def chainBusy (s : State) (r : ResIx) : Bool := !s.res[r].handedOver.isEmpty || s.quad.copyRun[r].isSome

/-- A command that has just started. -/
def CopyRun.fresh (off : Nat) : CopyRun := ⟨off, false, 0, 0, 0, 0, [], none, 0, 0, 0, false, false, none⟩

/-- Whether a lock of a record waits for an earlier entry of the lock table (R184, R193). Log entry 13 (DEDUCED). -/
def recordWaits (s : State) (r : ResIx) (off : Nat) : Bool :=
  s.core.locks.toList.any (fun l => match l with
    | some x => decide (x.owner = some (r, off)) && lockWaits s.core.locks x
    | none => false)

/-- Whether a space may not be named by a residency: reserved, or a buffer outside the multiplier residency (R189). -/
def badSpace (multiplier : Bool) (sp : Nat) : Bool := decide (3 < sp) || (decide (2 ≤ sp) && !multiplier)

/-- Whether a range passes the end of the buffer that its space names (R190). -/
def pastBuffer (sp a n : Nat) : Bool := match localSpace sp with
  | some .xbuf => decide (bufferSize .xbuf < a + n)
  | some .ybuf => decide (bufferSize .ybuf < a + n)
  | _ => false

/-- A format field that an engine cannot use: B8 with P = 0, or a code from 13 to 15 (R46, R195). -/
def badEngineFormat (f : BitVec 10) : Bool :=
  let c := bits f.toNat 0 4
  decide (13 ≤ c) || (decide (c = 12) && decide (bits f.toNat 4 3 = 0))

/-- Whether LEN of a COPY does not count whole elements of the source format, or, converting, gives no whole number of destination bytes
(R43, R195). Log entry 35 (DEDUCED). -/
def badCopyLen (rec : BitVec 512) : Bool :=
  let sb := formatBits (bits (crSfmt rec).toNat 0 4)
  let db := formatBits (bits (crDfmt rec).toNat 0 4)
  (decide (sb ≠ 0) && decide (crLen rec * 8 % sb ≠ 0)) || (crConverts rec && decide (crLen rec * db % sb ≠ 0))

/-- The failing fields of a record by bit number (R190, R195). -/
def copyChecks (multiplier : Bool) (rec : BitVec 512) : List (Nat × Bool) :=
  let cmd := crCmd rec
  let len := crLen rec
  let nz (lo n : Nat) : Bool := decide (crFld rec lo n ≠ 0)
  let badFormats := badEngineFormat (crSfmt rec) || badEngineFormat (crDfmt rec)
  let src := if crUsesSrc cmd then pastBuffer (crSsp rec) (crSrc rec) len
    else if cmd = 1 then decide (crSrc rec % 2 ^ 18 ≠ 0) else nz 128 48
  let dst := if crUsesDst cmd then pastBuffer (crDsp rec) (crDst rec) (if badFormats then 0 else crDstLen rec) else nz 192 48
  let lenBad := match cmd with
    | 0 => decide (len = 0) || (!badFormats && badCopyLen rec)
    | 1 => decide (len % 2 ^ 18 ≠ 0) || decide (len = 0)
    | 5 => decide (len ≠ 0)
    | _ => false
  let arg0 := BitVec.ofNat 64 (crArg0 rec)
  [(0, decide (5 < cmd)), (5, nz 5 11), (64, lenBad),
    (104, if cmd = 0 then badEngineFormat (crSfmt rec) else nz 104 10),
    (114, if cmd = 0 then badEngineFormat (crDfmt rec) else nz 114 10),
    (124, nz 124 4), (128, src),
    (176, if crUsesSrc cmd then badSpace multiplier (crSsp rec) else nz 176 3),
    (179, nz 179 13), (192, dst),
    (240, if crUsesDst cmd then badSpace multiplier (crDsp rec) else nz 240 3),
    (243, nz 243 13),
    (256, if cmd = 1 then malformed arg0 || decide (sel arg0 63 1 = 0) else if cmd = 0 ∨ cmd = 5 then nz 256 64 else false),
    (320, if cmd = 1 then false else nz 320 64),
    (488, nz 488 24)]

/-- DETAIL of the BADDESC of a record, if it fails. Log entry 35 (DEDUCED). -/
def copyBadBit (multiplier : Bool) (rec : BitVec 512) : Option Nat :=
  ((copyChecks multiplier rec).find? (fun c => c.2)).map Prod.fst

/-- Sets the command in progress of a chain. -/
def setRun (r : ResIx) (c : CopyRun) (s : State) : State :=
  { s with quad := { s.quad with copyRun := vset s.quad.copyRun r (some c) } }

/-- A command ends with a status (R181). -/
def CopyRun.finish (c : CopyRun) (status detail : Nat) : CopyRun :=
  { c with ended := true, faultWhy := 0, status := BitVec.ofNat 8 status, detail := BitVec.ofNat 8 detail }

/-- The command at the head of a chain, if its CMD is cmd and it can go on: in progress, or able to start (R193). Log entry 36 (DEDUCED). -/
def runnable (r : ResIx) (cmd : Nat → Bool) (s : State) : Option (BitVec 512 × CopyRun) :=
  match chainHead s r with
  | none => none
  | some (off, rec) =>
    if !cmd (crCmd rec) then none
    else match s.quad.copyRun[r] with
      | some c => if c.ended ∨ c.faultWhy ≠ 0 then none else some (rec, c)
      | none => if recordWaits s r off then none else some (rec, CopyRun.fresh off)

/-- The rights that the access table of the engine's quad grants to a command's residency (R370). -/
def engineRight (s : State) (asid : Asid) (right : Nat) : Bool :=
  accessAllows s s.ownVault asid right s.address

/-! ## Endpoints (R190, R233) -/

/-- The chunk size of a re-stripe: that of the coarser of the two words (R279). -/
def moveChunk (old new : Word) : Nat := max (pwChunk old) (pwChunk new)

/-- The leaf word after the switch: the new word, with MIG and FWD clear and EPOCH, DIRTY and the permissions of the old (R279). -/
def switchedWord (new old : Word) : Word :=
  let w := setField (setField new 60 1 0) 59 1 0
  setField (setField (setField w 61 2 (sel old 61 2)) 55 4 (sel old 55 4)) 53 2 (sel old 53 2)

/-- The re-stripe of a page that is under way, with its new word (R242). -/
def restripeOf (s : State) (asid : Asid) (vpn : Nat) : Option (CopyRun × Word) :=
  (List.finRange 4).findSome? (fun r =>
    match s.quad.copyRun[r], chainHead s r with
    | some c, some (_, rec) => if c.moving ∧ crCmd rec = 1 ∧ s.res[r].asid = asid ∧ c.page = vpn then some (c, BitVec.ofNat 64 (crArg0 rec)) else none
    | _, _ => none)

/-- The word under which a byte of a page with word w lies: in a page under re-striping, the new one for what has moved already (R242).
Log entry 36 (DEDUCED). -/
def holderWord (s : State) (asid : Asid) (vpn : Nat) (w : Word) (o : Nat) : Word :=
  match restripeOf s asid vpn with
  | some (c, new) => if o < c.chunk * moveChunk w new + 16 * c.col then switchedWord new w else w
  | none => w

/-- Where byte o of a page with word w lies for the agents (R242). -/
def requestPlace (s : State) (asid : Asid) (vpn : Nat) (w : Word) (o : Nat) : Place := place (holderWord s asid vpn w o) o

/-- Whether n bytes of a page with word w from offset o lie in a chunk that is being moved, or only in part in what has moved: a request for them is on
its way to the new agent, which performs it once they have all moved (R242). Log entry 36 (DEDUCED). -/
def inMove (s : State) (asid : Asid) (vpn : Nat) (w : Word) (o n : Nat) : Bool :=
  match restripeOf s asid vpn with
  | some (c, new) =>
    let lo := c.chunk * moveChunk w new
    let hi := if c.col = 0 then lo else lo + moveChunk w new
    (decide (lo < o + n) && decide (o < hi)) || (decide (o < lo) && decide (lo < o + n))
  | none => false

/-- What an endpoint answers: bytes read (or written), an end with a status, a translation fault, or a wait. -/
inductive Xfer where
  | ok (bs : List Byte) (s : State)
  | stop (status detail : Nat) (s : State)
  | fault (why : Nat) (s : State)
  | wait (s : State)
deriving DecidableEq, Repr

/-- The place in vault memory of a virtual address for the copy engine, which reaches it when its beat may move (R190, R257, R268, R334, R371). A page
under re-striping stops it until the switch (R179). A beat that has passed its quad's port goes on (R333). -/
def reachVault (r : ResIx) (va : Nat) (write : Bool) (s : State) (k : Word → Place → State → Xfer) : Xfer :=
  let x := s.res[r]
  let vpn := pageOf va
  match translateStack x.asid vpn s with
  | (.bad why, s) => if x.killed then .stop 7 4 s else .fault why s
  | (.held _, _) => .wait s
  | (.ok w, s) =>
    if !permits w (!write) write then (if x.killed then .stop 7 4 s else .fault 2 s)
    else if sel w 60 1 = 1 then .wait (leaveQueue (.copy r) s)
    else
      let p := requestPlace s x.asid vpn w (va % 2 ^ 18)
      if vaultGated s p.vault && !queued (.copy r) p s then .stop 4 0 s
      else if !accessAllows s p.vault x.asid (if write then 29 else 30) s.address then .stop 8 0 s
      else if write && epochStale s x.asid w then .wait s
      else match reachBeat (.copy r) p s with
        | (true, s) => k w p s
        | (false, s) => .wait s

/-- Reads n bytes of a column of the vaults, or of a local space, at an address (n bytes lie in one column). -/
def readEnd (r : ResIx) (sp a n : Nat) (s : State) : Xfer :=
  match localSpace sp with
  | none => reachVault r a false s fun _ p s =>
      match beatRead p.addr (leaveQueue (.copy r) s) with
      | (0, s) => .ok (readList s.vault.mem p.addr n) s
      | (d, s) => .stop 6 d s
  | some .xbuf => if (List.range n).any (fun i => decide ((a + i) / 8 ∈ s.core.xBad)) then .stop 6 3 s else .ok (readList s.core.xbuf a n) s
  | some .ybuf => if (List.range n).any (fun i => decide ((a + i) / 8 ∈ s.core.yBad)) then .stop 6 3 s else .ok (readList s.core.ybuf a n) s
  | some .spad =>
    let x := s.res[r]
    let inside (i : Nat) : Bool := decide (a + i < x.spsize.toNat)
    if (List.range n).any (fun i => inside i && decide ((x.spbase.toNat + a + i) / 8 ∈ s.core.spadBad)) then .stop 6 3 s
    else .ok ((List.range n).map (fun i => if inside i then readByte s.core.spad (x.spbase.toNat + a + i) else 0)) s

/-- Writes bytes that lie in one column of the vaults, or in a local space. -/
def writeEnd (r : ResIx) (sp a : Nat) (bs : List Byte) (s : State) : Xfer :=
  match localSpace sp with
  | none => reachVault r a true s fun _ p s =>
      match storeColumn s.res[r].asid a p bs s with
      | none => .wait s
      | some (0, s) => .ok bs (touchQuad s.res[r].asid s.ownQuad (leaveQueue (.copy r) s))
      | some (d, s) => .stop 6 d (leaveQueue (.copy r) s)
  | some l => .ok bs (localWrite s.res[r] l a bs s)

/-- Bytes from an address to the end of its column, for an endpoint in the vaults; 16 for a local space. -/
def columnLeft (sp a : Nat) : Nat := if (localSpace sp).isNone then 16 - a % 16 else 16

/-! ## COPY, FILL, HOSTRD, HOSTWR, DRAIN (R190, R195, R233, R368) -/

/-- The group of elements of a record that one piece moves: source bytes and destination bytes (R43, R195). -/
def copyGroup (rec : BitVec 512) (done : Nat) : Nat × Nat :=
  if crConverts rec then
    let sb := formatBits (bits (crSfmt rec).toNat 0 4)
    let db := formatBits (bits (crDfmt rec).toNat 0 4)
    let g := if sb = 4 ∨ db = 4 then 2 else 1
    (sb * g / 8, db * g / 8)
  else
    let n := min (crLen rec - done) (min (columnLeft (crSsp rec) (crSrc rec + done)) (columnLeft (crDsp rec) (crDst rec + done)))
    (n, n)

/-- The elements of a group converted, low first (R50 to R53, R195). -/
def convertGroup (rec : BitVec 512) (bs : List Byte) : List Byte :=
  let sb := formatBits (bits (crSfmt rec).toNat 0 4)
  let db := formatBits (bits (crDfmt rec).toNat 0 4)
  let n := bs.length * 8 / sb
  let v := bytesLE bs
  let one (i : Nat) : Nat := (convertElem (formatOf (crSfmt rec)) (formatOf (crDfmt rec)) .rne (bits v (sb * i) sb)).1
  leBytes (n * db / 8) (packElems db ((List.range n).map one))

/-- What an endpoint's answer makes of a command: the bytes moved go on, and the rest ends it, stops it or leaves it waiting. -/
def Xfer.settle (c : CopyRun) (x : Xfer) (go : List Byte → State → CopyRun × State) : CopyRun × State :=
  match x with
  | .ok bs s => go bs s
  | .stop st d s => (c.finish st d, s)
  | .fault why s => ({ c with faultWhy := why }, s)
  | .wait s => (c, s)

/-- What a step of a command does. -/
abbrev CopyUnit := ResIx → BitVec 512 → CopyRun → State → CopyRun × State

/-- Writes the next unit of the bytes that a command still has to write (R233): DONE counts them, or the source bytes of a converted group once it is
written whole (R195). -/
def writeDue (bs : List Byte) : CopyUnit := fun r rec c s =>
  let (sn, dn) := copyGroup rec c.done
  let conv := decide (crCmd rec = 0) && crConverts rec
  let at_ := crDst rec + (if conv then c.done * formatBits (bits (crDfmt rec).toNat 0 4) / formatBits (bits (crSfmt rec).toNat 0 4) + (dn - bs.length)
    else c.done)
  let k := min bs.length (columnLeft (crDsp rec) at_)
  (writeEnd r (crDsp rec) at_ (bs.take k) s).settle c fun _ s =>
    let rest := bs.drop k
    if rest.isEmpty then ({ c with done := c.done + (if conv then sn else k), got := [], out := none }, s)
    else ({ c with done := if conv then c.done else c.done + k, out := some rest }, s)

/-- A unit of a COPY is read, or written once its group stands (R195, R233). -/
def copyUnit : CopyUnit := fun r rec c s =>
  match c.out with
  | some bs => writeDue bs r rec c s
  | none =>
    let n := (copyGroup rec c.done).1
    let a := crSrc rec + c.done + c.got.length
    (readEnd r (crSsp rec) a (min (n - c.got.length) (columnLeft (crSsp rec) a)) s).settle c fun bs s =>
      let got := c.got ++ bs
      if got.length < n then ({ c with got := got }, s)
      else ({ c with got := [], out := some (if crConverts rec then convertGroup rec got else got) }, s)

/-- A unit of a FILL: byte i is byte i mod 8 of ARG0 (R190). -/
def fillUnit : CopyUnit := fun r rec c s =>
  let n := min (crLen rec - c.done) (columnLeft (crDsp rec) (crDst rec + c.done))
  writeDue ((List.range n).map (fun i => BitVec.ofNat 8 (bits (crArg0 rec) (8 * ((c.done + i) % 8)) 8))) r rec c s

/-- A unit of a HOSTRD, of the bytes that the host returned (R368). -/
def hostrdUnit (bytes : List Byte) : CopyUnit := fun r rec c s =>
  let due := c.out.getD (bytes.take (crLen rec))
  writeDue due r rec { c with out := some due } s

/-- A unit of a HOSTWR: posted writes on the host link, in order (R368). -/
def hostwrUnit : CopyUnit := fun r rec c s =>
  let a := crSrc rec + c.done
  (readEnd r (crSsp rec) a (min (crLen rec - c.done) (columnLeft (crSsp rec) a)) s).settle c fun bs s =>
    let cells := bs.zipIdx.map (fun e => (BitVec.ofNat 64 (crArg0 rec + c.done + e.2), e.1))
    ({ c with done := c.done + bs.length }, { s with host := { s.host with written := s.host.written ++ cells } })

/-- A command whose last byte has been moved ends DONE (R193). -/
def CopyRun.endAt (len : Nat) (c : CopyRun) : CopyRun := if len ≤ c.done ∧ c.ended = false then c.finish 0 0 else c

/-- A step of a command that moves bytes: at its start its descriptor checks and a test of its own (which gives DENIED), then one unit
(R233). -/
def tryMove (r : ResIx) (cmd : Nat) (allowed : BitVec 512 → State → Bool) (f : CopyUnit) (s : State) : Option State :=
  match runnable r (fun c => decide (c = cmd)) s with
  | none => none
  | some (rec, c) =>
    let first := s.quad.copyRun[r].isNone
    match if first then copyBadBit (decide (s.res[r].accs ≠ 0)) rec else none with
    | some bit => some (setRun r (c.finish 5 bit) s)
    | none =>
      if first && !allowed rec s then some (setRun r (c.finish 8 0) s)
      else if crLen rec ≤ c.done then some (setRun r (c.finish 0 0) s)
      else
        let (c', s') := f r rec c s
        let c' := c'.endAt (crLen rec)
        if s.quad.copyRun[r] = some c' then waited s s' else some (setRun r c' s')

/-- Whether a valid DMA window of the residency's address space, with the right bit set, holds the host range of a record (R368). -/
def windowHolds (s : State) (r : ResIx) (bit : Nat) (rec : BitVec 512) (w : DmaWindow) : Bool :=
  decide (sel w.entry 63 1 = 1) && decide (sel w.entry bit 1 = 1) && decide (sel w.entry 48 12 = s.res[r].asid.toNat)
    && decide (w.base.toNat ≤ crArg0 rec) && decide (crArg0 rec + crLen rec ≤ w.base.toNat + w.length.toNat)

/-- Whether some DMA window holds the host range of a record, and the quad's table grants HD (R368, R370). -/
def hostAllowed (r : ResIx) (bit : Nat) (rec : BitVec 512) (s : State) : Bool :=
  engineRight s s.res[r].asid 25 && s.host.dma.toList.any (windowHolds s r bit rec)

/-- HOSTRD (R368): the host returns LEN bytes, which are then written unit by unit. -/
def tryHostrd (r : ResIx) (bytes : List Byte) (s : State) : Option State :=
  match runnable r (fun c => decide (c = 3)) s with
  | none => none
  | some (rec, c) =>
    let fails := c.out.isSome || (copyBadBit (decide (s.res[r].accs ≠ 0)) rec).isSome || !hostAllowed r 62 rec s
    if !fails && decide (bytes.length < crLen rec) then none
    else tryMove r 3 (hostAllowed r 62) (hostrdUnit bytes) s

/-- BAD_COPY_COMMAND (R190). -/
def tryBadCopyCommand (r : ResIx) (s : State) : Option State :=
  match runnable r (fun c => decide (5 < c)) s with
  | none => none
  | some (_, c) => some (setRun r (c.finish 5 0) s)

/-- Releases the locks of a record (R193). -/
def dropRecordLocks (r : ResIx) (off : Nat) (s : State) : State :=
  { s with core := { s.core with locks := dropCopyLocks r [off] s.core.locks } }

/-- COPY_COMPLETION (R193, R233): DONE is written, then CSEQ and CSTAT in one write, with which the command leaves its chain and its locks are released,
then the record is decremented: each a step of its own. Log entry 10 (DESIGN CHOICE). -/
def tryCopyCompletion (r : ResIx) (s : State) : Option State :=
  match s.quad.copyRun[r] with
  | none => none
  | some c =>
    let next (c : Option CopyRun) (s : State) : State := { s with quad := { s.quad with copyRun := vset s.quad.copyRun r c } }
    match c.decr, s.res[r].handedOver with
    | some a, _ => some (decRecord r a 1 (next none s))
    | none, [] => none
    | none, (off, seq) :: rest =>
      if c.ended = false ∨ c.off ≠ off then none
      else if c.wrote = false then some (next (some { c with wrote := true }) (setRecWord s r (off + 48) c.done))
      else
        let cr := readRecord s r off
        let s := dropRecordLocks r off (setRecWord s r (off + 56) (c.status.toNat * 2 ^ 32 + seq.toNat))
        let s := s.setRes r { s.res[r] with
          handedOver := rest, lastCseq := seq, copyOwner := Table.put 0 s.res[r].copyOwner off 0
          copyIssued := Table.put 0 s.res[r].copyIssued off 0 }
        some (next (if crFld cr 4 1 = 1 then some { c with decr := some (crFld cr 48 16 / 64 * 64) } else none) s)

/-! ## Re-striping (R242, R279) -/

/-- RESTRIPE (R190, R279): the command's checks, and MIG set for the page that comes next. -/
def tryRestripe (r : ResIx) (s : State) : Option State :=
  match runnable r (fun c => decide (c = 1)) s with
  | none => none
  | some (rec, c) =>
    let asid := s.res[r].asid
    match copyBadBit (decide (s.res[r].accs ≠ 0)) rec with
    | some bit => some (setRun r (c.finish 5 bit) s)
    | none =>
      if !engineRight s asid 26 then some (setRun r (c.finish 8 0) s)
      else if c.moving then none
      else
        let vpn := pageOf (crSrc rec + c.done)
        match translateStack asid vpn s with
        | (.bad why, s) => some (setRun r (if s.res[r].killed then c.finish 7 4 else { c with faultWhy := why }) s)
        | (.held _, _) => none
        | (.ok w, s) =>
          if sel w 60 1 = 1 || epochStale s asid w || (leafHeld asid vpn s).isSome then none
          else
            let s := invalidate asid vpn (changeLeaf asid vpn (fun w => setField w 60 1 1) s)
            some (setRun r { c with moving := true, page := vpn, chunk := 0, col := 0 } s)

/-- A column of a page moves to its new place (R242, R263, R276, R279); none while a bank or a full log holds it back. The words that cannot be
read, or all of them where a beat fails its parity, are uncorrectable at the new place. The DETAIL of UEDATA goes with the state. Log entry 35 (DEDUCED). -/
def moveColumn (asid : Asid) (vpn : Nat) (old new : Word) (o : Nat) (s : State) : Option (Nat × State) :=
  let p := place old o
  let q := place new o
  match openColumn p s with
  | none => none
  | some s =>
    let (d, s) := beatRead p.addr s
    match openColumn q s with
    | none => none
    | some s =>
      if logFull asid vpn q.vault s then none
      else
        let (d', s) := beatWrite q.addr (readList s.vault.mem p.addr 16) s
        let words := [0, 1].filter (fun i => decide (d = 2) || decide (d' ≠ 0) || decide (p.addr / 8 + i ∈ s.vault.bad) || lostVault p.addr s)
        let s := if d' = 0 then touchQuad asid s.ownQuad (logDirty asid vpn q.vault s) else s
        some (if d ≠ 0 then d else d', { s with vault := { s.vault with bad := words.map (q.addr / 8 + ·) ++ s.vault.bad } })

/-- Whether a tile operation that has checked a page under its old word is still at work (R274). -/
def pageInUse (s : State) (asid : Asid) (vpn : Nat) : Bool :=
  s.core.engQ.any (fun e => decide (s.res[e.res].asid = asid) && e.ended.isNone && e.pages.any (fun p => decide (p.1 = vpn)))

/-- Whether a request that stands in its banks' queues has a column to move in a range of a page. -/
def requestInUse (s : State) (asid : Asid) (vpn lo hi : Nat) : Bool :=
  s.net.agentQ.any (fun j => decide (j.m.asid = asid) && decide (pageOf (reqAddr j.m) = vpn) && j.left.any (fun o => decide (lo ≤ o) && decide (o < hi)))

/-- CHUNK_MOVE (R233, R242, R279): the next column of the next chunk moves to its new place; when the first chunk has moved FWD is set. It waits for the
requests for the chunk that stand in their banks' queues. Log entries 10 and 35 (DESIGN CHOICE, DEDUCED). -/
def tryChunkMove (r : ResIx) (s : State) : Option State :=
  match runnable r (fun c => decide (c = 1)) s with
  | none => none
  | some (rec, c) =>
    let asid := s.res[r].asid
    let new := BitVec.ofNat 64 (crArg0 rec)
    let old := leafWord s asid c.page
    let size := moveChunk old new
    let lo := c.chunk * size
    let o := lo + 16 * c.col
    let last := decide (size ≤ 16 * (c.col + 1))
    let sets := last && decide (c.chunk = 0)
    if c.moving = false ∨ 2 ^ 18 ≤ lo ∨ pageInUse s asid c.page = true ∨ requestInUse s asid c.page lo (lo + size) = true
      ∨ (sets && (leafHeld asid c.page s).isSome) = true then none
    else if vaultGated s (place old o).vault ∨ vaultGated s (place new o).vault = true then none
    else match moveColumn asid c.page old new o s with
      | none => none
      | some (d, s) =>
        let s := if sets then changeLeaf asid c.page (fun w => setField w 59 1 1) s else s
        let c := if d ≠ 0 ∧ c.status = 0 then { c with status := 6, detail := BitVec.ofNat 8 d } else c
        some (setRun r (if last then { c with chunk := c.chunk + 1, col := 0 } else { c with col := c.col + 1 }) s)

/-- What holds a page by its placement word takes the new word: requests that an agent has taken up, and areas of TSPILL and TFILL (R242, R275). -/
def rewordPage (asid : Asid) (vpn : Nat) (f : Word → Word) (s : State) : State :=
  { s with
    streams := s.streams.map (fun t => { t with area := t.area.map (fun a =>
      if s.res[t.res].asid = asid ∧ pageOf a.va = vpn then { a with word := f a.word } else a) })
    net := { s.net with agentQ := s.net.agentQ.map (fun j =>
      if j.m.asid = asid ∧ pageOf (reqAddr j.m) = vpn then { j with word := j.word.map f } else j) } }

/-- RESTRIPE_SWITCH (R242, R279): after the last chunk and the switch tick, the new word is written. -/
def tryRestripeSwitch (r : ResIx) (s : State) : Option State :=
  match runnable r (fun c => decide (c = 1)) s with
  | none => none
  | some (rec, c) =>
    let asid := s.res[r].asid
    let new := BitVec.ofNat 64 (crArg0 rec)
    let size := moveChunk (leafWord s asid c.page) new
    if c.moving = false ∨ c.chunk * size < 2 ^ 18 ∨ s.mgr.tick.toNat < crArg1 rec ∨ (leafHeld asid c.page s).isSome = true then none
    else
      let s := invalidate asid c.page (writeLeaf asid c.page (switchedWord new (leafWord s asid c.page)) s)
      let s := rewordPage asid c.page (switchedWord new) s
      let c := { c with moving := false, done := c.done + 2 ^ 18 }
      some (setRun r (if crLen rec ≤ c.done then c.finish c.status.toNat c.detail.toNat else c) s)

/-! ## The engine serves the chains in turn (R193) -/

/-- The steps of the command at the head of a residency's chain, with the bytes that the host has returned for a HOSTRD (R190, R193). -/
def copyAttempts (r : ResIx) (bytes : List Byte) : List (State → Option State) :=
  [tryMove r 0 (fun _ _ => true) copyUnit, tryRestripe r, tryChunkMove r, tryRestripeSwitch r, tryMove r 2 (fun _ _ => true) fillUnit,
    tryHostrd r bytes, tryMove r 4 (hostAllowed r 61) hostwrUnit, tryMove r 5 (fun _ _ => true) fillUnit, tryBadCopyCommand r, tryCopyCompletion r]

/-- The chains in the order in which their turns come: the one served last comes last. -/
def copyOrder (s : State) : List ResIx := (List.range 4).map (fun i => Fin.ofNat 4 (s.quad.copyTurn + 1 + i))

/-- Whether the turn is a chain's: none whose turn comes before can go on. -/
def hasTurn (r : ResIx) (s : State) : Bool :=
  ((copyOrder s).takeWhile (fun q => decide (q ≠ r))).all (fun q => (copyAttempts q []).all (fun f => (f s).isNone))

/-- A step of the engine for a chain whose turn it is (R193). -/
def served (r : ResIx) (f : State → Option State) (s : State) : Option State :=
  if hasTurn r s then (f s).map (fun t => { t with quad := { t.quad with copyTurn := r.val } }) else none

/-- The engine goes on with the first chain in turn that can (R193). -/
def tryCopyEngine (s : State) : Option State :=
  (copyOrder s).findSome? (fun r => served r (fun s => (copyAttempts r []).findSome? (fun f => f s)) s)

/-- COPY (R190, R195). -/
def execCopy (r : ResIx) (s : State) : Res := orStay (served r (tryMove r 0 (fun _ _ => true) copyUnit) s) s

/-- RESTRIPE. -/
def execRestripe (r : ResIx) (s : State) : Res := orStay (served r (tryRestripe r) s) s

/-- CHUNK_MOVE. -/
def execChunkMove (r : ResIx) (s : State) : Res := orStay (served r (tryChunkMove r) s) s

/-- RESTRIPE_SWITCH. -/
def execRestripeSwitch (r : ResIx) (s : State) : Res := orStay (served r (tryRestripeSwitch r) s) s

/-- FILL (R190). -/
def execFill (r : ResIx) (s : State) : Res := orStay (served r (tryMove r 2 (fun _ _ => true) fillUnit) s) s

/-- HOSTRD. -/
def execHostrd (r : ResIx) (bytes : List Byte) (s : State) : Res := orStay (served r (tryHostrd r bytes) s) s

/-- HOSTWR (R368). -/
def execHostwr (r : ResIx) (s : State) : Res := orStay (served r (tryMove r 4 (hostAllowed r 61) hostwrUnit) s) s

/-- DRAIN (R190): every earlier HOSTWR of the chain has been posted, and the flushing read returns. -/
def execDrain (r : ResIx) (s : State) : Res := orStay (served r (tryMove r 5 (fun _ _ => true) fillUnit) s) s

/-- BAD_COPY_COMMAND. -/
def execBadCopyCommand (r : ResIx) (s : State) : Res := orStay (served r (tryBadCopyCommand r) s) s

/-- COPY_COMPLETION. -/
def execCopyCompletion (r : ResIx) (s : State) : Res := orStay (served r (tryCopyCompletion r) s) s

end Sys2Proof.Machine
end

