-- ==== Sys2Proof/Machine/Messages.lean ====
section
/-! DEFINITION. Message, vault-request, task-record and synchronisation instructions (R196 to R214). -/

namespace Sys2Proof.Machine

/-! ## Messages and the send buffer (R196, R202) -/

/-- The narrowest scope that contains two cores (R196). -/
def narrowestScope (a b : BitVec 32) : BitVec 3 :=
  BitVec.ofNat 3 (((List.range 5).find? (fun sc => sameScope sc a b)).getD 4)

/-- The low n bytes of a payload; the others are zero (R196). -/
def payloadBytes (n v : Nat) : BitVec 512 := BitVec.ofNat 512 (v % 2 ^ (8 * n))

/-- A message of the current residency as its network interface fills it in (R196). -/
def newMsg (s : State) (dest : BitVec 32) (vn : BitVec 2) (rq : Bool) (seq : BitVec 16) (hidx rhidx : BitVec 8) (len v : Nat) : Msg where
  dest := dest
  gen := s.rs.gen
  asid := s.rs.asid
  scope := narrowestScope s.address dest
  vn := vn
  spl := false
  dev := false
  rq := rq
  sg := false
  len := BitVec.ofNat 7 len
  src := s.address
  seq := seq
  hidx := hidx
  rhidx := rhidx
  payload := payloadBytes len v

/-- Whether an entry of the send buffer is a message or an arrival, which takes one of the 16 places; a fence point takes none. -/
def BufEntry.counts : BufEntry → Bool
  | .fence _ => false
  | _ => true

/-- SENDCNT (R202): the entries of the running task's send buffer. Log entry 25 (DEDUCED). -/
def sendCount (s : State) : Nat :=
  match s.task with
  | none => 0
  | some t => (t.sendBuf.filter BufEntry.counts).length

/-- Appends entries to the send buffer, with the sinks that they reserve (R202). -/
def appendEntries (es : List BufEntry) (s : State) : State :=
  match s.task with
  | none => s
  | some t =>
    let s := s.setTask { t with sendBuf := t.sendBuf ++ es, ages := t.ages ++ es.map (fun _ => s.core.cycle) }
    s.setRs { s.rs with sinks := s.rs.sinks + bufSinks es }

/-- TINFO of SENDFULL (R202). -/
def sendfullInfo (s : State) (need : Nat) (sink bar : Bool) : Word :=
  BitVec.ofNat 64 (bar.toNat * 2 ^ 17 + sink.toNat * 2 ^ 16 + sendCount s * 2 ^ 8 + need)

/-- The checks of R202 in order, for need entries of which sinks each reserve one: entries, sinks, barrier arrivals; then k goes on.
s0 is the state before any pop. -/
def sendChecks (need sinks : Nat) (arrived : Bool) (s0 s : State) (k : Res) : Res :=
  if 16 < sendCount s + need then trap 0x10 (sendfullInfo s need false false) s0
  else if s.sinksFree < sinks then trap 0x10 (sendfullInfo s need true false) s0
  else if arrived then trap 0x10 (sendfullInfo s need false true) s0
  else k

/-- Appends one message under the checks of R202. -/
def sendOne (i : Instr) (m : Msg) (s0 s : State) : Res :=
  sendChecks 1 m.rq.toNat false s0 s <| retire i (appendEntries [.msg m] s)

/-! ## SEND, SENDL, REPLY, MSGX (R200, R201, R205) -/

/-- SEND (R200). -/
def execSend (a b c : Reg) (v : BitVec 2) (r : BitVec 1) (s : State) : Res :=
  withX b s s fun h s1 => withV c s s1 fun p s2 => withX a s s2 fun d s3 =>
    let m := newMsg s3 (d.setWidth 32) v (decide (r = 1)) (BitVec.ofNat 16 (sel h 16 16)) (BitVec.ofNat 8 (sel h 8 8))
      (BitVec.ofNat 8 (sel h 0 8)) (min (sel h 40 7) 64) p.toNat
    sendOne (.send a b c v r) m s s3

/-- The lowest failing field of a SENDL descriptor, if one fails (R201). -/
def sendlBadBit (d : BitVec 128) : Option Nat :=
  let l := fld d 16 11
  if l = 0 ∨ 1024 < l then some 16
  else if fld d 27 5 ≠ 0 then some 27
  else if fld d 56 72 ≠ 0 then some 56
  else none

/-- Message i of a SENDL whose L bytes are the number v (R201). -/
def sendlMsg (s : State) (dest : BitVec 32) (d : BitVec 128) (vn : BitVec 2) (rq : Bool) (v i : Nat) : Msg :=
  newMsg s dest vn rq (BitVec.ofNat 16 (fld d 32 16 + i)) (BitVec.ofNat 8 (fld d 48 8)) 0 (min 64 (fld d 16 11 - 64 * i))
    (v / 2 ^ (512 * i))

/-- SENDL (R201). -/
def execSendl (a b : Reg) (v : BitVec 2) (r : BitVec 1) (s : State) : Res :=
  withX a s s fun dst s1 =>
    let d := s1.oxv b
    let l := fld d 16 11
    let n := (l + 63) / 64
    match sendlBadBit d with
    | some bit => trap 0x0B (BitVec.ofNat 64 (fieldFault bit)) s
    | none =>
      sendChecks n (if r = 1 then n else 0) false s s1 <|
        localAccess s true false (byteRange (fld d 0 16) l) s1 fun s2 =>
          let bytes := spadRd s2 (fld d 0 16) l
          retire (.sendl a b v r)
            (appendEntries ((List.range n).map (fun i => .msg (sendlMsg s2 (dst.setWidth 32) d v (decide (r = 1)) bytes i))) s2)

/-- REPLY (R200). -/
def execReply (b c : Reg) (s : State) : Res :=
  withX b s s fun h s1 => withV c s s1 fun p s2 =>
    let m := newMsg s2 (BitVec.ofNat 32 (sel h 32 32)) 1 false (BitVec.ofNat 16 (sel h 16 16)) (BitVec.ofNat 8 (sel h 0 8)) 0 64 p.toNat
    sendOne (.reply b c) m s s2

/-- The triggering message of the running task, if a message triggered it. -/
def State.trigger (s : State) : Option Msg :=
  match s.task with
  | none => none
  | some t => match t.trigger with
    | .message m => some m
    | _ => none

/-- What MSGX reads with selector k (R205). -/
def msgxValue (s : State) (k : Nat) (vn : BitVec 2) : Word :=
  if k = 0 then (s.trigger.map msgD1).getD 0
  else if k = 1 then BitVec.ofNat 64 (waitingFor s.core s.ri vn.toNat)
  else if k = 2 then BitVec.ofNat 64 s.sinksFree
  else if k = 3 then BitVec.ofNat 64 s.rs.sinks
  else if 0x10 ≤ k ∧ k ≤ 0x17 then (s.trigger.map (fun m => msgPayload m (k - 0x10))).getD 0
  else 0

/-- MSGX (R205). -/
def execMsgx (a b : Reg) (v : BitVec 2) (s : State) : Res :=
  withX b s s fun x s1 => withRoomX a s s1 <| finishX (.msgx a b v) a (msgxValue s1 (sel x 0 8) v) s1

/-! ## Vault-agent requests (R206) -/

/-- A vault request of the current stream: the message that a SEND of the same index would append. -/
def vaultRequest (s : State) (hidx : BitVec 8) (x : Word) (rq : Bool) (seq : BitVec 16) (ds : List Nat) : Msg :=
  newMsg s s.address 0 rq seq hidx (BitVec.ofNat 8 (sel x 56 8)) (8 * (ds.length + 1))
    (packWords (BitVec.ofNat 64 (sel x 0 48) :: ds.map (fun d => BitVec.ofNat 64 d)))

/-- VREAD (R206): a count of 0 or above 56 acts as 56. -/
def execVread (a b : Reg) (r : BitVec 1) (s : State) : Res :=
  withX b s s fun x s1 => withX a s s1 fun t s2 =>
    let n := sel t 0 7
    let n := if n = 0 ∨ 56 < n then 56 else n
    sendOne (.vread a b r) (vaultRequest s2 0xF0 x (decide (r = 1)) (BitVec.ofNat 16 (sel t 16 16)) [n]) s s2

/-- VWRITE (R206): the 8 bytes of xv. -/
def execVwrite (b c : Reg) (r : BitVec 1) (s : State) : Res :=
  withX b s s fun x s1 => withX c s s1 fun v s2 =>
    sendOne (.vwrite b c r) (vaultRequest s2 0xF1 x (decide (r = 1)) 0 [8, v.toNat]) s s2

/-- VAMO (R206): function and D in xd[4:0], the expected value of a CAS in xd[63:32]. -/
def execVamo (a b c : Reg) (r : BitVec 1) (s : State) : Res :=
  withX b s s fun x s1 => withX c s s1 fun v s2 => withX a s s2 fun d s3 =>
    let e := (wrap 64 (sextNat (sel d 32 32) 32)).toNat
    sendOne (.vamo a b c r) (vaultRequest s3 0xF2 x (decide (r = 1)) (BitVec.ofNat 16 (sel d 16 16)) [sel d 0 5, v.toNat, e]) s s3

/-! ## Task records (R212, R213) -/

/-- A record operation: xo aligned down, the checks of a write, and no effect out of range (R28, R213). -/
def recordOp (i : Instr) (x : Word) (s0 s : State) (f : Nat → State → State) : Res :=
  let off := x.toNat / 64 * 64
  localAccess s0 true true (byteRange off 64) s fun s1 =>
    retire i (if s1.rs.spsize.toNat < off + 64 then s1 else f off s1)

/-- TINFO's bit of the FMTBAD of TNEW, if it fails: TASK first, then the reserved field (R213). Log entry 38 (DEDUCED). -/
def tnewBadBit (s : State) (d : BitVec 128) : Option Nat :=
  if s.rs.role.tasks.length ≤ fld d 32 16 then some 32
  else if fld d 48 16 ≠ 0 then some 48
  else none

/-- tnew(off, ox) (R213): the fields that it writes; Q, RA and the reserved bits stay. Log entry 38 (DEDUCED). -/
def tnewEffect (d : BitVec 128) (off : Nat) (s : State) : State :=
  let r := s.ri
  let w := recWord s r off
  let s1 := setRecWord s r off (w / 2 ^ 49 * 2 ^ 49 + fld d 32 16 * 2 ^ 32 + fld d 0 32)
  let s2 := if bits w 49 1 = 0 then setRecWord s1 r (off + 8) (recWord s1 r (off + 8) / 2 ^ 16 * 2 ^ 16 + 0xFFFF) else s1
  let s3 := setRecWord (setRecWord (setRecWord (setRecWord s2 r (off + 16) (fld d 64 64)) r (off + 24) 0) r (off + 32) 0) r (off + 40) 0
  s3.setRes r { s3.res[r] with armed := s3.res[r].armed.filter (fun o => decide (o ≠ off)) }

/-- TNEW (R213). -/
def execTnew (b c : Reg) (s : State) : Res :=
  withX b s s fun x s1 =>
    match tnewBadBit s1 (s1.oxv c) with
    | some bit => trap 0x0B (BitVec.ofNat 64 (fieldFault bit)) s
    | none => recordOp (.tnew b c) x s s1 (tnewEffect (s1.oxv c))

/-- TDEC (R213): k + 1 is subtracted for the field k. -/
def execTdec (b : Reg) (k : BitVec 3) (s : State) : Res :=
  withX b s s fun x s1 => recordOp (.tdec b k) x s s1 fun off s2 => decRecord s2.ri off (k.toNat + 1) s2

/-- tarm(off) (R213). -/
def tarmEffect (off : Nat) (s : State) : State :=
  let r := s.ri
  if bits (recWord s r off) 0 32 = 0 then readyRecord r off (setRecBit s r off 48 false)
  else
    let s := setRecBit s r off 48 true
    s.setRes r { s.res[r] with armed := insertNat off s.res[r].armed }

/-- TARM (R213). -/
def execTarm (b : Reg) (s : State) : Res :=
  withX b s s fun x s1 => recordOp (.tarm b) x s s1 tarmEffect

/-! ## FENCE, SIGNAL, BAR (R210, R214) -/

/-- A FENCE at QUAD scope or wider marks what its stream's later accesses wait for: its quad-remote writes, TSTs and hand-overs
(R210). -/
def markFence (s : State) : State :=
  let mine (k : SlotIx) : Bool := decide (k = s.cur)
  let s := { s with core := { s.core with
    remote := s.core.remote.map (fun (e : Remote) => if mine e.slot && e.write then { e with fenced := true } else e)
    engQ := s.core.engQ.map (fun (e : EngOp) => if mine e.slot && e.owned && decide (e.kind = EngKind.tst) then { e with fenced := true } else e) } }
  s.setRs { s.rs with copyOwner := s.rs.copyOwner.map (fun e =>
    if bits e.2.toNat 0 2 = s.cur.val then (e.1, e.2 ||| 4) else e) }

/-- FENCE (R203, R210): a fence point behind the messages of the buffer, and the wait of later accesses. -/
def execFence (y : BitVec 3) (s : State) : Res :=
  let s1 := if y = 0 then s else markFence s
  retire (.fence y) (if 0 < sendCount s then appendEntries [.fence y] s1 else s1)

/-- The message of a SIGNAL (R210). -/
def signalMsg (s : State) (scope : BitVec 3) (dest : BitVec 32) (off : Nat) : Msg :=
  { newMsg s dest 0 true 0 0 0xDF 16 (packWords [BitVec.ofNat 64 off, 1]) with scope := scope, sg := true }

/-- SIGNAL (R210). -/
def execSignal (y : BitVec 3) (b c : Reg) (s : State) : Res :=
  withX b s s fun x s1 => withX c s s1 fun o s2 =>
    sendOne (.signal y b c) (signalMsg s2 y (x.setWidth 32) (sel o 0 16)) s s2

/-- BAR (R214): an arrival of the residency, unless it holds one at this scope. -/
def execBar (y : BitVec 3) (b : Reg) (s : State) : Res :=
  withX b s s fun o s1 =>
    sendChecks 1 0 (s1.rs.arrivals.any (fun a => decide (a.1 = y))) s s1 <|
      let s2 := appendEntries [.bar y o] s1
      retire (.bar y b) (s2.setRs { s2.rs with arrivals := s2.rs.arrivals ++ [(y, o)] })

end Sys2Proof.Machine
end

