-- ==== Sys2Proof/Machine/Agents.lean ====
section
/-! DEFINITION. Vault agents (R206 to R208, R235, R236, R242, R257, R264): how requests are routed, served and completed, and the steps
that do it. -/

namespace Sys2Proof.Machine

/-! ## The checks of a request (R208, R268, R371) -/

/-- The status that a target gives after translation: 4 behind a closed port that the access has not passed, 8 where the access table refuses it (R208, R334,
R371). -/
def targetStatus (s : State) (port : Bool) (vault : Nat) (asid : Asid) (right : Nat) (requester : BitVec 32) : Nat :=
  if port && vaultGated s vault then 4 else if accessAllows s vault asid right requester then 0 else 8

/-- A write by a core of this stack's quad is noted in the touched set (R395). -/
def touchSource (asid : Asid) (src : BitVec 32) (s : State) : State :=
  if src.toNat / 2 ^ 13 = s.address.toNat / 2 ^ 13 then touchQuad asid (src.toNat / 4 % 2 ^ 11) s else s

/-! ## Requests (R206, R207) -/

/-- Whether a payload breaks the limits of its request (R208). -/
def badRequest (m : Msg) : Bool :=
  let d1 := reqD1 m
  let n := d1 % 128
  if m.hidx = 0xF0 then decide (n = 0) || decide (56 < n) || decide (d1 / 128 ≠ 0)
  else if m.hidx = 0xF1 then decide (n = 0) || decide (48 < n) || decide (d1 / 128 ≠ 0)
  else if m.hidx = 0xF2 then decide (10 ≤ d1 % 16) || decide (d1 / 32 ≠ 0)
  else false

/-- Bytes of a page from offset o to the end of the agent's chunk (R208). -/
def chunkLeft (w : Word) (o : Nat) : Nat := if pwGeo w ≤ 1 then 2 ^ 18 - o else pwChunk w - o % pwChunk w

/-- The compensated add of R207 on a pair, with an FP32 addend. -/
def vfaddcPair (pair x : Nat) : Nat :=
  let s := pair % 2 ^ 32
  let e := pair / 2 ^ 32
  let t := (fadd32 .rne s x).1
  let bv := (fsub32 .rne t s).1
  let av := (fsub32 .rne t bv).1
  let err := (fadd32 .rne (fsub32 .rne s av).1 (fsub32 .rne x bv).1).1
  (fadd32 .rne e err).1 * 2 ^ 32 + t

/-- The permissions that a request needs: reads and writes (R268). -/
def reqNeeds (m : Msg) : Bool × Bool :=
  if m.hidx = 0xF0 then (true, false) else if m.hidx = 0xF1 then (false, true)
  else if m.hidx = 0xF4 then (false, false) else (true, true)

/-- The right that a request needs in the access table (R370). -/
def reqRight (m : Msg) : Nat := if m.hidx = 0xF0 then 30 else if m.hidx = 0xF1 then 29 else if m.hidx = 0xF4 then 31 else 28

/-- Whether a request is an indivisible operation (R206). -/
def isAtomic (m : Msg) : Bool := decide (m.hidx = 0xF2) || decide (m.hidx = 0xF3)

/-- The bytes of its page that a request serves at its agent: offset and count (R208). -/
def reqSpan (m : Msg) (w : Word) : Nat × Nat :=
  let o := reqAddr m % 2 ^ 18
  (o, if m.hidx = 0xF2 then (if bits (reqD1 m) 4 1 = 1 then 8 else 4) else if m.hidx = 0xF3 then 8 else min (reqD1 m % 128) (chunkLeft w o))

/-- The bytes of its page that a request under word w serves: in what a re-stripe has moved, no more than either word's chunk allows (R208, R242).
Log entry 36 (DEDUCED). -/
def servedSpan (s : State) (m : Msg) (w : Word) : Nat × Nat :=
  let (o, n) := reqSpan m w
  (o, min n (reqSpan m (holderWord s m.asid (pageOf (reqAddr m)) w o)).2)

/-- The page offsets of the columns that hold n bytes from an offset on. -/
def reqColumns (o n : Nat) : List Nat := (List.range ((o + n + 15) / 16 - o / 16)).map (fun i => 16 * (o / 16 + i))

/-- The value that an indivisible request writes over an old one, if it writes (R118, R206, R207). -/
def atomicNew (m : Msg) (n old : Nat) : Option Nat :=
  if m.hidx = 0xF3 then some (vfaddcPair old (reqD1 m % 2 ^ 32))
  else amoNew (amoFn (reqD1 m % 16)) (8 * n) old (sel m.payload 128 64 % 2 ^ (8 * n)) (sel m.payload 192 64 % 2 ^ (8 * n))

/-! ## Replies and completions (R208, R235) -/

/-- The reply of an agent: the status word with the request's SEQ as TAG, then the bytes (R206, R208). -/
def agentReply (m : Msg) (vault status detail bytes : Nat) (bs : List Byte) (s : State) : Msg where
  dest := m.src
  gen := m.gen
  asid := m.asid
  scope := m.scope
  vn := 1
  spl := false
  dev := false
  rq := false
  sg := false
  len := 64
  src := BitVec.ofNat 32 (s.core.pkg.toNat * 2 ^ 15 + vault)
  seq := m.seq
  hidx := m.rhidx
  rhidx := 0
  payload := BitVec.ofNat 512 ((statusWord bytes m.seq.toNat detail status).toNat
    + (if m.hidx = 0xF1 ∨ m.hidx = 0xF4 then 0 else bytesLE bs) * 2 ^ 64)

/-- The stack that a message from one stack to another enters next: east–west first (R350). -/
def nextStack (a b : Nat) : Nat := if a % 2 ≠ b % 2 then a / 2 * 2 + b % 2 else b

/-- The logical quad of a message's source or destination for the choice of a module: 0 for the front end, the host interface and the stack managers
(R350). -/
def endQuad (core : BitVec 32) : Nat := if core.toNat % 2 ^ 15 = 0x7FFF then 0 else core.toNat / 4 % 2 ^ 11

/-- The module of this stack by which a message from a quad of another stack enters it: in the pair with the stack that it comes from last, if its way
passes this stack (R350). -/
def arrivalModule (s : State) (stack quad : Nat) (dest : BitVec 32) : Option (Fin 8) :=
  let goal := dest.toNat / 2 ^ 13 % 4
  let first := nextStack stack goal
  let from_ : Option Nat := if first = s.ownStack then some stack else if nextStack first goal = s.ownStack then some first else none
  if dest.toNat / 2 ^ 15 ≠ s.core.pkg.toNat then none
  else from_.map (fun a => ⟨((if a / 2 ≠ s.ownStack / 2 then 4 else 0) + (quad + endQuad dest) % 4) % 8, Nat.mod_lt _ (by decide)⟩)

/-- A reply of the agent of a vault sets out: one that enters this stack from another has a module to cross; one whose way does not pass this stack goes on
without it (R350, R355). -/
def sendReply (vault : Nat) (m : Msg) (s : State) : State :=
  if vault / 2 ^ 13 = s.ownStack then postReply m s
  else match arrivalModule s (vault / 2 ^ 13) (vault / 4 % 2 ^ 11) m.dest with
    | none => { s with net := { s.net with mesh := s.net.mesh ++ [m] } }
    | some k => { s with link := { s.link with modules := vset s.link.modules k { s.link.modules[k] with inbox := s.link.modules[k].inbox ++ [m] } } }

/-- The vault whose agent decides a request: that of its first byte, at its present place (R242). -/
def deciding (j : AgentJob) (s : State) : Nat :=
  match j.word with
  | none => j.vault
  | some w => (requestPlace s j.m.asid (pageOf (reqAddr j.m)) w (reqAddr j.m % 2 ^ 18)).vault

/-- A request has been decided: its reply leaves if it asked for one, and a request of this core completes internally (R208, R235).
Log entry 48 (DEDUCED). -/
def finishJob (i : Nat) (j : AgentJob) (s : State) : State :=
  let o := reqAddr j.m % 2 ^ 18
  let bs := if j.m.hidx = 0xF0 then readList j.got o j.served else if isAtomic j.m && decide (j.status = 0) then readList j.got o 8 else []
  let v := deciding j s
  let s := { s with net := { s.net with agentQ := s.net.agentQ.eraseIdx i } }
  let s := if j.m.rq then sendReply v (agentReply j.m v j.status.toNat j.detail.toNat j.served bs s) s else s
  if j.own then { s with net := { s.net with completions := s.net.completions ++ [j] } } else s

/-! ## Routing (R206, R236) -/

/-- The vault that holds the first byte of a request under its placement word, as the sending interface finds it; none where the translation
faults or waits. A request for a page under re-striping is forwarded at the agent (R242). -/
def routeVault (m : Msg) (s : State) : Option Nat × State :=
  let va := reqAddr m
  match translateStack m.asid (pageOf va) s with
  | (.bad _, s) => (none, s)
  | (.held _, s) => (none, s)
  | (.ok w, s) => (some (place w (va % 2 ^ 18)).vault, s)

/-- A request reaches the agent of a vault: one that meets a closed port is decided there (R334). -/
def enqueueJob (m : Msg) (vault : Nat) (s : State) : State :=
  let j : AgentJob :=
    { m := m, own := decide (m.src = s.address) && !m.dev, vault := vault, id := s.net.nextId, faultWhy := 0,
      status := if vaultGated s vault then 4 else 0, detail := 0, served := 0, word := none, span := 0, left := [], got := [] }
  { s with net := { s.net with agentQ := s.net.agentQ ++ [j], nextId := s.net.nextId + 1 } }

/-! ## Serving (R206 to R208, R233, R242, R257) -/

/-- Replaces a request that waits. -/
def setJob (i : Nat) (j : AgentJob) (s : State) : State := { s with net := { s.net with agentQ := s.net.agentQ.modify i (fun _ => j) } }

/-- The first i requests hold one of the same source at the same vault (R236). -/
def behindSource (i : Nat) (j : AgentJob) (s : State) (p : AgentJob → Bool) : Bool :=
  (s.net.agentQ.take i).any (fun x => decide (x.m.src = j.m.src) && decide (x.vault = j.vault) && p x)

/-- An agent takes up a request (R208): its own limits, translation, permission, the access table, the wait for a stale page; then its columns
join the queues of their banks. A translation fault waits for the stack manager. One for bytes that a re-stripe has moved goes on to their new agent, and
waits while they are being moved, or at the closed port of that agent's quad (R242, R334). Log entries 10, 36 and 48 (DESIGN CHOICE, DEDUCED). -/
def acceptJob (i : Nat) (j : AgentJob) (s : State) : Option State :=
  let m := j.m
  let vpn := pageOf (reqAddr m)
  let need := reqNeeds m
  if badRequest m then some (finishJob i { j with status := 5 } s)
  else match (if j.vault = s.ownVault then translate m.asid vpn s else translateStack m.asid vpn s) with
    | (.bad why, s) => some (setJob i { j with faultWhy := why } s)
    | (.held _, _) => none
    | (.ok w, s) =>
      if !permits w need.1 need.2 then some (setJob i { j with faultWhy := 2 } s)
      else
        let (o, n) := servedSpan s m w
        let h := holderWord s m.asid vpn w o
        let v := (place h o).vault
        if inMove s m.asid vpn w o n || (decide (v ≠ j.vault) && vaultGated s v) then none
        else if !accessAllows s v m.asid (reqRight m) m.src then some (finishJob i { j with word := some h, status := 8 } s)
        else if need.2 && epochStale s m.asid w then none
        else if m.hidx = 0xF4 then (if behindSource i j s (fun _ => true) then none else some (finishJob i { j with word := some h } s))
        else
          let cols := reqColumns o n
          let s := setJob i { j with word := some h, span := n, served := n, left := cols } s
          some (cols.foldl (fun s c => joinQueue (.agent j.id c) (place h c) s) s)

/-- A column of a request moves over the bus (R207, R208, R233, R257, R263); none while a full dirty log holds it back (R277). A beat that fails ends
the request with UEDATA, of which the columns before it are served. Log entry 48 (DEDUCED). -/
def moveColumnOf (j : AgentJob) (w : Word) (c : Nat) (s : State) : Option (AgentJob × State) :=
  let m := j.m
  let vpn := pageOf (reqAddr m)
  let o := reqAddr m % 2 ^ 18
  let n := j.span
  let lo := max c o
  let k := min (c + 16) (o + n) - lo
  let p := requestPlace s m.asid vpn w lo
  let moved := { j with left := j.left.erase c }
  let failed (d : Nat) : AgentJob :=
    { j with status := 6, detail := BitVec.ofNat 8 d, served := if isAtomic m then 0 else min j.served (lo - o), left := j.left.filter (fun x => decide (x < c)) }
  let write (bs : List Byte) (j' : AgentJob) (s : State) : Option (AgentJob × State) :=
    (storeColumn m.asid (vpn * 2 ^ 18 + lo) p bs s).map (fun e =>
      if e.1 = 0 then (j', touchSource m.asid m.src e.2) else (failed e.1, e.2))
  if m.hidx = 0xF1 then write (leBytes k (m.payload.toNat / 2 ^ (128 + 8 * (lo - o)))) moved s
  else match beatRead p.addr s with
    | (0, s) =>
      if m.hidx = 0xF0 then some ({ moved with got := writeList j.got lo (readList s.vault.mem p.addr k) }, s)
      else
        let old := readLE s.vault.mem p.addr n
        let moved := { moved with got := writeList [] o (leBytes 8 (if n = 4 then (sextRead 32 old).toNat else old)) }
        match atomicNew m n old with
        | none => some (moved, s)
        | some v => write (leBytes n v) moved s
    | (d, s) => some (failed d, s)

/-- A column of a request: it moves when its beat is the oldest of its bank and the row is open, or waits there (R257). -/
def tryColumn (i : Nat) (j : AgentJob) (w : Word) (c : Nat) (s : State) : Option State :=
  let m := j.m
  let who := Claimant.agent j.id c
  if (reqNeeds m).2 && epochStale s m.asid w then none
  else match reachBeat who (requestPlace s m.asid (pageOf (reqAddr m)) w c) s with
    | (false, s1) => waited s s1
    | (true, s1) => match moveColumnOf j w c s1 with
      | none => waited s s1
      | some (j, s2) =>
        let s2 := leaveQueue who s2
        some (if j.left = [] then finishJob i j s2 else setJob i j s2)

/-- A request goes on: it is decided, taken up, or moves a column. -/
def tryJob (i : Nat) (s : State) : Option State :=
  match s.net.agentQ[i]? with
  | none => none
  | some j =>
    if j.faultWhy ≠ 0 then none
    else if j.status ≠ 0 ∧ j.left = [] then some (finishJob i j s)
    else match j.word with
      | none => if behindSource i j s (fun x => x.word.isNone) then none else acceptJob i j s
      | some w => j.left.findSome? (fun c => tryColumn i j w c s)

/-- The request of a number goes on: an agent acts apart from the others (R236, R326). -/
def serveJob (id : Nat) (s : State) : Option State := (s.net.agentQ.findIdx? (fun j => decide (j.id = id))).bind (fun i => tryJob i s)

/-- The agents serve a request of an index (R206, R208): the first that can go on. -/
def serveNext (hidx : BitVec 8) (s : State) : Option State :=
  (List.range s.net.agentQ.length).findSome? (fun i => match s.net.agentQ[i]? with
    | none => none
    | some j => if j.m.hidx = hidx then tryJob i s else none)

/-- The rest of a VWRITE of which an agent served n bytes (R208). -/
def continuation (m : Msg) (n : Nat) : Msg :=
  let total := reqD1 m % 128
  let data := m.payload.toNat / 2 ^ 128 / 2 ^ (8 * n)
  { m with
    len := BitVec.ofNat 7 (16 + (total - n))
    payload := BitVec.ofNat 512 (reqVa m + n + (total - n) * 2 ^ 64 + data % 2 ^ (8 * (total - n)) * 2 ^ 128) }

/-- Whether a completed request has a rest for the interface to send: a VWRITE without RQ that was served in part (R208). -/
def hasRest (m : Msg) (status : BitVec 8) (served : Nat) : Bool :=
  decide (m.hidx = 0xF1) && !m.rq && decide (status = 0) && decide (served < reqD1 m % 128)

end Sys2Proof.Machine
end

