-- ==== Sys2Proof/Machine/System.lean ====
section
/-! DEFINITION. System, trap and journal instructions (R15, R24 to R27, R37, R38, R215 to R230). -/

namespace Sys2Proof.Machine

/-! ## System registers (R24 to R27) -/

/-- GUARDCFG as read (R25). -/
def guardcfg (c : Core) : Word :=
  BitVec.ofNat 64 (c.jm.toNat * 2 ^ 24 + c.wy.toNat * 2 ^ 16 + c.wx.toNat * 2 ^ 8 + c.sq.toNat)

/-- SLOT of the current stream (R25). -/
def slotWord (s : State) : Word :=
  let t := s.st
  let k := match t.kind with
    | .L => 0
    | .A => 1
    | .E => 2
  let group := match s.task with
    | none => 1
    | some t => onesIn t.slots.toNat 4
  BitVec.ofNat 64 (t.qm.toNat * 2 ^ 8 + (group - 1) % 4 * 2 ^ 4 + k * 2 ^ 2 + s.cur.val)

/-- RXDEPTH of the current residency: three counts that saturate at 255 (R25). -/
def rxdepth (s : State) : Word :=
  let n (vn : Nat) : Nat := min 255 (waitingFor s.core s.ri vn)
  BitVec.ofNat 64 (n 2 * 2 ^ 16 + n 1 * 2 ^ 8 + n 0)

/-- The physical bank whose format register BFMTn names (R27). -/
def bankOf (s : State) (n : Nat) : Fin 16 := ⟨(s.rs.spbase.toNat / 3072 + n) % 16, Nat.mod_lt _ (by decide)⟩

/-- BFMTn as the residency sees it: 0 beyond its reservation (R27). -/
def bfmtView (s : State) (n : Nat) : Word :=
  if s.rs.spsize.toNat ≤ n * 3072 then 0 else (s.core.bfmt[bankOf s n]).setWidth 64

/-- A field of the trap record with place k (0 TCAUSE, 1 TEPC, 2 TINFO, 3 TMSG). -/
def recordField (t : TrapRecord) (k : Nat) : Word :=
  match k with
  | 0 => t.cause
  | 1 => t.epc
  | 2 => t.info
  | _ => t.msg

/-- The value of a listed system register; none for a number that R24 does not list. -/
def sysRead (s : State) (num : Nat) : Option Word :=
  let t := s.st
  match num with
  | 0x000 => some (s.core.id.setWidth 64)
  | 0x001 => some (BitVec.ofNat 64 s.ownQuad)
  | 0x002 => some (BitVec.ofNat 64 s.ownStack)
  | 0x003 => some (s.core.pkg.setWidth 64)
  | 0x004 => some (slotWord s)
  | 0x010 => some (BitVec.ofNat 64 s.rs.ctx)
  | 0x011 => some (s.rs.spbase.setWidth 64)
  | 0x012 => some (s.rs.spsize.setWidth 64)
  | 0x013 => some s.rs.spflag
  | 0x030 => some (guardcfg s.core)
  | 0x038 => some (t.fmode.setWidth 64)
  | 0x039 => some (t.fflags.setWidth 64)
  | 0x040 => some (t.tlevel.setWidth 64)
  | 0x041 => some t.tvec
  | 0x04A => some t.tsave
  | 0x04B => some t.tsavelen
  | 0x050 => some ((s.task.map Task.budget).getD 0)
  | 0x051 => some (s.core.agelim.setWidth 64)
  | 0x060 => some s.mgr.tick
  | 0x061 => some s.core.cycle
  | 0x070 => some (BitVec.ofNat 64 (sendCount s))
  | 0x071 => some (rxdepth s)
  | 0x080 => some s.rs.raceinfo
  | 0x090 => some s.rs.jseq
  | 0x091 => some s.rs.jack
  | _ =>
    if 0x020 ≤ num ∧ num ≤ 0x02F then some (bfmtView s (num - 0x020))
    else if 0x042 ≤ num ∧ num ≤ 0x045 then some (recordField t.traps[0] (num - 0x042))
    else if 0x046 ≤ num ∧ num ≤ 0x049 then some (recordField t.traps[1] (num - 0x046))
    else none

/-- A field of a trap record replaced, its reserved bits dropped (R7, R25). -/
def setRecordField (t : TrapRecord) (k : Nat) (v : Word) : TrapRecord :=
  match k with
  | 0 => { t with cause := v &&& 0xFF }
  | 1 => { t with epc := v &&& 0x7FFE }
  | 2 => { t with info := v }
  | _ => { t with msg := v &&& 0xFFFFFFFFFFFFFF00 }

/-- GUARDCFG as written by a residency with accumulators; another's write is discarded, and JM is RO (R25, R26). -/
def writeGuardcfg (v : Word) (s : State) : State :=
  if s.rs.accs = 0 then s
  else { s with core := { s.core with
    sq := BitVec.ofNat 5 (sel v 0 5), wx := BitVec.ofNat 7 (sel v 8 7), wy := BitVec.ofNat 7 (sel v 16 7) } }

/-- BUDGET can only be lowered (R26). -/
def writeBudget (v : Word) (s : State) : State :=
  match s.task with
  | none => s
  | some t => if v.toNat < t.budget.toNat then s.setTask { t with budget := v } else s

/-- A write of the RW fields of a register; a write to any other is discarded (R24 to R27). -/
def sysWrite (num : Nat) (v : Word) (s : State) : State :=
  let t := s.st
  match num with
  | 0x030 => writeGuardcfg v s
  | 0x038 => s.setSt { t with fmode := v.setWidth 2 }
  | 0x039 => s.setSt { t with fflags := v.setWidth 5 }
  | 0x041 => s.setSt { t with tvec := v &&& 0xFFC0 }
  | 0x04A => s.setSt { t with tsave := v &&& 0x0000FFFFFFFFFE00 }
  | 0x04B => s.setSt { t with tsavelen := v &&& 0xFFFFFFFF }
  | 0x050 => writeBudget v s
  | _ =>
    if 0x020 ≤ num ∧ num ≤ 0x02F then
      if s.rs.spsize.toNat ≤ (num - 0x020) * 3072 then s
      else { s with core := { s.core with bfmt := vset s.core.bfmt (bankOf s (num - 0x020)) (v.setWidth 10) } }
    else if 0x042 ≤ num ∧ num ≤ 0x045 then s.setSt { t with traps := vset t.traps 0 (setRecordField t.traps[0] (num - 0x042) v) }
    else if 0x046 ≤ num ∧ num ≤ 0x049 then s.setSt { t with traps := vset t.traps 1 (setRecordField t.traps[1] (num - 0x046) v) }
    else s

/-- A write of 1 to the V bit of SPFLAG or RACEINFO clears the register (R25). -/
def clearSticky (num : Nat) (x : Word) (s : State) : State :=
  if sel x 63 1 = 0 then s
  else if num = 0x013 then s.setRs { s.rs with spflag := 0 }
  else if num = 0x080 then s.setRs { s.rs with raceinfo := 0 }
  else s

/-- What SRD, SWR, SSET and SCLR do (R215). -/
inductive SysFn where
  | srd | swr | sset | sclr
deriving DecidableEq, Repr

/-- The register after the access: f gives what RW fields take; W1C bits are cleared where the operand is 1, except by SCLR (R215). -/
def sysEffect (f : SysFn) (num : Nat) (old x : Word) (s : State) : State :=
  match f with
  | .srd => s
  | .swr => clearSticky num x (sysWrite num x s)
  | .sset => clearSticky num x (sysWrite num (old ||| x) s)
  | .sclr => sysWrite num (old &&& ~~~x) s

/-- An access to a system register (R24, R215, R216): GUARDCFG takes its place in the multiplier order. Log entry 49 (DEDUCED). -/
def sysAccess (i : Instr) (f : SysFn) (a : Reg) (n : BitVec 12) (x : Word) (s0 s : State) : Res :=
  match sysRead s n.toNat with
  | none => trap 0x01 (n.setWidth 64) s0
  | some old =>
    withRoomX a s0 s <|
      if n = 0x030 ∧ (multBusy s = true ∨ s.behindCommands = true) then stall s0
      else finishX i a old (sysEffect f n.toNat old x s)

/-- SRD (R215). -/
def execSrd (a : Reg) (n : BitVec 12) (s : State) : Res := sysAccess (.srd a n) .srd a n 0 s s
/-- SWR (R215). SWR, SSET and SCLR take their value, from a queue if x names one, before the number is looked at: R84 puts the wait for an operand in
no step. Log entry 49 (DEDUCED). -/
def execSwr (a : Reg) (n : BitVec 12) (b : Reg) (s : State) : Res :=
  withX b s s fun x s1 => sysAccess (.swr a n b) .swr a n x s s1
/-- SSET (R215). -/
def execSset (a : Reg) (n : BitVec 12) (b : Reg) (s : State) : Res :=
  withX b s s fun x s1 => sysAccess (.sset a n b) .sset a n x s s1
/-- SCLR (R215). -/
def execSclr (a : Reg) (n : BitVec 12) (b : Reg) (s : State) : Res :=
  withX b s s fun x s1 => sysAccess (.sclr a n b) .sclr a n x s s1

/-! ## Operand-extension registers (R217) -/

/-- The offset of OXL and OXS: bits 3 to 0 cleared. -/
def oxOffset (x : Word) : Int := ((x.toNat / 16 * 16 : Nat) : Int)

/-- OXL (R217). -/
def execOxl (a b : Reg) (s : State) : Res :=
  withX b s s fun x s1 => localAccess s true false (byteRange (oxOffset x) 16) s1 fun s2 =>
    retire (.oxl a b) (writeOx a (BitVec.ofNat 128 (spadRd s2 (oxOffset x) 16)) s2)

/-- OXS (R217). -/
def execOxs (a b : Reg) (s : State) : Res :=
  withX b s s fun x s1 => storeX (.oxs a b) (oxOffset x) 16 (s1.oxv a).toNat s s1

/-- OXC (R217): sel 0 to 7 a halfword, 8 and 9 a doubleword. -/
def oxField (d : BitVec 128) (k : Nat) (x : Word) : BitVec 128 :=
  if k < 8 then setField d (16 * k) 16 x.toNat else setField d (64 * (k - 8)) 64 x.toNat

/-- OXC (R217). -/
def execOxc (a b c : Reg) (s : State) : Res :=
  withX b s s fun x s1 => retire (.oxc a b c) (writeOx a (oxField (s1.oxv a) c.toNat x) s1)

/-! ## Leaving and raising traps (R219 to R222) -/

/-- Whether a quad-remote load of the current stream has yet to write a register (R109). Log entry 8 (DEDUCED). -/
def loadPending (s : State) : Bool := s.core.remote.any (fun e => decide (e.slot = s.cur) && !e.write)

/-- TRET, TSPILL and TFILL are legal at trap level 1 or 2; at level 0 they take ILLOP. They wait for results in flight (R109,
R219). -/
def atTrapLevel (i : Instr) (s : State) (k : Res) : Res :=
  if s.st.tlevel = 0 then trap 0x01 (BitVec.ofNat 64 (encode i)) s
  else if loadPending s then stall s
  else k

/-- TRET (R220). Log entry 8 (DEDUCED). -/
def execTret (s : State) : Res := atTrapLevel .tret s (.next (returnFromTrap s))

/-- TABORT (R221, R306). -/
def execTabort (k : BitVec 1) (s : State) : Res := .next (abortActivation s.ri (decide (k = 1)) 0 0 0 0 s)

/-- BRK (R222). -/
def execBrk (c : BitVec 8) (s : State) : Res := trap 0x1E (c.setWidth 64) s

/-- SVC (R222): TEPC is the address after it. -/
def execSvc (c : BitVec 8) (s : State) : Res :=
  raise 0x1F (s.st.pc + 4) (c.setWidth 64) s

/-! ## The save area (R223 to R225) -/

/-- The place of the trap bank of the current level. -/
def trapBank (t : Stream) : Fin 2 := if t.tlevel.toNat ≤ 1 then 0 else 1

/-- The address of the area of level n (R223). -/
def saveArea (t : Stream) : Nat := sel t.tsave 9 39 * 512 + 512 * (t.tlevel.toNat - 1)

/-- The doubleword of queue counts and QM (R223). -/
def queueState (s : State) : Word :=
  let q := match s.task with
    | none => 0
    | some t => t.sq[0].length + t.sq[1].length * 2 ^ 4 + t.sq[2].length * 2 ^ 8 + t.sq[3].length * 2 ^ 12
        + t.vq[0].length * 2 ^ 16 + t.vq[1].length * 2 ^ 20
  BitVec.ofNat 64 (q + s.st.qm.toNat * 2 ^ 32)

/-- The 64 doublewords of the save area (R223). -/
def saveWords (s : State) : List Word :=
  let t := s.st
  let n := trapBank t
  let low : List Word := (List.finRange 24).map (fun i => t.getX (BitVec.ofNat 5 i.val))
  let high : List Word := t.xbank[n].toList
  let masks : List Word := [BitVec.ofNat 64 (packElems 16 ((List.finRange 4).map (fun i => (t.getM ⟨i.val, by omega⟩).toNat))),
    BitVec.ofNat 64 (packElems 16 ((List.finRange 4).map (fun i => (t.getM ⟨i.val + 4, by omega⟩).toNat)))]
  let tr := t.traps[n]
  low ++ high ++ masks ++ [queueState s,
    BitVec.ofNat 64 (t.fmode.toNat + t.fflags.toNat * 2 ^ 8 + t.tlevel.toNat * 2 ^ 16),
    tr.cause, tr.epc, tr.info, tr.msg] ++ List.replicate 23 0 ++ [1]

/-- The checks that TSPILL and TFILL share: SAVEBOUND, then the translation and the permission of the area's page (R224, R225); then k
goes on with the page's word. Log entries 8 and 22 (DEDUCED). -/
def areaAccess (wr : Bool) (s : State) (k : Word → State → Res) : Res :=
  let n := s.st.tlevel.toNat
  let va := saveArea s.st
  let fault (why : Nat) : Res := trap 0x18 (BitVec.ofNat 64 (va % 2 ^ 48 + why * 2 ^ 48)) s
  if s.st.tsavelen.toNat < 512 * n then trap 0x19 (BitVec.ofNat 64 (512 * n)) s
  else match translateStack s.rs.asid (pageOf va) s with
    | (.bad why, _) => fault why
    | (.held _, _) => stall s
    | (.ok w, s1) => if permits w (!wr) wr then k w s1 else fault 2

/-- Starts a TSPILL or TFILL of the current stream: its columns are moved by its agents' beats, and it waits for the last (R224, R225, R233). -/
def startArea (wr : Bool) (w : Word) (s : State) : Res :=
  let bs := if wr then (saveWords s).flatMap (fun d => leBytes 8 d.toNat) else []
  stall (s.setSt { s.st with area := some ⟨wr, saveArea s.st, w, bs, 0⟩ })

/-- TSPILL (R224). Log entry 22 (DEDUCED). -/
def execTspill (s : State) : Res :=
  atTrapLevel .tspill s <| match s.st.area with
    | none => areaAccess true s (startArea true)
    | some a => if a.done < 32 then stall s else retire .tspill (s.setSt { s.st with area := none })

/-- The step of an area goes on with n bytes read or written in the next column. -/
def areaMoved (i : SlotIx) (a : Area) (bs : List Byte) (s : State) : State :=
  { s with streams := vset s.streams i { s.streams[i] with area := some { a with bytes := bs, done := a.done + 1 } } }

/-- The next column of a TSPILL or TFILL in progress: a piece that its agent refuses counts as performed, and a byte that is refused or cannot be corrected
is read as a free value (R224, R225, R233, R257). Log entries 7 and 22 (DESIGN CHOICE, DEDUCED). -/
def trySpillColumn (i : SlotIx) (s : State) : Option State :=
  let t := s.streams[i]
  match t.area with
  | none => none
  | some a =>
    if t.active = false ∨ 32 ≤ a.done then none
    else
      let asid := s.res[t.res].asid
      let va := a.va + 16 * a.done
      let p := requestPlace s asid (pageOf va) a.word (va % 2 ^ 18)
      let who := Claimant.spill i
      let refused (s : State) : State :=
        if a.wr then areaMoved i a a.bytes s
        else areaMoved i a (a.bytes ++ (List.range 16).map (fun k => Config.unreadByte (s.free + k))) { s with free := s.free + 16 }
      if targetStatus s (!queued who p s) p.vault asid (if a.wr then 29 else 30) s.address ≠ 0 then some (leaveQueue who (refused s))
      else if a.wr && epochStale s asid a.word then none
      else match reachBeat who p s with
        | (false, s1) => waited s s1
        | (true, s1) =>
          if a.wr then
            match storeColumn asid va p ((a.bytes.drop (16 * a.done)).take 16) s1 with
            | none => waited s s1
            | some (d, s2) => some (leaveQueue who (areaMoved i a a.bytes (if d = 0 then touchQuad asid s2.ownQuad s2 else s2)))
          else match beatRead p.addr s1 with
            | (0, s2) => some (leaveQueue who (areaMoved i a (a.bytes ++ readList s2.vault.mem p.addr 16) s2))
            | (_, s2) => some (leaveQueue who (refused s2))

/-- What TFILL restores from the doublewords of the area (R225). -/
def restoreArea (d : Nat → Word) (s : State) : State :=
  let t := s.st
  let n := trapBank t
  s.setSt { t with
    x := Vector.ofFn (fun (i : Fin 32) => if 1 ≤ i.val ∧ i.val < 24 then d i.val else t.x[i])
    xbank := vset t.xbank n (Vector.ofFn (fun (i : Fin 8) => d (24 + i.val)))
    m := Vector.ofFn (fun (i : Fin 8) => if i.val = 0 then t.m[i] else BitVec.ofNat 16 (sel (d (32 + i.val / 4)) (16 * (i.val % 4)) 16))
    fmode := BitVec.ofNat 2 (sel (d 35) 0 2)
    fflags := BitVec.ofNat 5 (sel (d 35) 8 5)
    traps := vset t.traps n ⟨d 36 &&& 0xFF, d 37 &&& 0x7FFE, d 38, d 39 &&& 0xFFFFFFFFFFFFFF00⟩ }

/-- TFILL (R225). Log entry 22 (DEDUCED). -/
def execTfill (s : State) : Res :=
  atTrapLevel .tfill s <| match s.st.area with
    | none => areaAccess false s (startArea false)
    | some a =>
      if a.done < 32 then stall s
      else
        let d (i : Nat) : Word := BitVec.ofNat 64 (bytesLE ((a.bytes.drop (8 * i)).take 8))
        let s := s.setSt { s.st with area := none }
        if d 63 ≠ 1 then trap 0x0B (d 63) s else retire .tfill (restoreArea d s)

/-! ## END, NOP, QMAP (R15, R37, R38, R183, R218) -/

/-- Whether the current stream's END waits: results in flight, slice work, engine operations (R109, R144, R183). -/
def endWaits (s : State) : Bool :=
  loadPending s || s.sliceBusy || s.core.engQ.any (fun e => decide (e.slot = s.cur) && e.owned)

/-- Whether a residency has a running stream. -/
def hasStream (s : State) (r : ResIx) : Bool := s.streams.toList.any (fun t => t.active && decide (t.res = r))

/-- Whether the live count of a residency is above zero (R37). -/
def isLive (s : State) (r : ResIx) : Bool :=
  let x := s.res[r]
  hasStream s r
    || s.core.readyQ.any (fun e => decide (e.res = r)) || x.ovHead.isSome || x.launchHeld
    || x.armed.any (fun off => decide (bits (recWord s r off) 0 32 ≠ 0))
    || decide (x.sinks ≠ 0) || chainBusy s r
    || decide (waitingFor s.core r 0 ≠ 0) || decide (waitingFor s.core r 1 ≠ 0) || decide (waitingFor s.core r 2 ≠ 0)
    || s.core.engQ.any (fun e => decide (e.res = r))

/-- Whether the quad-remote flag is set in any residency of the gang in the quad (R38). -/
def gangFlag (s : State) (r : ResIx) : Bool :=
  s.res[r].quadRemote || s.quad.mates.toList.any (fun m =>
    m.residencies.any (fun x => decide (x.gang = s.res[r].gang) && x.quadRemote))

/-- Whether an entry of a send buffer is an emission. -/
def BufEntry.isEmit : BufEntry → Bool
  | .emit _ _ _ => true
  | _ => false

/-- What of a send buffer goes to the network interface when the task ends, each with the cycle of its issue; EMIT entries go to the egress gate (R204, R209,
R228). -/
def releaseBuffer (r : ResIx) (b : List BufEntry) (ages : List Word) (s : State) : State :=
  let emits := b.filter BufEntry.isEmit
  let others := (b.zipIdx.map (fun e => (e.1, ages.getD e.2 s.core.cycle))).filter (fun e => !e.1.isEmit)
  let s := { s with net := { s.net with
    outbound := s.net.outbound ++ others.map (fun (e : BufEntry × Word) => (⟨r, s.res[r].gang, s.net.nextId, e.1, e.2⟩ : Released)), nextId := s.net.nextId + 1 } }
  s.setRes r { s.res[r] with journal := { s.res[r].journal with gate := s.res[r].journal.gate ++ emits } }

/-- The last stream of a task has ended (R15, R192, R198, R204, R307). -/
def endTask (r : ResIx) (s : State) : State :=
  match s.res[r].task with
  | none => s
  | some t =>
    let s := handOver r none (releaseBuffer r t.sendBuf t.ages s)
    let s := match t.trigger with
      | .message m => removeTrigger r m s
      | _ => s
    s.setRes r { s.res[r] with task := none, abortCount := 0 }

/-- The current stream ends: its slot becomes free, and the task ends with its last stream (R15). -/
def endOfStream (s : State) : State :=
  let r := s.ri
  let s1 := { s with core := forgetSlot s.core (fun i => decide (i = s.cur)) }
  let s2 := s1.setRes r { s1.res[r] with
    copyOwner := s1.res[r].copyOwner.filter (fun e => decide (bits e.2.toNat 0 2 ≠ s.cur.val)), freeSince := s1.core.cycle }
  let s3 := s2.setSt { s2.st with active := false, loops := [], qm := false, stalled := false }
  if hasStream s3 r then s3 else endTask r s3

/-- END for either encoding (R15, R38, R218): EXITEARLY where it would release a quad-mapped residency whose gang's flag is set. -/
def endStreamOp (s : State) : Res :=
  if endWaits s then stall s
  else
    let s1 := endOfStream s
    if s.rs.quadMapped ∧ isLive s1 s.ri = false ∧ gangFlag s s.ri = true then trap 0x17 0 s else .next s1

/-- END (R15). -/
def execEndStream (s : State) : Res := endStreamOp s

/-- NOP (R218). -/
def execNop (s : State) : Res := retire .nop s

/-- QMAP (R21, R218). -/
def execQmap (q : BitVec 1) (s : State) : Res := retire (.qmap q) (s.setSt { s.st with qm := decide (q = 1) })

/-! ## The emission journal (R226 to R229) -/

/-- The lowest failing field of a JREC descriptor (R226). -/
def jrecBadBit (d : BitVec 128) : Option Nat :=
  if fld d 0 16 % 16 ≠ 0 then some 0
  else if fld d 16 8 = 0 ∨ 4 < fld d 16 8 then some 16
  else if fld d 24 8 ≠ 0 then some 24
  else if fld d 64 64 ≠ 0 then some 64
  else none

/-- The records of a residency in the journal staging: those not yet written to the local window (R377). -/
def stagedRecords (j : Journal) : Nat := j.unsealed.length + (j.batches.map (fun (b : Batch) => b.slots.length)).sum

/-- Whether the stack's journal staging has no free entry: 8 MiB hold 65,536 entries as large as a slot (R377, R378). Log entry 28 (DESIGN CHOICE). -/
def stagingFull (s : State) : Bool :=
  decide (65536 ≤ s.resil.stagingOthers + (s.res.toList.map (fun x => stagedRecords x.journal)).sum)

/-- JREC (R226); it waits while the stack's journal staging is full (R377). Log entry 19 (DEDUCED). -/
def execJrec (a b : Reg) (s : State) : Res :=
  let d := s.oxv b
  match jrecBadBit d with
  | some bit => trap 0x0B (BitVec.ofNat 64 (fieldFault bit)) s
  | none =>
    withRoomX a s s <|
      let j := s.rs.journal
      if 256 ≤ s.rs.jseq.toNat - j.covered.toNat then finishX (.jrec a b) a (BitVec.allOnes 64) s
      else if stagingFull s then stall s
      else
        let off := fld d 0 16
        let n := 16 * fld d 16 8
        localAccess s true false (byteRange off n) s fun s1 =>
          let q := s1.rs.jseq
          let slot : JSlot := ⟨q, BitVec.ofNat 32 (fld d 32 32), j.jid, BitVec.ofNat 7 n, BitVec.ofNat 512 (spadRd s1 off n)⟩
          let s2 := s1.setRs { s1.rs with
            jseq := q + 1, journal := { s1.rs.journal with unsealed := s1.rs.journal.unsealed ++ [slot], lastStaged := s1.mgr.tick } }
          finishX (.jrec a b) a q s2

/-- Closes a residency's batch of unsealed records, if it has any (R227). -/
def sealBatch (r : ResIx) (s : State) : State :=
  let j := s.res[r].journal
  if j.unsealed.isEmpty then s
  else s.setRes r { s.res[r] with journal := { j with
    batches := j.batches ++ [⟨j.unsealed, j.lastStaged⟩], unsealed := [] } }

/-- JSEAL (R227). -/
def execJseal (a : Reg) (s : State) : Res :=
  withRoomX a s s <|
    let top := match s.rs.journal.unsealed.getLast? with
      | none => BitVec.allOnes 64
      | some x => x.num
    finishX (.jseal a) a top (sealBatch s.ri s)

/-- The lowest failing field of an EMIT descriptor (R228). Log entry 19 (DEDUCED). -/
def emitBadBit (s : State) (d : BitVec 128) : Option Nat :=
  if fld d 127 1 = 0 ∧ s.rs.jseq.toNat ≤ fld d 0 64 then some 0
  else if 64 < fld d 120 7 then some 120
  else none

/-- EMIT (R228). Log entry 19 (DEDUCED). -/
def execEmit (b c : Reg) (s : State) : Res :=
  withV c s s fun p s1 =>
    let d := s1.oxv b
    match emitBadBit s1 d with
    | some bit => trap 0x0B (BitVec.ofNat 64 (fieldFault bit)) s
    | none =>
      let m := newMsg s1 (BitVec.ofNat 32 (fld d 64 32)) 0 false (BitVec.ofNat 16 (fld d 96 16)) (BitVec.ofNat 8 (fld d 112 8)) 0
        (fld d 120 7) p.toNat
      sendChecks 1 0 false s s1 <|
        retire (.emit b c) (appendEntries [.emit m (decide (fld d 127 1 = 1)) (BitVec.ofNat 64 (fld d 0 64))] s1)

/-! ## Random numbers (R230) -/

/-- The four words and the two keys of a Philox block. -/
structure PhiloxState where
  x0 : BitVec 32
  x1 : BitVec 32
  x2 : BitVec 32
  x3 : BitVec 32
  k0 : BitVec 32
  k1 : BitVec 32
deriving DecidableEq, Repr

/-- One round of Philox 4×32, then the keys of the next. -/
def philoxRound (p : PhiloxState) : PhiloxState :=
  let a := 0xD2511F53 * p.x0.toNat
  let b := 0xCD9E8D57 * p.x2.toNat
  { x0 := BitVec.ofNat 32 (b / 2 ^ 32) ^^^ p.x1 ^^^ p.k0, x1 := BitVec.ofNat 32 b,
    x2 := BitVec.ofNat 32 (a / 2 ^ 32) ^^^ p.x3 ^^^ p.k1, x3 := BitVec.ofNat 32 a,
    k0 := p.k0 + 0x9E3779B9, k1 := p.k1 + 0xBB67AE85 }

/-- n rounds. -/
def philoxRounds : Nat → PhiloxState → PhiloxState
  | 0, p => p
  | n + 1, p => philoxRounds n (philoxRound p)

/-- Block i of RNGB: 128 bits, x0 lowest. -/
def philoxBlock (key ctr : BitVec 128) (i : Nat) : Nat :=
  let x := (ctr + BitVec.ofNat 128 i).toNat ^^^ (fld key 64 64 * 2 ^ 64)
  let w (k : Nat) : BitVec 32 := BitVec.ofNat 32 (x / 2 ^ (32 * k))
  let p := philoxRounds 10 ⟨w 0, w 1, w 2, w 3, BitVec.ofNat 32 key.toNat, BitVec.ofNat 32 (key.toNat / 2 ^ 32)⟩
  p.x0.toNat + p.x1.toNat * 2 ^ 32 + p.x2.toNat * 2 ^ 64 + p.x3.toNat * 2 ^ 96

/-- RNGB (R230). -/
def execRngb (a b : Reg) (s : State) : Res :=
  withRoomV a s s <|
    let key := s.oxv b
    let ctr := s.oxv (b + 1)
    let v : VWord := BitVec.ofNat 512 (packElems 128 ((List.range 4).map (philoxBlock key ctr)))
    finishV (.rngb a b) a v (writeOx (b + 1) (ctr + 4) s)

end Sys2Proof.Machine
end

