-- ==== Sys2Proof/Machine/Compact.lean ====
section
/-! DEFINITION. The 16-bit forms (R82): each has the effect of its 32-bit instruction, apart from its length. -/

namespace Sys2Proof.Machine

/-- A six-bit signed immediate, extended. -/
def imm6 (i : BitVec 6) : Word := i.signExtend 64

/-- The register x8 to x15 that a three-bit field names. -/
def nearReg (f : BitVec 3) : Reg := f.setWidth 5 + 8

/-- C_MV: ADDI xd, xs, 0. -/
def execCMv (d y : Reg) (s : State) : Res := unary (.cMv d y) d y (fun x => x) s
/-- C_ADDI: ADDI xd, xd, i. -/
def execCAddi (d : Reg) (i : BitVec 6) (s : State) : Res := unary (.cAddi d i) d d (fun x => x + imm6 i) s
/-- C_LI: ADDI xd, x0, i. -/
def execCLi (d : Reg) (i : BitVec 6) (s : State) : Res := unary (.cLi d i) d 0 (fun x => x + imm6 i) s
/-- C_ADD: ADD xd, xd, xs. -/
def execCAdd (d y : Reg) (s : State) : Res := binary (.cAdd d y) d d y (fun a b => a + b) s
/-- C_SUB: SUB xd, xd, xs. -/
def execCSub (d y : Reg) (s : State) : Res := binary (.cSub d y) d d y (fun a b => a - b) s
/-- C_AND: AND xd, xd, xs. -/
def execCAnd (d y : Reg) (s : State) : Res := binary (.cAnd d y) d d y (fun a b => a &&& b) s
/-- C_SLLI: SLLI xd, xd, n. -/
def execCSlli (d : Reg) (n : BitVec 6) (s : State) : Res := unary (.cSlli d n) d d (fun x => x <<< n.toNat) s
/-- C_SRLI: SRLI xd, xd, n. -/
def execCSrli (d : Reg) (n : BitVec 6) (s : State) : Res := unary (.cSrli d n) d d (fun x => x >>> n.toNat) s
/-- C_LW: LW xd, 4k(x2). -/
def execCLw (d : Reg) (k : BitVec 6) (s : State) : Res :=
  load (.cLw d k) d 2 (BitVec.ofNat 12 (4 * k.toNat)) 4 true s
/-- C_SW: SW xs, 4k(x2). -/
def execCSw (y : Reg) (k : BitVec 6) (s : State) : Res := store (.cSw y k) y 2 (BitVec.ofNat 12 (4 * k.toNat)) 4 s
/-- C_BEQ: BEQ xs, x0, t. -/
def execCBeq (y : BitVec 3) (o : BitVec 8) (s : State) : Res :=
  branch (.cBeq y o) (nearReg y) 0 o (fun a b => decide (a = b)) s
/-- C_BNE: BNE xs, x0, t. -/
def execCBne (y : BitVec 3) (o : BitVec 8) (s : State) : Res :=
  branch (.cBne y o) (nearReg y) 0 o (fun a b => decide (a ≠ b)) s
/-- C_J: JAL x0, t. -/
def execCJ (o : BitVec 11) (s : State) : Res := jumpLink (.cJ o) 0 o s
/-- C_END: END. -/
def execCEnd (s : State) : Res := endStreamOp s
/-- C_NOP: NOP. -/
def execCNop (s : State) : Res := retire .cNop s

end Sys2Proof.Machine
end

