-- ==== Sys2Proof/Machine/Device.lean ====
section
/-! DEFINITION. Vault accesses that the device makes for itself (R317, R334, R366, R378, R391): through translation, permission, the
wait for a stale page and at a closed port, and the dirty log, past access tables. -/

namespace Sys2Proof.Machine

/-- What an access answers: a wait, a translation fault with its reason and address, or its status and DETAIL with the bytes read and the state. -/
inductive Served where
  | wait
  | fault (why va : Nat) (s : State)
  | done (status detail : Nat) (bs : List Byte) (s : State)
deriving DecidableEq, Repr

/-- Writes bytes at a virtual address, column by column; the last argument bounds the columns. -/
def devWrite (asid : Asid) (va : Nat) (bs : List Byte) (s : State) : Nat → Served
  | 0 => .done 0 0 [] s
  | fuel + 1 =>
    if bs.isEmpty then .done 0 0 [] s
    else match translateStack asid (pageOf va) s with
      | (.bad why, s) => .fault why va s
      | (.held _, _) => .wait
      | (.ok w, s) =>
        if !permits w false true then .fault 2 va s
        else if epochStale s asid w then .wait
        else
          let k := min bs.length (16 - va % 16)
          let p := requestPlace s asid (pageOf va) w (va % 2 ^ 18)
          if vaultGated s p.vault then .wait else
          match (openColumn p s).bind (storeColumn asid va p (bs.take k)) with
          | none => .wait
          | some (0, s) => devWrite asid (va + k) (bs.drop k) s fuel
          | some (d, s) => .done 6 d [] s

/-- Reads bytes at a virtual address, column by column. -/
def devRead (asid : Asid) (va n : Nat) (s : State) : Nat → Served
  | 0 => .done 0 0 [] s
  | fuel + 1 =>
    if n = 0 then .done 0 0 [] s
    else match translateStack asid (pageOf va) s with
      | (.bad why, s) => .fault why va s
      | (.held _, _) => .wait
      | (.ok w, s) =>
        if !permits w true false then .fault 2 va s
        else
          let k := min n (16 - va % 16)
          let p := requestPlace s asid (pageOf va) w (va % 2 ^ 18)
          if vaultGated s p.vault then .wait else
          match openColumn p s with
          | none => .wait
          | some s =>
            match beatRead p.addr s with
            | (0, s) =>
              match devRead asid (va + k) (n - k) s fuel with
              | .done st d rest s => .done st d (readList s.vault.mem p.addr k ++ rest) s
              | e => e
            | (d, s) => .done 6 d [] s

/-- n bytes at a virtual address, when they can be read whole at once. -/
def devBytes (asid : Asid) (va n : Nat) (s : State) : Option (List Byte × State) :=
  match devRead asid va n s (n + 1) with
  | .done 0 _ bs s => some (bs, s)
  | _ => none

/-- The bytes are written at a virtual address, when they can be written whole at once. -/
def devPut (asid : Asid) (va : Nat) (bs : List Byte) (s : State) : Option State :=
  match devWrite asid va bs s (bs.length + 1) with
  | .done 0 _ _ s => some s
  | _ => none

/-- A doubleword of a list of bytes. -/
def dwordAt (bs : List Byte) (i : Nat) : Word := BitVec.ofNat 64 (bytesLE ((bs.drop (8 * i)).take 8))

/-- What the device tells the stack manager's firmware. -/
def notify (code : Nat) (v : Word) (s : State) : State := { s with mgr := { s.mgr with notices := s.mgr.notices ++ [(code, v)] } }

/-! ## MSI-X (R363, R369) -/

/-- A doubleword of the MSI-X table that nothing has written: the vector control of every entry has its mask bit set. Log entry 51 (PRESUMED). -/
def msixDefault (i : Nat) : Word := if i % 2 = 1 then BitVec.ofNat 64 (2 ^ 32) else 0

/-- Doubleword i of the MSI-X table (R363). -/
def msixWord (s : State) (i : Nat) : Word := Table.get (msixDefault i) s.host.msixTable i

/-- Whether a vector is masked in the table. Log entry 51 (PRESUMED). -/
def vectorMasked (s : State) (v : Nat) : Bool := decide (sel (msixWord s (2 * v + 1)) 32 1 = 1)

/-- A vector is raised (R369); a masked one is pending (R363). Log entry 51 (DESIGN CHOICE, PRESUMED). -/
def raiseVector (v : Nat) (s : State) : State :=
  if vectorMasked s v then { s with host := { s.host with vectorsHeld := v :: s.host.vectorsHeld.filter (fun k => decide (k ≠ v)) } }
  else { s with host := { s.host with msix := s.host.msix ++ [v] } }

/-- The pending-bit array (R363). -/
def pendingBits (s : State) : Word := BitVec.ofNat 64 (s.host.vectorsHeld.map (fun v => 2 ^ v)).sum

/-- Pending vectors that are no longer masked are raised. -/
def raisePending (s : State) : State :=
  let free := s.host.vectorsHeld.filter (fun v => !vectorMasked s v)
  { s with host := { s.host with vectorsHeld := s.host.vectorsHeld.filter (vectorMasked s), msix := s.host.msix ++ free.reverse } }

/-! ## Mail spill (R317, R318) -/

/-- The message that two header doublewords and a payload are (R196). -/
def msgOf (d0 d1 : Word) (payload : BitVec 512) : Msg where
  dest := BitVec.ofNat 32 (sel d1 32 32)
  gen := BitVec.ofNat 4 (sel d1 28 4)
  asid := BitVec.ofNat 12 (sel d1 16 12)
  scope := BitVec.ofNat 3 (sel d1 13 3)
  vn := BitVec.ofNat 2 (sel d1 11 2)
  spl := decide (sel d1 10 1 = 1)
  dev := decide (sel d1 9 1 = 1)
  rq := decide (sel d1 8 1 = 1)
  sg := decide (sel d1 7 1 = 1)
  len := BitVec.ofNat 7 (sel d1 0 7)
  src := BitVec.ofNat 32 (sel d0 32 32)
  seq := BitVec.ofNat 16 (sel d0 16 16)
  hidx := BitVec.ofNat 8 (sel d0 8 8)
  rhidx := BitVec.ofNat 8 (sel d0 0 8)
  payload := payload

/-- The spill area of a context; none where the stack manager has placed none. -/
def spillArea (s : State) (asid : Asid) (gen : BitVec 4) : Option Nat :=
  (s.net.spillAreas.find? (fun e => decide (e.1 = asid ∧ e.2.1 = gen))).map (fun e => e.2.2.toNat % 2 ^ 48)

/-- The 128 bytes of a spilled message (R317): the two header doublewords, the payload, and the arrival tick at offset 80. -/
def spillSlot (m : Msg) (tick : Word) : List Byte :=
  leBytes 8 (msgD0 m).toNat ++ leBytes 8 (msgD1 m).toNat ++ leBytes 64 m.payload.toNat ++ leBytes 8 tick.toNat ++ List.replicate 40 0

/-- Writes a message that arrived at a tick to the spill area of its context; none while the area is full or missing, or its page faults (R317).
Log entry 27 (DEDUCED). -/
def spillMessage (asid : Asid) (gen : BitVec 4) (m : Msg) (tick : Word) (s : State) : Option State :=
  match spillArea s asid gen with
  | none => none
  | some va =>
    match devBytes asid va 24 s with
    | none => none
    | some (h, s) =>
      let w := (dwordAt h 0).toNat
      let cap := (dwordAt h 2).toNat
      if cap ≤ w - (dwordAt h 1).toNat then none
      else match devPut asid (va + 64 + 128 * (w % cap)) (spillSlot m tick) s with
        | none => none
        | some s => devPut asid va (leBytes 8 (w + 1)) s

/-- The oldest message of a spill area that is not delivered, with the state in which it counts as delivered: the outer none is a wait, the
inner none an empty area (R318). -/
def spillTake (asid : Asid) (gen : BitVec 4) (s : State) : Option (Option Msg × State) :=
  match spillArea s asid gen with
  | none => some (none, s)
  | some va =>
    match devBytes asid va 24 s with
    | none => none
    | some (h, s) =>
      let w := (dwordAt h 0).toNat
      let d := (dwordAt h 1).toNat
      let cap := (dwordAt h 2).toNat
      if w ≤ d ∨ cap = 0 then some (none, s)
      else match devBytes asid (va + 64 + 128 * (d % cap)) 80 s with
        | none => none
        | some (b, s) =>
          match devPut asid (va + 8) (leBytes 8 (d + 1)) s with
          | none => none
          | some s => some (some (trimmed (msgOf (dwordAt b 0) (dwordAt b 1) (BitVec.ofNat 512 (bytesLE ((b.drop 16).take 64))))), s)

end Sys2Proof.Machine
end

