-- ==== Sys2Proof/Machine/CoreSteps.lean ====
section
/-! DEFINITION. Steps of the core that no instruction makes: ILLOP, the watchdog, kill, release, dispatch, barriers, quad-remote accesses
and the slew unit (R36 to R41, R126, R214, R283 to R299, R304, R308, R337 to R341). -/

namespace Sys2Proof.Machine

/-! ## Traps from outside the program (R83, R304, R308) -/

/-- ILLOP (R83): the word that is no instruction is TINFO. -/
def execIllop (w : BitVec 32) (s : State) : Res := trap 0x01 (w.setWidth 64) s

/-- The slots of the running streams of a residency. -/
def runningSlots (s : State) (r : ResIx) : BitVec 4 :=
  BitVec.ofNat 4 (((List.finRange 4).map (fun i => if s.streams[i].active ∧ s.streams[i].res = r then 2 ^ i.val else 0)).sum)

/-- An expiry of a task's BUDGET: it stands at 0, and the grace for the expiry before it, if there was one, has been given; every stream of the task
owes a WDOG for it (R26, R304). -/
def noteExpiry (r : ResIx) (s : State) : State :=
  match s.res[r].task with
  | none => s
  | some t =>
    if t.budget = 0 ∧ t.graces = t.expiries then
      let t := if t.expiries = 0 then { t with owed := runningSlots s r } else { t with owedAgain := runningSlots s r }
      s.setRes r { s.res[r] with task := some { t with expiries := t.expiries + 1 } }
    else s

/-- Whether a slot's stream owes a WDOG: for an expiry whose WDOG it has not taken, or for the third. -/
def Task.owes (t : Task) (slot : SlotIx) : Bool := decide (3 ≤ t.expiries) || t.owed.getLsbD slot.val || t.owedAgain.getLsbD slot.val

/-- A stream's WDOG is taken: the first that it owes, with the grace of 512 cycles where no stream has entered its handler for that expiry
before (R304). -/
def Task.takeOwed (t : Task) (slot : SlotIx) : Task :=
  let now := if t.owed.getLsbD slot.val then 1 else 2
  let t := if now = 1 then { t with owed := t.owed &&& ~~~(1#4 <<< slot.val) } else { t with owedAgain := t.owedAgain &&& ~~~(1#4 <<< slot.val) }
  if t.graces < now then { t with graces := now, budget := 512 } else t

/-- Whether a stream is at no issue opportunity for a WDOG: a trap that it has raised waits for its slice work and is entered first (R122, R125, R162), or
its TSPILL or TFILL has issued and is not complete (R109, R110, R224, R225). -/
def Stream.midway (t : Stream) : Bool := t.due.isSome || t.area.isSome

/-- What a stream's WDOG would do now: 2 kill the context, 1 abort the activation, 0 enter its handler; none where it owes none, is between two issue
opportunities, or its slice work is in progress (R162, R303). -/
def wdogRank (s : State) (r : ResIx) (t : Task) (i : SlotIx) : Option Nat :=
  let s := { s with cur := i }
  if s.st.active ∧ s.ri = r ∧ t.owes i = true ∧ s.st.midway = false ∧ s.sliceBusy = false then
    some (if 2 ≤ s.st.tlevel.toNat then 2 else if vectorOf s 0x1C = none then 1 else 0)
  else none

/-- The slot whose WDOG takes effect first: of the WDOGs due together a kill goes before an abort and an abort before the entries, the lowest slot
first (R305, R309). -/
def wdogFirst (s : State) (r : ResIx) (t : Task) (slot : SlotIx) : SlotIx :=
  let having (k : Nat) : Option SlotIx := (List.finRange 4).find? (fun i => decide (wdogRank s r t i = some k))
  (having 2).getD ((having 1).getD slot)

/-- A WDOG is taken (R304, R305): the third expiry kills the context. -/
def takeWdog (slot : SlotIx) (t : Task) (s : State) : Res :=
  let r := s.streams[slot].res
  if 3 ≤ t.expiries then
    let k := reportSlot r 4 s
    let epc := match k with
      | none => 0
      | some i => s.streams[i].pc
    .next (killResidency r k 4 0x1C epc 0 { s with cur := slot })
  else
    let first := wdogFirst s r t slot
    let s := { s with cur := first }
    if s.sliceBusy then stall s
    else .next (takeTrap 0x1C s.st.pc 0 (s.setTask (t.takeOwed first)))

/-- WDOG of a slot (R26, R304). -/
def execWdog (slot : SlotIx) (s : State) : Res :=
  let x := s.streams[slot]
  if x.active ∧ x.midway = false then
    let s1 := noteExpiry x.res s
    match s1.res[x.res].task with
    | none => .next s
    | some t => if t.owes slot then takeWdog slot t s1 else .next s
  else .next s

/-- KILL by the stack manager (R308, R309). -/
def execKill (r : ResIx) (s : State) : Res :=
  if s.res[r].state ≠ .free ∧ s.res[r].killed = false then .next (killResidency r (reportSlot r 3 s) 3 0 0 0 s) else .next s

/-! ## Barriers (R38, R123, R214) -/

/-- The gang with an identifier. -/
def gangOf (s : State) (gang : BitVec 16) : Option Gang := s.mgr.gangs.find? (fun g => decide (g.gang = gang))

/-- The members of a gang's barrier at a scope around a core. Log entry 20 (DESIGN CHOICE). -/
def barrierMembers (s : State) (gang : BitVec 16) (scope : BitVec 3) (core : BitVec 32) : List (BitVec 32) :=
  match gangOf s gang with
  | none => []
  | some g => g.members.filter (fun m => sameScope scope.toNat m core)

/-- The continuation offset with which a core has arrived at a barrier, if it has. -/
def arrivedAt (s : State) (gang : BitVec 16) (scope : BitVec 3) (core : BitVec 32) : Option Word :=
  (s.net.arrivals.find? (fun a => decide (a.1 = gang ∧ a.2.1 = scope ∧ a.2.2.1 = core))).map (fun a => a.2.2.2)

/-- Whether every member has arrived, and one at least. -/
def barrierFull (s : State) (gang : BitVec 16) (scope : BitVec 3) (core : BitVec 32) : Bool :=
  let ms := barrierMembers s gang scope core
  !ms.isEmpty && ms.all (fun m => (arrivedAt s gang scope m).isSome)

/-- The residency of a gang on this core. -/
def residencyOf (s : State) (gang : BitVec 16) : Option ResIx :=
  (List.finRange 4).find? (fun r => decide (s.res[r].state ≠ .free) && decide (s.res[r].gang = gang))

/-- The message as which a barrier release, a decrement of a record, waits in a spill area (R316 to R318). -/
def decrementMail (s : State) (asid : Asid) (gen : BitVec 4) (off : Nat) : Msg where
  dest := s.address
  gen := gen
  asid := asid
  scope := 0
  vn := 0
  spl := false
  dev := true
  rq := false
  sg := false
  len := 16
  src := s.address
  seq := 0
  hidx := 0
  rhidx := 0
  payload := BitVec.ofNat 512 (off % 2 ^ 16 + 2 ^ 64)

/-- The phase of the quad's residencies of a gang advances: their granule records and quad-remote flags are cleared (R38, R123). -/
def advancePhase (gang : BitVec 16) (s : State) : State :=
  { s with
    res := s.res.map (fun x => if x.state ≠ .free ∧ x.gang = gang then { x with phase := x.phase + 1, granules := [], quadRemote := false } else x)
    quad := { s.quad with mates := s.quad.mates.map (fun m => { m with residencies := m.residencies.map (fun (y : MateRes) =>
      if y.gang = gang then { y with granules := [], quadRemote := false } else y) }) } }

/-- The decrement of a continuation record by a release: at the residency, or as mail of a context that is saving, away or back with mail not yet delivered,
or whose quad is being scanned (R214, R316, R318, R394). An offset of 0x10000 or more lies in no reservation, and the decrement takes no effect (R28). -/
def continueAt (gang : BitVec 16) (scope : BitVec 3) (off : Word) (s : State) : State :=
  match residencyOf s gang with
  | some r =>
    let s := s.setRes r { s.res[r] with arrivals := s.res[r].arrivals.filter (fun a => decide (a.1 ≠ scope)) }
    if s.res[r].killed ∨ 0x10000 ≤ off.toNat then s
    else if s.res[r].state = .saving ∨ s.res[r].mail = true ∨ s.inScan = true then arriveInbound (decrementMail s s.res[r].asid s.res[r].gen off.toNat) s
    else decRecord r (off.toNat / 64 * 64) 1 s
  | none =>
    match s.net.switchedOut.find? (fun a => decide (a.gang = gang)) with
    | none => s
    | some a =>
      let s := if 0x10000 ≤ off.toNat then s else arriveInbound (decrementMail s a.asid a.gen off.toNat) s
      { s with net := { s.net with
        switchedOut := s.net.switchedOut.map (fun (b : Away) =>
          if b.gang = gang then { b with arrivals := b.arrivals.filter (fun e => decide (e.1 ≠ scope)) } else b) } }

/-- A barrier releases when every member has arrived (R214). -/
def releaseBarrier (gang : BitVec 16) (scope : BitVec 3) (core : BitVec 32) (s : State) : State :=
  if barrierFull s gang scope core then
    let mine := if sameScope scope.toNat s.address core then arrivedAt s gang scope s.address else none
    let s1 := { s with net := { s.net with arrivals := s.net.arrivals.filter (fun a =>
      !(decide (a.1 = gang ∧ a.2.1 = scope) && sameScope scope.toNat a.2.2.1 core)) } }
    let s2 := if scope = 1 ∧ sameScope 1 s.address core = true then advancePhase gang s1 else s1
    match mine with
    | none => s2
    | some off => continueAt gang scope off s2
  else s

/-- A core whose residency of a gang is released, not killed, leaves the members of the gang's barriers (R214). -/
def leaveBarriers (gang : BitVec 16) (core : BitVec 32) (s : State) : State :=
  let s := { s with
    mgr := { s.mgr with gangs := s.mgr.gangs.map (fun (g : Gang) =>
      if g.gang = gang then { g with members := g.members.filter (fun m => decide (m ≠ core)) } else g) }
    net := { s.net with arrivals := s.net.arrivals.filter (fun a => !decide (a.1 = gang ∧ a.2.2.1 = core)) } }
  (List.range 5).foldl (fun s sc => releaseBarrier gang (BitVec.ofNat 3 sc) core s) s

/-- A core holds a gang no more (R37, R292). -/
def leaveGang (gang : BitVec 16) (core : BitVec 32) (killed : Bool) (s : State) : State :=
  let s := { s with mgr := { s.mgr with gangs := s.mgr.gangs.map (fun (g : Gang) =>
    if g.gang = gang then { g with holders := g.holders.filter (fun m => decide (m ≠ core)), anyKilled := g.anyKilled || killed } else g) } }
  if killed then s else leaveBarriers gang core s

/-! ## Release (R37) -/

/-- Replaces the slew unit. -/
def State.setSlew (s : State) (u : Slew) : State := { s with core := { s.core with slew := u } }

/-- The multiplier's stores return with the residency that held them (R23, R34, R37, R150). -/
def releaseMultiplier (s : State) : State :=
  let s := quadRelease s
  { s with core := { s.core with
      xbuf := [], ybuf := [], xside := [], yside := [], xBad := [], yBad := [], accs := Vector.replicate 64 Acc.zero,
      sq := 0, wx := 0, wy := 0, jm := if s.quad.leaveDue then 2 else 0 } }

/-- A residency is returned; its journal binding stays until the record is bound again (R37, R375). -/
def returnResidency (r : ResIx) (s : State) : State :=
  let x := s.res[r]
  let s := if x.accs = 0 then s else releaseMultiplier s
  let s := s.setSlew { s.core.slew with work := s.core.slew.work.map (fun w => if w.res = some r then { w with res := none } else w) }
  let s := s.setRes r { Residency.free with journal := x.journal, jseq := x.jseq, jack := x.jack, asid := x.asid, gen := x.gen }
  leaveGang x.gang s.address x.killed s

/-- Whether a residency is to be released: it runs or drains, or was killed, and its live count is zero (R37), with no spilled message left to deliver
(R318). -/
def releasable (s : State) (r : ResIx) : Bool :=
  let x := s.res[r]
  decide (x.state ≠ .free) && !isLive s r && !x.mail && !s.core.remote.any (fun e => e.own s && decide (e.res = r))
    && (x.killed || ((decide (x.state = .running) || decide (x.state = .draining)) && !x.clearing))

/-- RESIDENCY_RELEASE (R37). -/
def tryResidencyRelease (r : ResIx) (s : State) : Option State := if releasable s r then some (returnResidency r s) else none
/-- RESIDENCY_RELEASE (R37). -/
def execResidencyRelease (r : ResIx) (s : State) : Res := orStay (tryResidencyRelease r s) s

/-- Messages that arrived for a residency during its clearing are offered from its end on (R36). -/
def offerFrom (r : ResIx) (now : Nat) (q : List RxEntry) : List RxEntry := q.map (fun e => if e.res = r then { e with at_ := now } else e)

/-- The clearing of a new reservation ends (R36, R295): a running record's launch task becomes ready, and messages for it are offered. -/
def tryClearEnd (r : ResIx) (s : State) : Option State :=
  let x := s.res[r]
  if x.clearing ∧ s.inScan = false then
    let c := s.core
    let now := c.cycle.toNat
    let s := { s with core := { c with rxReq := offerFrom r now c.rxReq, rxRpy := offerFrom r now c.rxRpy, rxSys := offerFrom r now c.rxSys } }
    if x.state = .running ∧ x.launchHeld = true then some (s.setRes r { x with clearing := false, launchReady := true, readyAt := now })
    else some (s.setRes r { x with clearing := false })
  else none
/-- RESERVATION_CLEAR_END (R36). -/
def execReservationClearEnd (r : ResIx) (s : State) : Res := orStay (tryClearEnd r s) s

/-- The head of an overflow chain moves into the ready queue; its LINK names the next, and one that is no record of the reservation ends
the chain (R39, R212). Log entry 21 (DEDUCED). -/
def tryOverflowMove (r : ResIx) (s : State) : Option State :=
  match s.res[r].ovHead with
  | none => none
  | some off =>
    if s.core.readyQ.length < 16 ∧ s.inScan = false then
      let link := bits (recWord s r (off + 8)) 0 16
      let more := decide (link % 64 = 0) && decide (link + 64 ≤ s.res[r].spsize.toNat)
      let s := { s with core := { s.core with readyQ := s.core.readyQ ++ [(⟨r, off, s.core.cycle.toNat⟩ : ReadyEntry)] } }
      let tail := if s.res[r].ovTail = some off then some link else s.res[r].ovTail
      some (s.setRes r { s.res[r] with ovHead := if more then some link else none, ovTail := if more then tail else none })
    else none
/-- OVERFLOW_CHAIN_MOVE (R39). -/
def execOverflowChainMove (r : ResIx) (s : State) : Res := orStay (tryOverflowMove r s) s

/-! ## Dispatch (R12 to R14, R40, R198, R212, R285, R297) -/

/-- AGELIM as it acts (R25). -/
def agelim (s : State) : Nat := max 8 s.core.agelim.toNat

/-- A descriptor with no entry: KINDS = 0 (R403). -/
def Descriptor.none : Descriptor := ⟨0, 0, 0, 0, 0⟩

/-- A handler-table entry of a role (R403). -/
def Role.handler (x : Role) (h : Nat) : Descriptor := Table.get Descriptor.none x.handlers h

/-- The stream kinds in the order in which owned slots serve them (R292). -/
def kindOrder : List Kind := [.L, .A, .E]

/-- The bit of a kind in KINDS. -/
def Kind.bit : Kind → Nat
  | .L => 0
  | .A => 1
  | .E => 2

/-- The slots that a residency owns. -/
def Residency.owned (x : Residency) : List SlotIx := (List.finRange 4).filter (fun i => x.slots.getLsbD i.val)

/-- The slot and entry of each stream of a task (R13, R292). -/
def taskStreams (x : Residency) (d : Descriptor) : List (SlotIx × Kind × BitVec 16) :=
  let kinds := kindOrder.filter (fun k => x.kinds.getLsbD k.bit)
  ((x.owned.zip kinds).filter (fun e => d.kinds.getLsbD e.2.bit)).map (fun e => (e.1, e.2, match e.2 with
    | .L => d.laddr
    | .A => d.aaddr
    | .E => d.eaddr))

/-- A stream at its start (R14). -/
def newStream (r : ResIx) (x : Residency) (kind : Kind) (pc : BitVec 16) (frame : BitVec 16) (hdr : Word) (p : Nat → Word) : Stream :=
  { Stream.idle with
    active := true, res := r, kind := kind, pc := pc.setWidth 64
    x := Vector.ofFn (fun (i : Fin 32) =>
      if i.val = 2 then frame.setWidth 64 else if i.val = 3 then hdr else if 4 ≤ i.val ∧ i.val < 8 then p (i.val - 4) else 0)
    tvec := x.role.tvec &&& 0xFFC0, tsave := x.role.tsave &&& 0x0000FFFFFFFFFE00, tsavelen := x.role.tsavelen &&& 0xFFFFFFFF }

/-- All streams of a task start together (R13, R14). -/
def startTask (r : ResIx) (trigger : Trigger) (d : Descriptor) (hdr : Word) (p : Nat → Word) (s : State) : State :=
  let x := s.res[r]
  let group := taskStreams x d
  let s := group.foldl (fun (s : State) (e : SlotIx × Kind × BitVec 16) =>
    { s with streams := vset s.streams e.1 (newStream r x e.2.1 e.2.2 d.frame hdr p) }) s
  let task : Task :=
    { trigger := trigger, slots := BitVec.ofNat 4 ((group.map (fun (e : SlotIx × Kind × BitVec 16) => 2 ^ e.1.val)).sum), sendBuf := [], ages := [],
      budget := x.budget, expiries := 0, graces := 0, owed := 0, owedAgain := 0, sq := Vector.replicate 4 [], vq := Vector.replicate 2 [] }
  s.setRes r { s.res[r] with task := some task }

/-- A candidate activation and the cycle in which it became ready (R297). -/
structure Candidate where
  trigger : Trigger
  at_ : Nat
deriving DecidableEq, Repr

/-- The message that is offered for a residency: RPY first, then SYS, then REQ (R198). -/
def offered (s : State) (r : ResIx) : Option Candidate :=
  let first (q : List RxEntry) : Option Candidate :=
    (q.find? (fun (e : RxEntry) => decide (e.res = r) && !e.held)).map (fun e => ⟨.message e.m, e.at_⟩)
  (first s.core.rxRpy).orElse (fun _ => (first s.core.rxSys).orElse (fun _ => first s.core.rxReq))

/-- The earlier of two candidates, the first where they became ready in the same cycle (R297). -/
def earlier (a b : Option Candidate) : Option Candidate :=
  match a, b with
  | none, b => b
  | a, none => a
  | some a, some b => if b.at_ < a.at_ then some b else some a

/-- A residency's candidate activation (R297). -/
def candidate (s : State) (r : ResIx) : Option Candidate :=
  let x := s.res[r]
  if x.state = .running ∧ x.killed = false ∧ x.clearing = false then
    let launch : Option Candidate := if x.launchHeld && x.launchReady then some ⟨.launch, x.readyAt⟩ else none
    let ready := (s.core.readyQ.find? (fun (e : ReadyEntry) => decide (e.res = r))).map (fun e => (⟨.record e.off, e.at_⟩ : Candidate))
    earlier (earlier launch ready) (offered s r)
  else none

/-- Whether residency a goes before residency b in the dispatcher's order (R297). -/
def dispatchBefore (s : State) (a b : ResIx × Candidate) : Bool :=
  let starved (r : ResIx) : Bool := decide (16 * agelim s ≤ s.core.cycle.toNat - s.res[r].freeSince.toNat)
  let first (r : ResIx) : Nat := ((s.res[r].owned.map Fin.val).head?).getD 4
  if starved a.1 ≠ starved b.1 then starved a.1
  else if s.res[a.1].prio ≠ s.res[b.1].prio then decide (s.res[b.1].prio.toNat < s.res[a.1].prio.toNat)
  else if a.2.at_ ≠ b.2.at_ then decide (a.2.at_ < b.2.at_)
  else decide (first a.1 ≤ first b.1)

/-- The residency that the dispatcher chooses, with its candidate. -/
def chosen (s : State) : Option (ResIx × Candidate) :=
  let cs := (List.finRange 4).filterMap (fun r =>
    if s.res[r].task = none then (candidate s r).map (fun c => (r, c)) else none)
  cs.foldl (fun b c => match b with
    | none => some c
    | some b => if dispatchBefore s b c then some b else some c) none

/-- The launch task of a residency (R285). -/
def startLaunch (r : ResIx) (s : State) : State :=
  let x := s.res[r]
  let d : Descriptor := if x.eh then x.role.handler x.hidx.toNat else ⟨0, x.role.entry.getD 0, 0, 2, 0⟩
  let s := s.setRes r { x with launchHeld := false, launchReady := false }
  startTask r .launch d 0 (fun i => x.args[i % 4]'(Nat.mod_lt _ (by decide))) s

/-- A record that names no task is not run: an abort-log entry of reason 3 (R212, R306). -/
def dropRecord (r : ResIx) (off : Nat) (s : State) : State :=
  let x := s.res[r]
  let s := setRecBit (setRecBit s r off 49 false) r off 50 false
  logAbort (0, BitVec.ofNat 64 (x.ctx * 2 ^ 48 + s.core.id.toNat * 2 ^ 32 + 3 * 2 ^ 16 + x.abortCount), 0, BitVec.ofNat 64 off) s

/-- A task record is dispatched (R14, R212, R213). -/
def startRecord (r : ResIx) (off : Nat) (s : State) : State :=
  let x := s.res[r]
  let i := s.core.readyQ.findIdx (fun (e : ReadyEntry) => decide (e.res = r))
  let s := { s with core := { s.core with readyQ := s.core.readyQ.eraseIdx i } }
  let w := recWord s r off
  match x.role.tasks[bits w 32 16]? with
  | none => dropRecord r off s
  | some d =>
    let args (k : Nat) : Word := BitVec.ofNat 64 (recWord s r (off + 16 + 8 * k))
    let s1 := startTask r (.record off) d 0 args s
    let s2 := setRecBit s1 r off 49 false
    if bits w 50 1 = 1 then readyRecord r off (setRecBit s2 r off 50 false) else s2

/-- A message activation starts: its trigger is held (R14, R198). -/
def startMessage (r : ResIx) (m : Msg) (s : State) : State :=
  let vn := m.vn.toNat
  let q := s.core.rx vn
  let i := q.findIdx (fun (e : RxEntry) => decide (e.res = r) && !e.held)
  let s := { s with core := s.core.setRx vn (q.modify i (fun e => { e with held := true })) }
  startTask r (.message m) (s.res[r].role.handler m.hidx.toNat) (msgD0 m) (msgPayload m) s

/-- DISPATCH (R297): one task starts, unless the quad is off or held by a scan (R393). -/
def tryDispatch (s : State) : Option State :=
  if s.quad.scanHold || !s.quadOn then none
  else match chosen s with
    | none => none
    | some (r, c) => match c.trigger with
      | .launch => some (startLaunch r s)
      | .record off => some (startRecord r off s)
      | .message m => some (startMessage r m s)
/-- DISPATCH (R297). -/
def execDispatch (s : State) : Res := orStay (tryDispatch s) s

/-- ARMED_START (R295): the launch task of an ARMED record starts when TICK reaches its start tick; its stream goes before every other
stream of the core. -/
def tryArmedStart (r : ResIx) (s : State) : Option State :=
  let x := s.res[r]
  if x.state = .armed ∧ x.clearing = false ∧ x.killed = false ∧ x.task = none ∧ x.startTick.toNat ≤ s.mgr.tick.toNat ∧ s.quadOn = true
      ∧ s.quad.scanHold = false then
    let wait := agelim s + s.streams.toList.foldl (fun n t => max n t.wait) 0
    let s1 := startLaunch r (s.setRes r { x with state := .running })
    some { s1 with streams := s1.streams.map (fun t => if t.active ∧ t.res = r then { t with wait := wait } else t) }
  else none
/-- ARMED_START (R295). -/
def execArmedStart (r : ResIx) (s : State) : Res := orStay (tryArmedStart r s) s

/-! ## Quad-remote accesses (R126, R127) -/

/-- QUAD_REMOTE_PERFORM (R126): accesses of one stream to one target are performed in the order of issue (R127). The vector access in progress stands
behind those pending: its next bank access is performed (R132, R142). Log entry 8 (DEDUCED). -/
def tryRemotePerform (i : Nat) (s : State) : Option State :=
  match s.core.remote[i]? with
  | none => if i = s.core.remote.length ∧ s.core.vecRun.isSome then some (vecStep s) else none
  | some e =>
    if (s.core.remote.take i).any (fun (x : Remote) => decide (x.slot = e.slot ∧ x.res = e.res ∧ x.target = e.target)) then none
    else some (performRemote i s)
/-- QUAD_REMOTE_PERFORM (R126). Log entry 8 (DEDUCED). -/
def execQuadRemotePerform (i : Nat) (s : State) : Res := orStay (tryRemotePerform i s) s

/-! ## The slew unit (R337 to R341) -/

/-- The least level of the four pairs, 0 where one of them is IDLE (R341). -/
def leastLevel (s : State) : Nat :=
  (List.finRange 4).foldl (fun n k =>
    let m := s.quad.mates[k]
    if k.val = s.coreInQuad.toNat then n else min n (if m.mode = .idle then 0 else m.level))
    (if s.core.slew.mode = .idle then 0 else s.core.slew.level)

/-- QUAD_UNIT_MERGE (R150, R341): the four pairs become one unit once none has work: IDLE where one of them is IDLE or at level 0, else in FILL at
the least level. -/
def tryQuadMerge (s : State) : Option State :=
  let u := s.core.slew
  if s.core.jm = 2 ∧ u.quadUnit = false ∧ u.work = [] ∧ mateWorks s = false then
    let n := leastLevel s
    some (s.setSlew { u with quadUnit := true, mode := if n = 0 then .idle else .fill, level := n, t := 0, acc := 0, since := none })
  else none
/-- QUAD_UNIT_MERGE (R341). -/
def execQuadUnitMerge (s : State) : Res := orStay (tryQuadMerge s) s

/-- The step length of a unit (R337). -/
def stepLength (u : Slew) : Nat := if u.quadUnit then 8 else 4

/-- A region's CAP as it acts (R340). -/
def slewCap (g : SlewRegion) : Nat := if g.cap.toNat = 0 then 1 else min 8 g.cap.toNat

/-- The weight of a unit's grant in the region's window (R339). -/
def grantWeight (u : Slew) : Nat := if u.quadUnit then 2 else 1

/-- The grants of one cycle: the waiting units in order, for as long as the window allows; the first that cannot be granted holds back the others
(R339). -/
def grantRound : Nat → List SlewWait → List SlewWait × List SlewWait
  | _, [] => ([], [])
  | room, w :: ws =>
    if w.weight ≤ room then
      let r := grantRound (room - w.weight) ws
      (w :: r.1, r.2)
    else ([], w :: ws)

/-- A unit takes its place among those that wait: by the cycle in which the wait began, then by logical core (R339). -/
def queueWait (w : SlewWait) : List SlewWait → List SlewWait
  | [] => [w]
  | x :: xs => if x.since < w.since ∨ (x.since = w.since ∧ x.core ≤ w.core) then x :: queueWait w xs else w :: x :: xs

/-- What a window of 4 cycles leaves at a cycle: at most 2 grants (R339). -/
def grantRoom (g : SlewRegion) (clock : Nat) : Nat :=
  2 - ((g.recent.filter (fun e => decide (clock < e.1 + 4))).map Prod.snd).sum

/-- A region's cycle, with the wait of this core's unit if it has one: whether that unit is granted, and the region after it (R339, R340). -/
def regionCycle (own : Option SlewWait) (clock : Nat) (g : SlewRegion) : Bool × SlewRegion :=
  let queue := match own with
    | none => g.waiting
    | some w => queueWait w g.waiting
  let r := grantRound (grantRoom g clock) queue
  let mine (w : SlewWait) : Bool := own.any (fun o => decide (o = w))
  (r.1.any mine, { g with
    gcnt := BitVec.ofNat 16 (min 0xFFFF (g.gcnt.toNat + r.1.length))
    recent := g.recent.filter (fun e => decide (clock < e.1 + 4)) ++ r.1.map (fun w => (clock, w.weight))
    waiting := r.2.filter (fun w => !mine w) })

/-- A step boundary while working: the level moves towards the cap (R338). -/
def workStep (cap : Nat) (u : Slew) : Slew :=
  if u.t + 1 = stepLength u then
    { u with t := 0, level := if u.level < cap then u.level + 1 else if cap < u.level then u.level - 1 else u.level }
  else { u with t := u.t + 1 }

/-- One cycle of work (R338): the unit works at its level; the operation may end. -/
def workCycle (cap : Nat) (u : Slew) (w : SliceWork) (rest : List SliceWork) : Slew :=
  let acc := u.acc + u.level
  workStep cap (if 8 * w.count ≤ acc then { u with acc := 0, work := rest } else { u with acc := acc })

/-- Whether the unit needs a grant to work (R338). -/
def needsGrant (u : Slew) : Bool :=
  !u.work.isEmpty && decide (u.mode ≠ .work) && !(decide (u.mode = .fill) && decide (1 ≤ u.level))

/-- slew_cycle of R338 for a unit of a logical core, with its region's cycle. -/
def slewCycle (core : Nat) (x : Slew × SlewRegion) : Slew × SlewRegion :=
  let now := x.1.clock
  let since := x.1.since.getD now
  let wait : Option SlewWait := if needsGrant x.1 then some ⟨since, core, grantWeight x.1⟩ else none
  let r := regionCycle wait now x.2
  let u := { x.1 with clock := now + 1, since := if needsGrant x.1 && !r.1 then some since else none }
  let cap := slewCap x.2
  (match u.work with
  | w :: rest =>
    if u.mode = .work then workCycle cap u w rest
    else if u.mode = .fill ∧ 1 ≤ u.level then workCycle cap { u with mode := .work, t := 0 } w rest
    else if r.1 then workCycle cap { u with mode := .work, level := 1, t := 0 } w rest
    else u
  | [] =>
    match u.mode with
    | .idle => u
    | .work => { u with mode := .fill, level := u.level - 1, t := 1 }
    | .fill =>
      if u.t + 1 = stepLength u then (if u.level = 0 then { u with t := 0, mode := .idle } else { u with t := 0, level := u.level - 1 })
      else { u with t := u.t + 1 }, r.2)

/-- Cycles of a unit up to and with the first in which a condition on before and after holds; none if it does not come within the
bound. Log entry 10 (DESIGN CHOICE). -/
def slewUntil (core : Nat) (p : Slew × SlewRegion → Slew × SlewRegion → Bool) (x : Slew × SlewRegion) : Nat → Option (Slew × SlewRegion)
  | 0 => none
  | n + 1 => let x' := slewCycle core x; if p x x' then some x' else slewUntil core p x' n

/-- The slew region of a physical quad, whose index is 41y + x (R336, R339). -/
def regionOf (q : Nat) : Fin 30 :=
  let x := q % 41
  let y := min 39 (q / 41)
  ⟨(if x = 40 then 25 + y / 8 else x / 8 * 5 + y / 8) % 30, Nat.mod_lt _ (by decide)⟩

/-- The region of this core's unit. -/
def State.region (s : State) : Fin 30 := regionOf (physQuad s s.ownQuad)

/-- The logical core as which a unit waits: a quad unit counts as the quad's core 0 (R339). -/
def State.unitCore (s : State) : Nat := if s.core.slew.quadUnit then s.core.id.toNat / 4 * 4 else s.core.id.toNat

/-- What the end of slice work brings: the answer of a matrix command, a QLEAVE that waited, and a kill that waited (R150, R162, R171). -/
def afterWork (ended : Bool) (s0 s : State) : State :=
  if ended then
    let s := match s0.core.slew.work.head?.bind SliceWork.reply with
      | none => s
      | some (m, reply) => postReply reply (landed m s)
    let s := settleLeave s
    (List.finRange 4).foldl (fun s r => finishKill r s) s
  else s

/-- Cycles of a region in which this core's unit has no part: the other units that wait in it are granted in their turn (R339, R340). -/
def otherRegion : Nat → Nat → SlewRegion → SlewRegion
  | _, 0, g => g
  | clock, n + 1, g => if g.waiting.isEmpty then g else otherRegion (clock + 1) n (regionCycle none clock g).2

/-- The cycles of this core's unit, its region and the other regions up to the first in which a condition holds. -/
def slewRun (p : Slew × SlewRegion → Slew × SlewRegion → Bool) (n : Nat) (s : State) : Option State :=
  (slewUntil s.unitCore p (s.core.slew, s.power.regions[s.region]) n).map (fun x =>
    let s1 := s.setSlew x.1
    afterWork (decide (x.1.work.length < s.core.slew.work.length)) s
      { s1 with power := { s1.power with regions := Vector.ofFn (fun (k : Fin 30) =>
          if k = s.region then x.2 else otherRegion s.core.slew.clock (x.1.clock - s.core.slew.clock) s1.power.regions[k]) } })

/-- SLEW_GRANT (R339): a unit that waits for a grant gets it in the first cycle that the window and the units before it allow. -/
def trySlewGrant (s : State) : Option State :=
  if needsGrant s.core.slew then slewRun (fun _ x => decide (x.1.mode = .work)) (8 * s.power.regions[s.region].waiting.length + 8) s
  else none
/-- SLEW_GRANT (R339). -/
def execSlewGrant (s : State) : Res := orStay (trySlewGrant s) s

/-- SLEW_LEVEL_STEP (R338): the unit's cycles up to the next boundary of a step or the end of an operation; where the unit is idle, one cycle of the
regions while another unit waits. -/
def trySlewStep (s : State) : Option State :=
  let u := s.core.slew
  if needsGrant u then none
  else if u.mode = .idle ∧ u.work = [] then
    (if s.power.regions.all (fun g => g.waiting.isEmpty) then none else slewRun (fun _ _ => true) 1 s)
  else slewRun (fun x x' => decide (x'.1.t = 0) || decide (x'.1.work.length < x.1.work.length)) 16 s
/-- SLEW_LEVEL_STEP (R338). -/
def execSlewLevelStep (s : State) : Res := orStay (trySlewStep s) s

/-- The cycles that an operation of work count w can take: at least an eighth of it in each (R338). -/
def workBound (w : Nat) : Nat := 8 * w + 64

/-- SLICE_WORK_END (R338): the unit's cycles up to the one in which the present operation's work ends; one that waits for a grant has
none of it done. A kill that waited for it follows (R162). -/
def trySliceWorkEnd (s : State) : Option State :=
  match s.core.slew.work with
  | [] => none
  | w :: _ =>
    if needsGrant s.core.slew then none
    else slewRun (fun x x' => decide (x'.1.work.length < x.1.work.length)) (workBound w.count) s
/-- SLICE_WORK_END (R338). -/
def execSliceWorkEnd (s : State) : Res := orStay (trySliceWorkEnd s) s

/-- RSLEW_WRITE (R340): CAP of a region. -/
def execRslewWrite (w : Fin 30 × BitVec 4) (s : State) : Res :=
  .next { s with power := { s.power with regions := vset s.power.regions w.1 { s.power.regions[w.1] with cap := w.2 } } }

end Sys2Proof.Machine
end

