-- ==== Sys2Proof/Machine/Links.lean ====
section
/-! DEFINITION. Leaving the stack (R350 to R359): the UCIe modules' transmitters and the fabric's source side. A message that leaves
waits for a flit, stands in the retry buffer until it is acknowledged, and is then beyond the crossing. -/

namespace Sys2Proof.Machine

/-- The residency of this core that a message came from. -/
def senderOf (s : State) (m : Msg) : Option ResIx :=
  if m.src = s.address then
    (List.finRange 4).find? (fun r => decide (s.res[r].state ≠ .free) && decide (s.res[r].asid = m.asid) && decide (s.res[r].gen = m.gen))
  else none

/-- The flits of a list that the far receiver has not accepted yet (R354). -/
def Module.fresh (x : Module) (l : List (BitVec 8 × Flit)) : List (BitVec 8 × Flit) := l.filter (fun f => decide ((f.1 - x.far).toNat ≤ 64))

/-- The messages on their way over the modules. -/
def crossing (s : State) : List Msg := s.link.modules.toList.flatMap (fun x => (x.fresh x.retry).flatMap (fun f => f.2.msgs) ++ x.pendingTx)

/-- Replaces a module. -/
def setModule (k : Fin 8) (x : Module) (s : State) : State := { s with link := { s.link with modules := vset s.link.modules k x } }

/-- The slots of a flit that a message takes (R196, R352). -/
def msgSlots (m : Msg) : Nat := (16 + m.len.toNat + 31) / 32

/-- The slots of a network. -/
def Credits.of (c : Credits) (vn : BitVec 2) : Nat := if vn = 0 then c.req else if vn = 1 then c.rpy else c.sys

/-- n slots of a network are added. -/
def Credits.add (c : Credits) (vn : BitVec 2) (n : Nat) : Credits :=
  if vn = 0 then { c with req := c.req + n } else if vn = 1 then { c with rpy := c.rpy + n } else { c with sys := c.sys + n }

/-- n slots of a network are taken. -/
def Credits.take (c : Credits) (vn : BitVec 2) (n : Nat) : Credits :=
  if vn = 0 then { c with req := c.req - n } else if vn = 1 then { c with rpy := c.rpy - n } else { c with sys := c.sys - n }

/-- The messages that the next flit carries, whole and in order, at most six slots: one whose network has too few slots free at the far receiver
holds back the later ones of its network (R198, R352). The answer is what goes, what stays, and the slots left. -/
def fillFlit (stopped : List (BitVec 2)) : Nat → Credits → List Msg → List Msg × List Msg × Credits
  | _, c, [] => ([], [], c)
  | room, c, m :: rest =>
    let n := msgSlots m
    if room < n then ([], m :: rest, c)
    else if m.vn ∈ stopped ∨ c.of m.vn < n then (let r := fillFlit (m.vn :: stopped) room c rest; (r.1, m :: r.2.1, r.2.2))
    else (let r := fillFlit stopped (room - n) (c.take m.vn n) rest; (m :: r.1, r.2))

/-- New flits leave while the module works and the retry buffer has room for them; each returns the slots that the receiver has freed (R352, R354). The
number bounds them. -/
def pumpModule (x : Module) : Nat → Module
  | 0 => x
  | n + 1 =>
    let f := fillFlit [] 6 x.credit x.pendingTx
    if x.training || x.dead || f.1.isEmpty || decide (64 ≤ x.retry.length) then x
    else
      let back (k : Nat) : Nat := min 63 k
      let flit : Flit := ⟨f.1, BitVec.ofNat 6 (back x.owed.req), BitVec.ofNat 6 (back x.owed.rpy), BitVec.ofNat 6 (back x.owed.sys)⟩
      pumpModule { x with
        next := x.next + 1, retry := x.retry ++ [(x.next, flit)], pendingTx := f.2.1, credit := f.2.2
        owed := ⟨x.owed.req - back x.owed.req, x.owed.rpy - back x.owed.rpy, x.owed.sys - back x.owed.sys⟩ } n

/-- A module sends what it can. -/
def Module.pump (x : Module) : Module := pumpModule x x.pendingTx.length

/-- Module m of pair 0 (east–west) or 1 (north–south). -/
def moduleIx (pair m : Nat) : Fin 8 := ⟨(4 * (pair % 2) + m % 4) % 8, Nat.mod_lt _ (by decide)⟩

/-- The module that traffic of module m uses: m, or the next live module of the pair after it. A dead module whose far side has not yet
reported its number keeps later traffic behind its retry buffer, whose messages go ahead of it (R356). -/
def liveModule (s : State) (pair m : Nat) : Fin 8 :=
  let usable (k : Fin 8) : Bool := !s.link.modules[k].dead || !s.link.modules[k].retry.isEmpty
  (((List.range 4).map (fun i => moduleIx pair (m + i))).find? usable).getD (moduleIx pair m)

/-- The pair by which a message leaves this stack for another: east–west first (R350). -/
def firstPair (s : State) (dest : Nat) : Nat := if dest % 2 ≠ s.ownStack % 2 then 0 else 1

/-- A message for a quad of another stack of the package joins a module (R350). Log entry 37 (DESIGN CHOICE). -/
def crossStack (stack quad : Nat) (m : Msg) (s : State) : State :=
  let k := liveModule s (firstPair s stack) ((endQuad m.src + quad) % 4)
  let x := s.link.modules[k]
  setModule k (Module.pump { x with pendingTx := x.pendingTx ++ [m] }) s

/-- The number of the flow from this stack to a stack of another package on a network (R358). -/
def flowNumber (m : Msg) (stack : Nat) (s : State) : Nat :=
  (((s.core.pkg.toNat * 4 + s.ownStack) * 2 ^ 17 + m.dest.toNat / 2 ^ 15) * 4 + stack % 4) * 4 + m.vn.toNat

/-- A flow. Log entry 39 (DESIGN CHOICE). -/
def flowOf (s : State) (f : Nat) : Flow := ((s.link.flows.find? (fun e => decide (e.1 = f))).map Prod.snd).getD Flow.fresh

/-- Replaces a flow. -/
def setFlow (f : Nat) (x : Flow) (s : State) : State :=
  { s with link := { s.link with flows := (f, x) :: s.link.flows.filter (fun e => decide (e.1 ≠ f)) } }

/-- The paths of a port in the adaptive table through no link that is reported dead: those of the table, or the one of which nothing is said (R358, R360).
Log entry 39 (DESIGN CHOICE). -/
def livePaths (s : State) (p : Fin 8) : List (List Nat) :=
  let l := (s.link.fabric.filter (fun e => decide (e.1 = p))).map Prod.snd
  (if l.isEmpty then [[]] else l).filter (fun path => path.all (fun k => decide (k ∉ s.link.fabricDead)))

/-- Whether a port has a live entry in the adaptive table. -/
def portLive (s : State) (p : Fin 8) : Bool := !s.link.portDead[p] && !(livePaths s p).isEmpty

/-- Port i of this stack's two and, after them, those of the other stacks. -/
def portAt (s : State) (i : Nat) : Fin 8 := ⟨(2 * s.ownStack + i) % 8, Nat.mod_lt _ (by decide)⟩

/-- One of a list of paths (R358). Log entry 7 (DESIGN CHOICE). -/
def pickPath : List (List Nat) → Nat → List Nat
  | [], _ => []
  | [x], _ => x
  | x :: rest, n => if Config.pathChoice n then pickPath rest (n + 1) else x

/-- The port of this stack's two that a packet takes, and the path after it: of the live entries either; none with both dead (R358, R360). Log entries 7
and 39 (DESIGN CHOICE). -/
def takePort (s : State) : Option (Fin 8 × List Nat) × State :=
  let path (p : Fin 8) (s : State) : Option (Fin 8 × List Nat) × State := (some (p, pickPath (livePaths s p) s.free), { s with free := s.free + (livePaths s p).length })
  match portLive s (portAt s 0), portLive s (portAt s 1) with
  | true, true => path (if Config.pathChoice s.free then portAt s 1 else portAt s 0) s.nextFree
  | true, false => path (portAt s 0) s
  | false, true => path (portAt s 1) s
  | false, false => (none, s)

/-- The first live port of another stack. -/
def farPort (s : State) : Option (Fin 8) := ((List.range 6).map (fun i => portAt s (i + 2))).find? (portLive s)

/-- A packet of a flow sets out: through a port of this stack, or, with both dead, over the modules to a stack with a live port; with none it waits to be
sent again (R358 to R360). -/
def sendPacket (f : Nat) (num : BitVec 32) (m : Msg) (s : State) : State :=
  match takePort s with
  | (some e, s) => (let x := flowOf s f; setFlow f { x with paths := x.paths ++ [(num, e)] } s)
  | (none, s) => match farPort s with
    | none => s
    | some p => crossStack (p.val / 2) (endQuad m.dest) m s

/-- A message leaves the package with the next number of its flow, and is kept until it is acknowledged (R358, R359). Log entry 37 (DESIGN CHOICE). -/
def fabricSend (stack : Nat) (m : Msg) (s : State) : State :=
  let f := flowNumber m stack s
  let x := flowOf s f
  sendPacket f x.sendNext m (setFlow f { x with sendNext := x.sendNext + 1, kept := x.kept ++ [(x.sendNext, m)] } s)

end Sys2Proof.Machine
end

