-- ==== Sys2Proof/Machine/Keccak.lean ====
section
/-! DEFINITION. The hash functions that the spec names: SHA3-384 (FIPS 202) of R407 and KMAC256 (SP 800-185) of R168, over the permutation
Keccak-f[1600], with SHAKE for ML-DSA. Log entry 52 (PRESUMED). -/

namespace Sys2Proof.Machine

/-- The round constants of Keccak-f[1600]. -/
def keccakRounds : List Word :=
  [0x0000000000000001, 0x0000000000008082, 0x800000000000808A, 0x8000000080008000, 0x000000000000808B, 0x0000000080000001,
    0x8000000080008081, 0x8000000000008009, 0x000000000000008A, 0x0000000000000088, 0x0000000080008009, 0x000000008000000A]
  ++ [0x000000008000808B, 0x800000000000008B, 0x8000000000008089, 0x8000000000008003, 0x8000000000008002, 0x8000000000000080,
    0x000000000000800A, 0x800000008000000A, 0x8000000080008081, 0x8000000000008080, 0x0000000080000001, 0x8000000080008008]

/-- The rotation of lane x + 5y. -/
def keccakTurns : List Nat := [0, 1, 62, 28, 27, 36, 44, 6, 55, 20, 3, 10, 43, 25, 39, 41, 45, 15, 21, 8, 18, 2, 61, 56, 14]

/-- A lane of a state. -/
def lane (a : List Word) (i : Nat) : Word := a.getD i 0

/-- The 25 lanes that a function gives. -/
def lanes (f : Nat → Word) : List Word := (List.range 25).map f

/-- θ: each lane takes the parities of two columns. -/
def keccakTheta (a : List Word) : List Word :=
  let c := (List.range 5).map (fun x => lane a x ^^^ lane a (x + 5) ^^^ lane a (x + 10) ^^^ lane a (x + 15) ^^^ lane a (x + 20))
  lanes (fun i => lane a i ^^^ lane c ((i + 4) % 5) ^^^ (lane c ((i + 1) % 5)).rotateLeft 1)

/-- ρ and π: the lanes are turned and change places. -/
def keccakMove (a : List Word) : List Word :=
  lanes (fun i =>
    let j := (i % 5 + 3 * (i / 5)) % 5 + 5 * (i % 5)
    (lane a j).rotateLeft (keccakTurns.getD j 0))

/-- χ: each lane takes the product of the next two of its row. -/
def keccakChi (b : List Word) : List Word :=
  lanes (fun i => lane b i ^^^ (~~~lane b ((i + 1) % 5 + i / 5 * 5) &&& lane b ((i + 2) % 5 + i / 5 * 5)))

/-- A round, with ι. -/
def keccakRound (a : List Word) (rc : Word) : List Word :=
  let b := keccakChi (keccakMove (keccakTheta a))
  b.set 0 (lane b 0 ^^^ rc)

/-- Keccak-f[1600]. -/
def keccak (a : List Word) : List Word := keccakRounds.foldl keccakRound a

/-- The 64-bit word at lane i of a block of bytes. -/
def blockLane (bs : List Byte) (i : Nat) : Word := BitVec.ofNat 64 (bytesLE ((bs.drop (8 * i)).take 8))

/-- Absorbs n blocks of a rate in bytes. -/
def absorb (rate : Nat) : Nat → List Byte → List Word → List Word
  | 0, _, a => a
  | n + 1, bs, a => absorb rate n (bs.drop rate) (keccak (lanes (fun i => lane a i ^^^ blockLane (bs.take rate) i)))

/-- The state of the sponge after a message whose padding begins with a suffix byte. -/
def absorbed (rate : Nat) (suffix : Byte) (m : List Byte) : List Word :=
  let blocks := m.length / rate + 1
  let pad := rate * blocks - m.length
  let tail : List Byte := if pad = 1 then [suffix ^^^ 0x80] else suffix :: (List.replicate (pad - 2) 0 ++ [0x80])
  absorb rate blocks (m ++ tail) (lanes (fun _ => 0))

/-- The bytes of a state. -/
def laneBytes (a : List Word) : List Byte := a.flatMap (fun w => leBytes 8 w.toNat)

/-- The first n bytes (no more than the rate) of the sponge over a message whose padding begins with a suffix byte. -/
def sponge (rate : Nat) (suffix : Byte) (n : Nat) (m : List Byte) : List Byte := (laneBytes (absorbed rate suffix m)).take n

/-- n blocks of output of a state. -/
def squeeze (rate : Nat) : Nat → List Word → List Byte
  | 0, _ => []
  | n + 1, a => (laneBytes a).take rate ++ squeeze rate n (keccak a)

/-- n bytes of SHAKE128 (rate 168) or SHAKE256 (rate 136). -/
def shake (rate n : Nat) (m : List Byte) : List Byte := (squeeze rate ((n + rate - 1) / rate) (absorbed rate 0x1F m)).take n

/-- SHA3-384. -/
def sha3 (m : List Byte) : List Byte := sponge 104 0x06 48 m

/-- The bytes of a number, most significant first, at least one; the number k bounds them. -/
def beBytes : Nat → Nat → List Byte
  | 0, _ => []
  | k + 1, n => if n < 256 then [BitVec.ofNat 8 n] else beBytes k (n / 256) ++ [BitVec.ofNat 8 n]

/-- left_encode of SP 800-185. -/
def leftEncode (n : Nat) : List Byte :=
  let b := beBytes 8 n
  BitVec.ofNat 8 b.length :: b

/-- right_encode of SP 800-185. -/
def rightEncode (n : Nat) : List Byte :=
  let b := beBytes 8 n
  b ++ [BitVec.ofNat 8 b.length]

/-- encode_string of SP 800-185. -/
def encodeString (bs : List Byte) : List Byte := leftEncode (8 * bs.length) ++ bs

/-- bytepad of SP 800-185. -/
def bytePad (w : Nat) (bs : List Byte) : List Byte :=
  let x := leftEncode w ++ bs
  x ++ List.replicate ((w - x.length % w) % w) 0

/-- KMAC256 with an output of n bytes. -/
def kmac256 (key m : List Byte) (n : Nat) (custom : List Byte) : List Byte :=
  let head := bytePad 136 (encodeString [0x4B, 0x4D, 0x41, 0x43] ++ encodeString custom)
  sponge 136 0x04 n (head ++ bytePad 136 (encodeString key) ++ m ++ rightEncode (8 * n))

/-- The TAG of a capability with the low half w (R168): the customisation string is MB9 MCAP. Log entry 7 (DESIGN CHOICE): the key is a free value. -/
def capabilityTag (w : BitVec 32) : BitVec 32 :=
  BitVec.ofNat 32 (bytesLE (kmac256 Config.bootKey (leBytes 4 w.toNat) 4 [0x4D, 0x42, 0x39, 0x20, 0x4D, 0x43, 0x41, 0x50]))

end Sys2Proof.Machine
end

