-- ==== Sys2Proof/Machine/MatrixPort.lean ====
section
/-! DEFINITION. The matrix-command port (R168 to R172): capabilities, denials, the commands and their answers. -/

namespace Sys2Proof.Machine

/-- Doubleword i of a command's payload: 0 the capability, then p1 to p7 (R170). -/
def cmdWord (m : Msg) (i : Nat) : Nat := (msgPayload m i).toNat

/-- The multiplier residency that a capability's address space reaches on this core (R169, R308, R316). -/
def portResidency (s : State) (asid : Nat) : Option ResIx :=
  (List.finRange 4).find? (fun r =>
    let x := s.res[r]
    decide (x.state ≠ .free) && decide (x.state ≠ .saving) && !x.killed && decide (x.accs ≠ 0) && decide (x.asid.toNat = asid))

/-- The checks of R169 in order: the denial reason, or the residency that the command acts on. right is the bit of RIGHTS, or none for
an index without a command. Log entry 24 (DEDUCED). -/
def portChecks (s : State) (m : Msg) (right : Option Nat) : Nat ⊕ ResIx :=
  let c := cmdWord m 0
  let asid := bits c 20 12
  let quad := s.ownQuad
  let qbase := bits c 4 11
  let qlog := bits c 0 4
  if capabilityTag (BitVec.ofNat 32 c) ≠ BitVec.ofNat 32 (c / 2 ^ 32) then .inl 1
  else if !accessAllows s s.ownVault (BitVec.ofNat 12 asid) 27 m.src then .inl 2
  else if bits c 15 2 ≠ s.ownStack ∨ 12 ≤ qlog ∨ quad < qbase ∨ qbase + 2 ^ qlog ≤ quad then .inl 3
  else if (match right with
    | some b => decide (bits c (17 + b) 1 = 0)
    | none => false) then .inl 4
  else match portResidency s asid with
    | none => .inl 5
    | some r => .inr r

/-- The answer of the port (R171). -/
def portReply (m : Msg) (status reason info : Nat) (data : List Word) (s : State) : Msg where
  dest := m.src
  gen := m.gen
  asid := m.asid
  scope := m.scope
  vn := 1
  spl := false
  dev := decide (status = 1)
  rq := false
  sg := false
  len := 64
  src := s.address
  seq := m.seq
  hidx := m.rhidx
  rhidx := 0
  payload := BitVec.ofNat 512 (packWords (BitVec.ofNat 64 (m.seq.toNat * 2 ^ 32 + reason * 2 ^ 8 + status) :: BitVec.ofNat 64 info :: data))

/-- The status with which a trap of an instruction is answered (R171): an accumulator outside the grant is ILLCMD; a range lock and a
race have no status in the table. -/
def portStatusOf (cause free : Nat) : Nat :=
  if cause = 0x0A then 2 else if cause = 0x0B then 3 else if cause = 0x1D then 4 else if cause = 0x01 then 5
  else (Config.portStatus free).toNat

/-- The head of the port's queue leaves, answered. Log entry 24 (DEDUCED). -/
def answer (status reason info : Nat) (data : List Word) (m : Msg) (s : State) : State :=
  let s := landed m { s with core := { s.core with portQ := s.core.portQ.tail } }
  postReply (portReply m status reason info data s) s

/-- The head of the port's queue leaves, performed: it is answered at once, but a command with slice work when that has ended (R171). -/
def answerDone (data : List Word) (m : Msg) (s0 s : State) : State :=
  if s.core.slew.work.length = s0.core.slew.work.length then answer 0 0 0 data m s
  else
    let reply := portReply m 0 0 0 data s
    { s with core := { s.core with
        portQ := s.core.portQ.tail
        slew := { s.core.slew with work := s0.core.slew.work ++ (s.core.slew.work.drop s0.core.slew.work.length).map (fun w => { w with reply := some (m, reply) }) } } }

/-- Whether a payload keeps the command's fields: the LEN that it needs and no bit outside the masks of p1 to p3 (R170).
Log entry 24 (DEDUCED). -/
def wellFormedCmd (m : Msg) (len : Nat) (masks : List Nat) : Bool :=
  decide (len ≤ m.len.toNat)
    && (List.range 7).all (fun i => decide (cmdWord m (i + 1) &&& (2 ^ 64 - 1 - masks.getD i 0) = 0))

/-- What a command does: a multiplier operation with what it reports, or ILLCMD. -/
inductive Command where
  | illegal
  | op (f : Wide) (data : List Word)
deriving DecidableEq, Repr

/-- A step of the port (R169 to R172): the head of the queue, if its index is the one given, is dropped, denied, answered or waits for
its turn in the multiplier order. -/
def portStep (hidxs : List Nat) (right : Option Nat) (run : Msg → ResIx → State → Command) (s : State) : Option State :=
  match s.core.portQ with
  | [] => none
  | m :: rest =>
    if m.hidx.toNat ∉ hidxs ∨ s.inScan = true then none
    else if !m.rq then some (landed m (dropDead 6 m { s with core := { s.core with portQ := rest } }))
    else if !s.quadOn then some (answer 1 5 0 [] m s)
    else match portChecks s m right with
      | .inl reason => some (answer 1 reason 0 [] m s)
      | .inr r => match run m r s with
        | .illegal => some (answer 5 0 0 [] m s)
        | .op .wait _ => none
        | .op (.ok s1) data => some (answerDone data m s s1)
        | .op (.trap cause info _) _ => some (answer (portStatusOf cause s.free) 0 info [] m s.nextFree)

/-- All bits of a doubleword. -/
def fullWord : Nat := 2 ^ 64 - 1

/-- MCFG: GUARD, then JOIN if it is asked for. -/
def runMcfg (m : Msg) (r : ResIx) (s : State) : Command :=
  if !wellFormedCmd m 24 [fullWord, 3] then .illegal
  else match guardOp r (BitVec.ofNat 64 (cmdWord m 1)) s with
    | .ok s1 => .op (if bits (cmdWord m 2) 1 1 = 1 then joinOp r (BitVec.ofNat 1 (cmdWord m 2)) s1 else .ok s1) []
    | w => .op w []

/-- The pack function of a number 0 to 4. Log entry 17 (DEDUCED). -/
def packFnOf (n : Nat) : PackFn := match n with
  | 0 => .x
  | 1 => .y
  | 2 => .xf
  | 3 => .yf
  | _ => .k

/-- MPACK: the named pack. A pack function of 5 to 7, which the table does not give, is answered ILLCMD. Log entry 24 (DESIGN CHOICE). -/
def runMpack (m : Msg) (r : ResIx) (s : State) : Command :=
  if !wellFormedCmd m 32 [7, fullWord, fullWord] ∨ 4 < cmdWord m 1 then .illegal
  else .op (packOp r (packFnOf (cmdWord m 1)) (BitVec.ofNat 128 (cmdWord m 2 + cmdWord m 3 * 2 ^ 64)) s) []

/-- MMAR as a command: no stream issued its slice work. -/
def runMmar (m : Msg) (r : ResIx) (s : State) : Command :=
  if !wellFormedCmd m 24 [fullWord, fullWord] then .illegal
  else .op (mmarOp r (BitVec.ofNat 128 (cmdWord m 1 + cmdWord m 2 * 2 ^ 64)) none s) []

/-- MZERO: ACCZ of a range that stays within one slice. Log entry 24 (DEDUCED). -/
def runMzero (m : Msg) (r : ResIx) (s : State) : Command :=
  let n := bits (cmdWord m 1) 0 6
  let k := bits (cmdWord m 1) 8 5
  if !wellFormedCmd m 16 [0x1F3F] ∨ 32 ≤ n % 32 + k then .illegal else .op (acczOp r n k s) []

/-- MEXTR: 12 digits from digit j. -/
def runMextr (m : Msg) (r : ResIx) (s : State) : Command :=
  let p := cmdWord m 1
  let n := bits p 0 6
  if !wellFormedCmd m 16 [0xFFFF013F] then .illegal
  else
    let lanes := extractLanes s.core (decide (bits p 8 1 = 1)) (accOf s.core n) (bits p 16 16) 12
    .op (extractCheck r n s (fun _ => .ok s)) ((List.range 6).map (fun i => BitVec.ofNat 64 (lanes.getD (2 * i) 0 + lanes.getD (2 * i + 1) 0 * 2 ^ 32)))

/-- MSTAT: GUARDCFG, then the count and poison of an accumulator. -/
def runMstat (m : Msg) (r : ResIx) (s : State) : Command :=
  let n := bits (cmdWord m 1) 0 6
  if !wellFormedCmd m 16 [0x3F] then .illegal
  else .op (accReadOp r n 68 s (fun _ => .ok s)) [guardcfg s.core, accPiece (accOf s.core n) 68]

/-- MCFG (R170). -/
def execMcfg (s : State) : Res := orStay (portStep [0xE0] (some 0) runMcfg s) s
/-- MPACK (R170). -/
def execMpack (s : State) : Res := orStay (portStep [0xE1] (some 1) runMpack s) s
/-- The MMAR command (R170). -/
def execMmarCommand (s : State) : Res := orStay (portStep [0xE2] (some 1) runMmar s) s
/-- MZERO (R170). -/
def execMzero (s : State) : Res := orStay (portStep [0xE3] (some 0) runMzero s) s
/-- MEXTR (R170). -/
def execMextr (s : State) : Res := orStay (portStep [0xE4] (some 2) runMextr s) s
/-- MSTAT (R170). -/
def execMstat (s : State) : Res := orStay (portStep [0xE5] (some 2) runMstat s) s
/-- An index without a command (R170). Log entry 24 (DEDUCED). -/
def execIllcmd (s : State) : Res := orStay (portStep [0xE6, 0xE7] none (fun _ _ _ => .illegal) s) s

end Sys2Proof.Machine
end

