-- ==== Sys2Proof/Machine/NetSteps.lean ====
section
/-! DEFINITION. Steps of the network interface (R197 to R204, R209 to R211, R214, R292, R310, R316, R317): arrival, departure, signals,
bounces, barrier arrivals and the end of a gang. -/

namespace Sys2Proof.Machine

/-! ## Flights and routing (R3, R5, R197, R203, R206, R334, R349, R350) -/

/-- The answer of the port of a quad that is off (R169, R334). -/
def portRefusal (m : Msg) (s : State) : Msg := { portReply m 1 5 0 [] s with src := m.dest }

/-- Whether a message is for the matrix port (R197). -/
def toPort (m : Msg) : Bool := decide (0xE0 ≤ m.hidx.toNat) && decide (m.hidx.toNat ≤ 0xE7)

/-- A message meets the closed port of its quad (R334). -/
def refuseAtPort (m : Msg) (s : State) : State :=
  landed m (if toPort m && m.rq then postReply (portRefusal m s) s else dropDead 1 m s)

/-- A message at the routers of this stack: a reserved scope is dropped (R3, R349); a message for another package goes to the fabric, one for another
stack over a module (R350), a request to its agent (R206), and another to its core, where its quad has one and its port is open (R5, R334). -/
def route (m : Msg) (s : State) : State :=
  let m := trimmed m
  let core := m.dest.toNat % 2 ^ 15
  if 5 ≤ m.scope.toNat then landed m (dropDead 4 m s)
  else
    let (v, s) := if toAgent m then routeVault m s else (some core, s)
    let vault := v.getD s.ownVault
    let stack := vault / 2 ^ 13
    let quad := vault / 4 % 2 ^ 11
    if m.dest.toNat / 2 ^ 15 ≠ s.core.pkg.toNat then fabricSend stack m s
    else if stack ≠ s.ownStack then crossStack stack quad m s
    else if toAgent m then
      let s := if m.vn = 1 ∧ m.dest = s.address ∧ s.net.flying.all (fun f => decide (f.m ≠ m)) = true then giveSink m.asid m.gen s else s
      enqueueJob m vault s
    else if 1600 ≤ quad then landed m (dropDead 3 m s)
    else if m.dest = s.address then arriveInbound m s
    else if vaultGated s core || quadRetired s core then refuseAtPort m s
    else { s with net := { s.net with mesh := s.net.mesh ++ [m] } }

/-- The core or vault that a message goes to, as its interface sends it (R236). -/
def flightDest (m : Msg) (s : State) : BitVec 32 :=
  if toAgent m then BitVec.ofNat 32 (m.dest.toNat / 2 ^ 15 * 2 ^ 15 + (routeVault m s).1.getD s.ownVault) else m.dest

/-- The bits that place its page of the word under which a request leaves (R242); 0 where it has none. -/
def flightWord (m : Msg) (s : State) : Word :=
  if toAgent m then (match (translateStack m.asid (pageOf (reqAddr m)) s).1 with
    | .ok w => BitVec.ofNat 64 (placement w)
    | _ => 0) else 0

/-- A message of a send buffer of a gang leaves this core's interface (R204). -/
def depart (gang : BitVec 16) (buf : Nat) (m : Msg) (s : State) : State :=
  route m { s with net := { s.net with flying := s.net.flying ++ [⟨m, gang, buf, flightDest m s, flightWord m s⟩] } }

/-- A message of this core has been performed, a request with a status and the bytes served; for a VWRITE without RQ that was served in part the interface
sends the rest (R208, R235). -/
def performed (m : Msg) (status : BitVec 8) (served : Nat) (s : State) : State :=
  match s.net.flying.find? (fun f => decide (f.m = m)) with
  | none => s
  | some f => if hasRest m status served then depart f.gang f.buf (continuation m served) (landed m s) else landed m s

/-- AGENT_COMPLETION (R208, R235): the interface learns that a request is performed. -/
def tryAgentCompletion (s : State) : Option State :=
  match s.net.completions with
  | [] => none
  | j :: rest => some (performed j.m j.status j.served { s with net := { s.net with completions := rest } })
/-- AGENT_COMPLETION. -/
def execAgentCompletion (s : State) : Res := orStay (tryAgentCompletion s) s

/-- Where a message on its way goes, in the sense of R199: the core, or the vault to which its interface has sent it (R236). -/
def netDest (s : State) (m : Msg) : BitVec 32 := ((s.net.flying.find? (fun f => decide (f.m = m))).map (fun f => f.dest)).getD m.dest

/-- Whether two messages keep their order: the same source, destination and virtual network (R199, R236). -/
def sameFlow (s : State) (a b : Msg) : Bool := decide (a.src = b.src) && decide (netDest s a = netDest s b) && decide (a.vn = b.vn)

/-- The message at a place of those on their way in the mesh or in another package is delivered, none while an earlier one of its source, destination and
network is on its way (R199); a request there is performed with a status and the bytes served (R203, R235). Log entry 1 (DESIGN CHOICE). -/
def deliverFar (i : Nat) (status : BitVec 8) (served : Nat) (s : State) : Option State :=
  match s.net.mesh[i]? with
  | none => none
  | some m => if (s.net.mesh.take i).any (fun e => sameFlow s e m) then none else some (performed m status served { s with net := { s.net with mesh := s.net.mesh.eraseIdx i, sent := s.net.sent ++ [m] } })

/-- The first message on its way elsewhere arrives; the bytes that another package's agent serves are a free value. Log entries 7 and 37 (DESIGN CHOICE). -/
def tryFarDelivery (s : State) : Option State :=
  deliverFar 0 0 (max 1 (Config.farServed s.free)) { s with free := s.free + 1 }

/-- A step of the vault agents: a request that another core sent arrives, or the next waiting request of the index is served. -/
def agentStep (hidx : BitVec 8) (m : Option Msg) (s : State) : Res :=
  match m with
  | none => orStay (serveNext hidx s) s
  | some m =>
    if m.hidx = hidx then
      let s := route m s
      orStay (serveNext hidx s) s
    else .next s

/-- AGENT_VREAD (R206). -/
def execAgentVread (m : Option Msg) (s : State) : Res := agentStep 0xF0 m s
/-- AGENT_VWRITE (R206). A write to a registered doorbell notifies the launch front end (R289). -/
def execAgentVwrite (m : Option Msg) (s : State) : Res := agentStep 0xF1 m s
/-- AGENT_VAMO (R206). -/
def execAgentVamo (m : Option Msg) (s : State) : Res := agentStep 0xF2 m s
/-- VFADDC (R207). -/
def execVfaddc (m : Option Msg) (s : State) : Res := agentStep 0xF3 m s
/-- VFENCE (R206): every earlier request of the source to the vault goes before it. -/
def execVfence (m : Option Msg) (s : State) : Res := agentStep 0xF4 m s

/-! ## Acknowledgements and mail (R210, R316, R317) -/

/-- One acknowledgement fewer is awaited. -/
def forgetSignal (r : ResIx) (s : State) : State := s.setRes r { s.res[r] with pendingSignals := s.res[r].pendingSignals - 1 }

/-- An acknowledgement as it waits for a context that is saving or switched out, and as it lies in its spill area (R316). Log entry 27 (DEDUCED). -/
def ackMail (s : State) (asid : Asid) (gen : BitVec 4) : Msg := { decrementMail s asid gen 0 with vn := 1, len := 0, payload := 0 }

/-- Whether a message is an acknowledgement so kept. -/
def isAck (m : Msg) : Bool := m.dev && decide (m.vn = 1) && decide (m.len = 0)

/-- Whether the interface performs a message as a decrement of a record: a SIGNAL, or a barrier release that it kept (R210, R316). -/
def decrements (m : Msg) : Bool := decide (m.vn ≠ 1) && (m.sg || (m.dev && decide (m.vn = 0)))

/-- An acknowledgement of a context's SIGNAL arrives: it frees the sink, or waits to be diverted while the context is saving or switched out (R210,
R316). -/
def ackArrives (asid : Asid) (gen : BitVec 4) (s : State) : State :=
  let keep (s : State) : State := arriveInbound (ackMail s asid gen) s
  match (List.finRange 4).find? (fun r => decide (s.res[r].state ≠ .free) && decide (s.res[r].asid = asid) && decide (s.res[r].gen = gen)) with
  | some r =>
    if s.res[r].pendingSignals = 0 then s
    else if s.res[r].state = .saving then keep (forgetSignal r s)
    else freeSinks r 1 (forgetSignal r s)
  | none =>
    if s.net.switchedOut.any (fun (a : Away) => decide (a.asid = asid ∧ a.gen = gen ∧ a.pendingSignals ≠ 0)) then
      keep { s with net := { s.net with switchedOut := s.net.switchedOut.map (fun (a : Away) =>
        if a.asid = asid ∧ a.gen = gen then { a with pendingSignals := a.pendingSignals - 1 } else a) } }
    else s

/-- The acknowledgement of a SIGNAL (R210): to this core, or on its way to another one. -/
def acknowledge (m : Msg) (s : State) : State :=
  if m.rq = false then s
  else if m.src = s.address then ackArrives m.asid m.gen s
  else { s with net := { s.net with acks := s.net.acks ++ [m] } }

/-- A reply to a SIGNAL that returns as NOTARGET: no acknowledgement will come for it (R210, R211). Log entry 25 (DEDUCED). -/
def signalReturned (m : Msg) : Bool :=
  decide (m.vn = 1) && m.dev && decide (bits m.payload.toNat 0 8 = 0x10) && decide (bits m.payload.toNat (128 + 7) 1 = 1)

/-- A message that arrived at a tick is written to its context's spill area (R317): a SIGNAL is acknowledged, and a reply frees its sink unless the context is
back and will take it; none while the interface must hold it. -/
def divert (back : Bool) (asid : Asid) (gen : BitVec 4) (m : Msg) (tick : Word) (s : State) : Option State :=
  match spillMessage asid gen m tick s with
  | none => none
  | some s =>
    let s := if m.vn = 1 ∧ back = false then giveSink asid gen s else s
    some (if m.sg then acknowledge m s else s)

/-- The fault that a write of n bytes of a spill area would meet, by its address and reason (R317). -/
def spillFault (asid : Asid) (va n : Nat) (s : State) : Option Word :=
  match devWrite asid va (List.replicate n 0) s (n + 1) with
  | .fault why a _ => some (BitVec.ofNat 64 (a + why * 2 ^ 48))
  | _ => none

/-- What keeps a context's messages from its spill area: a page that faults, with the reason, or, with the reason 0, that it is full (R317). -/
def spillTrouble (asid : Asid) (gen : BitVec 4) (s : State) : Option Word :=
  match spillArea s asid gen with
  | none => none
  | some va => match devRead asid va 24 s 25 with
    | .wait => none
    | .fault why a _ => some (BitVec.ofNat 64 (a + why * 2 ^ 48))
    | .done _ _ h s =>
      let w := (dwordAt h 0).toNat
      let cap := (dwordAt h 2).toNat
      if cap ≤ w - (dwordAt h 1).toNat then some (BitVec.ofNat 64 (va + 64 + 128 * w))
      else (spillFault asid (va + 64 + 128 * (w % cap)) 128 s).orElse (fun _ => spillFault asid va 8 s)

/-- Whether messages of a context are to be diverted: it is saving, has spilled mail, or is switched out (R316 to R318). -/
def divertsFor (s : State) (m : Msg) : Bool :=
  (List.finRange 4).any (fun r => s.res[r].takes m && !s.res[r].killed && (decide (s.res[r].state = .saving) || s.res[r].mail))
    || s.net.switchedOut.any (fun a => decide (a.asid = m.asid ∧ a.gen = m.gen))

/-- The stack manager is told that a spill area is full or that its page faults (R317). -/
def trySpillNotice (s : State) : Option State :=
  (s.net.inbound ++ (s.core.rxReq ++ s.core.rxRpy ++ s.core.rxSys).map RxEntry.m).findSome? (fun m =>
    if divertsFor s m then (spillTrouble m.asid m.gen s).bind (fun v => if (14, v) ∈ s.mgr.notices then none else some (notify 14 v s)) else none)

/-- Whether an entry arrived before another. -/
def RxEntry.before (a b : RxEntry) : Bool := decide (a.tick.toNat < b.tick.toNat) || (decide (a.tick = b.tick) && decide (a.at_ < b.at_))

/-- The oldest message of a saving context in a receive queue moves to its spill area (R317). -/
def moveMail (r : ResIx) (s : State) : Option State :=
  let mine := (s.core.rxReq ++ s.core.rxRpy ++ s.core.rxSys).filter (fun (e : RxEntry) => decide (e.res = r))
  let oldest : Option RxEntry := mine.foldl (fun b e => match b with
    | none => some e
    | some b => if e.before b then some e else some b) none
  match oldest with
  | none => none
  | some e =>
    if s.res[r].state ≠ .saving then none
    else
      let vn := e.m.vn.toNat
      divert false s.res[r].asid s.res[r].gen e.m e.tick { s with core := s.core.setRx vn ((s.core.rx vn).erase e) }

/-! ## Arrival (R197, R198, R308, R310, R316, R317) -/

/-- A message for a residency that is neither killed nor saving (R197, R198, R210, R310): none while its queue is full. -/
def receive (r : ResIx) (m : Msg) (s : State) : Option State :=
  let x := s.res[r]
  let vn := m.vn.toNat
  if decrements m then some { s with net := { s.net with signals := s.net.signals ++ [m] } }
  else if isAck m then some (freeSinks r 1 s)
  else
    let s := if signalReturned m then forgetSignal r s else s
    if vn = 1 ∧ x.sinks ≤ repliesHeld s r then some (dropMessage 5 m s)
    else if (x.role.handler m.hidx.toNat).kinds = 0 then
      some (dropDead (if vn = 1 ∧ m.dev = true ∧ bits m.payload.toNat 0 8 = 0x11 then 8 else 2) m s)
    else if rxDepth vn ≤ (s.core.rx vn).length then none
    else
      some { s with core := s.core.setRx vn (s.core.rx vn ++ [(⟨m, r, false, s.core.cycle.toNat, s.mgr.tick⟩ : RxEntry)]) }

/-- A message that its interface has taken is on its way no more, but a SIGNAL until its decrement. -/
def taken (m : Msg) (s : State) : State := if decrements m then s else landed m s

/-- Whether messages of a residency still wait in the receive queues. -/
def holdsMail (s : State) (r : ResIx) : Bool := (s.core.rxReq ++ s.core.rxRpy ++ s.core.rxSys).any (fun (e : RxEntry) => decide (e.res = r))

/-- What becomes of a message for handler indices 0x00 to 0xDF that arrived at a tick (R197): none while it must wait. -/
def arriveForContext (m : Msg) (tick : Word) (s : State) : Option State :=
  match (List.finRange 4).find? (fun r => s.res[r].takes m) with
  | some r =>
    let x := s.res[r]
    if x.killed then some (landed m (dropDead 7 m s))
    else if x.state = .saving then (if holdsMail s r then none else (divert false x.asid x.gen m tick s).map (landed m))
    else if x.mail then
      let late (s : State) : State := if m.vn = 1 then s.setRes r { s.res[r] with mailSinks := s.res[r].mailSinks + 1 } else s
      (divert true x.asid x.gen m tick s).map (fun s => late (landed m s))
    else (receive r m s).map (taken m)
  | none =>
    match s.net.switchedOut.find? (fun a => decide (a.asid = m.asid ∧ a.gen = m.gen)) with
    | some a => (divert false a.asid a.gen m tick s).map (landed m)
    | none => some (landed m (dropDead 1 m s))

/-- A message that arrived at its core at a tick (R197, R334): none while it must wait. -/
def arriveHere (m : Msg) (tick : Word) (s : State) : Option State :=
  if toPort m then
    if s.quadOn then some { s with core := { s.core with portQ := s.core.portQ ++ [m] } } else some (refuseAtPort m s)
  else if 0xE8 ≤ m.hidx.toNat then some (landed m (dropDead 2 m s))
  else if !s.quadOn then some (refuseAtPort m s)
  else arriveForContext m tick s

/-- The first message at the interface that can be taken: one that must wait holds back later messages of its network (R198). -/
def takeInbound (s : State) : List (Msg × Word) → List (BitVec 2) → Option (Nat × State)
  | [], _ => none
  | (m, tick) :: rest, held =>
    let later (h : List (BitVec 2)) : Option (Nat × State) := (takeInbound s rest h).map (fun e => (e.1 + 1, e.2))
    if m.vn ∈ held then later held
    else match arriveHere m tick s with
      | some s' => some (0, s')
      | none => later (m.vn :: held)

/-- The next spilled message of a residency is delivered with SPL = 1, a decrement is performed, or the area is found empty (R318); a killed residency's
is a dead letter (R308). -/
def deliverMail (r : ResIx) (s : State) : Option State :=
  match spillTake s.res[r].asid s.res[r].gen s with
  | none => none
  | some (none, s) => some (s.setRes r { s.res[r] with mail := false })
  | some (some m, s) =>
    let s := if m.vn = 1 then s.setRes r { s.res[r] with mailSinks := s.res[r].mailSinks - 1 } else s
    if s.res[r].killed then some (dropDead 7 m s)
    else if decrements m then some (decRecord r (bits m.payload.toNat 0 16 / 64 * 64) 1 s)
    else receive r { m with spl := true } s

/-- The next message at the interface is taken; a saving context's waiting messages and a residency's spilled mail go before. -/
def tryEnqueue (s : State) : Option State :=
  match (List.finRange 4).findSome? (fun r => moveMail r s) with
  | some s => some s
  | none =>
  match (List.finRange 4).findSome? (fun r => if s.res[r].mail ∧ s.res[r].state ≠ .saving ∧ s.inScan = false then deliverMail r s else none) with
  | some s => some s
  | none =>
  match takeInbound s (s.net.inbound.zipIdx.map (fun e => (e.1, s.net.inTicks.getD e.2 s.mgr.tick))) [] with
  | none => none
  | some (i, s') => some { s' with net := { s'.net with inbound := s'.net.inbound.eraseIdx i, inTicks := s'.net.inTicks.eraseIdx i } }

/-- MESSAGE_ENQUEUE (R198): a message from another core joins those at the interface, or the next of those is taken. -/
def execMessageEnqueue (m : Option Msg) (s : State) : Res :=
  match m with
  | none => orStay (tryEnqueue s) s
  | some m =>
    if m.dest = s.address ∧ toAgent m = false then
      let s := route m s
      orStay (tryEnqueue s) s
    else .next s

/-! ## Departure (R203, R204, R209, R211, R242) -/

/-- Whether a message on its way is not yet performed at a scope: it stays within the scope's instance, or has not passed the crossing (R203). -/
def pendingAt (s : State) (scope : BitVec 3) (f : Flight) : Bool :=
  sameScope scope.toNat s.address f.dest || (decide (2 ≤ scope.toNat) && decide (f.m ∈ crossing s))

/-- Whether a vault request writes (R209). -/
def writesVault (m : Msg) : Bool := decide (0xF1 ≤ m.hidx.toNat) && decide (m.hidx.toNat ≤ 0xF3)

/-- Whether the writes that a gang's residency issued before an entry have been performed, its vault writes whatever the scope is, and its earlier messages
at the scope (R209). Log entry 25 (DEDUCED). -/
def writesDone (s : State) (x : Released) (scope : BitVec 3) : Bool :=
  let mine := decide (s.res[x.res].gang = x.gang)
  let before (t : Word) : Bool := mine && decide (t.toNat < x.at_.toNat)
  !s.core.remote.any (fun (e : Remote) => decide (e.res = x.res) && e.write && before e.at_)
    && !s.core.engQ.any (fun (e : EngOp) => decide (e.res = x.res) && decide (e.kind = EngKind.tst) && before e.at_)
    && !s.res[x.res].handedOver.any (fun e => before (Table.get 0 s.res[x.res].copyIssued e.1))
    && !(mine && s.quad.copyRun[x.res].any (fun c => c.decr.isSome))
    && !s.net.flying.any (fun f => decide (f.gang = x.gang) && decide (f.buf ≤ x.buf) && (writesVault f.m || pendingAt s scope f))

/-- Whether the interface holds a request back: its translation waits for a table (R334), or the word of its page has changed since earlier requests for the
page left, of which one went to another vault than it goes to, and not all are performed (R236, R242). Log entry 36 (DEDUCED). -/
def heldAtSource (m : Msg) (s : State) : Bool :=
  let earlier := s.net.flying.filter (fun f => toAgent f.m && decide (f.m.asid = m.asid) && decide (pageOf (reqAddr f.m) = pageOf (reqAddr m))
    && decide (f.dest.toNat / 2 ^ 15 = m.dest.toNat / 2 ^ 15))
  toAgent m && ((match (translateStack m.asid (pageOf (reqAddr m)) s).1 with
    | .held _ => true
    | _ => false)
    || (earlier.any (fun f => decide (f.word ≠ flightWord m s)) && earlier.any (fun f => decide (f.dest ≠ flightDest m s))))

/-- Whether a released entry is a message. -/
def BufEntry.isMsg : BufEntry → Bool
  | .msg _ => true
  | _ => false

/-- Whether the released entry at a place may leave: it is the first of its send buffer, and its fence points and its release allow it (R203, R204,
R209). -/
def mayLeave (s : State) (i : Nat) (x : Released) : Bool :=
  let before := s.net.outbound.take i
  let released (scope : BitVec 3) : Bool := writesDone s x scope && !before.any (fun y => decide (y.gang = x.gang) && y.e.isMsg)
  !before.any (fun y => decide (y.buf = x.buf)) && (match x.e with
    | .msg m => !heldAtSource m s && (!m.sg || released m.scope)
    | .fence scope => !s.net.flying.any (fun f => decide (f.buf = x.buf) && pendingAt s scope f)
    | .bar scope _ => released scope
    | .emit _ _ _ => true)

/-- The first released entry of a kind that may leave, with its place. -/
def leavesNext (s : State) (p : BufEntry → Bool) : Option (Nat × Released) :=
  (List.range s.net.outbound.length).findSome? (fun i => match s.net.outbound[i]? with
    | none => none
    | some x => if p x.e && mayLeave s i x then some (i, x) else none)

/-- Whether a released entry is a barrier arrival. -/
def BufEntry.isBar : BufEntry → Bool
  | .bar _ _ => true
  | _ => false

/-- A context awaits one acknowledgement more. -/
def awaitAck (asid : Asid) (gen : BitVec 4) (s : State) : State :=
  match (List.finRange 4).find? (fun r => decide (s.res[r].state ≠ .free) && decide (s.res[r].asid = asid) && decide (s.res[r].gen = gen)) with
  | some r => s.setRes r { s.res[r] with pendingSignals := s.res[r].pendingSignals + 1 }
  | none => { s with net := { s.net with switchedOut := s.net.switchedOut.map (fun (a : Away) =>
      if a.asid = asid ∧ a.gen = gen then { a with pendingSignals := a.pendingSignals + 1 } else a) } }

/-- A SIGNAL leaves, or is bounced at the boundary of its scope (R210, R211). -/
def departSignal (gang : BitVec 16) (buf : Nat) (m : Msg) (s : State) : State :=
  if sameScope m.scope.toNat m.src m.dest then depart gang buf m (awaitAck m.asid m.gen s)
  else { s with net := { s.net with bounces := s.net.bounces ++ [m] } }

/-- MESSAGE_DEPART (R204): a reply of the device leaves, else the first released entry that may; an arrival leaves by BARRIER_ARRIVAL.
Log entries 19 and 37 (DEDUCED, DESIGN CHOICE). -/
def tryDepart (s : State) : Option State :=
  match s.net.leaving with
  | m :: rest => some (route m { s with net := { s.net with leaving := rest } })
  | [] =>
  match leavesNext s (fun e => !e.isBar) with
  | none => none
  | some (i, x) =>
    let s := { s with net := { s.net with outbound := s.net.outbound.eraseIdx i } }
    match x.e with
    | .msg m => some (if m.sg then departSignal x.gang x.buf m s else depart x.gang x.buf m s)
    | _ => some s
/-- MESSAGE_DEPART (R204). -/
def execMessageDepart (s : State) : Res := orStay (tryDepart s) s

/-! ## Signals, bounces and barriers (R210, R211, R214) -/

/-- SIGNAL_DECREMENT (R210): the interface performs the decrement and acknowledges it. A SIGNAL whose context has been killed or saved
meanwhile takes that path. It waits while the quad is scanned (R394). Log entry 25 (DEDUCED). -/
def trySignalDecrement (s : State) : Option State :=
  match s.net.signals with
  | [] => none
  | m :: rest =>
    let s1 := { s with net := { s.net with signals := rest } }
    if s.inScan then none
    else match (List.finRange 4).find? (fun r => s1.res[r].takes m) with
    | some r =>
      if s1.res[r].killed ∨ s1.res[r].state = .saving then arriveForContext m s1.mgr.tick s1
      else some (landed m (acknowledge m (decRecord r (bits m.payload.toNat 0 16 / 64 * 64) 1 s1)))
    | none => arriveForContext m s1.mgr.tick s1
/-- SIGNAL_DECREMENT (R210). -/
def execSignalDecrement (s : State) : Res := orStay (trySignalDecrement s) s

/-- SIGNAL_ACK (R210, R316): an acknowledgement of a SIGNAL of a context, its address space and generation, arrives. -/
def execSignalAck (ctx : Asid × BitVec 4) (s : State) : Res := .next (ackArrives ctx.1 ctx.2 s)

/-- SCOPE_MISS_BOUNCE (R211): the bounce returns to handler 0xDF in the reserved sink. -/
def tryBounce (s : State) : Option State :=
  match s.net.bounces with
  | [] => none
  | m :: rest => some (postReply (deviceReply 0x11 0xDF m s.address) { s with net := { s.net with bounces := rest } })
/-- SCOPE_MISS_BOUNCE (R211). -/
def execScopeMissBounce (s : State) : Res := orStay (tryBounce s) s

/-- The first arrival of a gang at a scope among the released entries that may leave (R209, R214): its place and offset. -/
def ownArrival (s : State) (gang : BitVec 16) (scope : BitVec 3) : Option (Nat × Word) :=
  (List.range s.net.outbound.length).findSome? (fun i => match s.net.outbound[i]? with
    | none => none
    | some x => match x.e with
      | .bar sc off => if x.gang = gang ∧ sc = scope ∧ mayLeave s i x = true then some (i, off) else none
      | _ => none)

/-- An arrival is recorded, and the barrier releases if it was the last (R214). -/
def recordArrival (gang : BitVec 16) (scope : BitVec 3) (core : BitVec 32) (off : Word) (s : State) : State :=
  releaseBarrier gang scope core { s with net := { s.net with arrivals := s.net.arrivals ++ [(gang, scope, core, off)] } }

/-- BARRIER_ARRIVAL (R214): of this core, an arrival among the released entries, which counts only while the core is a member; of another member,
one that it sends. -/
def tryBarrierArrival (gang : BitVec 16) (scope : BitVec 3) (core : BitVec 32) (s : State) : Option State :=
  if core = s.address then
    match ownArrival s gang scope with
    | none => none
    | some (i, off) =>
      let s := { s with net := { s.net with outbound := s.net.outbound.eraseIdx i } }
      some (if core ∈ barrierMembers s gang scope core then recordArrival gang scope core off s else s)
  else if core ∈ barrierMembers s gang scope core ∧ arrivedAt s gang scope core = none then some (recordArrival gang scope core 0 s)
  else none
/-- BARRIER_ARRIVAL (R214). -/
def execBarrierArrival (gang : BitVec 16) (scope : BitVec 3) (core : BitVec 32) (s : State) : Res :=
  orStay (tryBarrierArrival gang scope core s) s

/-! ## The end of a gang (R292, R369) -/

/-- A field of a launch packet: n bits from bit lo of doubleword d (R283). -/
def pkt (p : BitVec 1024) (d lo n : Nat) : Nat := bits p.toNat (64 * d + lo) n

/-- The doubleword that reports a gang's end (R292). -/
def endWord (g : Gang) : Word :=
  BitVec.ofNat 64 ((if g.anyKilled then 2 else 1) + g.gang.toNat * 2 ^ 16 + pkt g.packet 0 32 32 * 2 ^ 32)

/-- The end message (R292). -/
def endMessage (g : Gang) (s : State) : Msg where
  dest := BitVec.ofNat 32 (pkt g.packet 6 32 32)
  gen := g.gen
  asid := BitVec.ofNat 12 (pkt g.packet 2 36 12)
  scope := 4
  vn := 2
  spl := false
  dev := true
  rq := false
  sg := false
  len := 16
  src := BitVec.ofNat 32 (s.core.pkg.toNat * 2 ^ 15 + 0x7FFF)
  seq := BitVec.ofNat 16 (pkt g.packet 0 32 16)
  hidx := BitVec.ofNat 8 (pkt g.packet 6 24 8)
  rhidx := 0
  payload := BitVec.ofNat 512 (endWord g).toNat

/-- Completion entries go to the host's ring in order while it has room, each followed by its vector (R369); they wait until CRINGCFG has
named the ring. The number bounds the entries. -/
def flushEntries (s : State) : Nat → State
  | 0 => s
  | n + 1 =>
    match s.mgr.hostEntries with
    | [] => s
    | (d0, d1, vec) :: rest =>
      let h := s.host
      if h.cringSet = false ∨ (h.cpi - h.cci).toNat = 2 ^ h.cringK.toNat then s
      else
        let a := h.cringBase.toNat + 16 * (h.cpi.toNat % 2 ^ h.cringK.toNat)
        let cells := (leBytes 8 d0.toNat ++ leBytes 8 d1.toNat).zipIdx.map (fun e => (BitVec.ofNat 64 (a + e.2), e.1))
        flushEntries (raiseVector vec.toNat { s with
          mgr := { s.mgr with hostEntries := rest }
          host := { h with written := h.written ++ cells, cpi := h.cpi + 1 } }) n

/-- Every entry that has room is written. -/
def flushAll (s : State) : State := flushEntries s s.mgr.hostEntries.length

/-- A completion entry goes to the host's ring, with its vector (R292, R369). -/
def reportEnd (g : Gang) (s : State) : State :=
  let s := if pkt g.packet 6 23 1 = 1 then postReply (endMessage g s) s else s
  if pkt g.packet 6 22 1 = 1 then
    flushAll { s with mgr := { s.mgr with hostEntries := s.mgr.hostEntries ++ [(endWord g, s.mgr.tick, BitVec.ofNat 6 (pkt g.packet 6 16 6))] } }
  else s

/-- The gang leaves the quad-mates. -/
def unbindMates (gang : BitVec 16) (s : State) : State :=
  { s with quad := { s.quad with mates := s.quad.mates.map (fun m =>
      { m with residencies := m.residencies.filter (fun (y : MateRes) => decide (y.gang ≠ gang)) }) } }

/-- GANG_END (R292): the gang's last residency has been released in every package, whether or not the gang had started. -/
def tryGangEnd (gang : BitVec 16) (s : State) : Option State :=
  match gangOf s gang with
  | none => none
  | some g =>
    if g.holders = [] ∧ residencyOf s gang = none ∧ s.net.switchedOut.any (fun a => decide (a.gang = gang)) = false then
      let s := unbindMates gang (if g.forwarded.isSome then s else reportEnd g s)
      some { s with
        mgr := { s.mgr with gangs := s.mgr.gangs.filter (fun (x : Gang) => decide (x.gang ≠ gang)) }
        net := { s.net with arrivals := s.net.arrivals.filter (fun a => decide (a.1 ≠ gang)) } }
    else none
/-- GANG_END (R292). -/
def execGangEnd (gang : BitVec 16) (s : State) : Res := orStay (tryGangEnd gang s) s

end Sys2Proof.Machine
end

