-- ==== Sys2Proof/Machine/LaunchSteps.lean ====
section
/-! DEFINITION. Launches (R283 to R296, R405): rings, the checks of a packet, placement, start, cancel, and the two phases of a launch over
several packages. -/

namespace Sys2Proof.Machine

/-! ## Packets (R283, R284) -/

/-- MODE. -/
def pkMode (p : BitVec 1024) : Nat := pkt p 0 14 2
/-- GANG. -/
def pkGang (p : BitVec 1024) : BitVec 16 := BitVec.ofNat 16 (pkt p 0 16 16)
/-- FIRST. -/
def pkFirst (p : BitVec 1024) : Nat := pkt p 1 30 15
/-- LAST. -/
def pkLast (p : BitVec 1024) : Nat := pkt p 1 45 15
/-- NQ. -/
def pkNq (p : BitVec 1024) : Nat := pkt p 1 19 11
/-- KINDS. -/
def pkKinds (p : BitVec 1024) : Nat := pkt p 1 16 3
/-- SPAD. -/
def pkSpad (p : BitVec 1024) : Nat := pkt p 1 0 16
/-- ACCS. -/
def pkAccs (p : BitVec 1024) : Nat := pkt p 2 48 7
/-- ASID. -/
def pkAsid (p : BitVec 1024) : Asid := BitVec.ofNat 12 (pkt p 2 36 12)
/-- TK. -/
def pkTk (p : BitVec 1024) : Bool := decide (pkt p 0 11 1 = 1)
/-- TICK. -/
def pkTick (p : BitVec 1024) : Nat := pkt p 4 0 64
/-- PFIRST. -/
def pkPfirst (p : BitVec 1024) : Nat := pkt p 5 30 17
/-- PLAST. -/
def pkPlast (p : BitVec 1024) : Nat := pkt p 5 47 17

/-- The reservation's size: SPAD rounded up to whole banks (R36). -/
def pkSize (p : BitVec 1024) : Nat := (pkSpad p + 3071) / 3072 * 3072

/-- The reserved bits of the doublewords of a packet (R283). -/
def reservedMasks : List (Nat × Nat) :=
  [(1, 15 * 2 ^ 60), (2, 2 ^ 55 + (2 ^ 36 - 1)), (3, (2 ^ 16 - 1) * 2 ^ 48), (5, 2 ^ 30 - 1), (6, 2 ^ 16 - 1), (7, (2 ^ 48 - 1) * 2 ^ 16),
    (12, 2 ^ 64 - 1), (13, 2 ^ 64 - 1), (14, 2 ^ 64 - 1), (15, 2 ^ 48 - 1)]

/-- The first doubleword with a nonzero reserved bit. -/
def reservedFault (p : BitVec 1024) : Option Nat := (reservedMasks.find? (fun e => decide (pkt p e.1 0 64 &&& e.2 ≠ 0))).map Prod.fst

/-- The range's cores of one package, rising (R284). -/
def rangeCores (p : BitVec 1024) : List Nat :=
  let lo := pkFirst p % 2 ^ 13
  let hi := pkLast p % 2 ^ 13
  let s0 := pkFirst p / 2 ^ 13
  let s1 := pkLast p / 2 ^ 13
  (List.range (s1 + 1 - s0)).flatMap (fun i => (List.range (hi + 1 - lo)).map (fun j => (s0 + i) * 2 ^ 13 + lo + j))

/-- Whether a core of the package lies in the range. -/
def inLaunchRange (p : BitVec 1024) (core : Nat) : Bool :=
  decide (pkFirst p / 2 ^ 13 ≤ core / 2 ^ 13) && decide (core / 2 ^ 13 ≤ pkLast p / 2 ^ 13)
    && decide (pkFirst p % 2 ^ 13 ≤ core % 2 ^ 13) && decide (core % 2 ^ 13 ≤ pkLast p % 2 ^ 13)

/-- Whole quads of the range in one stack. -/
def rangeQuads (p : BitVec 1024) : Nat := (pkLast p % 2 ^ 13 + 1) / 4 - (pkFirst p % 2 ^ 13 + 3) / 4

/-- The image of a packet, when it is loaded (R409). -/
def imageOf (s : State) (p : BitVec 1024) : Option Image :=
  s.mgr.images.find? (fun (i : Image) => decide (i.index.toNat = pkt p 2 56 8) && i.loaded)

/-- The role that an image's placement maps a core to (R405). -/
def Image.roleIndex (i : Image) (core : Nat) : Option Nat :=
  (i.placement.find? (fun e => decide (e.1.toNat ≤ core) && decide (core ≤ e.2.1.toNat))).map (fun e => e.2.2.toNat)

/-- The role of a core. -/
def Image.roleOf (i : Image) (core : Nat) : Option Role :=
  match i.roleIndex core with
  | none => none
  | some k => i.roles[k]?

/-- A status with its DETAIL (R287). -/
abbrev Refused := Nat × Nat

/-- The image checks of R286 and R405. -/
def imageRefusal (s : State) (p : BitVec 1024) : Option Refused :=
  match imageOf s p with
  | none => some (6, 0)
  | some i =>
    let cores := rangeCores p
    let eh := decide (pkt p 0 12 1 = 1)
    let h := pkt p 0 0 8
    if cores.any (fun c => (i.roleOf c).isNone) then some (6, 3)
    else if cores.any (fun c => match i.roleOf c with
        | none => true
        | some r => if eh then decide (0xE0 ≤ h) || decide ((r.handler h).kinds = 0) else r.entry.isNone) then some (6, if eh then 2 else 1)
    else
      let used := (List.range i.roles.length).filter (fun k => cores.any (fun c => decide (i.roleIndex c = some k)))
      let outside (d : Descriptor) : Bool := decide (d.kinds.toNat &&& (7 - pkKinds p) ≠ 0)
      let bad (k : Nat) : Option Nat := match i.roles[k]? with
        | none => none
        | some r => match (r.handlers.find? (fun e => outside e.2)).map Prod.fst with
          | some h => some h
          | none => if r.tasks.any outside then some 0xFE else none
      match used.findSome? bad with
      | some d => some (7, d)
      | none => if eh = false ∧ pkKinds p / 2 % 2 = 0 then some (7, 0xFF) else none

/-- The start tick of a packet comes too soon (R286). -/
def tooLate (s : State) (p : BitVec 1024) : Bool := pkTk p && decide (pkTick p < s.mgr.tick.toNat + 10000)

/-- The checks of R286 in order after the seal, for a record of MODE 0 or 1; ring gives the ASID of a device ring.
Log entries 20 and 26 (DESIGN CHOICE, DEDUCED). -/
def placeRefusal (s : State) (p : BitVec 1024) (device : Option Asid) : Option Refused :=
  match reservedFault p with
  | some d => some (4, d)
  | none =>
    if pkLast p / 2 ^ 13 < pkFirst p / 2 ^ 13 ∨ pkLast p % 2 ^ 13 < pkFirst p % 2 ^ 13 then some (4, 1)
    else if pkPlast p < pkPfirst p ∨ s.core.pkg.toNat < pkPfirst p ∨ pkPlast p < s.core.pkg.toNat then some (4, 5)
    else if 1600 ≤ pkFirst p / 4 % 2 ^ 11 ∨ 1600 ≤ pkLast p / 4 % 2 ^ 11 then some (5, 1)
    else if pkSpad p = 0 ∨ 49152 < pkSize p then some (4, 1)
    else if pkAccs p % 2 = 1 ∨ 64 < pkAccs p then some (4, 2)
    else if pkKinds p = 0 then some (4, 1)
    else if pkt p 3 0 48 = 0 then some (4, 3)
    else if rangeQuads p < pkNq p then some (4, 1)
    else if pkPfirst p < pkPlast p ∧ pkTk p = false then some (4, 4)
    else if (match device with
      | some a => decide (a ≠ pkAsid p)
      | none => false) then some (11, 0)
    else match imageRefusal s p with
      | some x => some x
      | none =>
        if s.mgr.gangs.any (fun (g : Gang) => decide (g.gang = pkGang p)) || s.mgr.waiting.any (fun (w : Waiting) => decide (pkGang w.packet = pkGang p)) then
          some (8, pkMode p)
        else if tooLate s p then some (9, 0)
        else if pkNq p = 0 ∧ s.resil.failedQuads.any (fun q => (rangeCores p).any (fun c => decide (c / 4 = s.ownStack * 2 ^ 11 + q.toNat))) = true then some (5, 1)
        else none

/-- The checks of a record of MODE 2 or 3 after the seal (R286). -/
def startRefusal (s : State) (p : BitVec 1024) : Option Refused :=
  match gangOf s (pkGang p) with
  | none => some (8, pkMode p)
  | some g => if g.started then some (8, pkMode p) else if tooLate s p then some (9, 0) else none

/-! ## Rings (R289, R290) -/

/-- The virtual address of the record that a ring takes next. -/
def recordVa (x : Ring) : Nat := x.base.toNat + 128 * (x.ci.toNat % 2 ^ x.k.toNat)

/-- Whether a packet is sealed for a ring position (R290). -/
def sealGood (p : BitVec 1024) (n : BitVec 32) : Bool := decide (pkt p 0 32 32 = n.toNat) && decide (pkt p 15 48 16 = n.toNat % 2 ^ 16)

/-- The record that a ring's front end reads next: the front end serves rings when the package is READY, and takes nothing of a ring while
a launch of it waits (R290, R412). -/
def nextRecord (ring : Fin 24) (s : State) : Option (BitVec 1024 × State) :=
  let x := s.mgr.rings[ring]
  if !x.bound ∨ x.ci = x.pi ∨ s.mgr.boot ≠ .ready ∨ s.mgr.waiting.any (fun (w : Waiting) => decide (w.ring = some ring)) = true then none
  else (devBytes x.asid (recordVa x) 128 s).map (fun e => (BitVec.ofNat 1024 (bytesLE e.1), e.2))

/-- The status of a record is written and the ring goes on (R287). -/
def closeRecord (ring : Fin 24) (st : Refused) (s : State) : Option State :=
  let x := s.mgr.rings[ring]
  (devPut x.asid (recordVa x + 56) (leBytes 8 (st.1 + st.2 * 2 ^ 8)) s).map (fun s =>
    { s with mgr := { s.mgr with rings := vset s.mgr.rings ring { x with ci := x.ci + 1, rereads := 0 } } })

/-- SEAL_REREAD (R290): a read that fails the seal check; the ninth refuses the record. -/
def trySealReread (ring : Fin 24) (s : State) : Option State :=
  match nextRecord ring s with
  | none => none
  | some (p, s) =>
    let x := s.mgr.rings[ring]
    if sealGood p x.ci then none
    else if 8 ≤ x.rereads then closeRecord ring (3, 0) s
    else some { s with mgr := { s.mgr with rings := vset s.mgr.rings ring { x with rereads := x.rereads + 1 } } }
/-- SEAL_REREAD (R290). -/
def execSealReread (ring : Fin 24) (s : State) : Res := orStay (trySealReread ring s) s

/-- The producer index of a host ring (R289). -/
def notifyRing (ring : Fin 8) (pi : BitVec 32) (s : State) : State := setProducer ⟨ring.val, by omega⟩ pi s

/-- RING_NOTIFY (R289): the host writes the producer index of a host ring. A notify without the relaxed-ordering attribute waits for the earlier BAR 2
writes without it, and stays behind earlier such notifies (R367). Log entry 31 (DEDUCED). -/
def execRingNotify (ring : Fin 8) (pi : BitVec 32) (relaxed : Bool) (s : State) : Res :=
  let before := (s.host.pending.filter (fun a => a.data.isSome && !a.relaxed)).map HostAccess.id
  .next (if relaxed = true ∨ (before = [] ∧ s.host.notifies = []) then notifyRing ring pi s
    else { s with host := { s.host with notifies := s.host.notifies ++ [(ring, pi, before)] } })

/-- The oldest notify that waits is taken once the writes before it have been performed (R367). -/
def tryNotifyGo (s : State) : Option State :=
  match s.host.notifies with
  | [] => none
  | (ring, pi, before) :: rest =>
    if s.host.pending.any (fun a => decide (a.id ∈ before)) then none
    else some (notifyRing ring pi { s with host := { s.host with notifies := rest } })

/-! ## Placement (R291 to R293) -/

/-- The cores of this core's quad, rising. -/
def quadCores (s : State) : List (BitVec 32) := (List.range 4).map (fun k => BitVec.ofNat 32 (s.address.toNat / 4 * 4 + k))

/-- The cores of a launch's quads in this package, or of its whole range (R284). -/
def placedCores (p : BitVec 1024) (pkg : Nat) (quads : List (BitVec 17 × BitVec 13)) : List Nat :=
  if pkNq p = 0 then rangeCores p
  else (quads.filter (fun q => decide (q.1.toNat = pkg))).flatMap (fun q => (List.range 4).map (fun k => q.2.toNat * 4 + k))

/-- Whether the quads of a placement are those that a launch with NQ > 0 asks for: NQ in each stack of the range of every package, each with all
four cores in the range (R284). -/
def quadsGood (p : BitVec 1024) (quads : List (BitVec 17 × BitVec 13)) : Bool :=
  let packages := (List.range (pkPlast p + 1 - pkPfirst p)).map (fun i => pkPfirst p + i)
  let inStacks := (List.range (pkLast p / 2 ^ 13 + 1 - pkFirst p / 2 ^ 13)).map (fun i => pkFirst p / 2 ^ 13 + i)
  decide (pkNq p = 0) ||
    (decide quads.Nodup
      && packages.all (fun k => inStacks.all (fun t =>
        decide ((quads.filter (fun q => decide (q.1.toNat = k ∧ q.2.toNat / 2 ^ 11 = t))).length = pkNq p)))
      && quads.all (fun q => decide (q.1.toNat ∈ packages) && (List.range 4).all (fun k => inLaunchRange p (q.2.toNat * 4 + k))))

/-- The slots that the residencies of this core's quad are committed to (R293). -/
def committedSlots (s : State) : Nat :=
  ((s.res.toList.filter (fun x => decide (x.state ≠ .free))).map (fun x => onesIn x.slots.toNat 4)).sum
    + (s.quad.mates.toList.map (fun m => (m.residencies.map (fun y => onesIn y.kinds.toNat 3)).sum)).sum

/-- The cores of this core's quad that a launch needs. -/
def neededHere (s : State) (p : BitVec 1024) (quads : List (BitVec 17 × BitVec 13)) : List (BitVec 32) :=
  let cores := placedCores p s.core.pkg.toNat quads
  (quadCores s).filter (fun c => decide (c.toNat % 2 ^ 15 ∈ cores))

/-- Whether a packet's reservation fits a quad-mate's banks from a bank on (R292). -/
def bankFree (p : BitVec 1024) (m : Mate) (bank : Nat) : Bool :=
  let lo := bank * 3072
  decide (lo + pkSize p ≤ 49152)
    && m.residencies.all (fun y => decide (lo + pkSize p ≤ y.spbase.toNat) || decide (y.spbase.toNat + y.spsize.toNat ≤ lo))

/-- The first bank of a packet's reservation on a quad-mate: the placement's own where that is free, else the lowest that is (R292).
Log entry 20 (DESIGN CHOICE). -/
def mateBank (p : BitVec 1024) (m : Mate) (bank : BitVec 4) : Option Nat := (bank.toNat :: List.range 16).find? (bankFree p m)

/-- Whether a quad-mate admits a further residency of a packet (R292). -/
def mateAdmits (p : BitVec 1024) (bank : BitVec 4) (m : Mate) : Bool :=
  decide (m.residencies.length < 4) && decide ((m.residencies.map (fun y => onesIn y.kinds.toNat 3)).sum + onesIn (pkKinds p) 3 ≤ 4)
    && (decide (pkAccs p = 0) || m.residencies.all (fun y => !y.accs)) && (mateBank p m bank).isSome

/-- Whether the quad runs and holds the image of a packet in its instruction store, loaded again after a wake (R292, R336). -/
def quadReady (s : State) (p : BitVec 1024) : Bool :=
  s.quadOn && !s.quad.reload && (match imageOf s p with
    | none => false
    | some i => decide (BitVec.ofNat 11 s.ownQuad ∈ i.holding))

/-- Whether the quad is eligible for a launch (R293, R397): it holds the image, the cores it needs there admit it, and the committed slots stay within
OCC; a launch that needs none of its cores does not ask. No quad of the placement in this stack is retired. -/
def quadEligible (s : State) (p : BitVec 1024) (quads : List (BitVec 17 × BitVec 13)) (bank : BitVec 4) : Bool :=
  let need := neededHere s p quads
  (need.isEmpty || (quadReady s p
    && decide (committedSlots s + need.length * onesIn (pkKinds p) 3 ≤ s.mgr.occ.toNat)
    && (List.finRange 4).all (fun k => decide (k.val = s.coreInQuad.toNat) || mateAdmits p bank s.quad.mates[k]
      || !decide (BitVec.ofNat 32 (s.address.toNat / 4 * 4 + k.val) ∈ need))))
    && quads.all (fun q => !(decide (q.1.toNat = s.core.pkg.toNat) && quadRetired s (q.2.toNat * 4)))

/-- Whether the core admits a residency of a packet at a placement (R36, R292, R293): a free record, slots and banks that no other residency has,
at most one multiplier residency, and the quad eligible, with the image in its instruction store. -/
def admits (s : State) (p : BitVec 1024) (at_ : Placement) : Bool :=
  let others := s.res.toList.filter (fun x => decide (x.state ≠ .free))
  let lo := at_.bank.toNat * 3072
  decide (s.res[at_.res].state = .free) && decide (onesIn at_.slots.toNat 4 = onesIn (pkKinds p) 3)
    && others.all (fun x => decide (x.slots &&& at_.slots = 0))
    && decide (lo + pkSize p ≤ 49152)
    && others.all (fun x => decide (lo + pkSize p ≤ x.spbase.toNat) || decide (x.spbase.toNat + x.spsize.toNat ≤ lo))
    && (decide (pkAccs p = 0) || others.all (fun x => decide (x.accs = 0)))
    && quadReady s p && quadEligible s p at_.quads at_.bank

/-- The bind record and residency that a placement writes (R291, R292): the launch task is held in it, and the reservation is being
cleared. -/
def placedResidency (s : State) (p : BitVec 1024) (at_ : Placement) (gen : BitVec 4) (i : Image) (role : Role) (st : BindState) : Residency :=
  { Residency.free with
    state := st, prio := BitVec.ofNat 3 (pkt p 0 8 3), kinds := BitVec.ofNat 3 (pkKinds p), slots := at_.slots,
    accs := BitVec.ofNat 7 (pkAccs p), quadMapped := decide (pkt p 0 13 1 = 1), eh := decide (pkt p 0 12 1 = 1),
    hidx := BitVec.ofNat 8 (pkt p 0 0 8), ibase := i.base, ilen := i.size - 1, gang := pkGang p, gen := gen, asid := pkAsid p,
    spbase := BitVec.ofNat 16 (at_.bank.toNat * 3072), spsize := BitVec.ofNat 16 (pkSize p), role := role, clearing := true, launchHeld := true,
    freeSince := s.core.cycle, budget := BitVec.ofNat 64 (pkt p 3 0 48), startTick := BitVec.ofNat 64 (pkTick p),
    args := Vector.ofFn (fun (k : Fin 4) => BitVec.ofNat 64 (pkt p (8 + k.val) 0 64)) }

/-- The format registers of a reservation's banks take the image's values (R24, R27). -/
def loadFormats (base size : Nat) (f : Vector (BitVec 10) 16) (old : Vector (BitVec 10) 16) : Vector (BitVec 10) 16 :=
  Vector.ofFn (fun (k : Fin 16) =>
    if base / 3072 ≤ k.val ∧ k.val < (base + size) / 3072 then f[k.val - base / 3072]'(by omega) else old[k])

/-- A residency is bound on this core: its reservation reads as zero, its banks have the image's formats, and a multiplier residency
begins with empty buffers, zero accumulators and GUARDCFG 0 (R23, R34, R36, R149). -/
def bindResidency (at_ : ResIx) (x : Residency) (s : State) : State :=
  let lo := x.spbase.toNat
  let hi := lo + x.spsize.toNat
  let s1 := if x.accs = 0 then s else releaseMultiplier s
  let s2 := { s1 with core := { s1.core with
    spad := clearRange s1.core.spad lo hi
    spadBad := s1.core.spadBad.filter (fun w => decide (8 * w + 8 ≤ lo) || decide (hi ≤ 8 * w))
    bfmt := loadFormats lo x.spsize.toNat x.role.bfmt s1.core.bfmt } }
  s2.setRes at_ x

/-- The cores that a gang occupies in every package (R284). Log entry 20 (DESIGN CHOICE). -/
def gangCores (p : BitVec 1024) (quads : List (BitVec 17 × BitVec 13)) : List (BitVec 32) :=
  (List.range (pkPlast p + 1 - pkPfirst p)).flatMap (fun i =>
    (placedCores p (pkPfirst p + i) quads).map (fun c => BitVec.ofNat 32 ((pkPfirst p + i) * 2 ^ 15 + c)))

/-- A quad-mate of the gang gets its reservation, if it has none yet (R32, R36). Log entry 20 (DESIGN CHOICE). -/
def bindMate (g : Gang) (k : Fin 4) (s : State) : State :=
  let p := g.packet
  let m := s.quad.mates[k]
  let core := BitVec.ofNat 32 (s.address.toNat / 4 * 4 + k.val)
  if k.val = s.coreInQuad.toNat ∨ core ∉ g.holders ∨ m.residencies.any (fun y => decide (y.gang = g.gang)) = true then s
  else
    let y : MateRes :=
      { gang := g.gang, kinds := BitVec.ofNat 3 (pkKinds p), spbase := BitVec.ofNat 16 (((mateBank p m g.bank).getD g.bank.toNat) * 3072), spsize := BitVec.ofNat 16 (pkSize p),
        mem := [], bad := [], granules := [], quadRemote := false, accs := decide (pkAccs p ≠ 0), killed := false }
    { s with quad := { s.quad with mates := vset s.quad.mates k { m with residencies := m.residencies ++ [y] } } }

/-- The quad-mates of the gang get their reservations. -/
def bindMates (g : Gang) (s : State) : State := (List.finRange 4).foldl (fun s k => bindMate g k s) s

/-- STATE of a new bind record (R295, R296): BOUND for MODE 1 and for a launch over several packages, ARMED with a start tick, else
RUNNING. -/
def firstState (p : BitVec 1024) : BindState :=
  if pkMode p = 1 ∨ pkPfirst p < pkPlast p then .bound else if pkTk p then .armed else .running

/-- Whether a gang is under way once it is placed: not while it is BOUND. -/
def startsAtOnce (p : BitVec 1024) : Bool := decide (firstState p ≠ .bound)

/-- The generation that the next gang of an address space takes (R310); the first takes 0. Log entry 26 (DESIGN CHOICE). -/
def nextGen (s : State) (asid : Asid) : BitVec 4 := BitVec.ofNat 4 (Table.get 0 s.mgr.gens asid.toNat)

/-- Whether a launch's READY reports still come in time: before TICK − 5,000 (R296). -/
def inTime (s : State) (p : BitVec 1024) : Bool := decide (s.mgr.tick.toNat + 5000 < pkTick p)

/-- Whether a package refuses READY: a launch with a start tick while its TICK is not synchronised (R361). -/
def refusesReady (s : State) (p : BitVec 1024) : Bool := pkTk p && !s.mgr.synced

/-- The report of the package whose front end took a launch, at its own placement: READY (0), or LATE where it refuses READY; none at or after TICK − 5,000
(R296, R361). Log entry 26 (DEDUCED). -/
def ownReport (s : State) (p : BitVec 1024) : List (BitVec 17 × BitVec 8) :=
  if inTime s p then [(s.core.pkg, if refusesReady s p then 9 else 0)] else []

/-- A gang joins the gang table, with the next generation of its address space; quad-mates that start with it by a tick, or are bound only, are placed
with it (R292, R295, R310). -/
def addGang (p : BitVec 1024) (ring : Option (Fin 24)) (pos : BitVec 32) (forwarded : Option (BitVec 17)) (reported : List (BitVec 17 × BitVec 8))
    (quads : List (BitVec 17 × BitVec 13)) (bank : BitVec 4) (s : State) : State :=
  let gen := nextGen s (pkAsid p)
  let cores := gangCores p quads
  let reported := if forwarded.isNone ∧ pkPfirst p < pkPlast p then reported ++ ownReport s p else reported
  let g : Gang :=
    { gang := pkGang p, gen := gen, packet := p, started := startsAtOnce p, anyKilled := false, forwarded := forwarded, ring := ring,
      pos := pos, ready := reported, committed := false, members := cores, holders := cores, bank := bank }
  let s := { s with mgr := { s.mgr with
    gangs := s.mgr.gangs ++ [g]
    candidates := s.mgr.candidates.filter (fun e => decide (e.1 ≠ pkGang p))
    gens := Table.put 0 s.mgr.gens (pkAsid p).toNat ((gen + 1).toNat) } }
  if firstState p = .running then s else bindMates g s

/-- A gang is placed (R292, R293): on this core too when the gang occupies it; none while there is no placement here. The reports of other
packages that came while it waited stay with it (R296). -/
def placeGang (p : BitVec 1024) (ring : Option (Fin 24)) (pos : BitVec 32) (forwarded : Option (BitVec 17)) (reported : List (BitVec 17 × BitVec 8))
    (at_ : Option Placement) (s : State) : Option State :=
  let core := s.core.id.toNat
  match at_ with
  | none => if inLaunchRange p core ∨ pkNq p ≠ 0 ∨ quadEligible s p [] 0 = false then none else some (addGang p ring pos forwarded reported [] 0 s)
  | some a =>
    if !quadsGood p a.quads then none
    else if core ∉ placedCores p s.core.pkg.toNat a.quads then
      (if quadEligible s p a.quads a.bank then some (addGang p ring pos forwarded reported a.quads a.bank s) else none)
    else if !admits s p a then none
    else match imageOf s p with
      | none => none
      | some i => match i.roleOf core with
        | none => none
        | some role =>
          let x := placedResidency s p a (nextGen s (pkAsid p)) i role (firstState p)
          some (addGang p ring pos forwarded reported a.quads a.bank (bindResidency a.res x s))

/-- The first bind record, bank and slots of this core that would do for a launch (R292, R293). -/
def firstPlacement (s : State) (p : BitVec 1024) (quads : List (BitVec 17 × BitVec 13)) : Option Placement :=
  (List.finRange 4).findSome? (fun r => (List.range 16).findSome? (fun b => (List.range 16).findSome? (fun k =>
    let a : Placement := ⟨r, BitVec.ofNat 4 b, BitVec.ofNat 4 k, 0, quads⟩
    if admits s p a then some a else none)))

/-- The quads that a launch may get on this core's account: those that the stack manager names, or this core's quad alone, or none where the launch
chooses no quads (R284). Log entry 26 (DEDUCED). -/
def quadChoices (s : State) (p : BitVec 1024) (at_ : Option Placement) : List (List (BitVec 17 × BitVec 13)) :=
  ((at_.map Placement.quads).toList ++ [if pkNq p = 0 then [] else [(s.core.pkg, BitVec.ofNat 13 (s.core.id.toNat / 4))]]).filter (fun q => quadsGood p q
    && decide (s.core.id.toNat ∈ placedCores p s.core.pkg.toNat q))

/-- A launch is placed: as the stack manager's choice says, or, where that does not hold, at a placement that exists (R293). -/
def placeAnywhere (p : BitVec 1024) (ring : Option (Fin 24)) (pos : BitVec 32) (forwarded : Option (BitVec 17)) (reported : List (BitVec 17 × BitVec 8))
    (at_ : Option Placement) (s : State) : Option State :=
  (placeGang p ring pos forwarded reported at_ s).orElse (fun _ =>
    (quadChoices s p at_).findSome? (fun q => (firstPlacement s p q).bind (fun a => placeGang p ring pos forwarded reported (some a) s)))

/-- A gang's reservations are released without having started (R286, R296). -/
def freeGang (gang : BitVec 16) (s : State) : State :=
  let s := match residencyOf s gang with
    | none => s
    | some r =>
      let s := if s.res[r].accs = 0 then s else releaseMultiplier s
      s.setRes r Residency.free
  let s := unbindMates gang s
  { s with mgr := { s.mgr with gangs := s.mgr.gangs.filter (fun (g : Gang) => decide (g.gang ≠ gang)) } }

/-- A report of a launch's fate other than the status of its record (R287, R296). -/
def reportLaunch (gang : BitVec 16) (st : Refused) (s : State) : State :=
  { s with mgr := { s.mgr with reports := s.mgr.reports ++ [(gang, BitVec.ofNat 8 st.1, BitVec.ofNat 8 st.2)] } }

/-- The other packages of a packet's range. -/
def packetPackages (s : State) (p : BitVec 1024) : List (BitVec 17) :=
  ((List.range (pkPlast p + 1 - pkPfirst p)).map (fun i => BitVec.ofNat 17 (pkPfirst p + i))).filter (fun k => decide (k ≠ s.core.pkg))

/-- The front end sends to the stack managers of stack 0 in every other package of a packet's range (R296). -/
def sendLaunch (p : BitVec 1024) (m : LaunchMsg) (s : State) : State :=
  { s with mgr := { s.mgr with launchOut := s.mgr.launchOut ++ (packetPackages s p).map (fun k => (k, m)) } }

/-- An accepted launch is placed, or waits (R294). Log entry 26 (DEDUCED). -/
def placeOrWait (p : BitVec 1024) (ring : Option (Fin 24)) (pos : BitVec 32) (forwarded : Option (BitVec 17)) (at_ : Option Placement) (s : State) : State :=
  match placeAnywhere p ring pos forwarded [] at_ s with
  | some s => s
  | none => { s with mgr := { s.mgr with waiting := s.mgr.waiting ++ [⟨p, ring, pos, forwarded, s.mgr.tick, []⟩] } }

/-- An accepted packet of a ring is forwarded to the other packages of its range, and placed here, or waits (R294, R296). -/
def takeLaunch (p : BitVec 1024) (ring : Fin 24) (n : BitVec 32) (at_ : Option Placement) (s : State) : State :=
  placeOrWait p (some ring) n none at_ (sendLaunch p (.forward p n) s)

/-- The ASID of a device ring (R289); host rings, 0 to 7, have none to compare. -/
def deviceAsid (ring : Fin 24) (s : State) : Option Asid := if 8 ≤ ring.val then some s.mgr.rings[ring].asid else none

/-- A record of a given MODE is taken (R286, R290): a refusal is written to it, or it is accepted and f acts. Log entry 26 (DEDUCED). -/
def takeRecord (ring : Fin 24) (mode : Nat) (refusal : BitVec 1024 → State → Option Refused) (accepted : Nat)
    (f : BitVec 1024 → BitVec 32 → State → State) (s : State) : Option State :=
  match nextRecord ring s with
  | none => none
  | some (p, s) =>
    let n := s.mgr.rings[ring].ci
    if !sealGood p n ∨ pkMode p ≠ mode then none
    else match refusal p s with
      | some st => closeRecord ring st s
      | none => (closeRecord ring (accepted, 0) s).map (f p n)

/-- PLACE_AND_START (R286). -/
def execPlaceAndStart (ring : Fin 24) (at_ : Option Placement) (s : State) : Res :=
  orStay (takeRecord ring 0 (fun p s => placeRefusal s p (deviceAsid ring s)) 0 (fun p n s => takeLaunch p ring n at_ s) s) s
/-- PLACE_ONLY (R286). -/
def execPlaceOnly (ring : Fin 24) (at_ : Option Placement) (s : State) : Res :=
  orStay (takeRecord ring 1 (fun p s => placeRefusal s p (deviceAsid ring s)) 0 (fun p n s => takeLaunch p ring n at_ s) s) s

/-! ## START and CANCEL (R286) -/

/-- A placed packet takes MODE, TK, TICK and the arguments of its START; LSEQ stays the placing record's (R286). -/
def startedPacket (old p : BitVec 1024) : BitVec 1024 :=
  let args := bits p.toNat 512 256
  let w := setField (setField old 512 256 args) (64 * 4) 64 (pkTick p)
  setField w 11 1 (pkt p 0 11 1)

/-- The BOUND record of a gang on this core goes to a new state with the packet's arguments and tick (R295). -/
def startBound (gang : BitVec 16) (p : BitVec 1024) (st : BindState) (s : State) : State :=
  match residencyOf s gang with
  | none => s
  | some r =>
    let x := s.res[r]
    if x.state ≠ .bound then s
    else
      let s := s.bump
      s.setRes r { x with
        state := st, startTick := BitVec.ofNat 64 (pkTick p), args := Vector.ofFn (fun (k : Fin 4) => BitVec.ofNat 64 (pkt p (8 + k.val) 0 64)),
        launchReady := decide (st = .running) && !x.clearing, readyAt := s.core.stamp, freeSince := s.core.cycle }

/-- Replaces a gang in the gang table. -/
def updateGang (gang : BitVec 16) (f : Gang → Gang) (s : State) : State :=
  { s with mgr := { s.mgr with gangs := s.mgr.gangs.map (fun g => if g.gang = gang then f g else g) } }

/-- A placed gang starts: with TK = 1 at the START's tick, else at once (R286, R295). -/
def startGang (p : BitVec 1024) (s : State) : State :=
  let s := startBound (pkGang p) p (if pkTk p then .armed else .running) s
  updateGang (pkGang p) (fun g => { g with started := true, packet := startedPacket g.packet p }) s

/-- A START or CANCEL of a gang over several packages goes to the others too (R286, R296). Log entry 26 (DEDUCED). -/
def forwardStart (p : BitVec 1024) (n : BitVec 32) (s : State) : State :=
  match gangOf s (pkGang p) with
  | none => s
  | some g => sendLaunch g.packet (.forward p n) s

/-- START (R286). -/
def execStart (ring : Fin 24) (s : State) : Res :=
  orStay (takeRecord ring 2 (fun p s => startRefusal s p) 0 (fun p n s => startGang p (forwardStart p n s)) s) s
/-- CANCEL (R286): every reservation of the gang is released, and the record reports CANCELLED. -/
def execCancel (ring : Fin 24) (s : State) : Res :=
  orStay (takeRecord ring 3 (fun p s => startRefusal s p) 10 (fun p n s => freeGang (pkGang p) (forwardStart p n s)) s) s

/-! ## Launches over several packages (R296) -/

/-- The status of a launch reaches the record of a ring at a position; one without a ring is reported. -/
def reportAt (gang : BitVec 16) (ring : Option (Fin 24)) (pos : BitVec 32) (st : Refused) (s : State) : State :=
  match ring with
  | none => reportLaunch gang st s
  | some k =>
    let x := s.mgr.rings[k]
    let va := x.base.toNat + 128 * (pos.toNat % 2 ^ x.k.toNat) + 56
    match devPut x.asid va (leBytes 8 (st.1 + st.2 * 2 ^ 8)) s with
    | some s => s
    | none => reportLaunch gang st s

/-- A package's READY (status 0) or refusal goes to the package that forwarded the launch (R296). -/
def reportForward (gang : BitVec 16) (st : Refused) (src : BitVec 17) (s : State) : State :=
  let s := reportLaunch gang st s
  { s with mgr := { s.mgr with launchOut := s.mgr.launchOut ++ [(src, .report gang (BitVec.ofNat 8 st.1))] } }

/-- The status of a launch over several packages reaches its record; a forwarded one only frees its part. -/
def reportFate (g : Gang) (st : Refused) (s : State) : State := reportAt g.gang g.ring g.pos st s

/-- LAUNCH_FORWARD (R296): a packet that another package's front end forwards, checked with the package that forwards it and the ring position that it carries; the
package reports READY (status 0) or its refusal. Log entry 26 (DEDUCED). -/
def execLaunchForward (packet : BitVec 1024) (from_ : BitVec 17 × BitVec 32) (at_ : Option Placement) (s : State) : Res :=
  let src := from_.1
  let n := from_.2
  let gang := pkGang packet
  if !sealGood packet n then .next (reportForward gang (3, 0) src s)
  else if pkMode packet ≤ 1 then
    match placeRefusal s packet none with
    | some st => .next (reportForward gang st src s)
    | none =>
      if refusesReady s packet then .next (reportForward gang (9, 0) src s)
      else match placeAnywhere packet none n (some src) [] at_ s with
        | some s => .next (reportForward gang (0, 0) src s)
        | none => .next (placeOrWait packet none n (some src) none s)
  else
    match startRefusal s packet with
    | some st => .next (reportForward gang st src s)
    | none =>
      if pkMode packet = 3 then .next (reportForward gang (10, 0) src (freeGang gang s))
      else if refusesReady s packet then .next (reportForward gang (9, 0) src s)
      else .next (reportForward gang (0, 0) src (startGang packet s))

/-- A launch of a gang that waits for its placement. -/
def waitingLaunch (s : State) (gang : BitVec 16) : Option Waiting := s.mgr.waiting.find? (fun w => decide (pkGang w.packet = gang))

/-- A waiting launch leaves the list. -/
def dropLaunch (w : Waiting) (s : State) : State :=
  { s with mgr := { s.mgr with waiting := s.mgr.waiting.filter (fun x => decide (x ≠ w)) } }

/-- READY_REPORT (R296): another package's report joins those of the gang, or of its launch while that still waits here; one that comes at or after
TICK − 5,000 is too late. -/
def execReadyReport (gang : BitVec 16) (pkg : BitVec 17) (status : BitVec 8) (s : State) : Res :=
  let join (own : Bool) (p : BitVec 1024) (l : List (BitVec 17 × BitVec 8)) : List (BitVec 17 × BitVec 8) :=
    if !own ∨ !inTime s p ∨ l.any (fun e => decide (e.1 = pkg)) = true then l else l ++ [(pkg, status)]
  match gangOf s gang with
  | some _ => .next (updateGang gang (fun g => { g with ready := join g.forwarded.isNone g.packet g.ready }) s)
  | none =>
    let held := s.mgr.waiting.map (fun w => if pkGang w.packet = gang then { w with ready := join w.forwarded.isNone w.packet w.ready } else w)
    .next { s with mgr := { s.mgr with waiting := held } }

/-- The other packages of a gang's range. -/
def otherPackages (s : State) (g : Gang) : List (BitVec 17) := packetPackages s g.packet

/-- Whether every package, this one included, has reported READY. -/
def allReady (s : State) (g : Gang) : Bool := (s.core.pkg :: otherPackages s g).all (fun k => decide ((k, 0) ∈ g.ready))

/-- The first refusal of a list of reports, in package order (R296). -/
def refusalIn (l : List (BitVec 17 × BitVec 8)) (packages : List (BitVec 17)) : Option Nat :=
  packages.findSome? (fun k => match l.find? (fun e => decide (e.1 = k)) with
    | some e => if e.2 = 0 then none else some e.2.toNat
    | none => none)

/-- The packages of a gang's range, in order. -/
def rangePackages (g : Gang) : List (BitVec 17) := (List.range (pkPlast g.packet + 1 - pkPfirst g.packet)).map (fun i => BitVec.ofNat 17 (pkPfirst g.packet + i))

/-- The first refusal in package order (R296). -/
def firstRefusal (g : Gang) : Option Nat := refusalIn g.ready (rangePackages g)

/-- Whether a gang is a launch over several packages that waits for its COMMIT. -/
def pendingGang (g : Gang) : Bool := decide (pkPfirst g.packet < pkPlast g.packet) && !g.committed && !g.started

/-- The records of a committed gang become ARMED; those of a MODE 1 launch stay BOUND until its START. Log entry 26 (DEDUCED). -/
def commitGang (g : Gang) (s : State) : State :=
  if pkMode g.packet = 0 then updateGang g.gang (fun g => { g with committed := true, started := true }) (startBound g.gang g.packet .armed s)
  else updateGang g.gang (fun g => { g with committed := true }) s

/-- COMMIT (R296): sent once every package is READY before TICK − 5,000, or received. -/
def tryCommit (gang : BitVec 16) (s : State) : Option State :=
  match gangOf s gang with
  | none => none
  | some g =>
    if !pendingGang g then none
    else if g.forwarded.isSome then some (commitGang g s)
    else if allReady s g then some (sendLaunch g.packet (.commit gang) (commitGang g s))
    else none

/-- The front end that took the launch sends COMMIT as soon as every package is READY (R296). -/
def tryOwnCommit (gang : BitVec 16) (s : State) : Option State :=
  match gangOf s gang with
  | none => none
  | some g => if g.forwarded.isSome then none else tryCommit gang s

/-- COMMIT (R296). -/
def execCommit (gang : BitVec 16) (s : State) : Res := orStay (tryCommit gang s) s

/-- The records of a pending gang are freed, and its fate reported. -/
def abortGang (g : Gang) (st : Refused) (s : State) : State := reportFate g st (freeGang g.gang s)

/-- The front end that took a launch aborts it: every package frees its records, and its record reports the status (R296). -/
def sendAbort (g : Gang) (st : Refused) (s : State) : State := abortGang g st (sendLaunch g.packet (.abort g.gang) s)

/-- A waiting launch over several packages that its front end aborts leaves the list. -/
def abortWaiting (w : Waiting) (st : Refused) (s : State) : State :=
  reportAt (pkGang w.packet) w.ring w.pos st (dropLaunch w (sendLaunch w.packet (.abort (pkGang w.packet)) s))

/-- LAUNCH_ABORT (R296): received by a package to which the launch was forwarded, or sent once every package has reported and one has
refused. A launch that still waits for its placement here leaves the list. -/
def tryLaunchAbort (gang : BitVec 16) (s : State) : Option State :=
  match gangOf s gang with
  | none => match waitingLaunch s gang with
    | none => none
    | some w =>
      if pkPlast w.packet ≤ pkPfirst w.packet then none
      else if w.forwarded.isSome then some (dropLaunch w s)
      else match refusalIn w.ready (packetPackages s w.packet) with
        | some st => if w.ready.length = (packetPackages s w.packet).length then some (abortWaiting w (st, 0) s) else none
        | none => none
  | some g =>
    if !pendingGang g then none
    else if g.forwarded.isSome then some (freeGang gang s)
    else match firstRefusal g with
      | some st => if g.ready.length = (rangePackages g).length then some (sendAbort g (st, 0) s) else none
      | none => none
/-- LAUNCH_ABORT (R296). -/
def execLaunchAbort (gang : BitVec 16) (s : State) : Res := orStay (tryLaunchAbort gang s) s

/-- READY_DEADLINE (R296): at TICK − 5,000 the front end that took the launch sends ABORT unless every package reported READY before it. -/
def tryReadyDeadline (gang : BitVec 16) (s : State) : Option State :=
  match gangOf s gang with
  | none => match waitingLaunch s gang with
    | none => none
    | some w =>
      if pkPfirst w.packet < pkPlast w.packet ∧ w.forwarded = none ∧ inTime s w.packet = false then
        some (abortWaiting w ((refusalIn w.ready (packetPackages s w.packet)).getD 9, 0) s)
      else none
  | some g =>
    if pendingGang g ∧ g.forwarded = none ∧ inTime s g.packet = false ∧ allReady s g = false then
      some (sendAbort g ((firstRefusal g).getD 9, 0) s)
    else none
/-- READY_DEADLINE (R296). -/
def execReadyDeadline (gang : BitVec 16) (s : State) : Res := orStay (tryReadyDeadline gang s) s

/-- SELF_ABORT (R296): a package that holds BOUND records without a COMMIT at TICK − 2,000 frees them. -/
def trySelfAbort (gang : BitVec 16) (s : State) : Option State :=
  match gangOf s gang with
  | none => none
  | some g => if pendingGang g ∧ pkTick g.packet ≤ s.mgr.tick.toNat + 2000 then some (freeGang gang s) else none
/-- SELF_ABORT (R296). -/
def execSelfAbort (gang : BitVec 16) (s : State) : Res := orStay (trySelfAbort gang s) s

/-! ## Waiting launches (R294) -/

/-- Effective priority: PRIO plus 1 for each full millisecond of waiting, up to 7. -/
def effectivePriority (s : State) (w : Waiting) : Nat := min 7 (pkt w.packet 0 8 3 + (s.mgr.tick.toNat - w.since.toNat) / 1000000)

/-- The launch of a list that is considered first: the highest effective priority, then the earlier ring position. -/
def firstOf (s : State) (l : List Waiting) : Option Waiting :=
  l.foldl (fun b w => match b with
    | none => some w
    | some b => if effectivePriority s b < effectivePriority s w ∨ (effectivePriority s b = effectivePriority s w ∧ w.pos.toNat < b.pos.toNat) then some w else some b) none

/-- The waiting launch that is considered first. -/
def firstWaiting (s : State) : Option Waiting := firstOf s s.mgr.waiting

/-- The launches of a list are considered in order until one has the placement; the number bounds them. A forwarded one then reports READY, or refuses it and
leaves the list (R361). -/
def considerWaiting (at_ : Option Placement) (s : State) : Nat → List Waiting → Option State
  | 0, _ => none
  | n + 1, l => match firstOf s l with
    | none => none
    | some w => match placeAnywhere w.packet w.ring w.pos w.forwarded w.ready at_ (dropLaunch w s) with
      | some t => some (match w.forwarded with
        | none => t
        | some src =>
          if refusesReady s w.packet then reportForward (pkGang w.packet) (9, 0) src (dropLaunch w s) else reportForward (pkGang w.packet) (0, 0) src t)
      | none => considerWaiting at_ s n (l.filter (fun x => decide (x ≠ w)))

/-- The remaining BUDGET of a residency's running task; an idle one counts as 0 (R294). -/
def remaining (s : State) (r : ResIx) : Nat := (s.res[r].task.map (fun t => t.budget.toNat)).getD 0

/-- Residencies whose priority lies below a launch's: those that drain or are being saved already, then those that run, by rising priority and then rising
remaining BUDGET (R294). -/
def lowerResidencies (s : State) (p : BitVec 1024) : List ResIx :=
  let lower (r : ResIx) : Bool := decide (s.res[r].prio.toNat < pkt p 0 8 3)
  (List.finRange 4).filter (fun r => (decide (s.res[r].state = .draining) || decide (s.res[r].state = .saving)) && lower r)
    ++ ((List.finRange 4).filter (fun r => decide (s.res[r].state = .running) && lower r)).mergeSort (fun (a b : ResIx) =>
      decide (s.res[a].prio.toNat < s.res[b].prio.toNat) || (decide (s.res[a].prio = s.res[b].prio) && decide (remaining s a ≤ remaining s b)))

/-- Whether some bind record, bank and slots of this core would do for a launch (R292, R293). -/
def somePlacement (s : State) (p : BitVec 1024) (quads : List (BitVec 17 × BitVec 13)) : Bool := (firstPlacement s p quads).isSome

/-- The victims of a launch on this core: the first residencies in order whose removal makes a placement eligible; none where no removal does
(R294). Log entry 26 (DEDUCED). -/
def victims (p : BitVec 1024) (quads : List (BitVec 17 × BitVec 13)) : List ResIx → State → Option (List ResIx)
  | rest, s =>
    if somePlacement s p quads then some []
    else match rest with
      | [] => none
      | r :: more => (victims p quads more (s.setRes r Residency.free)).map (fun l => r :: l)

/-- The end bound of this core's quad for a launch: the largest remaining BUDGET among the victims needed there, those of its other cores, as they have
said, included (R294). -/
def endBound (s : State) (p : BitVec 1024) (quad : BitVec 13) (l : List ResIx) : Nat :=
  (l.map (remaining s) ++ (s.mgr.candidates.filter (fun e => decide (e.1 = pkGang p ∧ e.2.1 = quad))).map (fun e => e.2.2)).foldl max 0

/-- Whether a quad with an end bound is among those that a launch with NQ > 0 is bound to: fewer than NQ other candidate quads of its stack have a smaller
end bound, or the same one and a lower number (R294). -/
def quadChosen (s : State) (p : BitVec 1024) (quad : BitVec 13) (bound : Nat) : Bool :=
  let better (e : BitVec 16 × BitVec 13 × Nat) : Bool := decide (e.1 = pkGang p) && decide (e.2.1 ≠ quad)
    && decide (e.2.1.toNat / 2 ^ 11 = quad.toNat / 2 ^ 11) && (decide (e.2.2 < bound) || (decide (e.2.2 = bound) && decide (e.2.1.toNat < quad.toNat)))
  decide (pkNq p = 0) || decide ((s.mgr.candidates.filter better).length < pkNq p)

/-- Whether a residency is a victim of a launch that waits (R294): in this core's quad where the launch chooses quads, if that quad has the end bound. Log
entry 26 (DEDUCED). -/
def isVictim (s : State) (r : ResIx) : Bool :=
  s.mgr.waiting.any (fun w =>
    let quad := BitVec.ofNat 13 (s.core.id.toNat / 4)
    inLaunchRange w.packet s.core.id.toNat && match victims w.packet [(s.core.pkg, quad)] (lowerResidencies s w.packet) s with
      | none => false
      | some l => decide (r ∈ l) && quadChosen s w.packet quad (endBound s w.packet quad l))

/-- A victim becomes DRAINING (R294). Log entry 26 (DEDUCED). -/
def drainVictim (r : ResIx) (s : State) : State :=
  if s.res[r].state = .running ∧ isVictim s r = true then s.setRes r { s.res[r] with state := .draining } else s

/-- A quad-mate on which a gang has yet to be placed gets its reservation (R295). -/
def tryMatePlacement (s : State) : Option State :=
  s.mgr.gangs.findSome? (fun (g : Gang) => (List.finRange 4).findSome? (fun k =>
    let s' := bindMate g k s
    if s'.quad.mates[k].residencies.length ≠ s.quad.mates[k].residencies.length then some s' else none))

/-- LAUNCH_RECONSIDER (R294): the first waiting launch for which there is a placement now is placed; a forwarded one then reports READY. -/
def tryReconsider (at_ : Option Placement) (s : State) : Option State := considerWaiting at_ s s.mgr.waiting.length s.mgr.waiting
/-- LAUNCH_RECONSIDER (R294). -/
def execLaunchReconsider (at_ : Option Placement) (s : State) : Res := orStay (tryReconsider at_ s) s

end Sys2Proof.Machine
end

