-- ==== Sys2Proof/Machine/SaveSteps.lean ====
section
/-! DEFINITION. The context-save engine (R311 to R318): the save area, saving it unit by unit, and restoring it. -/

namespace Sys2Proof.Machine

/-! ## The save area (R312, R313) -/

/-- The footprint F of a residency (R312). -/
def footprint (x : Residency) : Nat :=
  256 + x.spsize.toNat + 2816 * x.accs.toNat + (if x.accs = 0 then 0 else 204800)

/-- The accumulator of place i in the order of the grant: a0, a1, …, a32, a33, … (R313). -/
def grantOrder (x : Residency) (i : Nat) : Nat := let h := x.accs.toNat / 2; if i < h then i else 32 + (i - h)

/-- The number of a special code (R66). -/
def Code.num : Code → Nat
  | .pos => 0
  | .neg => 1
  | .zero => 2
  | .nan => 3
  | .pinf => 4
  | .ninf => 5

/-- The special code of a number. -/
def codeOf (n : Nat) : Code := match n with
  | 0 => .pos
  | 1 => .neg
  | 3 => .nan
  | 4 => .pinf
  | 5 => .ninf
  | _ => .zero

/-- Side data as a halfword: code in bits 2 to 0, scale in bits 11 to 3. -/
def sideHalf (x : Side) : Nat := x.code.num + (wrap 9 x.scale).toNat * 8

/-- A digit's side state as a halfword: the exponent in bits 9 to 0, and N, P and M in bits 12, 11 and 10 (R313). Log entry 27 (DEDUCED). -/
def digitHalf (d : DigitSide) : Nat := (wrap 10 d.exp).toNat + d.m.toNat * 2 ^ 10 + d.p.toNat * 2 ^ 11 + d.n.toNat * 2 ^ 12

/-- A byte of a halfword. -/
def halfByte (v o : Nat) : Byte := BitVec.ofNat 8 (v / 2 ^ (8 * (o % 2)))

/-- The doublewords of the first 256 bytes (R313); the progress is written separately. -/
def saveHeader (s : State) (r : ResIx) (progress : Nat) : List Word :=
  let x := s.res[r]
  let w (n : Nat) : Word := BitVec.ofNat 64 n
  let jm := if x.accs = 0 then 0 else s.core.jm.toNat
  let fmt (n : Nat) : Nat := if x.spsize.toNat ≤ n * 3072 then 0 else (s.core.bfmt[(x.spbase.toNat / 3072 + n) % 16]'(Nat.mod_lt _ (by decide))).toNat
  let queue := (s.core.readyQ.filter (fun (e : ReadyEntry) => decide (e.res = r))).map ReadyEntry.off
  let halves (f : Nat → Nat) (k : Nat) : Word := w (f (4 * k) + f (4 * k + 1) * 2 ^ 16 + f (4 * k + 2) * 2 ^ 32 + f (4 * k + 3) * 2 ^ 48)
  [1, w progress, w (footprint x), w (x.gang.toNat * 2 ^ 48 + x.ctx * 2 ^ 32 + x.spsize.toNat),
    w (x.accs.toNat + x.kinds.toNat * 2 ^ 8 + x.quadMapped.toNat * 2 ^ 11 + jm * 2 ^ 24 + x.abortCount * 2 ^ 32),
    (if x.accs = 0 then 0 else guardcfg s.core), x.spflag, x.raceinfo, x.jseq, x.jack,
    w (x.nseq.toNat + x.nextTag.toNat * 2 ^ 32), w (x.phase % 2 ^ 32 + x.quadRemote.toNat * 2 ^ 32)]
  ++ (List.range 4).map (halves fmt) ++ [w queue.length] ++ (List.range 4).map (halves (fun i => queue.getD i 0))
  ++ [w (x.ovHead.getD 0xFFFF + x.ovTail.getD 0xFFFF * 2 ^ 16)] ++ List.replicate 10 0

/-- Byte o of an accumulator record (R313). -/
def accByte (sq : Nat) (a : Acc) (o : Nat) : Byte :=
  if o < 0x220 then BitVec.ofNat 8 (a.value.toNat / 2 ^ (8 * o))
  else if o < 0x228 then BitVec.ofNat 8 ((a.count.toNat + a.poison.toNat * 2 ^ 32) / 2 ^ (8 * (o - 0x220)))
  else if 0x230 ≤ o ∧ o < 0xAB0 then
    let p := (o - 0x230) / 2
    if sq = 0 ∨ p % sq ≠ 0 ∨ 1088 / sq ≤ p / sq then 0 else halfByte (digitHalf (a.digit (p / sq))) o
  else 0

/-- Byte o of a residency's save area (R313). -/
def saveByte (s : State) (r : ResIx) (header : List Byte) (o : Nat) : Byte :=
  let x := s.res[r]
  let accs := 256 + x.spsize.toNat
  let bufs := accs + 2816 * x.accs.toNat
  if o < 256 then header.getD o 0
  else if o < accs then readByte s.core.spad (x.spbase.toNat + (o - 256))
  else if o < bufs then accByte s.core.sq.toNat (accOf s.core (grantOrder x ((o - accs) / 2816))) ((o - accs) % 2816)
  else
    let b := o - bufs
    if b < 8192 then readByte s.core.xbuf b
    else if b < 40960 then halfByte (sideHalf (xSide s.core ((b - 8192) / 2))) b
    else if b < 73728 then readByte s.core.ybuf (b - 40960)
    else halfByte (sideHalf (ySide s.core ((b - 73728) / 2))) b

/-- The offsets of the area's doublewords that hold an uncorrectable word of the residency's stores (R315). -/
def saveBad (s : State) (r : ResIx) : List Nat :=
  let x := s.res[r]
  let bufs := 256 + x.spsize.toNat + 2816 * x.accs.toNat
  let spad := (s.core.spadBad.filter (fun w => decide (x.spbase.toNat ≤ 8 * w) && decide (8 * w < x.spbase.toNat + x.spsize.toNat))).map
    (fun w => 256 + (8 * w - x.spbase.toNat))
  if x.accs = 0 then spad
  else spad ++ s.core.xBad.map (fun w => bufs + 8 * w) ++ s.core.yBad.map (fun w => bufs + 40960 + 8 * w)

/-! ## Saving (R311, R312, R314 to R316) -/

/-- Whether a residency's core-side work has stopped; its egress gate and its journal come after it (R311). -/
def saveReady (s : State) (r : ResIx) : Bool :=
  let x := s.res[r]
  decide (x.state = .draining) && !x.killed && decide (x.task = none) && !chainBusy s r
    && !s.core.engQ.any (fun (e : EngOp) => decide (e.res = r)) && !s.core.remote.any (fun (e : Remote) => decide (e.res = r))
    && (decide (x.accs = 0) || (s.core.slew.work.isEmpty && s.core.portQ.isEmpty))

/-- Records of the residency that an acknowledgement has yet to cover. -/
def unacknowledged (x : Residency) : Bool := decide (x.journal.covered.toNat < x.jseq.toNat)

/-- The record of a residency goes back to RUNNING (R312, R315). -/
def resumeRunning (r : ResIx) (s : State) : State :=
  let x := s.res[r]
  s.setRes r { x with state := .running, saveFaulted := false, launchReady := x.launchHeld, readyAt := s.core.cycle.toNat, freeSince := s.core.cycle }

/-- SAVE_START (R311, R312): the engine seals what is unsealed and waits for its acknowledgement, and for the decrements of SIGNALs that have arrived
(R317); a short or misaligned area ends the command. -/
def trySaveStart (r : ResIx) (va len : Word) (s : State) : Option State :=
  if !saveReady s r then none
  else if !s.res[r].journal.unsealed.isEmpty then some (sealBatch r s)
  else if unacknowledged s.res[r] || !s.res[r].journal.gate.isEmpty || s.net.signals.any (fun m => s.res[r].takes m) then none
  else if len.toNat < footprint s.res[r] then some (notify 1 0x19 (resumeRunning r s))
  else if va.toNat % 256 ≠ 0 then some (notify 1 5 (resumeRunning r s))
  else
    some (s.setRes r { s.res[r] with state := .saving, saveVa := va, saveLen := len, saveProgress := 0, saveFaulted := false })
/-- SAVE_START (R311). -/
def execSaveStart (r : ResIx) (va len : Word) (s : State) : Res := orStay (trySaveStart r va len s) s

/-- Marks doublewords of the area uncorrectable in the vault (R315). Log entry 27 (DEDUCED). -/
def poisonArea (asid : Asid) (va : Nat) (offs : List Nat) (s : State) : State :=
  offs.foldl (fun s o =>
    match translateStack asid (pageOf (va + o)) s with
    | (.bad _, s) => s
    | (.held _, s) => s
    | (.ok w, s) =>
      let a := (requestPlace s asid (pageOf (va + o)) w ((va + o) % 2 ^ 18)).addr / 8
      { s with vault := { s.vault with bad := a :: s.vault.bad.filter (fun b => decide (b ≠ a)) } }) s

/-- The bytes of a save's next unit. -/
def unitBytes (s : State) (r : ResIx) : List Byte :=
  let p := s.res[r].saveProgress
  let header := (saveHeader s r p).flatMap (fun w => leBytes 8 w.toNat)
  (List.range (min 2048 (footprint s.res[r] - p))).map (fun k => saveByte s r header (p + k))

/-- An entry takes its place among entries of the receive queues by its arrival. -/
def insertRx (e : RxEntry) : List RxEntry → List RxEntry
  | [] => [e]
  | x :: xs => if x.before e then x :: insertRx e xs else e :: x :: xs

/-- The messages of a residency that still wait in the receive queues go back to the interface, which holds them for the spill area (R317). -/
def returnMail (r : ResIx) (s : State) : State :=
  let mine (e : RxEntry) : Bool := decide (e.res = r)
  let es := ((s.core.rxReq ++ s.core.rxRpy ++ s.core.rxSys).filter mine).foldr insertRx []
  let keep (q : List RxEntry) : List RxEntry := q.filter (fun e => !mine e)
  { s with
    core := { s.core with rxReq := keep s.core.rxReq, rxRpy := keep s.core.rxRpy, rxSys := keep s.core.rxSys }
    net := { s.net with inbound := es.map RxEntry.m ++ s.net.inbound, inTicks := es.map RxEntry.tick ++ s.net.inTicks } }

/-- The save is complete: the record becomes FREE and the context is switched out (R314); the sinks of spilled replies that it has not had are reserved anew
at a restore (R318). -/
def finishSave (r : ResIx) (s : State) : State :=
  let s := returnMail r s
  let x := s.res[r]
  let away : Away :=
    { asid := x.asid, gen := x.gen, gang := x.gang, journal := x.journal, sinks := x.sinks - x.mailSinks, pendingSignals := x.pendingSignals,
      arrivals := x.arrivals, armed := x.armed, launchHeld := x.launchHeld }
  let s1 := if x.accs = 0 then s else releaseMultiplier s
  let s2 := { s1 with
    core := { s1.core with readyQ := s1.core.readyQ.filter (fun (e : ReadyEntry) => decide (e.res ≠ r)) }
    net := { s1.net with switchedOut := s1.net.switchedOut ++ [away] } }
  s2.setRes r Residency.free

/-- A save's next unit: what writing it, and then the progress, answers (R314); a fault keeps the engine at the start of the unit (R315). -/
def writeUnit (r : ResIx) (s : State) : Served :=
  let x := s.res[r]
  if x.state ≠ .saving ∨ x.saveFaulted = true ∨ x.killed = true then .wait
  else
    let bs := unitBytes s r
    let p := x.saveProgress
    let p' := min (p + 2048) (footprint x)
    match devWrite x.asid (x.saveVa.toNat + p) bs s (bs.length + 1) with
    | .done 0 _ _ s1 =>
      let bad := (saveBad s r).filter (fun o => decide (p ≤ o) && decide (o < p'))
      devWrite x.asid (x.saveVa.toNat + 8) (leBytes 8 p') (touchQuad x.asid s1.ownQuad (poisonArea x.asid x.saveVa.toNat bad s1)) 9
    | e => e

/-- SAVE_UNIT_ACK (R314): the unit is acknowledged, the progress advances and is written, and at F the context is switched out. A unit of which a beat failed
is written again. -/
def trySaveUnit (r : ResIx) (s : State) : Option State :=
  match writeUnit r s with
  | .done 0 _ _ s1 =>
    let x := s1.res[r]
    let p' := min (x.saveProgress + 2048) (footprint x)
    let s2 := s1.setRes r { x with saveProgress := p' }
    some (if p' = footprint x then finishSave r s2 else s2)
  | .done _ _ _ s1 => if s1.vault.busErrors = s.vault.busErrors then none else some s1
  | _ => none
/-- SAVE_UNIT_ACK (R314). -/
def execSaveUnitAck (r : ResIx) (s : State) : Res := orStay (trySaveUnit r s) s

/-- SAVE_FAULT (R315): the engine stops at the start of the unit and reports the address that was refused and the reason. -/
def trySaveFault (r : ResIx) (s : State) : Option State :=
  match writeUnit r s with
  | .fault why va _ => some (notify 2 (BitVec.ofNat 64 (va % 2 ^ 48 + why * 2 ^ 48)) (s.setRes r { s.res[r] with saveFaulted := true }))
  | _ => none
/-- SAVE_FAULT (R315). -/
def execSaveFault (r : ResIx) (s : State) : Res := orStay (trySaveFault r s) s

/-- SAVE_RESUME (R315): the save goes on from P. -/
def execSaveResume (r : ResIx) (s : State) : Res :=
  .next (if s.res[r].state = .saving then s.setRes r { s.res[r] with saveFaulted := false } else s)

/-- The spilled replies of an area that are not delivered: each needs a sink (R318); none while the area cannot be read. -/
def spilledReplies (asid : Asid) (gen : BitVec 4) (s : State) : Option Nat :=
  match spillArea s asid gen with
  | none => some 0
  | some va => match devBytes asid va 24 s with
    | none => none
    | some (h, s) =>
      let d := (dwordAt h 1).toNat
      let cap := max 1 (dwordAt h 2).toNat
      (List.range ((dwordAt h 0).toNat - d)).foldl (fun n i => n.bind (fun n =>
        (devBytes asid (va + 64 + 128 * ((d + i) % cap)) 16 s).map (fun e => if sel (dwordAt e.1 1) 11 2 = 1 then n + 1 else n))) (some 0)

/-- SAVE_ABANDON (R315, R316): the record returns to RUNNING and its spilled messages are delivered. -/
def trySaveAbandon (r : ResIx) (s : State) : Option State :=
  let x := s.res[r]
  if x.state = .saving ∧ x.saveFaulted = true ∧ x.killed = false then
    match spilledReplies x.asid x.gen s with
    | none => none
    | some n =>
      let more := n - x.mailSinks
      if s.sinksFree < more then none
      else
        let s1 := resumeRunning r s
        some (s1.setRes r { s1.res[r] with mail := true, sinks := s1.res[r].sinks + more, mailSinks := n })
  else none
/-- SAVE_ABANDON (R315). -/
def execSaveAbandon (r : ResIx) (s : State) : Res := orStay (trySaveAbandon r s) s

/-! ## Restoring (R318) -/

/-- What reading a saved area gives: its bytes with the doublewords that are uncorrectable, a fault to report, or the vault at which it waits. -/
inductive AreaRead where
  | ok (m : Mem) (bad : List Nat) (s : State)
  | fault (v : Word)
  | held (vault : Nat)
deriving DecidableEq, Repr

/-- The next doubleword of a saved area (R263, R318, R334). -/
def areaDword (asid : Asid) (va i : Nat) (m : Mem) (bad : List Nat) (s : State) : AreaRead :=
  let a := va + 8 * i
  let fault (why : Nat) : AreaRead := .fault (BitVec.ofNat 64 (a % 2 ^ 48 + why * 2 ^ 48))
  match translateStack asid (pageOf a) s with
  | (.bad why, _) => fault why
  | (.held v, _) => .held v
  | (.ok w, s) =>
    if !permits w true false then fault 2
    else
      let p := requestPlace s asid (pageOf a) w (a % 2 ^ 18)
      if vaultGated s p.vault then .held p.vault
      else match openColumn p s with
        | none => .held p.vault
        | some s =>
          let (d, s) := readWords p.addr [p.addr / 8] s
          .ok (writeList m (8 * i) (readList s.vault.mem p.addr 8)) (if d = 0 then bad else i :: bad) s

/-- The bytes of a saved area. -/
def areaBytes (asid : Asid) (va n : Nat) (s : State) : AreaRead :=
  (List.range (n / 8)).foldl (fun acc i => match acc with
    | .ok m bad s => areaDword asid va i m bad s
    | e => e) (.ok [] [] s)

/-- A restore waits at its area: a page that faults is reported once, and a closed port wakes its quad (R315, R318, R334). -/
def areaWait (x : AreaRead) (s : State) : Option State :=
  match x with
  | .fault v => if (15, v) ∈ s.mgr.notices then none else some (notify 15 v s)
  | .held v => wakeVault v s
  | .ok _ _ _ => none

/-- The side state of a digit of a saved accumulator. -/
def halfDigit (v : Nat) : DigitSide :=
  ⟨sextNat (bits v 0 10) 10, decide (bits v 12 1 = 1), decide (bits v 11 1 = 1), decide (bits v 10 1 = 1)⟩

/-- The side data of a saved position. -/
def halfSide (v : Nat) : Side := ⟨codeOf (bits v 0 3), sextNat (bits v 3 9) 9⟩

/-- An accumulator from its record at a byte of the area. -/
def loadAcc (m : Mem) (sq base : Nat) : Acc where
  value := BitVec.ofNat 4352 (readLE m base 544)
  side := if sq = 0 then [] else
    (List.range (1088 / sq)).foldl (fun t j => Table.put DigitSide.zero t j (halfDigit (readLE m (base + 0x230 + 2 * (j * sq)) 2))) []
  count := BitVec.ofNat 32 (readLE m (base + 0x220) 4)
  poison := decide (readLE m (base + 0x224) 1 % 2 = 1)

/-- Copies n bytes between memories. -/
def copyMem (src : Mem) (a : Nat) (dst : Mem) (b n : Nat) : Mem := writeList dst b (readList src a n)

/-- Side data of n positions. -/
def loadSides (m : Mem) (base n : Nat) : Table Side :=
  (List.range n).foldl (fun t p => Table.put Side.zero t p (halfSide (readLE m (base + 2 * p) 2))) []

/-- The multiplier's stores come back (R313). -/
def loadMultiplier (x : Residency) (m : Mem) (bad : List Nat) (s : State) : State :=
  let accs := 256 + x.spsize.toNat
  let bufs := accs + 2816 * x.accs.toNat
  let g := BitVec.ofNat 64 (readLE m 0x28 8)
  let sq := sel g 0 5
  let s := (List.range x.accs.toNat).foldl (fun s i => setAcc (grantOrder x i) (loadAcc m sq (accs + 2816 * i)) s) s
  { s with core := { s.core with
      xbuf := copyMem m bufs [] 0 8192, xside := loadSides m (bufs + 8192) 16384
      ybuf := copyMem m (bufs + 40960) [] 0 32768, yside := loadSides m (bufs + 73728) 65536
      xBad := (bad.filter (fun w => decide (bufs ≤ 8 * w) && decide (8 * w < bufs + 8192))).map (fun w => w - bufs / 8)
      yBad := (bad.filter (fun w => decide (bufs + 40960 ≤ 8 * w) && decide (8 * w < bufs + 73728))).map (fun w => w - (bufs + 40960) / 8)
      sq := BitVec.ofNat 5 sq, wx := BitVec.ofNat 7 (sel g 8 7), wy := BitVec.ofNat 7 (sel g 16 7), jm := BitVec.ofNat 2 (readLE m 0x23 1) } }

/-- The residency of a saved area, on top of what its gang's packet gives (R313, R318). -/
def restoredResidency (x : Residency) (a : Away) (m : Mem) (n : Nat) : Residency :=
  let d (o : Nat) : Nat := readLE m o 8
  let chain (v : Nat) : Option Nat := if v = 0xFFFF then none else some v
  { x with
    state := .running, clearing := false, launchHeld := a.launchHeld, launchReady := a.launchHeld,
    spflag := BitVec.ofNat 64 (d 0x30), raceinfo := BitVec.ofNat 64 (d 0x38), jseq := BitVec.ofNat 64 (d 0x40), jack := BitVec.ofNat 64 (d 0x48),
    nseq := BitVec.ofNat 32 (d 0x50), nextTag := BitVec.ofNat 32 (d 0x50 / 2 ^ 32), lastTag := BitVec.ofNat 32 (d 0x50 / 2 ^ 32) - 1,
    phase := d 0x58 % 2 ^ 32, quadRemote := decide (bits (d 0x58) 32 1 = 1), abortCount := bits (d 0x20) 32 16,
    ovHead := chain (bits (d 0xA8) 0 16), ovTail := chain (bits (d 0xA8) 16 16),
    journal := a.journal, sinks := a.sinks + n, pendingSignals := a.pendingSignals, arrivals := a.arrivals, armed := a.armed, mail := true, mailSinks := n }

/-- The context that a save area belongs to, with the area's first 256 bytes: a switched-out one whose generation and address space the area names, else one
of the generation whose area is of another version and names none; or what keeps them from being read. Log entry 27 (DEDUCED). -/
def savedContext (va : Nat) (gen : BitVec 4) (s : State) : Option (Away × AreaRead) :=
  let read (good : Mem → Away → Bool) (a : Away) : Option (Away × AreaRead) :=
    if a.gen ≠ gen then none
    else match areaBytes a.asid va 256 s with
      | .ok h bad s => if good h a then some (a, .ok h bad s) else none
      | e => some (a, e)
  let names (h : Mem) (a : Away) : Bool := decide (bits (readLE h 0x18 8) 32 16 = gen.toNat * 2 ^ 12 + a.asid.toNat)
  (s.net.switchedOut.findSome? (read names)).orElse (fun _ => s.net.switchedOut.findSome? (read (fun h _ => decide (readLE h 0 8 ≠ 1))))

/-- The context comes back on the core from the bytes of its area (R318); none while ready-queue entries or sinks are short. Log entry 27 (DEDUCED). -/
def loadContext (r : ResIx) (at_ : Placement) (a : Away) (g : Gang) (i : Image) (role : Role) (m : Mem) (bad : List Nat) (s : State) : Option State :=
  match spilledReplies a.asid a.gen s with
  | none => none
  | some n =>
    let queue := (List.range (min 16 (readLE m 0x80 1 % 32))).map (fun k => readLE m (0x88 + 2 * k) 2)
    if s.sinksFree < n ∨ 16 < s.core.readyQ.length + queue.length then none
    else
      let x := { restoredResidency (placedResidency s g.packet at_ a.gen i role .running) a m n with readyAt := s.core.cycle.toNat }
      let lo := x.spbase.toNat
      let fmt := Vector.ofFn (fun (k : Fin 16) => BitVec.ofNat 10 (readLE m (0x60 + 2 * k.val) 2))
      let s1 := bindResidency r x s
      let s2 := { s1 with
        core := { s1.core with
          spad := copyMem m 256 s1.core.spad lo x.spsize.toNat
          spadBad := s1.core.spadBad ++ (bad.filter (fun w => decide (256 ≤ 8 * w) && decide (8 * w < 256 + x.spsize.toNat))).map (fun w => w - 32 + lo / 8)
          bfmt := loadFormats lo x.spsize.toNat fmt s1.core.bfmt
          readyQ := s1.core.readyQ ++ queue.map (fun off => (⟨r, off, s1.core.cycle.toNat⟩ : ReadyEntry)) }
        net := { s1.net with switchedOut := s1.net.switchedOut.filter (fun (y : Away) => !decide (y.asid = a.asid ∧ y.gen = a.gen)) } }
      some (if x.accs = 0 then s2 else loadMultiplier x m bad s2)

/-- The context comes back on the core from its area (R318). -/
def restoreContext (r : ResIx) (va : Nat) (at_ : Placement) (a : Away) (g : Gang) (i : Image) (role : Role) (s : State) : Option State :=
  match areaBytes a.asid va (256 + pkSize g.packet + 2816 * pkAccs g.packet + (if pkAccs g.packet = 0 then 0 else 204800)) s with
  | .ok m bad s => loadContext r at_ a g i role m bad s
  | e => areaWait e s

/-- RESTORE (R318): an area of another version or one whose save is not complete is refused and reported. Log entry 27 (DEDUCED). -/
def tryRestore (r : ResIx) (va : Word) (at_ : Placement) (s : State) : Option State :=
  match savedContext va.toNat at_.gen s with
  | none => none
  | some (a, .ok h _ s) =>
    if readLE h 0 8 ≠ 1 ∨ readLE h 8 8 ≠ readLE h 0x10 8 then some (notify 3 va s)
    else match gangOf s a.gang with
      | none => none
      | some g =>
        if at_.res ≠ r ∨ !admits s g.packet at_ then none
        else match imageOf s g.packet with
          | none => none
          | some i => match i.roleOf s.core.id.toNat with
            | none => none
            | some role => restoreContext r va.toNat at_ a g i role s
  | some (_, e) => areaWait e s
/-- RESTORE (R318). -/
def execRestore (r : ResIx) (va : Word) (at_ : Placement) (s : State) : Res := orStay (tryRestore r va at_ s) s

end Sys2Proof.Machine
end

