-- ==== Sys2Proof/Machine/JournalSteps.lean ====
section
/-! DEFINITION. The journal unit (R227, R228, R375 to R386): the local window, shipping and coverage, the egress gate, a change of partner,
truncation, the partner's store, and replay. -/

namespace Sys2Proof.Machine

/-- Replaces a residency's journal. -/
def setJournal (r : ResIx) (j : Journal) (s : State) : State := s.setRes r { s.res[r] with journal := j }

/-- The tick of the last scan that a quad of this stack has passed: the tick at which that scan began, 0 for none (R395). -/
def passTickOf (s : State) (q : Nat) : Word := Table.get 0 s.resil.passTick q

/-! ## Records and truncation (R383, R384) -/

/-- The kind of a record: byte 0 of its body. -/
def slotKind (x : JSlot) : Nat := sel x.body 0 8

/-- The truncation tick of a SNAP record: d1 of its body. -/
def slotSnapTick (x : JSlot) : Nat := sel x.body 64 64

/-- The 128 bytes of a slot (R378). -/
def slotBytes (x : JSlot) : List Byte :=
  leBytes 8 x.num.toNat ++ leBytes 8 (x.sid.toNat * 2 ^ 32 + x.jid.toNat * 2 ^ 16 + x.len.toNat) ++ leBytes 64 x.body.toNat ++ List.replicate 48 0

/-- Whether a record of a local window is covered or imported, so that truncation may free it (R380, R384, R386). -/
def Journal.held (j : Journal) (x : JSlot) : Bool := decide (x.jid ≠ j.jid) || decide (x.num.toNat < j.covered.toNat)

/-- The slots at the ring's old end that are truncated are free again (R378). -/
def Journal.reclaim (j : Journal) : Journal :=
  let rest := j.window.dropWhile (fun e => !e.2)
  { j with window := rest, windowPos := (j.windowPos + (j.window.length - rest.length)) % 2 ^ (8 + j.lnw.toNat) }

/-- Truncates the records of a window that a condition names, once they are covered or imported. Log entry 28 (DEDUCED). -/
def Journal.truncate (p : JSlot → Bool) (j : Journal) : Journal :=
  Journal.reclaim { j with window := j.window.map (fun e => (e.1, e.2 && !(p e.1 && j.held e.1))) }

/-- The live END records that are covered truncate every record of their SID (R384). -/
def Journal.truncateEnds (j : Journal) : Journal :=
  let sids := (j.window.filter (fun e => e.2 && decide (slotKind e.1 = 3) && j.held e.1)).map (fun e => e.1.sid)
  j.truncate (fun x => decide (x.sid ∈ sids))

/-- Whether a SNAP record truncates another at a tick: the same SID and JID, a lower number, its tick reached (R384). -/
def snapTruncates (tick : Word) (snap x : JSlot) : Bool :=
  decide (slotKind snap = 4) && decide (slotSnapTick snap ≤ tick.toNat) && decide (x.sid = snap.sid) && decide (x.jid = snap.jid) && decide (x.num.toNat < snap.num.toNat)

/-- The live SNAP records that are covered and whose tick has come truncate (R384). -/
def Journal.truncateSnaps (tick : Word) (j : Journal) : Journal :=
  let snaps := (j.window.filter (fun e => e.2 && j.held e.1)).map Prod.fst
  j.truncate (fun x => snaps.any (fun y => snapTruncates tick y x))

/-- The live records of a window. -/
def Journal.live (j : Journal) : List JSlot := (j.window.filter Prod.snd).map Prod.fst

/-! ## The local window and shipping (R377 to R379) -/

/-- Writes slots to a local window from a ring position on (R378). Log entry 28 (DEDUCED). -/
def writeSlots (asid : Asid) (j : Journal) : Nat → List JSlot → State → Served
  | _, [], s => .done 0 0 [] s
  | pos, x :: rest, s =>
    match devWrite asid (j.lbase.toNat + 128 * (pos % 2 ^ (8 + j.lnw.toNat))) (slotBytes x) s 129 with
    | .done 0 _ _ s => writeSlots asid j (pos + 1) rest s
    | e => e

/-- Whether a residency's next sealed batch is shippable: its quad has passed a scan that began after the last record was staged
(R377). Log entry 28 (DEDUCED). -/
def shippable (s : State) (j : Journal) : Option (Batch × List Batch) :=
  match j.batches with
  | [] => none
  | b :: rest => if b.staged.toNat < (passTickOf s s.ownQuad).toNat then some (b, rest) else none

/-- The highest number of a batch. -/
def topNumber (xs : List JSlot) : Option Word := xs.getLast?.map JSlot.num

/-- The SYS messages that carry records to a binding's partner: each slot in pieces of 64 bytes, then the closing message (R379). -/
def batchMessages (j : Journal) (xs : List JSlot) : List JournalMsg :=
  let msg (content : List Byte) (top : Option Word) : JournalMsg := ⟨j.ppkg, j.pstk, j.jid, j.pgen, content, top⟩
  xs.flatMap (fun x => [msg ((slotBytes x).take 64) none, msg ((slotBytes x).drop 64) none]) ++ [msg [] (topNumber xs)]

/-- Messages leave for a partner (R379). -/
def sendJournal (ms : List JournalMsg) (s : State) : State := { s with resil := { s.resil with shippedOut := s.resil.shippedOut ++ ms } }

/-- A batch leaves for the partner under the binding's PGEN (R379). -/
def shipBatch (r : ResIx) (xs : List JSlot) (s : State) : State :=
  let j := s.res[r].journal
  let s := sendJournal (batchMessages j xs) s
  setJournal r { j with shipped := (topNumber xs).orElse (fun _ => j.shipped) } s

/-- A written batch is shipped in state BOUND, behind those that wait, or waits (R376, R377). -/
def shipOrWait (r : ResIx) (xs : List JSlot) (s : State) : State :=
  let j := s.res[r].journal
  if j.state = .bound ∧ j.unshipped = [] then shipBatch r xs s else setJournal r { j with unshipped := j.unshipped ++ [xs] } s

/-- BATCH_SHIP (R377): a batch that waits for its shipping leaves, or the next shippable batch is written to the local window and shipped.
A window write that faults waits for the stack manager (R378). -/
def tryBatchShip (r : ResIx) (s : State) : Option State :=
  let x := s.res[r]
  let j := x.journal
  match j.state, j.unshipped with
  | .bound, xs :: rest => some (shipBatch r xs (setJournal r { j with unshipped := rest } s))
  | _, _ =>
    if j.faulted then none
    else match shippable s j with
      | none => none
      | some (b, rest) =>
        let xs := b.slots.map (fun (y : JSlot) => { y with jid := j.jid })
        if 2 ^ (8 + j.lnw.toNat) < j.window.length + xs.length then none
        else match writeSlots x.asid j (j.windowPos + j.window.length) xs s with
          | .wait => none
          | .fault why _ s => some (notify 5 (BitVec.ofNat 64 why) (setJournal r { j with faulted := true } s))
          | .done 0 _ _ s =>
            some (shipOrWait r xs (setJournal r { j with batches := rest, window := j.window ++ xs.map (fun y => (y, true)) } s))
          | .done _ d _ s => some (notify 5 (BitVec.ofNat 64 (d + 2 ^ 8)) (setJournal r { j with faulted := true } s))
/-- BATCH_SHIP (R377). -/
def execBatchShip (r : ResIx) (s : State) : Res := orStay (tryBatchShip r s) s

/-! ## Coverage (R380) -/

/-- An acknowledgement is applied: JACK, the covered records, and what they truncate (R380, R384). -/
def applyAck (r : ResIx) (num : Word) (s : State) : State :=
  let x := s.res[r]
  let j := x.journal
  let j := { j with applied := some num, covered := if j.covered.toNat ≤ num.toNat then num + 1 else j.covered }
  s.setRes r { x with jack := num, journal := Journal.truncateSnaps s.mgr.tick (Journal.truncateEnds j) }

/-- Whether an acknowledgement is applied (R376, R379, R380). -/
def ackCounts (j : Journal) (pgen : BitVec 8) (num : Word) : Bool :=
  decide (j.state = .bound) && decide (pgen = j.pgen)
    && (match j.applied with
      | none => true
      | some a => decide (a.toNat < num.toNat))
    && (match j.shipped with
      | none => false
      | some h => decide (num.toNat ≤ h.toNat))

/-- JOURNAL_ACK (R380): any other acknowledgement changes nothing but counts as traffic of the peer (R379). -/
def execJournalAck (r : ResIx) (pgen : BitVec 8) (num : Word) (s : State) : Res :=
  let j := s.res[r].journal
  let heard := setJournal r { j with lastHeard := s.core.cycle } s
  .next (if ackCounts j pgen num then applyAck r num heard else heard)

/-- Both copies of a partner's window keep the records that a condition names (R379, R384). -/
def PartnerWindow.keep (p : JSlot → Bool) (w : PartnerWindow) : PartnerWindow := { w with slots := w.slots.filter p, mirror := w.mirror.filter p }

/-- The windows held for partners after the SNAP records of each group whose tick has come have truncated in all windows of the group (R384). -/
def truncatePartners (tick : Word) (ws : List PartnerWindow) : List PartnerWindow :=
  ws.map (fun w => w.keep (fun x => !ws.any (fun v => decide (v.jgrp = w.jgrp) && v.slots.any (fun y => snapTruncates tick y x))))

/-- SNAP_TRUNCATION (R384): TICK has reached the tick of a SNAP record of the residency's window, or of a window held for a partner. -/
def execSnapTruncation (r : ResIx) (s : State) : Res :=
  let s := setJournal r (Journal.truncateSnaps s.mgr.tick s.res[r].journal) s
  .next { s with resil := { s.resil with partnerWindows := truncatePartners s.mgr.tick s.resil.partnerWindows } }

/-! ## The egress gate (R228, R376) -/

/-- Whether the entry at the head of a gate may leave. -/
def gateOpen (j : Journal) (nd : Bool) (dep : Word) : Bool :=
  match j.state with
  | .absent => nd
  | .bound => nd || decide (dep.toNat < j.covered.toNat)
  | .changing => false

/-- EGRESS_RELEASE (R228). -/
def tryEgressRelease (r : ResIx) (s : State) : Option State :=
  let j := s.res[r].journal
  match j.gate with
  | .emit m nd dep :: rest => if gateOpen j nd dep then some (depart s.res[r].gang 0 m (setJournal r { j with gate := rest } s)) else none
  | _ => none
/-- EGRESS_RELEASE (R228). -/
def execEgressRelease (r : ResIx) (s : State) : Res := orStay (tryEgressRelease r s) s

/-! ## The peer (R379, R381, R382) -/

/-- HEARTBEAT (R379): the journal units of a BOUND binding exchange a heartbeat. -/
def execHeartbeat (r : ResIx) (s : State) : Res :=
  let j := s.res[r].journal
  if j.state = .bound then
    .next (setJournal r { j with lastHeard := s.core.cycle } { s with resil := { s.resil with heartbeats := s.resil.heartbeats + 1 } })
  else .next s

/-- PEER_LOST (R379): 27,000 cycles without a heartbeat or journal traffic; the loss is reported once. -/
def tryPeerLost (r : ResIx) (s : State) : Option State :=
  let j := s.res[r].journal
  if j.state = .bound ∧ j.peerLost = false ∧ 27000 ≤ s.core.cycle.toNat - j.lastHeard.toNat then
    some (notify 4 (BitVec.ofNat 64 j.jid.toNat) (setJournal r { j with peerLost := true } s))
  else none
/-- PEER_LOST (R379). -/
def execPeerLost (r : ResIx) (s : State) : Res := orStay (tryPeerLost r s) s

/-- BINDING_FREEZE (R381): CHANGING and the next PGEN, in one write. -/
def execBindingFreeze (r : ResIx) (s : State) : Res :=
  let j := s.res[r].journal
  if j.state = .absent then .next s
  else .next (setJournal r { j with state := .changing, pgen := j.pgen + 1, shipped := none, windowOut := false } s)

/-- The highest number of a binding's own records in its live window. -/
def ownTop (j : Journal) : Option Word :=
  (j.live.filter (fun x => decide (x.jid = j.jid))).foldl (fun (b : Option Word) x => match b with
    | none => some x.num
    | some n => some (if n.toNat < x.num.toNat then x.num else n)) none

/-- WINDOW_SHIP (R381): the live window goes to the new partner as one batch under the present PGEN. -/
def tryWindowShip (r : ResIx) (ppkg : BitVec 17) (pstk : BitVec 2) (s : State) : Option State :=
  let j := s.res[r].journal
  if j.state = .bound then none
  else
    let s := sendJournal (batchMessages { j with ppkg := ppkg, pstk := pstk } j.live) s
    some (setJournal r { j with ppkg := ppkg, pstk := pstk, unshipped := [], shipped := ownTop j, windowOut := true } s)
/-- WINDOW_SHIP (R381). Log entry 28 (DEDUCED). -/
def execWindowShip (r : ResIx) (ppkg : BitVec 17) (pstk : BitVec 2) (s : State) : Res := orStay (tryWindowShip r ppkg pstk s) s

/-- WINDOW_ACK (R381): the new partner holds the window, the binding becomes BOUND, and the window's own records count as covered.
Log entry 28 (DEDUCED). -/
def tryWindowAck (r : ResIx) (pgen : BitVec 8) (s : State) : Option State :=
  let j := s.res[r].journal
  if j.state ≠ .bound ∧ j.windowOut = true ∧ pgen = j.pgen then
    let s := setJournal r { j with state := .bound, windowOut := false, peerLost := false, lastHeard := s.core.cycle } s
    match j.shipped with
    | none => some s
    | some n => some (applyAck r (match j.applied with
        | none => n
        | some a => if n.toNat < a.toNat then a else n) s)
  else none
/-- WINDOW_ACK (R381). -/
def execWindowAck (r : ResIx) (pgen : BitVec 8) (s : State) : Res := orStay (tryWindowAck r pgen s) s

/-! ## The partner's side (R379, R382, R384, R386) -/

/-- Slots join a window: one of the same name is replaced. Log entry 29 (DESIGN CHOICE). -/
def storeSlots (old new : List JSlot) : List JSlot :=
  old.filter (fun x => !new.any (fun y => decide (y.jid = x.jid ∧ y.num = x.num))) ++ new

/-- The window that this stack holds under a JID; an empty one of a group where it holds none. -/
def windowOfJid (ws : List PartnerWindow) (jid jgrp : BitVec 16) : PartnerWindow := (ws.find? (fun w => decide (w.jid = jid))).getD ⟨jid, jgrp, [], []⟩

/-- BATCH_STORE (R379): the partner stores every slot of a batch twice, in stack PSTK and in stack PSTK XOR 2, acknowledges the batch's highest number, and
the END and SNAP records truncate every window of the group (R384). -/
def execBatchStore (jid jgrp : BitVec 16) (pgen : BitVec 8) (slots : List JSlot) (s : State) : Res :=
  let ws := s.resil.partnerWindows
  let old := windowOfJid ws jid jgrp
  let ws1 := ws.filter (fun w => decide (w.jid ≠ jid)) ++ [⟨jid, jgrp, storeSlots old.slots slots, storeSlots old.mirror slots⟩]
  let sids := (slots.filter (fun x => decide (slotKind x = 3))).map JSlot.sid
  let ws2 := ws1.map (fun w => if w.jgrp = jgrp then w.keep (fun x => !decide (x.sid ∈ sids)) else w)
  let ws3 := truncatePartners s.mgr.tick ws2
  let num := (topNumber slots).getD (Config.emptyBatchNumber s.free)
  let s := if slots.isEmpty then s.nextFree else s
  .next { s with resil := { s.resil with
    partnerHeard := Table.put 0 s.resil.partnerHeard jid.toNat s.core.cycle, partnerWindows := ws3, partnerAcks := s.resil.partnerAcks ++ [(jid, pgen, num)] } }

/-- A heartbeat of the serving side of a window that this stack holds (R379). -/
def partnerBeat (jid : BitVec 16) (s : State) : State :=
  if s.resil.partnerWindows.any (fun w => decide (w.jid = jid)) then
    { s with resil := { s.resil with partnerHeard := Table.put 0 s.resil.partnerHeard jid.toNat s.core.cycle, heartbeats := s.resil.heartbeats + 1 } }
  else s

/-- The windows that this stack holds for the package that the serving side of a JID lies in (R382). -/
def packageWindows (s : State) (jid : BitVec 16) : List PartnerWindow :=
  let pkg (j : BitVec 16) : BitVec 17 := Table.get 0 s.resil.partnerPkgs j.toNat
  s.resil.partnerWindows.filter (fun w => decide (pkg w.jid = pkg jid))

/-- The serving package of a window is declared lost after 27,000 cycles without a heartbeat or journal traffic (R379): every window held for that package is
handed to the stack manager, which takes it over by REPLAY (R382). -/
def partnerSilent (jid : BitVec 16) (s : State) : State :=
  let heard := Table.get 0 s.resil.partnerHeard jid.toNat
  if s.resil.partnerWindows.any (fun w => decide (w.jid = jid)) ∧ 27000 ≤ s.core.cycle.toNat - heard.toNat then
    (packageWindows s jid).foldl (fun s w => notify 4 (w.jid.setWidth 64) s) s
  else s

/-- Whether the sequence of an OPEN record is replayed on an image and weights: it names both (R386). Log entry 29 (DESIGN CHOICE). -/
def openAgrees (digest weights : Word) (x : JSlot) : Bool :=
  decide (sel x.body 256 64 = digest.toNat) && decide (sel x.body 64 64 = weights.toNat)

/-- The SIDs of a window whose OPEN record differs. Log entry 29 (DESIGN CHOICE). -/
def lostSequences (digest weights : Word) (xs : List JSlot) : List (BitVec 32) :=
  (xs.filter (fun x => decide (slotKind x = 1) && !openAgrees digest weights x)).map JSlot.sid

/-- REPLAY (R386): a window held for a lost package is imported into the local window of the residency that replays it, under a fresh JID
and the old group; a sequence whose OPEN record differs is reported lost. The forced messages arrive as messages.
Log entry 29 (DESIGN CHOICE). -/
def tryReplay (r : ResIx) (jid fresh : BitVec 16) (digest weights : Word) (s : State) : Option State :=
  let x := s.res[r]
  let j := x.journal
  match s.resil.partnerWindows.find? (fun w => decide (w.jid = jid)) with
  | none => none
  | some ⟨_, jgrp, slots, _⟩ =>
    if x.state = .free ∨ j.state = .bound ∨ j.windowOut = true then none
    else
      let lost := lostSequences digest weights slots
      let xs := slots.filter (fun y => !decide (y.sid ∈ lost) && !j.window.any (fun e => decide (e.1.jid = y.jid ∧ e.1.num = y.num)))
      if 2 ^ (8 + j.lnw.toNat) < j.window.length + xs.length then none
      else match writeSlots x.asid j (j.windowPos + j.window.length) xs s with
        | .done 0 _ _ s =>
          let s := setJournal r { j with jid := fresh, jgrp := jgrp, window := j.window ++ xs.map (fun y => (y, true)) } s
          some (lost.foldl (fun s sid => notify 9 (sid.setWidth 64) s) s)
        | _ => none
/-- REPLAY (R386). -/
def execReplay (r : ResIx) (jid fresh : BitVec 16) (digest weights : Word) (s : State) : Res := orStay (tryReplay r jid fresh digest weights s) s

/-! ## A window write that cannot be mapped (R378) -/

/-- A journal without its records that are not yet written, but for those of its first n batches, and without the emissions that depend on what goes (R378,
R396). Log entry 28 (DEDUCED). -/
def Journal.discard (n : Nat) (j : Journal) : Journal :=
  let gone := (j.batches.drop n).flatMap Batch.slots ++ j.unsealed
  let keep (e : BufEntry) : Bool := match e with
    | .emit _ nd dep => nd || gone.head?.all (fun x => decide (dep.toNat < x.num.toNat))
    | _ => true
  { j with faulted := j.faulted && decide (n ≠ 0), batches := j.batches.take n, unsealed := [], gate := j.gate.filter keep }

/-- The number of a journal's batches that are shippable (R377). -/
def shippableCount (s : State) (j : Journal) : Nat :=
  (j.batches.takeWhile (fun (b : Batch) => decide (b.staged.toNat < (passTickOf s s.ownQuad).toNat))).length

/-- The context of a residency that has one and is not killed is killed by the stack manager (R308: reason 3). -/
def killByManager (r : ResIx) (s : State) : State :=
  if s.res[r].state = .free ∨ s.res[r].killed = true then s else killResidency r (reportSlot r 3 s) 3 0 0 0 s

/-- The stack manager answers the fault of a window write: it resumes, or the context is killed with reason 3 and the batch and its
emissions are discarded. -/
def answerWindowFault (r : ResIx) (mapped : Bool) (s : State) : State :=
  let j := s.res[r].journal
  if mapped then setJournal r { j with faulted := false } s
  else killByManager r (setJournal r (j.discard 0) s)

/-- PAGE_MAP_RESUME (R179, R190, R208, R378): the answer to the first fault that waits: a tile operation's, a copy command's, an agent
request's, or a journal window's. -/
def execPageMapResume (mapped : Bool) (s : State) : Res :=
  match tryPageMapResume mapped s with
  | some s' => .next s'
  | none =>
    match (List.finRange 4).find? (fun r => s.res[r].journal.faulted) with
    | none => .next s
    | some r => .next (answerWindowFault r mapped s)

end Sys2Proof.Machine
end

