-- ==== Sys2Proof/Machine/HostSteps.lean ====
section
/-! DEFINITION. The host link (R363 to R369): mailbox commands, BAR 2 accesses and the completion ring. A mailbox command is one step, so
a mailbox never holds two, but for an image load. -/

namespace Sys2Proof.Machine

/-! ## The mailbox (R364, R365) -/

/-- A status doubleword: status, detail and value, with V (R365). -/
def mailStatus (status detail value : Nat) : Word := BitVec.ofNat 64 (status % 256 + detail % 256 * 2 ^ 8 + value % 256 * 2 ^ 16 + 2 ^ 63)

/-- Changes a mailbox. -/
def setMailbox (k : Fin 4) (f : Mailbox → Mailbox) (s : State) : State :=
  { s with host := { s.host with mailboxes := vset s.host.mailboxes k (f s.host.mailboxes[k]) } }

/-- A stack manager answers the command of its mailbox, and raises vector 0 if the command asked for it. -/
def answerAt (k : Fin 4) (irq : Bool) (status detail value : Nat) (s : State) : State :=
  let s := setMailbox k (fun (m : Mailbox) => { m with status := mailStatus status detail value }) s
  if irq then raiseVector 0 s else s

/-- The mailbox whose command is served is answered. -/
def answerMail (irq : Bool) (status detail value : Nat) (s : State) : State := answerAt s.host.mailAt irq status detail value s

/-- A command is handed over: V of the status is clear until its answer (R365). -/
def openMail (s : State) : State := setMailbox s.host.mailAt (fun (m : Mailbox) => { m with status := setField m.status 63 1 0 }) s

/-- Doubleword i of a command's body; what the driver has not written is 0. -/
def bodyWord (body : List Word) (i : Nat) : Nat := (body.getD i 0).toNat

/-- The first doubleword of a body with a nonzero reserved bit; masks gives the bits that each doubleword defines, and no later doubleword
defines any (R365). -/
def reservedWord (masks : List Nat) (body : List Word) : Option Nat :=
  (List.range body.length).find? (fun i => decide (bodyWord body i &&& (2 ^ 64 - 1 - masks.getD i 0) ≠ 0))

/-- Whether a mailbox's command is open: an IMGLOAD whose file is still to be read or whose tree is still loading, or a firmware load (R364, R409, R413).
Log entry 30 (DEDUCED). -/
def mailOpenAt (k : Fin 4) (s : State) : Bool :=
  s.mgr.images.any (fun (i : Image) => !i.loaded && decide (i.mail = k)) || s.host.loads.any (fun x => decide (x.mail = k))
    || s.host.firmware.any (fun x => decide (x.mail = k))

/-- Whether the mailbox that is served has an open command. -/
def mailOpen (s : State) : Bool := mailOpenAt s.host.mailAt s

/-- A mailbox command is served once the package is READY (R412) and no other is open: BADCMD for a reserved bit of its body, else what it
does. Log entries 30 and 51 (DEDUCED, DESIGN CHOICE). -/
def serveMail (irq : Bool) (masks : List Nat) (body : List Word) (f : State → State) (s : State) : Res :=
  if s.mgr.boot ≠ .ready ∨ mailOpen s = true then .next s
  else match reservedWord masks body with
    | some i => .next (answerMail irq 0xFF i 0 s)
    | none => .next (f s)

/-- RINGCFG (R289, R365). -/
def execRingcfg (irq : Bool) (body : List Word) (s : State) : Res :=
  serveMail irq [0x0FFF0F07, 2 ^ 48 - 1] body (fun s =>
    let d0 := bodyWord body 0
    let base := bodyWord body 1
    let k := bits d0 8 4
    let ring : Fin 24 := ⟨bits d0 0 3 % 24, Nat.mod_lt _ (by decide)⟩
    let x := s.mgr.rings[ring]
    if k < 4 ∨ 12 < k ∨ base % 128 ≠ 0 then answerMail irq 1 0 0 s
    else if x.ci ≠ x.pi then answerMail irq 2 0 0 s
    else
      let x : Ring :=
        { bound := true, base := BitVec.ofNat 48 base, k := BitVec.ofNat 4 k, asid := BitVec.ofNat 12 (bits d0 16 12), pi := 0, ci := 0,
          rereads := 0, doorbell := x.doorbell }
      answerMail irq 0 0 0 { s with mgr := { s.mgr with rings := vset s.mgr.rings ring x } }) s

/-- CRINGCFG (R365): entries that wait go to the new ring. -/
def execCringcfg (irq : Bool) (body : List Word) (s : State) : Res :=
  serveMail irq [2 ^ 64 - 1, 15] body (fun s =>
    let base := bodyWord body 0
    let k := bodyWord body 1
    if k < 4 ∨ 12 < k ∨ base % 4096 ≠ 0 then answerMail irq 1 0 0 s
    else if s.host.cpi ≠ s.host.cci then answerMail irq 2 0 0 s
    else
      flushAll (answerMail irq 0 0 0 { s with host := { s.host with
        cringSet := true, cringBase := BitVec.ofNat 64 base, cringK := BitVec.ofNat 4 k, cpi := 0, cci := 0 } })) s

/-- WINCFG (R365, R366). -/
def execWincfg (irq : Bool) (body : List Word) (s : State) : Res :=
  serveMail irq [255, 2 ^ 64 - 1] body (fun s =>
    let e := bodyWord body 1
    if e % 2 ^ 28 ≠ 0 ∨ bits e 60 1 ≠ 0 then answerMail irq 1 0 0 s
    else answerMail irq 0 0 0 { s with host := { s.host with windows := Table.put 0 s.host.windows (bodyWord body 0) (BitVec.ofNat 64 e) } }) s

/-- Whether a HOSTRD or HOSTWR through a DMA window is in progress (R368). -/
def dmaBusy (w : DmaWindow) (s : State) : Bool :=
  (List.finRange 4).any (fun r => match s.quad.copyRun[r], chainHead s r with
    | some c, some (_, rec) => !c.ended && ((decide (crCmd rec = 3) && windowHolds s r 62 rec w) || (decide (crCmd rec = 4) && windowHolds s r 61 rec w))
    | _, _ => false)

/-- DMAWCFG (R365, R368). Log entry 30 (DEDUCED). -/
def execDmawcfg (irq : Bool) (body : List Word) (s : State) : Res :=
  serveMail irq [15, 0xEFFF000000000000, 2 ^ 64 - 1, 2 ^ 64 - 1] body (fun s =>
    let k : Fin 16 := ⟨bodyWord body 0 % 16, Nat.mod_lt _ (by decide)⟩
    let base := bodyWord body 2
    let len := bodyWord body 3
    if base % 4096 ≠ 0 ∨ len % 4096 ≠ 0 ∨ len = 0 ∨ 2 ^ 48 < len then answerMail irq 1 0 0 s
    else if dmaBusy s.host.dma[k] s then answerMail irq 2 0 0 s
    else answerMail irq 0 0 0 { s with host := { s.host with
      dma := vset s.host.dma k ⟨BitVec.ofNat 64 (bodyWord body 1), BitVec.ofNat 64 base, BitVec.ofNat 64 len⟩ } }) s

/-- BADCMD (R365): an unknown code, or a reserved bit of the command doubleword, FWLOAD's in the ROM included (R413); a write while a command is open is
ignored (R364). Log entry 30 (DEDUCED). -/
def execBadcmd (command : Word) (body : List Word) (s : State) : Res :=
  let code := sel command 0 16
  let _ := body
  let served := decide (s.mgr.boot = .ready) || (decide (s.mgr.boot = .rom) && decide (code = 6))
  if served = false ∨ mailOpen s = true then .next s
  else if sel command 16 47 ≠ 0 ∨ code = 0 ∨ 8 < code then .next (answerMail (decide (sel command 63 1 = 1)) 0xFF 0xFF 0 s)
  else .next s

/-! ## BAR 2 (R366, R367) -/

/-- Whether a quad's table lets the host interface, a requester of scope PKG, have a right (R366, R371). -/
def hostRight (s : State) (vault : Nat) (asid : Asid) (right : Nat) : Bool :=
  let e := accessEntry s (vaultQuad vault) asid
  decide (sel e 31 1 = 1) && decide (sel e right 1 = 1) && decide (3 ≤ sel e 21 3) && decide (sel e 21 3 ≤ 4)

/-- The entry of the window of an offset (R366). -/
def windowOf (s : State) (off : Nat) : Word := Table.get 0 s.host.windows (off / 2 ^ 28)

/-- The virtual address of an offset in its window. -/
def windowVa (w : Word) (off : Nat) : Nat := sel w 28 20 * 2 ^ 28 + off % 2 ^ 28

/-- The address space of an access. -/
def HostAccess.asid (a : HostAccess) : Asid := BitVec.ofNat 12 (sel a.win 48 12)

/-- The virtual address of an access's next piece. -/
def HostAccess.va (a : HostAccess) : Nat := windowVa a.win (a.off.toNat + a.done)

/-- The bytes of an access's next piece: what is left of it in its column (R233). -/
def HostAccess.piece (a : HostAccess) : Nat := min (a.len - a.done) (16 - a.va % 16)

/-- The right that an access needs in its window (R366) and in an access table (R370). -/
def HostAccess.bit (a : HostAccess) (read write : Nat) : Nat := if a.data.isSome then write else read

/-- Whether a window lets an access in (R366). -/
def HostAccess.inWindow (a : HostAccess) : Bool := decide (sel a.win 63 1 = 1) && decide (sel a.win (a.bit 62 61) 1 = 1)

/-- An access whose next piece has been performed, with the bytes that it read. -/
def HostAccess.advance (a : HostAccess) (bs : List Byte) : HostAccess := { a with done := a.done + a.piece, got := a.got ++ bs }

/-- What the next piece of a host access answers: a wait, also in the queue of its bank (R257), a fault of translation or permission, a refusal, or the access with the piece performed. -/
inductive HostServed where
  | wait
  | queued (s : State)
  | fault
  | refused
  | done (a : HostAccess) (s : State)
deriving DecidableEq, Repr

/-- A piece is read; an uncorrectable one reads as bytes that the spec leaves open. Log entry 31 (DEDUCED). -/
def readPiece (a : HostAccess) (p : Place) (s : State) : HostServed :=
  match beatRead p.addr s with
  | (0, s) => .done (a.advance (readList s.vault.mem p.addr a.piece)) s
  | (_, s) => .done (a.advance ((List.range a.piece).map (fun i => Config.unreadByte (s.free + i)))) { s with free := s.free + a.piece }

/-- A piece is written; one that would write part of an uncorrectable word is not performed, and is reported. Log entry 31 (DEDUCED). -/
def writePiece (a : HostAccess) (p : Place) (bs : List Byte) (s : State) : HostServed :=
  match storeColumn a.asid a.va p ((bs.drop a.done).take a.piece) s with
  | none => .queued s
  | some (d, s) => .done (a.advance []) (if d = 0 then s else notify 10 (BitVec.ofNat 64 a.va) s)

/-- Whether the access table of a quad refuses the access at some piece, as far as its pages translate (R366). -/
def HostAccess.denied (a : HostAccess) (s : State) : Bool :=
  (List.range ((a.len + 15) / 16 + 1)).any (fun i =>
    let o := if i = 0 then 0 else 16 * i - windowVa a.win a.off.toNat % 16
    let va := windowVa a.win (a.off.toNat + o)
    decide (o < a.len) && (match translateStack a.asid (pageOf va) s with
      | (.ok w, s) => !hostRight s (requestPlace s a.asid (pageOf va) w (va % 2 ^ 18)).vault a.asid (a.bit 30 29)
      | _ => false))

/-- The next piece of a host access is translated through stack 0's buffer and performed by its vault's agent (R233, R366); an access that a table refuses
is refused before its first piece. Log entry 31 (DEDUCED). -/
def hostPiece (a : HostAccess) (s : State) : HostServed :=
  if a.piece = 0 then .done a s
  else if a.done = 0 ∧ a.denied s = true then .refused
  else match translateStack a.asid (pageOf a.va) s with
    | (.bad _, _) => .fault
    | (.held _, _) => .wait
    | (.ok w, s) =>
      if !permits w a.data.isNone a.data.isSome then .fault
      else
        let p := requestPlace s a.asid (pageOf a.va) w (a.va % 2 ^ 18)
        if !hostRight s p.vault a.asid (a.bit 30 29) then .refused
        else if (vaultGated s p.vault && !queued (.host a.id) p s) || (a.data.isSome && epochStale s a.asid w) then .wait
        else match reachBeat (.host a.id) p s with
          | (false, s) => .queued s
          | (true, s) => match a.data with
            | none => readPiece a p s
            | some bs => writePiece a p bs s

/-- Whether an access may be performed with others before it (R367): a read, and a write without the relaxed-ordering attribute, only after every earlier
write without it. -/
def hostFree (earlier : List HostAccess) (a : HostAccess) : Bool :=
  (a.data.isSome && a.relaxed) || earlier.all (fun e => e.data.isNone || e.relaxed)

/-- A refused access: a read completes with Unsupported Request, a write is discarded and counted (R366). -/
def refuseHost (a : HostAccess) (s : State) : State :=
  match a.data with
  | none => { s with host := { s.host with readData := none } }
  | some _ => { s with host := { s.host with refusedWrites := s.host.refusedWrites + 1 } }

/-- An access has ended: a read returns its bytes. -/
def endHost (a : HostAccess) (s : State) : State :=
  if a.data.isNone then { s with host := { s.host with readData := some a.got } } else s

/-- The accesses in progress with the one at a place replaced or gone. -/
def setPending (i : Nat) (a : Option HostAccess) (s : State) : State :=
  { s with host := { s.host with pending := s.host.pending.take i ++ a.toList ++ s.host.pending.drop (i + 1) } }

/-- The access at a place goes on by one piece, if it may. -/
def hostGo (i : Nat) (s : State) : Option State :=
  match s.host.pending[i]? with
  | none => none
  | some a =>
    if !hostFree (s.host.pending.take i) a then none
    else match hostPiece a s with
      | .wait => none
      | .queued t => waited s t
      | .fault => none
      | .refused => some (refuseHost a (leaveQueue (.host a.id) (setPending i none s)))
      | .done a s =>
        let s := leaveQueue (.host a.id) s
        some (if a.len ≤ a.done then endHost a (setPending i none s) else setPending i (some a) s)

/-- The first access in progress that can go on does (R366, R367). -/
def tryHostGo (s : State) : Option State := (List.range s.host.pending.length).findSome? (fun i => hostGo i s)

/-- An access arrives under the entry that its window now has (R365): refused there, or performed piece by piece in its turn. -/
def hostArrives (a : HostAccess) (s : State) : State :=
  if !a.inWindow then refuseHost a s
  else
    let a := { a with id := s.net.nextId }
    let s1 := { s with host := { s.host with pending := s.host.pending ++ [a] }, net := { s.net with nextId := s.net.nextId + 1 } }
    (hostGo s.host.pending.length s1).getD s1

/-- HOST_READ (R366, R367). -/
def execHostRead (off : BitVec 36) (len : BitVec 13) (s : State) : Res :=
  .next (hostArrives ⟨off, len.toNat, none, false, windowOf s off.toNat, 0, [], 0⟩ s)

/-- HOST_WRITE (R366, R367). -/
def execHostWrite (off : BitVec 36) (bytes : List Byte) (relaxed : Bool) (s : State) : Res :=
  .next (hostArrives ⟨off, bytes.length, some bytes, relaxed, windowOf s off.toNat, 0, [], 0⟩ s)

/-- Whether an access waits for the stack manager to map its page (R366). -/
def hostFaults (a : HostAccess) (s : State) : Bool := decide (hostPiece a s = .fault)

/-- HOST_MAP_TIMEOUT (R366): the stack manager has not mapped the page of the first access that waits for that within 21,600 cycles, and the access is
refused. Log entry 31 (DEDUCED). -/
def execHostMapTimeout (s : State) : Res :=
  match s.host.pending.findIdx? (fun a => hostFaults a s) with
  | none => .next s
  | some i => .next ((s.host.pending[i]?).elim s (fun a => refuseHost a (leaveQueue (.host a.id) (setPending i none s))))

/-! ## The completion ring (R369) -/

/-- CCI_WRITE (R363, R369): the driver has consumed entries, and those that wait go on. -/
def execCciWrite (cci : BitVec 32) (s : State) : Res := .next (flushAll { s with host := { s.host with cci := cci } })

end Sys2Proof.Machine
end

