-- ==== Sys2Proof/Machine/MlDsa.lean ====
section
/-! DEFINITION. ML-DSA.Verify of FIPS 204 with the parameters of ML-DSA-65, which R407 names by the lengths of its key and signature: a modulus of
8,380,417, 6 rows and 5 columns, 49 nonzero coefficients of the challenge, and at most 55 hints. Log entry 52 (PRESUMED). -/

namespace Sys2Proof.Machine

/-- The modulus. -/
def mlQ : Nat := 8380417

/-- A polynomial: 256 coefficients below the modulus. -/
abbrev Poly := List Nat

/-- ζ to a power; its order is 512. -/
def zetaPower (e : Nat) : Nat := (List.range (e % 512)).foldl (fun r _ => r * 1753 % mlQ) 1

/-- The value of a polynomial at a point. -/
def evalPoly (p : Poly) (x : Nat) : Nat := p.foldr (fun c r => (r * x + c) % mlQ) 0

/-- The bits of a byte reversed. -/
def reverseBits (i : Nat) : Nat := (List.range 8).foldl (fun r k => 2 * r + i / 2 ^ k % 2) 0

/-- NTT: the values at the odd powers of ζ, in the order of the reversed bits. -/
def ntt (p : Poly) : Poly := (List.range 256).map (fun i => evalPoly p (zetaPower (2 * reverseBits i + 1)))

/-- The inverse of NTT; 8,347,681 is the inverse of 256. -/
def nttInverse (v : Poly) : Poly :=
  let w := (List.range 256).map (fun k => v.getD (reverseBits k) 0)
  (List.range 256).map (fun j => 8347681 * zetaPower (512 - j) % mlQ * evalPoly w (zetaPower (1024 - 2 * j)) % mlQ)

/-- Coefficient by coefficient. -/
def zipPoly (f : Nat → Nat → Nat) (a b : Poly) : Poly := (a.zip b).map (fun e => f e.1 e.2 % mlQ)

/-- n numbers of w bits each. -/
def unpackNumbers (w n : Nat) (bs : List Byte) : List Nat := let v := bytesLE bs; (List.range n).map (fun i => v / 2 ^ (w * i) % 2 ^ w)

/-- Numbers of w bits each, as bytes. -/
def packNumbers (w : Nat) (xs : List Nat) : List Byte := leBytes (w * xs.length / 8) (xs.foldr (fun x r => r * 2 ^ w + x) 0)

/-- The numbers of 23 bits in a list of bytes, three bytes each. -/
def candidates : List Byte → List Nat
  | a :: b :: c :: rest => (a.toNat + b.toNat * 2 ^ 8 + c.toNat % 128 * 2 ^ 16) :: candidates rest
  | _ => []

/-- RejNTTPoly: the first 256 candidates below the modulus. -/
def uniformPoly (seed : List Byte) : Poly := ((candidates (shake 168 1008 seed)).filter (fun x => decide (x < mlQ))).take 256

/-- The steps of SampleInBall that are left, with the bytes that follow, the sign bits and the polynomial so far. -/
def ballSteps : Nat → List Nat → Nat → Poly → Poly
  | 0, _, _, c => c
  | n + 1, bytes, signs, c =>
    let i := 255 - n
    match bytes.dropWhile (fun j => decide (i < j)) with
    | [] => c
    | j :: rest => ballSteps n rest (signs / 2) ((c.set i (c.getD j 0)).set j (if signs % 2 = 0 then 1 else mlQ - 1))

/-- SampleInBall: 49 coefficients are 1 or -1. -/
def challengePoly (seed : List Byte) : Poly :=
  let out := shake 136 272 seed
  ballSteps 49 ((out.drop 8).map BitVec.toNat) (bytesLE (out.take 8)) (List.replicate 256 0)

/-- HintBitUnpack: the places of the hints in each of the six rows; none where the 61 bytes are not well formed. -/
def hintRows (bs : List Byte) : Option (List (List Nat)) :=
  let y := bs.map BitVec.toNat
  let stop (i : Nat) : Nat := if i = 0 then 0 else y.getD (54 + i) 0
  let row (i : Nat) : List Nat := (y.drop (stop i)).take (stop (i + 1) - stop i)
  let good (i : Nat) : Bool :=
    decide (stop i ≤ stop (i + 1)) && decide (stop (i + 1) ≤ 55) && ((row i).zip (row i).tail).all (fun e => decide (e.1 < e.2))
  if (List.range 6).all good && ((y.take 55).drop (stop 6)).all (fun x => decide (x = 0)) then some ((List.range 6).map row) else none

/-- UseHint: the high part of a coefficient, in units of 523,776, moved by one towards its low part where there is a hint. -/
def useHint (hint : Bool) (r : Nat) : Nat :=
  let unit := 523776
  let low := r % unit
  let positive := decide (0 < low) && decide (low ≤ unit / 2)
  let high := (if low ≤ unit / 2 then r / unit else r / unit + 1) % 16
  if !hint then high else if positive then (high + 1) % 16 else (high + 15) % 16

/-- ML-DSA.Verify with an empty context string, of a key, a signature and a message. -/
def signatureGood (key sig msg : List Byte) : Bool :=
  let challenge := sig.take 48
  let packed := (List.range 5).map (fun s => unpackNumbers 20 256 ((sig.drop (48 + 640 * s)).take 640))
  let z := packed.map (fun p => ntt (p.map (fun v => (2 ^ 19 + mlQ - v) % mlQ)))
  let c := ntt (challengePoly challenge)
  match hintRows ((sig.drop 3248).take 61) with
  | none => false
  | some hints =>
    let mu := shake 136 64 (shake 136 64 key ++ [0, 0] ++ msg)
    let row (r : Nat) : List Nat :=
      let az := (z.zipIdx).foldl (fun acc e =>
        zipPoly (· + ·) acc (zipPoly (· * ·) (uniformPoly (key.take 32 ++ [BitVec.ofNat 8 e.2, BitVec.ofNat 8 r])) e.1)) (List.replicate 256 0)
      let t := (unpackNumbers 10 256 ((key.drop (32 + 320 * r)).take 320)).map (fun v => v * 2 ^ 13 % mlQ)
      let w := nttInverse (zipPoly (fun a b => a + mlQ - b) az (zipPoly (· * ·) c (ntt t)))
      w.zipIdx.map (fun e => useHint (decide (e.2 ∈ hints.getD r [])) e.1)
    let back := shake 136 48 (mu ++ (List.range 6).flatMap (fun r => packNumbers 4 (row r)))
    packed.all (fun p => p.all (fun v => decide (196 < v) && decide (v < 2 ^ 20 - 196))) && decide (back = challenge)

end Sys2Proof.Machine
end

