-- ==== Sys2Proof/Machine/ImageSteps.lean ====
section
/-! DEFINITION. Images and firmware (R402 to R411, R413): the file and its checks, the image table, the boot tree, and the firmware load. -/

namespace Sys2Proof.Machine

/-! ## The file (R402 to R407) -/

/-- The little-endian number in n bytes of a file. -/
def fileLE (f : List Byte) (o n : Nat) : Nat := bytesLE ((f.drop o).take n)

/-- An entry of the section table (R402). -/
structure Section where
  type : Nat
  role : Nat
  off : Nat
  len : Nat
deriving DecidableEq, Repr

/-- The number of sections. -/
def fileSections (f : List Byte) : Nat := fileLE f 6 2

/-- The section table (R402). -/
def sectionTable (f : List Byte) : List Section :=
  (List.range (fileSections f)).map (fun i =>
    ⟨fileLE f (0x40 + 16 * i) 1, bits (fileLE f (0x41 + 16 * i) 1) 0 6, fileLE f (0x48 + 16 * i) 4, fileLE f (0x4C + 16 * i) 4⟩)

/-- Whether n bytes of a file are zero. -/
def zeroBytes (f : List Byte) (o n : Nat) : Bool := ((f.drop o).take n).all (fun b => decide (b = 0))

/-- The header and table (R402): magic, version, count, length, their unlisted bytes, and the bytes between sections. -/
def headerGood (f : List Byte) : Bool :=
  let n := fileSections f
  let secs := sectionTable f
  let listed (o : Nat) : Bool := decide (o < 0x40 + 16 * n) || secs.any (fun (x : Section) => decide (x.off ≤ o) && decide (o < x.off + x.len))
  decide (fileLE f 0 4 = 0x314F4C4A) && decide (fileLE f 4 2 = 1) && decide (2 ≤ n) && decide (n ≤ 64) && decide (fileLE f 8 4 = f.length)
    && decide (f.length % 8 = 0) && zeroBytes f 12 52
    && (List.range n).all (fun i => decide (fileLE f (0x41 + 16 * i) 1 < 64) && zeroBytes f (0x42 + 16 * i) 6
      && (decide (fileLE f (0x40 + 16 * i) 1 ≤ 2) || zeroBytes f (0x41 + 16 * i) 1))
    && f.zipIdx.all (fun e => listed e.2 || decide (e.1 = 0))

/-- Whether a section lies in the file, after the table, at a multiple of 8. -/
def sectionPlaced (f : List Byte) (x : Section) : Bool :=
  decide (x.off % 8 = 0) && decide (x.len % 8 = 0) && decide (0x40 + 16 * fileSections f ≤ x.off) && decide (x.off + x.len ≤ f.length)

/-- The number of sections of a type. -/
def countType (secs : List Section) (t : Nat) : Nat := (secs.filter (fun (x : Section) => decide (x.type = t))).length

/-- The number of roles. -/
def roleCount (secs : List Section) : Nat := countType secs 1

/-- The section of a type and role. -/
def sectionOf (secs : List Section) (t k : Nat) : Option Section := secs.find? (fun (x : Section) => decide (x.type = t) && decide (x.role = k))

/-- The counts of an image (R402). -/
def imageCounts (secs : List Section) : Bool :=
  let r := roleCount secs
  decide (1 ≤ r) && decide (countType secs 2 = r) && decide (countType secs 3 = 1) && decide (countType secs 4 = 1) && decide (countType secs 5 ≤ 1)
    && decide (countType secs 6 = 1) && (List.range r).all (fun k => (sectionOf secs 1 k).isSome && (sectionOf secs 2 k).isSome)

/-- The length of a role's code. -/
def codeLength (f : List Byte) (x : Section) : Nat := fileLE f (x.off + 0x10) 4

/-- The number of a role's tasks. -/
def taskCount (f : List Byte) (x : Section) : Nat := fileLE f (x.off + 0x50) 2

/-- The role name of a ROLE section: 16 bytes, from the first zero byte on all zero, and of ASCII before it (R403). -/
def roleName (f : List Byte) (x : Section) : List Byte := ((f.drop x.off).take 16).takeWhile (fun b => decide (b ≠ 0))
def nameGood (f : List Byte) (x : Section) : Bool :=
  let n := roleName f x
  n.all (fun b => decide (b.toNat < 128)) && zeroBytes f (x.off + n.length) (16 - n.length)

/-- A ROLE section is well formed (R403). -/
def roleGood (f : List Byte) (x : Section) : Bool :=
  let c := codeLength f x
  let t := taskCount f x
  decide (0x758 ≤ x.len) && decide (c % 64 = 0) && decide (64 ≤ c) && decide (c ≤ 32768) && decide (t ≤ 4096) && decide (x.len = 0x758 + 8 * t + c)
    && zeroBytes f (x.off + 0x16) 2 && zeroBytes f (x.off + 0x52) 6 && nameGood f x
    && (List.range 16).all (fun k => decide (fileLE f (x.off + 0x30 + 2 * k) 2 < 2 ^ 10))

/-- A TAGMAP section is as long as its role's code needs, up to a multiple of 8 with zeros (R402, R404). Log entry 32 (DEDUCED). -/
def tagmapGood (f : List Byte) (secs : List Section) (x : Section) : Bool :=
  match sectionOf secs 1 x.role with
  | none => false
  | some y =>
    let n := codeLength f y / 16
    decide (x.len = (n + 7) / 8 * 8) && zeroBytes f (x.off + n) (x.len - n)

/-- The entries of a PLACEMENT section: FIRST, LAST, role (R405). -/
def placementOf (f : List Byte) (x : Section) : List (BitVec 15 × BitVec 15 × BitVec 6) :=
  (List.range (x.len / 8)).map (fun i =>
    let d := fileLE f (x.off + 8 * i) 8
    (BitVec.ofNat 15 d, BitVec.ofNat 15 (d / 2 ^ 15), BitVec.ofNat 6 (d / 2 ^ 32)))

/-- The entries of a BOOTTREE section: the source and its targets (R406). -/
def treeOf (f : List Byte) (x : Section) : List (BitVec 11 × List (BitVec 11)) :=
  (List.range (x.len / 16)).map (fun i =>
    let d := fileLE f (x.off + 16 * i) 8
    (BitVec.ofNat 11 d, (List.range (bits d 11 3)).map (fun k => BitVec.ofNat 11 (fileLE f (x.off + 16 * i + 8 + 2 * k) 2))))

/-- The roles that a quad of a stack holds: those that the placement maps a core of it to (R405). -/
def rolesOfQuad (placement : List (BitVec 15 × BitVec 15 × BitVec 6)) (t q : Nat) : List Nat :=
  let cores := (List.range 4).map (fun k => t * 2 ^ 13 + 4 * q + k)
  (cores.filterMap (fun c => (placement.find? (fun e => decide (e.1.toNat ≤ c) && decide (c ≤ e.2.1.toNat))).map (fun e => e.2.2.toNat))).dedup

/-- The quads of a tree. -/
def treeQuads (tree : List (BitVec 11 × List (BitVec 11))) : List (BitVec 11) := (tree.flatMap (fun e => e.1 :: e.2)).dedup

/-- The roots of a tree: sources that are no target. -/
def treeRoots (tree : List (BitVec 11 × List (BitVec 11))) : List (BitVec 11) :=
  ((tree.map Prod.fst).dedup).filter (fun q => !(tree.flatMap Prod.snd).contains q)

/-- The quads that are reached in a number of hops from those of a list. -/
def treeReach (tree : List (BitVec 11 × List (BitVec 11))) : Nat → List (BitVec 11) → List (BitVec 11)
  | 0, l => l
  | n + 1, l => l ++ treeReach tree n ((tree.filter (fun e => l.contains e.1)).flatMap Prod.snd)

/-- A boot tree is well formed (R406): one root, from which every quad of it is reached. -/
def treeGood (placement : List (BitVec 15 × BitVec 15 × BitVec 6)) (tree : List (BitVec 11 × List (BitVec 11))) : Bool :=
  let quads := treeQuads tree
  tree.all (fun e => decide (1 ≤ e.2.length) && decide (e.2.length ≤ 4)) && quads.all (fun q => decide (q.toNat < 1600))
    && decide ((treeRoots tree).length = 1) && decide ((tree.flatMap Prod.snd).Nodup)
    && (let reached := treeReach tree quads.length (treeRoots tree); quads.all (fun q => reached.contains q))
    && (List.range 1600).all (fun q => (List.range 4).all (fun t => (rolesOfQuad placement t q).isEmpty) || quads.contains (BitVec.ofNat 11 q))

/-- The unlisted bits of PLACEMENT and BOOTTREE entries are zero (R402, R405, R406). -/
def placementPlain (f : List Byte) (x : Section) : Bool :=
  (List.range (x.len / 8)).all (fun i => (let d := fileLE f (x.off + 8 * i) 8; decide (bits d 30 2 = 0) && decide (d < 2 ^ 38)))
def treePlain (f : List Byte) (x : Section) : Bool :=
  (List.range (x.len / 16)).all (fun i =>
    let d := fileLE f (x.off + 16 * i) 8
    let n := bits d 11 3
    decide (d < 2 ^ 14) && (List.range n).all (fun k => decide (fileLE f (x.off + 16 * i + 8 + 2 * k) 2 < 2 ^ 11))
      && zeroBytes f (x.off + 16 * i + 8 + 2 * n) (8 - 2 * n))

/-- A section is well formed (R402 to R407). -/
def sectionGood (f : List Byte) (secs : List Section) (i : Nat) (x : Section) : Bool :=
  sectionPlaced f x && match x.type with
  | 1 => roleGood f x
  | 2 => tagmapGood f secs x
  | 3 => decide (x.len % 8 = 0) && placementPlain f x && (placementOf f x).all (fun e => decide (e.2.2.toNat < roleCount secs))
  | 4 => decide (x.len % 16 = 0) && treePlain f x && (match sectionOf secs 3 0 with
    | none => false
    | some y => treeGood (placementOf f y) (treeOf f x))
  | 5 => true
  | 6 => decide (i + 1 = secs.length) && decide (x.off + x.len = f.length) && decide (x.len = 5272)
    && decide (fileLE f x.off 8 < 4) && zeroBytes f (x.off + 5269) 3
  | _ => false

/-- DETAIL of BADIMG: 0xFF for the header and the counts, else the first failing section; none for a good file (R409).
Log entry 32 (DEDUCED). -/
def fileFault (counts : List Section → Bool) (f : List Byte) : Option Nat :=
  let secs := sectionTable f
  if !headerGood f || !counts secs then some 0xFF
  else (List.range secs.length).find? (fun i => match secs[i]? with
    | none => true
    | some x => !sectionGood f secs i x)

/-- DETAIL of BADSIG: 0 the key digest, which matches no slot of zeros, 1 the signature; none for an authentic file (R407). -/
def signatureFault (f : List Byte) : Option Nat :=
  match (sectionTable f).getLast? with
  | none => some 0
  | some x =>
    let key := (f.drop (x.off + 8)).take 1952
    let fused := Config.fusedDigest (bits (fileLE f x.off 1) 0 2)
    if fused.all (fun b => decide (b = 0)) = true ∨ sha3 key ≠ fused then some 0
    else if !signatureGood key ((f.drop (x.off + 0x7A8)).take 3309) (sha3 (f.take x.off)) then some 1
    else none

/-- A descriptor (R403). -/
def descriptorOf (d : Nat) : Descriptor :=
  { eaddr := BitVec.ofNat 16 (bits d 49 15), aaddr := BitVec.ofNat 16 (bits d 34 15), laddr := BitVec.ofNat 16 (bits d 19 15),
    kinds := BitVec.ofNat 3 (bits d 16 3), frame := BitVec.ofNat 16 d }

/-- The tag of halfword i in a TAGMAP section (R404). -/
def tagOf (f : List Byte) (x : Section) (i : Nat) : Bool := decide (bits (fileLE f (x.off + i / 8) 1) (i % 8) 1 = 1)

/-- The role of a ROLE and its TAGMAP section (R403, R404). -/
def roleOfSections (f : List Byte) (x y : Section) : Role :=
  let t := taskCount f x
  let entry := fileLE f (x.off + 0x14) 2
  { name := roleName f x
    entry := if entry = 0xFFFF then none else some (BitVec.ofNat 16 entry)
    tvec := BitVec.ofNat 64 (fileLE f (x.off + 0x18) 8)
    tsave := BitVec.ofNat 64 (fileLE f (x.off + 0x20) 8)
    tsavelen := BitVec.ofNat 64 (fileLE f (x.off + 0x28) 8)
    bfmt := Vector.ofFn (fun (k : Fin 16) => BitVec.ofNat 10 (fileLE f (x.off + 0x30 + 2 * k.val) 2))
    handlers := (List.range 224).foldl (fun h k => Table.put Descriptor.none h k (descriptorOf (fileLE f (x.off + 0x58 + 8 * k) 8))) []
    tasks := (List.range t).map (fun k => descriptorOf (fileLE f (x.off + 0x758 + 8 * k) 8))
    code := (List.range (codeLength f x / 2)).map (fun k => (BitVec.ofNat 16 (fileLE f (x.off + 0x758 + 8 * t + 2 * k) 2), tagOf f y k)) }

/-- The roles of an image in order. -/
def rolesOf (f : List Byte) (secs : List Section) : List Role :=
  (List.range (roleCount secs)).filterMap (fun k => match sectionOf secs 1 k, sectionOf secs 2 k with
    | some x, some y => some (roleOfSections f x y)
    | _, _ => none)

/-! ## The image table and the regions (R401, R409 to R411) -/

/-- The length of the region in a quad of a stack, in units of 64 bytes: that of the longest role the quad holds. Log entry 23 (DEDUCED). -/
def regionLength (roles : List Role) (placement : List (BitVec 15 × BitVec 15 × BitVec 6)) (t q : Nat) : Nat :=
  (rolesOfQuad placement t q).foldl (fun n k => max n (((roles[k]?).map (fun r => r.code.length)).getD 0 / 32)) 0

/-- Whether the own quad has room for a region beside the regions of the images it holds. -/
def regionFree (s : State) (base len : Nat) : Bool :=
  decide (base + len ≤ 512) && s.mgr.images.all (fun (i : Image) =>
    let n := regionLength i.roles i.placement s.ownStack s.ownQuad
    decide (n = 0) || decide (base + len ≤ i.base.toNat) || decide (i.base.toNat + n ≤ base))

/-- The role of this core is written into its quad's region of an image, code and tags together (R404, R409); the rest of the region holds
zero, tagged as data. Log entry 23 (DEDUCED). -/
def loadRegion (i : Image) (s : State) : State :=
  match i.roleOf s.core.id.toNat with
  | none => s
  | some r =>
    let lo := i.base.toNat * 64
    let hi := lo + regionLength i.roles i.placement s.ownStack s.ownQuad * 64
    let m := writeList (clearRange s.quad.istore lo hi) lo (r.code.flatMap (fun e => leBytes 2 e.1.toNat))
    let tags := (r.code.zipIdx.filter (fun e => !e.1.2)).map (fun e => lo / 2 + e.2)
    { s with quad := { s.quad with
        istore := m
        code := s.quad.code.filter (fun h => decide (2 * h < lo) || decide (hi ≤ 2 * h)) ++ tags
        istoreBad := s.quad.istoreBad.filter (fun w => decide (8 * w < lo) || decide (hi ≤ 8 * w)) } }

/-- A quad holds its roles of an image: the own quad's region is written. Log entry 23 (DEDUCED). -/
def quadHolds (q : BitVec 11) (i : Image) (s : State) : State :=
  let s := if q.toNat = s.ownQuad then loadRegion i s else s
  { s with mgr := { s.mgr with images := s.mgr.images.map (fun (x : Image) =>
      if x.index = i.index then { x with holding := x.holding ++ [q] } else x) } }

/-- Once every quad of the tree has its roles, the image is LOADED and IMGLOAD answers DONE (R409). Log entry 32 (DEDUCED). -/
def finishLoad (index : BitVec 8) (s : State) : State :=
  match s.mgr.images.find? (fun (i : Image) => decide (i.index = index)) with
  | none => s
  | some i =>
    if i.loaded || !(treeQuads i.tree).all (fun q => i.holding.contains q) then s
    else answerAt i.mail i.irq 0 0 index.toNat { s with mgr := { s.mgr with images := s.mgr.images.map (fun (x : Image) =>
      if x.index = index then { x with loaded := true } else x) } }

/-- The image of a good file, for a quad of a stack. -/
def imageOfFile (f : List Byte) (mail : Fin 4) (irq : Bool) (index : BitVec 8) (base : BitVec 9) (t q : Nat) : Image :=
  let secs := sectionTable f
  let roles := rolesOf f secs
  let placement := ((sectionOf secs 3 0).map (placementOf f)).getD []
  { index := index, loaded := false, mail := mail, irq := irq, roles := roles, placement := placement, tree := ((sectionOf secs 4 0).map (treeOf f)).getD [],
    holding := [], base := base, size := BitVec.ofNat 9 (regionLength roles placement t q) }

/-- A free index of the image table: the stack manager's choice, or the lowest where that is in use; none in a full table (R409). -/
def freeIndex (s : State) (k : BitVec 8) : Option (BitVec 8) :=
  (k :: (List.range 256).map (BitVec.ofNat 8)).find? (fun k => s.mgr.images.all (fun (x : Image) => decide (x.index ≠ k)))

/-- The start of a region of the own quad for an image: the stack manager's choice, or the lowest where that is not free; none where none is (R409). -/
def freeBase (s : State) (base : BitVec 9) (len : Nat) : Option (BitVec 9) :=
  ((base :: (List.range 512).map (BitVec.ofNat 9)).find? (fun b => regionFree s b.toNat len))

/-- A checked file enters the image table, and the root is loaded (R409). -/
def enterImage (i : Image) (room : Bool) (s : State) : State :=
  match freeIndex s i.index, freeBase s i.base (regionLength i.roles i.placement s.ownStack s.ownQuad) with
  | none, _ => answerAt i.mail i.irq 4 0 0 s
  | _, none => answerAt i.mail i.irq 3 0 0 s
  | some k, some b =>
    if room = false then answerAt i.mail i.irq 3 0 0 s
    else
      let i := { i with index := k, base := b }
      let s := { s with mgr := { s.mgr with images := s.mgr.images ++ [i] } }
      let s := match treeRoots i.tree with
        | [] => s
        | q :: _ => quadHolds q i s
      finishLoad i.index s

/-- The stack manager reads the file of an IMGLOAD and checks it; none while the read must wait (R409). -/
def loadImage (x : ImageLoad) (s : State) : Option State :=
  let len := bodyWord x.body 2
  let answer (status detail : Nat) (s : State) : Option State := some (answerAt x.mail x.irq status detail 0 s)
  match devRead (BitVec.ofNat 12 (bodyWord x.body 0)) (bodyWord x.body 1) len s (len + 1) with
  | .wait => none
  | .fault _ _ s => answer 5 0 s
  | .done 0 _ f s =>
    match fileFault imageCounts f with
    | some d => answer 1 d s
    | none => match signatureFault f with
      | some d => answer 2 d s
      | none => some (enterImage (imageOfFile f x.mail x.irq x.index x.base s.ownStack s.ownQuad) x.room s)
  | .done _ _ _ s => answer 5 0 s

/-- IMGLOAD (R409): the stack manager reads and checks the file; index, the region's start in the own quad, and whether every other quad
has room are its choices. A read that must wait leaves the command open (R364). Log entries 30 and 32 (DEDUCED). -/
def execImgload (irq : Bool) (body : List Word) (index : BitVec 8) (base : BitVec 9) (room : Bool) (s : State) : Res :=
  serveMail irq [0xFFF, 2 ^ 48 - 1, 2 ^ 64 - 1] body (fun s =>
    let s := openMail s
    let x : ImageLoad := ⟨s.host.mailAt, irq, body, index, base, room⟩
    (loadImage x s).getD { s with host := { s.host with loads := s.host.loads ++ [x] } }) s

/-- The first image file whose read waited and can go on. -/
def tryLoadGo (s : State) : Option State :=
  s.host.loads.findSome? (fun x => loadImage x { s with host := { s.host with loads := s.host.loads.filter (fun y => decide (y ≠ x)) } })

/-- IMAGE_FORWARD (R410): a quad that holds its roles sends to the next of its targets, in the order of its entry. -/
def tryImageForward (source target : BitVec 11) (s : State) : Option State :=
  let sends (i : Image) : Bool := !i.loaded && i.holding.contains source
    && decide (((i.tree.filter (fun e => decide (e.1 = source))).flatMap Prod.snd).find? (fun q => !i.holding.contains q) = some target)
  (s.mgr.images.find? sends).map (fun i => finishLoad i.index (quadHolds target i s))
/-- IMAGE_FORWARD (R410). -/
def execImageForward (source : BitVec 11) (target : BitVec 11) (s : State) : Res := orStay (tryImageForward source target s) s

/-- IMGDROP (R409): BUSY while a gang placed with the image exists; else its regions and its index are free. Log entry 32 (DEDUCED). -/
def execImgdrop (irq : Bool) (body : List Word) (s : State) : Res :=
  serveMail irq [0xFF] body (fun s =>
    let k := bodyWord body 0
    if s.mgr.gangs.any (fun (g : Gang) => decide (pkt g.packet 2 56 8 = k)) then answerMail irq 6 0 0 s
    else answerMail irq 0 0 0 { s with mgr := { s.mgr with images := s.mgr.images.filter (fun (i : Image) => decide (i.index.toNat ≠ k)) } }) s

/-- The images that the own quad holds are loaded into it again (R411). -/
def reloadImages (s : State) : State :=
  let s := { s with quad := { s.quad with reload := false } }
  s.mgr.images.foldl (fun s (i : Image) => if i.holding.contains (BitVec.ofNat 11 s.ownQuad) then loadRegion i s else s) s

/-! ## Firmware and bring-up (R412, R413) -/

/-- The counts of a firmware file (R402). -/
def firmwareCounts (secs : List Section) : Bool :=
  decide (secs.length = 2) && decide (countType secs 1 = 1) && decide (countType secs 6 = 1) && (sectionOf secs 1 0).isSome

/-- A firmware ROLE's fields other than the name and the code length are zero (R413). -/
def firmwarePlain (f : List Byte) : Bool :=
  match sectionOf (sectionTable f) 1 0 with
  | none => false
  | some x => zeroBytes f (x.off + 0x14) (0x758 - 0x14)

/-- POWER_UP (R254, R331, R413): the device starts in its boot ROM, with every quad GATED, every row closed, and what the vaults hold.
Log entries 4 and 6 (DESIGN CHOICE). -/
def execPowerUp (s : State) : Res :=
  .next { State.reset with
    schedule := s.schedule
    free := s.free
    core := { Core.reset with id := s.core.id, pkg := s.core.pkg }
    vault := { Vault.reset with mem := s.vault.mem, bad := s.vault.bad, flipped := s.vault.flipped, busBad := s.vault.busBad }
    mgr := { Mgr.reset with boot := .rom } }

/-- What keeps a firmware file from being taken, as DETAIL of BADSIG: 0 for one that is no firmware file or whose key digest fails, 1 for the signature
(R407, R413). Log entry 32 (DEDUCED). -/
def firmwareFault (file : List Byte) : Option Nat :=
  if (fileFault firmwareCounts file).isSome ∨ firmwarePlain file = false then some 0 else signatureFault file

/-- The length that the body of a mailbox's FWLOAD gives (R413). -/
def firmwareLength (k : Fin 4) (s : State) : Nat := (Table.get 0 s.host.mailboxes[k].body 2).toNat

/-- FWLOAD (R413): the ROM takes the command, and reads as many bytes of the host's memory as its body says; file is what stands there. Until that many have
come the command stays open. Then the firmware is being verified.
Log entries 4, 30 and 32 (DESIGN CHOICE, DEDUCED, DEDUCED). -/
def execFwload (irq : Bool) (file : List Byte) (s : State) : Res :=
  if s.mgr.boot ≠ .rom then .next s
  else
    let x := s.host.firmware.getD ⟨s.host.mailAt, irq, none⟩
    let whole := decide (file.length = firmwareLength x.mail s)
    .next { s with
      host := { s.host with firmware := some (if whole then { x with file := some file } else x) }
      mgr := { s.mgr with boot := if whole then .fwcheck else .rom } }

/-- The firmware has been verified (R413): it brings the package up, or the state is FAILED, with BADSIG, whose detail the response carries too (R412). Log
entry 32 (DEDUCED). -/
def tryFirmwareCheck (s : State) : Option State :=
  match s.mgr.boot, s.host.firmware with
  | .fwcheck, some ⟨k, irq, some file⟩ =>
    let s := { s with host := { s.host with firmware := none } }
    some (match firmwareFault file with
      | some d => setMailbox k (fun (m : Mailbox) => { m with response := [BitVec.ofNat 64 (2 + d * 2 ^ 8)] })
          (answerAt k irq 2 d 0 { s with mgr := { s.mgr with boot := .failed } })
      | none => answerAt k irq 0 0 0 { s with mgr := { s.mgr with boot := .bringup } })
  | _, _ => none

end Sys2Proof.Machine
end

