-- ==== Sys2Proof/Machine/PowerSteps.lean ====
section
/-! DEFINITION. Power gating (R331 to R336) and the control registers that the stack manager writes (R4, R25, R272, R289, R293, R294, R310,
R317, R370, R375). -/

namespace Sys2Proof.Machine

/-- Whether a physical quad is the one that the core's logical quad is mapped to. -/
def isOwnQuad (s : State) (q : Nat) : Bool := decide (physQuad s s.ownQuad = q)

/-- The own quad after its SRAM has lost its contents (R255, R333, R336): stores zero, halfwords tagged as data, no residency, slice pairs idle
at level 0, every row closed and no refresh due. Log entry 33 (DEDUCED). -/
def freshQuad (s : State) : State :=
  { s with
    streams := Vector.replicate 4 Stream.idle
    res := Vector.replicate 4 Residency.free
    core := { Core.reset with
      id := s.core.id, pkg := s.core.pkg, cycle := s.core.cycle, stamp := s.core.stamp, slew := { Slew.idle with clock := s.core.slew.clock } }
    quad := { s.quad with
      istore := [], code := [], istoreBad := [], mates := Vector.replicate 4 Mate.empty, claim := false, leaveDue := false, reload := false,
      copyRun := Vector.replicate 4 none, copyTurn := 3 }
    vault := { s.vault with
      ctrlBuf := [], beats := s.vault.beats.filter (fun b => decide (vaultQuad b.vault ≠ vaultQuad s.ownVault)), banks := s.vault.banks.map (fun b => { b with openRow := none, busy := .idle, want := [], refreshDue := false }) } }

/-! ## Gating (R332, R333, R335) -/

/-- What refuses a gate command of a quad: a bind record in use, or a copy command handed over and not complete (R332). -/
def quadInUse (s : State) (q : Nat) : Bool :=
  if isOwnQuad s q then
    s.res.toList.any (fun x => decide (x.state ≠ .free)) || s.quad.mates.toList.any (fun m => !m.residencies.isEmpty)
      || (List.finRange 4).any (fun r => chainBusy s r)
  else
    let holds (c : BitVec 32) : Bool := decide (c.toNat / 2 ^ 13 = s.address.toNat / 2 ^ 13) && decide (physQuad s (c.toNat / 4 % 2 ^ 11) = q)
    s.power.inUse.any (fun l => decide (physQuad s l.toNat = q)) || s.mgr.gangs.any (fun (g : Gang) => g.holders.any holds)

/-- The quad of a logical number of this stack with the stack above it (R4). -/
def quadNumber (s : State) (l : Nat) : BitVec 13 := BitVec.ofNat 13 (s.ownStack * 2 ^ 11 + l)

/-- Requests that have passed the port of a quad and are not yet performed (R333). -/
def portBusy (s : State) (l : Nat) : Bool :=
  let here (v : Nat) : Bool := decide (vaultQuad v = quadNumber s l)
  s.net.agentQ.any (fun j => here j.vault) || s.vault.beats.any (fun b => here b.vault) || (decide (l = s.ownQuad) && !s.core.portQ.isEmpty)

/-- A gate command (R332, R335): a queued wake is cancelled; else the quad closes, or the command is refused. -/
def gateCommand (q : Nat) (s : State) : State :=
  let x := qpwr s q
  if !isQuad q then s
  else if x.queued then
    let s := setQpwr q { x with queued := false } s
    { s with power := { s.power with queue := s.power.queue.filter (fun e => decide (e.1 ≠ q)) } }
  else if x.state = .gated then s
  else if x.state ≠ .on ∨ quadInUse s q = true then setQpwr q { x with err := true } s
  else setQpwr q { x with state := .closing } s
/-- GATE (R332). -/
def execGate (quad : Nat) (s : State) : Res := .next (gateCommand quad s)

/-- What falls with the gate of the logical quad of a physical one: its dirty log is merged, and its translation buffers drop their entries (R333). -/
def closeQuad (l : Nat) (s : State) : State :=
  let s := mergeLog (quadNumber s l) s
  { s with vault := { s.vault with marks := s.vault.marks.filter (fun e => decide (vaultQuad e.1 ≠ quadNumber s l)) } }

/-- Whether requests that passed a quad's port, or the merge of its log, hold its gate back (R333, R334). -/
def closeWaits (l : Option Nat) (s : State) : Bool := match l with
  | none => false
  | some l => portBusy s l || !canMerge (quadNumber s l) s

/-- GATE_FALL (R333): once every request that passed the port has been performed and the log can be merged (R334), the translation buffers drop their
entries and the quad's SRAM loses its contents; a wake that was kept is queued. Log entry 33 (DEDUCED). -/
def tryGateFall (q : Nat) (s : State) : Option State :=
  let x := qpwr s q
  let l := logicalOf s q
  if x.state ≠ .closing ∨ closeWaits l s = true then none
  else
    let s := (l.map (fun l => closeQuad l s)).getD s
    let s := if isOwnQuad s q then freshQuad s else s
    let s := setQpwr q { x with state := .gated, wakeKept := false } s
    some (if x.wakeKept then (tryWake q s).getD s else s)
/-- GATE_FALL (R333). -/
def execGateFall (quad : Nat) (s : State) : Res := orStay (tryGateFall quad s) s

/-! ## Waking (R335, R336) -/

/-- WAKE (R335). -/
def execWake (quad : Nat) (s : State) : Res := orStay (tryWake quad s) s

/-- The wake that is admitted next: the earliest queued, the lowest physical quad among those of one cycle (R336). -/
def nextWake (s : State) : Option (Nat × Word) :=
  s.power.queue.foldl (fun b e => match b with
    | none => some e
    | some b => if e.2.toNat < b.2.toNat ∨ (e.2 = b.2 ∧ e.1 < b.1) then some e else some b) none

/-- WAKE_ADMIT (R336): at most four quads wake at a time. -/
def tryWakeAdmit (s : State) : Option State :=
  match nextWake s with
  | none => none
  | some (q, _) =>
    if 4 ≤ s.power.waking.length then none
    else
      let s := setQpwr q { qpwr s q with queued := false, state := .waking } s
      some { s with power := { s.power with queue := s.power.queue.filter (fun e => decide (e.1 ≠ q)), waking := s.power.waking ++ [q] } }
/-- WAKE_ADMIT (R336). -/
def execWakeAdmit (s : State) : Res := orStay (tryWakeAdmit s) s

/-- A quad comes up: ON, its bias code in force, its SRAM at zero, and its images still to be loaded (R331, R336). -/
def comeUp (q : Nat) (s : State) : State :=
  let x := qpwr s q
  let s := setQpwr q { x with state := .on, bbnow := x.bb, queued := false } s
  if isOwnQuad s q then (let s := freshQuad s; { s with quad := { s.quad with reload := true } }) else s

/-- The stack manager loads the images that the own quad holds into it again after a wake (R336, R411). -/
def tryReload (s : State) : Option State := if s.quad.reload && s.quadOn then some (reloadImages s) else none

/-- WAKE_COMPLETE (R336): the quad comes up, and in the same cycle the arbiter admits the next wake. -/
def tryWakeComplete (q : Nat) (s : State) : Option State :=
  if q ∈ s.power.waking then
    let s := comeUp q { s with power := { s.power with waking := s.power.waking.filter (fun x => decide (x ≠ q)) } }
    some ((tryWakeAdmit s).getD s)
  else none
/-- WAKE_COMPLETE (R336). -/
def execWakeComplete (quad : Nat) (s : State) : Res := orStay (tryWakeComplete quad s) s

/-! ## Held device-internal traffic (R334) -/

/-- The vault behind a closed port at which a device-internal access to an address is held: that of a table, or of the page. -/
def heldAt (asid : Asid) (va : Nat) (s : State) : Option Nat :=
  match (translateStack asid (pageOf va) s).1 with
  | .held v => some v
  | .bad _ => none
  | .ok w =>
    let v := (requestPlace s asid (pageOf va) w (va % 2 ^ 18)).vault
    if vaultGated s v then some v else none

/-- The vaults behind closed ports at which a device-internal access of n bytes is held. -/
def heldRange (asid : Asid) (va n : Nat) (s : State) : List Nat :=
  (List.range (n / 16 + 2)).filterMap (fun i =>
    let a := if i = 0 then va else va / 16 * 16 + 16 * i
    if a < va + n then heldAt asid a s else none)

/-- The vaults at which the spilling of a message, or the delivery of spilled ones, is held: those of the area's header and of the slots that come next
(R317, R334). -/
def spillHeld (asid : Asid) (gen : BitVec 4) (s : State) : List Nat :=
  match spillArea s asid gen with
  | none => []
  | some va => heldRange asid va 24 s ++ (match devBytes asid va 24 s with
    | none => []
    | some (h, s) =>
      let cap := max 1 (dwordAt h 2).toNat
      [0, 1].flatMap (fun i => heldRange asid (va + 64 + 128 * ((dwordAt h i).toNat % cap)) 128 s))

/-- The closed port at which a request is held that its agent forwards to a chunk's new place (R242, R334). -/
def forwardHeld (j : AgentJob) (s : State) : Option Nat :=
  match j.word, (translateStack j.m.asid (pageOf (reqAddr j.m)) s).1 with
  | none, .ok w =>
    let v := (requestPlace s j.m.asid (pageOf (reqAddr j.m)) w (reqAddr j.m % 2 ^ 18)).vault
    if v ≠ j.vault ∧ vaultGated s v = true then some v else none
  | _, _ => none

/-- The vault of a table at which the walk for an access of a program is held. -/
def walkHeldAt (asid : Asid) (va : Nat) (s : State) : Option Nat :=
  match (translateStack asid (pageOf va) s).1 with
  | .held v => some v
  | _ => none

/-- The vaults of a page that lie behind closed ports. -/
def gatedOf (w : Word) (s : State) : List Nat := ((List.range (2 ^ sel w 44 3)).map (pwVault w)).filter (vaultGated s)

/-- The vaults at which a re-stripe is held: those of the page's table, of the next chunk, and of its new place. -/
def restripeHeld (r : ResIx) (s : State) : List Nat :=
  match chainHead s r, s.quad.copyRun[r] with
  | some (_, rec), some c =>
    if crCmd rec = 1 ∧ c.moving = true then
      let old := leafWord s s.res[r].asid c.page
      (leafHeld s.res[r].asid c.page s).toList ++ gatedOf old s ++ gatedOf (BitVec.ofNat 64 (crArg0 rec)) s
    else []
  | _, _ => []

/-- The vaults at which the copy of a snapshot's next page is held. -/
def snapshotHeld (x : Snapshot) (s : State) : List Nat :=
  if x.cut then (match (mappedPages s x.asid).find? (fun vpn => sel (leafWord s x.asid vpn) 63 1 = 1 && epochStale s x.asid (leafWord s x.asid vpn)) with
    | none => []
    | some vpn => (leafHeld x.asid vpn s).toList ++ gatedOf (leafWord s x.asid vpn) s)
  else []

/-- The vaults at which what the device has in hand is held. -/
def heldVaults (s : State) : List Nat :=
  (List.finRange 4).flatMap (fun r => restripeHeld r s) ++ s.resil.snapshots.flatMap (fun x => snapshotHeld x s)
    ++ (match s.core.engQ with
      | e :: _ => if e.kind = .act then (List.range (pageOf (e.va.toNat + e.len.toNat) - pageOf e.va.toNat + 1)).filterMap (fun i =>
          walkHeld s.res[e.res].asid (pageOf e.va.toNat + i) s) else []
      | [] => [])
    ++ (s.core.engQ.head?.bind (fun e => if e.isTile then walkHeldAt s.res[e.res].asid (beatVa e.desc e.beats) s else none)).toList
    ++ s.net.agentQ.filterMap (fun j => walkHeldAt j.m.asid (reqAddr j.m) s) ++ s.net.agentQ.filterMap (fun j => forwardHeld j s)
    ++ s.core.acts.flatMap (fun a => (List.range (pageOf a.2.2 - pageOf a.2.1 + 1)).filterMap (fun i => walkHeld a.1 (pageOf a.2.1 + i) s))
    ++ (List.finRange 4).filterMap (fun i =>
      if s.streams[i].active ∧ s.streams[i].stalled ∧ 0 < s.streams[i].tlevel.toNat then walkHeldAt s.res[s.streams[i].res].asid (saveArea s.streams[i]) s else none)
    ++ (List.finRange 4).filterMap (fun r => match chainHead s r with
      | none => none
      | some (_, rec) => (walkHeldAt s.res[r].asid (crSrc rec) s).orElse (fun _ => walkHeldAt s.res[r].asid (crDst rec) s))
    ++ (List.finRange 4).flatMap (fun r =>
      let x := s.res[r]
      if x.state = .saving then
        heldRange x.asid (x.saveVa.toNat + x.saveProgress) (min 2048 (footprint x - x.saveProgress)) s ++ heldRange x.asid (x.saveVa.toNat + 8) 8 s
      else [])
    ++ (List.finRange 4).flatMap (fun r =>
      let j := s.res[r].journal
      match shippable s j with
      | none => []
      | some (b, _) => (List.range b.slots.length).flatMap (fun i =>
          heldRange s.res[r].asid (j.lbase.toNat + 128 * ((j.windowPos + j.window.length + i) % 2 ^ (8 + j.lnw.toNat))) 128 s))
    ++ (s.net.inbound.filter (divertsFor s)).flatMap (fun m => spillHeld m.asid m.gen s)
    ++ (List.finRange 4).flatMap (fun r => if s.res[r].mail then spillHeld s.res[r].asid s.res[r].gen s else [])
    ++ (List.finRange 24).filterMap (fun k => if s.mgr.rings[k].bound ∧ s.mgr.rings[k].ci ≠ s.mgr.rings[k].pi then heldAt s.mgr.rings[k].asid (recordVa s.mgr.rings[k]) s else none)
    ++ s.quad.dirtyLog.filterMap (fun e => leafHeld e.2.1 e.2.2.1.toNat s)
    ++ s.host.pending.flatMap (fun a => heldRange a.asid a.va a.piece s)

/-- Held traffic queues a wake of its quad, as if the stack manager had written CMD = 2 (R334). -/
def tryHeldWake (s : State) : Option State := (heldVaults s).findSome? (fun v => wakeVault v s)

/-! ## Control registers (CONTROL_WRITE) -/

/-- The binding that a write of the stack manager gives a residency (R375): a reserved STATE or LNW, or an LBASE off a slot boundary, has no
effect. -/
def writeBinding (r : ResIx) (v : BitVec 128) (s : State) : State :=
  let j := s.res[r].journal
  let st := fld v 126 2
  let pgen := BitVec.ofNat 8 (fld v 118 8)
  if st = 3 ∨ 8 ≤ fld v 60 4 ∨ fld v 0 48 % 128 ≠ 0 then s
  else setJournal r { j with
    state := if st = 0 then .absent else if st = 1 then .bound else .changing
    pgen := pgen, ppkg := BitVec.ofNat 17 (fld v 101 17), pstk := BitVec.ofNat 2 (fld v 99 2), jid := BitVec.ofNat 16 (fld v 80 16),
    jgrp := BitVec.ofNat 16 (fld v 64 16), lnw := BitVec.ofNat 4 (fld v 60 4), lbase := BitVec.ofNat 48 (fld v 0 48),
    shipped := if pgen = j.pgen then j.shipped else none, lastHeard := s.core.cycle, peerLost := false } s

/-- A write of QPWR (R331, R335): ERR is cleared by writing one, BB is set, and CMD acts. Log entry 33 (DEDUCED). -/
def writeQpwr (q : Nat) (v : BitVec 128) (s : State) : State :=
  if !isQuad q then s else
  let x := qpwr s q
  let s := setQpwr q { x with bb := BitVec.ofNat 4 (fld v 8 4), err := x.err && decide (fld v 7 1 = 0) } s
  if fld v 0 2 = 1 then gateCommand q s else if fld v 0 2 = 2 then (tryWake q s).getD s else s

/-- The block of 128 MiB of vault memory in which the DRAM of a physical quad of this stack is kept: that of the logical quad it serves, or one of its own
where it serves none (R253). Log entry 16 (DESIGN CHOICE). -/
def dramBlock (s : State) (q : Nat) : Nat := match logicalOf s q with
  | some l => (quadNumber s l).toNat
  | none => 2 ^ 13 + q

/-- A block of vault memory is taken out of it. -/
def clearBlock (y : Nat) (s : State) : State :=
  { s with vault := { s.vault with
      mem := s.vault.mem.filter (fun c => decide (c.1 / 2 ^ 27 ≠ y))
      bad := s.vault.bad.filter (fun w => decide (w / 2 ^ 24 ≠ y)), flipped := s.vault.flipped.filter (fun w => decide (w / 2 ^ 24 ≠ y)) } }

/-- A block of vault memory takes the contents of another, uncorrectable words among them. -/
def copyBlock (x y : Nat) (s : State) : State :=
  let moved (unit a : Nat) : Nat := y * unit + a % unit
  let s1 := clearBlock y s
  if x = y then s
  else { s1 with vault := { s1.vault with
      mem := (s.vault.mem.filter (fun c => decide (c.1 / 2 ^ 27 = x))).foldl (fun m c => Table.put 0 m (moved (2 ^ 27) c.1) c.2) s1.vault.mem
      bad := s1.vault.bad ++ (s.vault.bad.filter (fun w => decide (w / 2 ^ 24 = x))).map (moved (2 ^ 24))
      flipped := s1.vault.flipped ++ (s.vault.flipped.filter (fun w => decide (w / 2 ^ 24 = x))).map (moved (2 ^ 24)) } }

/-- The DRAM that serves a logical quad is kept as its physical quad's own, unless it serves another logical quad too (R253). -/
def parkQuad (l : Nat) (s : State) : State :=
  let q := physQuad s l
  if (List.range 1600).any (fun k => decide (k ≠ l) && decide (physQuad s k = q)) then s else copyBlock (quadNumber s l).toNat (2 ^ 13 + q) s

/-- The logical-to-physical table gives a logical quad another physical one: that one's DRAM serves its vaults from now on (R4, R253). -/
def remapQuad (l q : Nat) (s : State) : State :=
  if !isQuad q || decide (1600 ≤ l) || decide (physQuad s l = q) then s
  else
    let s := clearBlock (2 ^ 13 + q) (copyBlock (dramBlock s q) (quadNumber s l).toNat (parkQuad l s))
    { s with mgr := { s.mgr with quadMap := Table.put 0 s.mgr.quadMap l (q + 1) } }

/-- The root word of an address space takes a new value (R272): the pages that it maps anew are filled first (R414), and those that a snapshot still has
to copy are copied first (R392): until then the write waits. Log entries 34 and 46 (DEDUCED). -/
def writeRoot (asid : Asid) (word : Word) (s : State) : State :=
  let old := rootOf s asid
  let fills := newLeaves s 3 old word
  if copyOwed s asid 3 old || fills.any (fillHeld s) then s
  else
    let s := fillPages fills s
    { s with vault := { s.vault with roots := Table.put 0 s.vault.roots asid.toNat word } }

/-- Whether bring-up has done what comes before READY (R413): each module works or is dead, TICK is synchronised, and each physical quad is ON and has been
scanned, or has failed. -/
def bringUpGood (s : State) : Bool :=
  s.link.modules.toList.all (fun x => !x.training || x.dead) && s.mgr.synced
    && (List.range 1640).all (fun q => decide (BitVec.ofNat 11 q ∈ s.resil.failedQuads) || (decide ((qpwr s q).state = .on) && decide (passTickOf s q ≠ 0)))

/-- What a write to a control register does. Log entry 4 (DESIGN CHOICE). -/
def writeControl (reg : ControlReg) (v : BitVec 128) (s : State) : State :=
  match reg with
  | .occ => if 4 ≤ fld v 0 5 ∧ fld v 0 5 ≤ 16 then { s with mgr := { s.mgr with occ := v.setWidth 5 } } else s
  | .agelim => { s with core := { s.core with agelim := v.setWidth 16 } }
  | .root asid => writeRoot asid (v.setWidth 64) s
  | .access quad asid =>
    let t := Table.put 0 s.quad.access (quad.toNat * 4096 + asid.toNat) (v.setWidth 32 &&& 0xFFE00000)
    { s with quad := { s.quad with access := t } }
  | .deviceRing k asid n =>
    let ring : Fin 24 := ⟨8 + k.val, by omega⟩
    if n.toNat < 4 ∨ 12 < n.toNat ∨ fld v 0 48 % 128 ≠ 0 then s
    else { s with mgr := { s.mgr with rings := vset s.mgr.rings ring {
      bound := true, base := v.setWidth 48, k := n, asid := asid, pi := 0, ci := 0, rereads := 0, doorbell := s.mgr.rings[ring].doorbell } } }
  | .doorbell k asid =>
    let ring : Fin 24 := ⟨8 + k.val, by omega⟩
    { s with mgr := { s.mgr with rings := vset s.mgr.rings ring { s.mgr.rings[ring] with doorbell := some (asid, v.setWidth 48) } } }
  | .qpwr q => writeQpwr q v s
  | .dlLatch => { s with mgr := { s.mgr with dlhdr := none, dlwhy := 0 } }
  | .drain r => drainVictim r s
  | .binding r => writeBinding r v s
  | .quadMap logical => remapQuad logical.toNat (fld v 0 11) s
  | .bringUpDone => if s.mgr.boot = .bringup ∧ bringUpGood s = true then { s with mgr := { s.mgr with boot := .ready } } else s
  | .spill asid gen =>
    let areas := s.net.spillAreas.filter (fun e => !decide (e.1 = asid ∧ e.2.1 = gen)) ++ [(asid, gen, v.setWidth 64)]
    { s with net := { s.net with spillAreas := areas } }

/-- CONTROL_WRITE (R331): a write of the stack manager to a control register. Log entry 43 (DESIGN CHOICE). -/
def execControlWrite (reg : ControlReg) (value : BitVec 128) (s : State) : Res := .next (writeControl reg value s)

end Sys2Proof.Machine
end

