-- ==== Sys2Proof/Machine/ResilienceSteps.lean ====
section
/-! DEFINITION. Snapshots (R387 to R392), scan rotation and retired quads (R393 to R397). -/

namespace Sys2Proof.Machine

/-! ## Snapshots (R387 to R392) -/

/-- The snapshot of an address space in progress. -/
def snapshotOf (s : State) (asid : Asid) : Option Snapshot := s.resil.snapshots.find? (fun (x : Snapshot) => decide (x.asid = asid))

/-- Replaces the snapshot of an address space. -/
def updateSnapshot (asid : Asid) (f : Snapshot → Snapshot) (s : State) : State :=
  { s with resil := { s.resil with snapshots := s.resil.snapshots.map (fun (x : Snapshot) => if x.asid = asid then f x else x) } }

/-- The endpoints of a SNAPCFG body. -/
def snapEndpoints (body : List Word) : List (BitVec 17) :=
  (List.range (bits (bodyWord body 0) 0 4)).map (fun i => BitVec.ofNat 17 (bodyWord body (2 + i)))

/-- The first body doubleword of a SNAPCFG that fails (R387, R388). -/
def snapBad (body : List Word) : Option Nat :=
  let nep := bits (bodyWord body 0) 0 4
  if nep = 0 ∨ 8 < nep then some 0
  else reservedWord ([0xFFFFFFFF0FFF000F, 2 ^ 64 - 1] ++ List.replicate 8 0x1FFFF) body

/-- SNAPCFG (R387, R388): BADPKT, LATE, SNAPBUSY or ACCEPTED. -/
def execSnapcfg (irq : Bool) (body : List Word) (s : State) : Res :=
  if s.mgr.boot ≠ .ready ∨ mailOpen s = true then .next s
  else
    let asid := BitVec.ofNat 12 (bits (bodyWord body 0) 16 12)
    match snapBad body with
    | some d => .next (answerMail irq 4 d 0 s)
    | none =>
      if bodyWord body 1 < s.mgr.tick.toNat + 10000 then .next (answerMail irq 9 0 0 s)
      else if (snapshotOf s asid).isSome then .next (answerMail irq 12 0 0 s)
      else
        let x : Snapshot :=
          { mail := s.host.mailAt, asid := asid, step := BitVec.ofNat 32 (bits (bodyWord body 0) 32 32), tick := BitVec.ofNat 64 (bodyWord body 1),
            endpoints := snapEndpoints body, copied := 0, cut := false, failed := 0, refuser := 0 }
        .next (answerMail irq 0 0 0 { s with resil := { s.resil with snapshots := s.resil.snapshots ++ [x] } })

/-- SNAPSHOT_CUT (R389, R395): at T the epoch of the address space advances, and the touched set of its new parity is cleared. -/
def trySnapshotCut (asid : Asid) (s : State) : Option State :=
  match snapshotOf s asid with
  | none => none
  | some x =>
    if x.cut ∨ s.mgr.tick.toNat < x.tick.toNat then none
    else
      let se := epochOf s asid + 1
      let parity := decide (se.toNat % 2 = 1)
      let s := updateSnapshot asid (fun x => { x with cut := true }) s
      some { s with
        vault := { s.vault with epochs := Table.put 0 s.vault.epochs asid.toNat se }
        resil := { s.resil with touched := s.resil.touched.filter (fun e => !decide (e.1 = asid ∧ e.2.1 = parity)) } }
/-- SNAPSHOT_CUT (R389). -/
def execSnapshotCut (asid : Asid) (s : State) : Res := orStay (trySnapshotCut asid s) s

/-- A page takes the present epoch, in both copies of its leaf, in every buffer that holds it, and in the requests and areas that hold its word (R275,
R390). -/
def setEpoch (asid : Asid) (vpn : Nat) (s : State) : State :=
  let e := (epochOf s asid).toNat
  let s := rewordPage asid vpn (fun w => setField w 55 4 e) (changeLeaf asid vpn (fun w => setField w 55 4 e) s)
  let fix (b : List TlbEntry) := b.map (fun (x : TlbEntry) => if x.asid = asid ∧ x.vpn.toNat = vpn then { x with word := setField x.word 55 4 e } else x)
  { s with vault := { s.vault with ctrlBuf := fix s.vault.ctrlBuf, stackBuf := fix s.vault.stackBuf } }

/-- Whether a page waits for its copy (R390). -/
def pageStale (s : State) (asid : Asid) (vpn : Nat) : Bool :=
  let w := leafWord s asid vpn
  decide (sel w 63 1 = 1) && epochStale s asid w

/-- The stack whose snapshot unit copies a page: that of its BASEV vault (R390). -/
def pageStack (w : Word) : Fin 4 := ⟨sel w 13 2 % 4, Nat.mod_lt _ (by decide)⟩

/-- Whether a stack has a free shingle: 16 in SRAM and those of its overflow pool, less those that are full or being filled (R391). -/
def shingleFree (s : State) (k : Fin 4) : Bool :=
  decide ((s.resil.shingles.filter (fun (x : Shingle) => decide (x.stack = k))).length
    + (s.resil.copying.filter (fun (c : PageCopy) => decide (c.stack = k))).length < 16 + s.resil.pools[k])

/-- Whether a snapshot unit's copy table has a free entry of its 64 (R390). -/
def copyFree (s : State) (k : Fin 4) : Bool := decide ((s.resil.copying.filter (fun (c : PageCopy) => decide (c.stack = k))).length < 64)

/-- Replaces the entry at a place of the copy tables, or takes it out. -/
def setCopying (i : Nat) (c : Option PageCopy) (s : State) : State :=
  { s with resil := { s.resil with copying := s.resil.copying.take i ++ c.toList ++ s.resil.copying.drop (i + 1) } }

/-- A page has been read whole: it takes the epoch, and its shingle is full; one with a column that could not be read fails the snapshot (R390 to R392). -/
def endCopy (i : Nat) (c : PageCopy) (x : Snapshot) (s : State) : State :=
  let shingle : Shingle := ⟨c.stack, c.asid, c.vpn, x.step, x.tick, epochOf s c.asid, c.bytes, none⟩
  let s := setEpoch c.asid c.vpn.toNat (setCopying i none s)
  if c.good then
    let s := updateSnapshot c.asid (fun x => { x with copied := x.copied + 1 }) s
    { s with resil := { s.resil with shingles := s.resil.shingles ++ [shingle] } }
  else updateSnapshot c.asid (fun x => { x with failed := if x.failed = 0 then 2 else x.failed }) s

/-- A page in a copy table: its next column is read (R390), none while its bank is at work (R257) or its port closed (R334). -/
def copyColumn (i : Nat) (c : PageCopy) (x : Snapshot) (s : State) : Option State :=
  if 16384 ≤ c.col then (if (leafHeld c.asid c.vpn.toNat s).isSome then none else some (endCopy i c x s))
  else
    let p := place (leafWord s c.asid c.vpn.toNat) (16 * c.col)
    if vaultGated s p.vault then none
    else (openColumn p s).map (fun s =>
      let r := beatRead p.addr s
      setCopying i (some { c with
        col := c.col + 1, good := c.good && decide (r.1 = 0), bytes := writeList c.bytes (16 * c.col) (readList r.2.vault.mem p.addr 16) }) r.2)

/-- PAGE_COPY (R390, R392): a page that still carries an older epoch enters its stack's copy table, or, where it stands there, its next column is read. A
page with MIG set waits for the switch, one behind a closed port for its quad (R334), and one whose stack has no free entry or shingle for one (R391).
Log entry 41 (DESIGN CHOICE). -/
def tryPageCopy (asid : Asid) (vpn : Nat) (s : State) : Option State :=
  match snapshotOf s asid with
  | none => none
  | some x =>
    match s.resil.copying.findIdx? (fun (c : PageCopy) => decide (c.asid = asid) && decide (c.vpn.toNat = vpn)) with
    | some i => (s.resil.copying[i]?).bind (fun c => copyColumn i c x s)
    | none =>
      let w := leafWord s asid vpn
      let k := pageStack w
      if !x.cut || !pageStale s asid vpn || decide (sel w 60 1 = 1) || (leafHeld asid vpn s).isSome || !shingleFree s k || !copyFree s k then none
      else some { s with resil := { s.resil with copying := s.resil.copying ++ [⟨k, asid, BitVec.ofNat 30 vpn, 0, [], true⟩] } }
/-- PAGE_COPY (R390). -/
def execPageCopy (asid : Asid) (vpn : Vpn) (s : State) : Res := orStay (tryPageCopy asid vpn.toNat s) s

/-- The endpoint of a page (R391). Log entry 41 (DESIGN CHOICE). -/
def endpointOf (x : Snapshot) (vpn : Nat) : BitVec 17 := x.endpoints.getD (vpn % max 1 x.endpoints.length) 0

/-- SHINGLE_DRAIN (R391): the oldest full shingle that has not been sent goes to its page's endpoint. -/
def tryShingleDrain (s : State) : Option State :=
  match s.resil.shingles.findIdx? (fun (x : Shingle) => x.sent.isNone) with
  | none => none
  | some i =>
    let to_ (x : Shingle) : BitVec 17 := ((snapshotOf s x.asid).map (fun y => endpointOf y x.vpn.toNat)).getD 0
    some { s with resil := { s.resil with shingles := s.resil.shingles.modify i (fun x => { x with sent := some (to_ x) }) } }
/-- SHINGLE_DRAIN (R391). -/
def execShingleDrain (s : State) : Res := orStay (tryShingleDrain s) s

/-- SHINGLE_ACK (R391, R392): an endpoint acknowledges a shingle, which is free, or refuses it, which fails the snapshot. -/
def tryShingleAck (i : Nat) (accepted : Bool) (s : State) : Option State :=
  match s.resil.shingles[i]? with
  | none => none
  | some x =>
    match x.sent with
    | none => none
    | some e =>
      let s := { s with resil := { s.resil with shingles := s.resil.shingles.eraseIdx i } }
      if accepted then some s
      else some (updateSnapshot x.asid (fun y => if y.failed = 0 then { y with failed := 1, refuser := e } else y) s)
/-- SHINGLE_ACK (R391). Log entry 41 (DESIGN CHOICE). -/
def execShingleAck (i : Nat) (accepted : Bool) (s : State) : Res := orStay (tryShingleAck i accepted s) s

/-- The pages of an address space that wait for their copies, in VA order. -/
def stalePages (s : State) (asid : Asid) : List Nat := (mappedPages s asid).filter (fun vpn => pageStale s asid vpn)

/-- The page that a drain engine of this stack reaches next: the first stale one whose vault lies in the stack (R391). -/
def nextDrain (s : State) (asid : Asid) : Option Nat :=
  (stalePages s asid).find? (fun vpn => decide ((place (leafWord s asid vpn) 0).vault / 2 ^ 13 = s.ownStack))

/-- DRAIN_WALK (R391). -/
def tryDrainWalk (asid : Asid) (vpn : Nat) (s : State) : Option State :=
  if nextDrain s asid = some vpn then tryPageCopy asid vpn s else none
/-- DRAIN_WALK (R391). -/
def execDrainWalk (asid : Asid) (vpn : Vpn) (s : State) : Res := orStay (tryDrainWalk asid vpn.toNat s) s

/-- The parity of the epoch that the T of a snapshot closes, or has closed. -/
def closedParity (s : State) (x : Snapshot) : Bool := decide ((if x.cut then epochOf s x.asid - 1 else epochOf s x.asid).toNat % 2 = 1)

/-- Whether the touched set of a snapshot holds a quad (R395). -/
def touchedBy (s : State) (x : Snapshot) (q : BitVec 11) : Bool := s.resil.touched.any (fun e => decide (e.1 = x.asid ∧ e.2.1 = closedParity s x ∧ e.2.2 = q))

/-- Whether every quad of the touched set of the epoch that T closed has passed a scan that began after T (R392, R395). -/
def touchedPassed (s : State) (x : Snapshot) : Bool :=
  s.resil.touched.all (fun e => !decide (e.1 = x.asid ∧ e.2.1 = closedParity s x) || decide (x.tick.toNat < (passTickOf s e.2.2.toNat).toNat))

/-- Whether a snapshot is sealed (R392). -/
def sealable (s : State) (x : Snapshot) : Bool :=
  x.cut && s.resil.shingles.all (fun (y : Shingle) => decide (y.asid ≠ x.asid)) && (stalePages s x.asid).isEmpty && touchedPassed s x

/-- The result of a snapshot in the response region (R388). -/
def snapResult (x : Snapshot) : List Word :=
  [BitVec.ofNat 64 (x.step.toNat * 2 ^ 32 + x.asid.toNat * 2 ^ 16 + x.failed.toNat * 2 ^ 8 + (if x.failed = 0 then 0 else 1)), x.tick,
    BitVec.ofNat 64 x.copied, x.refuser.setWidth 64, BitVec.ofNat 64 (2 ^ 63)]

/-- A snapshot ends: its result is written and vector 0 raised, its shingles are free, and every page carries the epoch; the manifest of a sealed one goes to
endpoint 0 (R387, R388, R389, R392). Log entry 41 (DESIGN CHOICE). -/
def endSnapshot (x : Snapshot) (s : State) : State :=
  let s := if x.failed = 0 then s else (stalePages s x.asid).foldl (fun s vpn => setEpoch x.asid vpn s) s
  raiseVector 0 (setMailbox x.mail (fun (m : Mailbox) => { m with response := snapResult x }) { s with
    resil := { s.resil with
      snapshots := s.resil.snapshots.filter (fun (y : Snapshot) => decide (y.asid ≠ x.asid))
      copying := s.resil.copying.filter (fun (c : PageCopy) => decide (c.asid ≠ x.asid))
      manifests := s.resil.manifests ++ (if x.failed = 0 then [⟨x.endpoints.getD 0 0, x.asid, x.step, x.tick, x.copied⟩] else [])
      shingles := s.resil.shingles.filter (fun (y : Shingle) => decide (y.asid ≠ x.asid)) } })

/-- SNAPSHOT_SEAL (R388, R392): the result is written once no other command of the mailbox is open. -/
def trySnapshotSeal (asid : Asid) (s : State) : Option State :=
  match snapshotOf s asid with
  | none => none
  | some x => if !mailOpenAt x.mail s && (decide (x.failed ≠ 0) || sealable s x) then some (endSnapshot x s) else none
/-- SNAPSHOT_SEAL (R392). -/
def execSnapshotSeal (asid : Asid) (s : State) : Res := orStay (trySnapshotSeal asid s) s

/-! ## Scan rotation (R393 to R396) -/

/-- Whether a quad is quiet: no task, tile operation, copy command or multiplier operation (R393). Of the own quad this core's state shows its own, and the
quad-mates' pairs; what else is at work elsewhere is what the schedule says. Log entry 42 (DESIGN CHOICE). -/
def quadQuiet (s : State) (q : BitVec 11) : Bool :=
  decide (q ∉ s.resil.busyQuads)
    && (decide (q.toNat ≠ s.ownQuad)
      || ((List.finRange 4).all (fun r => decide (s.res[r].task = none) && !chainBusy s r)
        && !s.core.engQ.any EngOp.isTile && s.core.remote.isEmpty && s.core.vecRun.isNone && !quadWorks s))

/-- The quad that the service channel visits from a number on: the logical quads in turn, without those that are retired and unmapped (R393, R397). -/
def serviceFrom (s : State) (n : Nat) : Option Nat :=
  ((List.range 1600).map (fun i => (n + i) % 1600)).find? (fun q => !decide (BitVec.ofNat 11 q ∈ s.resil.failedQuads))

/-- The quad that the service channel visits next. -/
def serviceDue (s : State) : Option Nat := serviceFrom s s.resil.serviceNext.toNat

/-- The quad that the spare channel visits next: the spares in physical order (R393). -/
def spareDue (s : State) : Option Nat :=
  ((List.range 40).map (fun i => 1600 + (s.resil.spareNext.toNat + i) % 40)).find? (fun q =>
    decide (logicalOf s q = none) && !decide (BitVec.ofNat 11 q ∈ s.resil.failedQuads))

/-- Whether a quad is the next of its channel, and the channel scans none (R393). -/
def visitDue (s : State) (q : BitVec 11) : Bool :=
  let spare := decide (1600 ≤ q.toNat)
  decide ((if spare then spareDue s else serviceDue s) = some q.toNat) && !s.resil.scanning.any (fun e => decide (1600 ≤ e.1.toNat) == spare)

/-- The scan of a quad begins, and the next visit of its channel is that of the quad after it. -/
def beginScan (q : BitVec 11) (s : State) : State :=
  let next := BitVec.ofNat 11 (q.toNat + 1)
  { s with resil := { s.resil with
      scanning := s.resil.scanning ++ [(q, s.mgr.tick)]
      serviceNext := if q.toNat < 1600 then next else s.resil.serviceNext
      spareNext := if q.toNat < 1600 then s.resil.spareNext else next } }

/-- SCAN_VISIT (R393): the drain of a quad begins with the visit of the one visited before it; the scan itself begins once the quad is quiet, and the later
visits of the channel wait for it. Quad numbers from 1,600 on are the spares of the other channel. Log entry 42 (DESIGN CHOICE). -/
def execScanVisit (q : BitVec 11) (s : State) : Res :=
  if !isQuad q.toNat || !visitDue s q then .next s else
  let own := decide (q.toNat = s.ownQuad)
  let hold := own || decide (q.toNat < 1600 ∧ serviceFrom s (q.toNat + 1) = some s.ownQuad)
  let s := if hold then { s with quad := { s.quad with scanHold := true } } else s
  if !quadQuiet s q then .next s else .next (beginScan q s)

/-- The scan of the own quad begins when its visit has come and it has become quiet. -/
def tryScanBegin (s : State) : Option State :=
  let q := BitVec.ofNat 11 s.ownQuad
  if s.quad.scanHold && quadQuiet s q && !s.inScan && visitDue s q then some (beginScan q s) else none

/-- The residencies of the own quad lose their contexts and their batches that are not yet shippable, and their bindings are reported (R396). -/
def retireResidency (r : ResIx) (s : State) : State :=
  if s.res[r].state = .free then s
  else
    let j := s.res[r].journal
    notify 11 (j.jid.setWidth 64) (setJournal r (j.discard (shippableCount s j)) (killByManager r s))

/-- A quad that fails its scan is retired (R396). -/
def retireQuad (q : BitVec 11) (s : State) : State :=
  let hit := (s.resil.touched.filter (fun e => decide (e.2.2 = q))).map Prod.fst
  let s := if q.toNat = s.ownQuad then (List.finRange 4).foldl (fun s r => retireResidency r s) s else s
  let inQuad (c : BitVec 32) : Bool := decide (c.toNat / 4 = (s.core.pkg.toNat * 2 ^ 15 + s.ownStack * 2 ^ 13) / 4 + q.toNat)
  let s := { s with
    resil := { s.resil with
      failedQuads := s.resil.failedQuads ++ [q]
      snapshots := s.resil.snapshots.map (fun (x : Snapshot) => if touchedBy s x q && decide (x.failed = 0) then { x with failed := 3 } else x) }
    quad := if q.toNat = s.ownQuad then { s.quad with mates := s.quad.mates.map (fun (m : Mate) =>
      { m with residencies := m.residencies.map (fun (y : MateRes) => { y with killed := true }) }) } else s.quad
    mgr := { s.mgr with gangs := s.mgr.gangs.map (fun (g : Gang) => if g.members.any inQuad then { g with anyKilled := true } else g) } }
  hit.dedup.foldl (fun s a => notify 8 (a.setWidth 64) s) s

/-- SCAN_END (R395, R396): dispatch resumes; a pass takes effect with the tick at which the scan began, a failure retires the quad. -/
def tryScanEnd (q : BitVec 11) (pass : Bool) (s : State) : Option State :=
  match s.resil.scanning.find? (fun e => decide (e.1 = q)) with
  | none => none
  | some (_, t) =>
    let s := { s with resil := { s.resil with scanning := s.resil.scanning.filter (fun e => decide (e.1 ≠ q)) } }
    let s := if q.toNat = s.ownQuad then { s with quad := { s.quad with scanHold := false } } else s
    some (if pass then { s with resil := { s.resil with passTick := Table.put 0 s.resil.passTick q.toNat t } } else retireQuad q s)
/-- SCAN_END (R395). -/
def execScanEnd (q : BitVec 11) (pass : Bool) (s : State) : Res := orStay (tryScanEnd q pass s) s

/-! ## Spares (R397, R411) -/

/-- Whether a retired logical quad may move to a spare: a physical quad from 1,600 on that serves none and has passed its last scan (R397). -/
def spareFits (q : BitVec 11) (spare : Nat) (s : State) : Bool :=
  decide (q.toNat < 1600) && decide (1600 ≤ spare) && isQuad spare && decide (q ∈ s.resil.failedQuads) && decide (passTickOf s spare ≠ 0)
    && decide (BitVec.ofNat 11 spare ∉ s.resil.failedQuads) && decide (logicalOf s spare = none)
    && s.resil.remapping.all (fun e => decide (e.1 ≠ q ↔ e.2 ≠ spare))

/-- The copy of a retired quad's vaults has ended: its logical number and images move to the spare, the traffic that was held passes (R397, R411), and a
physical quad from 1,600 on that is given up counts as failed. -/
def finishRemap (q : BitVec 11) (spare : Nat) (s : State) : State :=
  let old := physQuad s q.toNat
  let s := clearBlock (2 ^ 13 + spare) (parkQuad q.toNat s)
  let s := { s with
    mgr := { s.mgr with quadMap := Table.put 0 s.mgr.quadMap q.toNat (spare + 1) }
    resil := { s.resil with
      remapping := s.resil.remapping.filter (fun e => decide (e.1 ≠ q))
      failedQuads := s.resil.failedQuads.filter (fun e => decide (e ≠ q)) ++ (if 1600 ≤ old then [BitVec.ofNat 11 old] else [])
      passTick := Table.put 0 s.resil.passTick q.toNat (passTickOf s spare) } }
  if q.toNat = s.ownQuad then (let s := freshQuad s; { s with quad := { s.quad with reload := true } }) else s

/-- SPARE_REMAP (R397, R411): the spare is woken through the arbiter (R336); then the traffic for the retired quad's vaults is held while they are copied;
then the logical number moves. Log entry 42 (DESIGN CHOICE). -/
def trySpareRemap (q : BitVec 11) (spare : Nat) (s : State) : Option State :=
  if !spareFits q spare s then none
  else if (qpwr s spare).state ≠ .on then tryWake spare s
  else if (q, spare) ∈ s.resil.remapping then some (finishRemap q spare s)
  else some { s with resil := { s.resil with remapping := s.resil.remapping ++ [(q, spare)] } }
/-- SPARE_REMAP (R397). -/
def execSpareRemap (q : BitVec 11) (spare : Nat) (s : State) : Res := orStay (trySpareRemap q spare s) s

/-- Whether an address space has a page in a vault. -/
def pagesIn (s : State) (asid : Asid) (vault : Nat) : Bool :=
  (mappedPages s asid).any (fun vpn =>
    let w := leafWord s asid vpn
    (List.range (2 ^ sel w 44 3)).any (fun i => decide (pwVault w i = vault)))

/-- CONTROLLER_FAILURE (R397): a controller of a retired quad fails during the copy; the vault is lost, and the contexts whose pages lie in it
are killed. Log entry 42 (DESIGN CHOICE). -/
def tryControllerFailure (vault : BitVec 15) (s : State) : Option State :=
  let q := BitVec.ofNat 11 (vault.toNat / 4)
  if vault.toNat / 2 ^ 13 = s.ownStack ∧ q ∈ s.resil.failedQuads ∧ vault ∉ s.resil.lostVaults then
    let hit := (List.finRange 4).filter (fun r => decide (s.res[r].state ≠ .free) && pagesIn s s.res[r].asid vault.toNat)
    let s := hit.foldl (fun s r => killByManager r s) s
    some (notify 7 (vault.setWidth 64) { s with resil := { s.resil with lostVaults := s.resil.lostVaults ++ [vault] } })
  else none
/-- CONTROLLER_FAILURE (R397). -/
def execControllerFailure (vault : BitVec 15) (s : State) : Res := orStay (tryControllerFailure vault s) s

end Sys2Proof.Machine
end

