-- ==== Sys2Proof/Machine/LinkSteps.lean ====
section
/-! DEFINITION. Steps of the links (R354 to R361): the UCIe modules, the pod fabric and the time base. -/

namespace Sys2Proof.Machine

/-! ## UCIe modules (R354 to R356) -/

/-- Messages that enter the stack's mesh go on in order: to this core, an agent, another core, or over the next pair (R350). -/
def deliverAll (ms : List Msg) (s : State) : State := ms.foldl (fun s m => route m s) s

/-- The slots that messages take or give back, by network. -/
def Credits.slots (add : Credits → BitVec 2 → Nat → Credits) (c : Credits) (ms : List Msg) : Credits :=
  ms.foldl (fun c m => add c m.vn (msgSlots m)) c

/-- No more slots of a network are free than the receiver has (R352). -/
def Credits.bounded (c : Credits) : Credits := ⟨min 32 c.req, min 32 c.rpy, min 32 c.sys⟩

/-- An accepted flit (R352, R354): its slot header returns credits, and its messages' slots are freed as they enter the mesh. -/
def Module.accept (x : Module) (flit : Flit) : Module :=
  { x with
    expected := x.expected + 1, nakOut := none, ackOut := some (x.expected + 1)
    credit := Credits.bounded ⟨x.credit.req + flit.creq.toNat, x.credit.rpy + flit.crpy.toNat, x.credit.sys + flit.csys.toNat⟩
    owed := Credits.slots Credits.add x.owed flit.msgs }

/-- FLIT_RECEIVE (R354): the receiver's four cases; while a module trains or is dead it carries no flit (R355, R356).
Log entry 39 (DESIGN CHOICE). -/
def execFlitReceive (m : Fin 8) (crcOk : Bool) (num : BitVec 8) (flit : Flit) (s : State) : Res :=
  let x := s.link.modules[m]
  if x.training || x.dead then .next s
  else if !crcOk then .next (setModule m { x with nakOut := some x.expected } s)
  else if num = x.expected then
    .next (deliverAll flit.msgs (setModule m (x.accept flit).pump s))
  else if (x.expected - num).toNat ≤ 64 then .next (setModule m { x with ackOut := some x.expected } s)
  else .next (setModule m { x with nakOut := some x.expected } s)

/-- The flits of a retry buffer from a number on, in order. -/
def flitsFrom (x : Module) (e : BitVec 8) : List (BitVec 8 × Flit) := x.retry.dropWhile (fun f => decide (f.1 ≠ e))

/-- NAK_RECEIVE (R354): every unacknowledged flit from E is sent again, unchanged and in order. -/
def execNakReceive (m : Fin 8) (e : BitVec 8) (s : State) : Res :=
  let x := s.link.modules[m]
  if x.training || x.dead then .next s else .next (setModule m { x with resent := (flitsFrom x e).map Prod.fst } s)

/-- A packet for another package that has crossed to another stack leaves by the first live port there; with none it is sent again in its time (R358,
R360). -/
def leaveFar (f : Nat) (num : BitVec 32) (s : State) : State :=
  match farPort s with
  | none => s
  | some p =>
    let x := flowOf s f
    setFlow f { x with paths := x.paths ++ [(num, p, pickPath (livePaths s p) s.free)] } { s with free := s.free + (livePaths s p).length }

/-- The flow that keeps a message, with its number. -/
def keptIn (m : Msg) (s : State) : Option (Nat × BitVec 32) :=
  s.link.flows.findSome? (fun e => (e.2.kept.find? (fun k => decide (k.2 = m))).map (fun k => (e.1, k.1)))

/-- A message has crossed to another stack (R5, R206, R310, R334, R354): a request reaches its agent there; one for a core that does not exist or whose
port is closed is dropped there, which that stack counts; any other goes on in that stack's mesh. -/
def beyond (m : Msg) (s : State) : State :=
  let core := m.dest.toNat % 2 ^ 15
  let here := decide (m.dest.toNat / 2 ^ 15 = s.core.pkg.toNat)
  if here && toAgent m then
    let (v, s) := routeVault m s
    enqueueJob m (v.getD s.ownVault) s
  else if here && (decide (1600 ≤ core / 4 % 2 ^ 11) || vaultGated s core) then
    landed m (if m.rq = false then s
      else sendReply core (if toPort m && decide (core / 4 % 2 ^ 11 < 1600) then portRefusal m s else deviceReply 0x10 m.rhidx m m.dest) s)
  else match keptIn m s with
    | some (f, num) => leaveFar f num s
    | none => { s with net := { s.net with mesh := s.net.mesh ++ [m] } }

/-- The messages of a retry buffer, in order. -/
def Module.kept (x : Module) : List Msg := x.retry.flatMap (fun f => f.2.msgs)

/-- Messages are beyond the crossing. -/
def allBeyond (l : List (BitVec 8 × Flit)) (s : State) : State := (l.flatMap (fun f => f.2.msgs)).foldl (fun s y => beyond y s) s

/-- The flits before a number leave the retry buffer: their messages are beyond the crossing, if they were not before (R354). -/
def acceptFlits (m : Fin 8) (e : BitVec 8) (s : State) : State :=
  let x := s.link.modules[m]
  let gone := x.retry.takeWhile (fun f => decide (1 ≤ (e - f.1).toNat ∧ (e - f.1).toNat ≤ 64))
  let new := x.fresh gone
  allBeyond new (setModule m { x with retry := x.retry.drop gone.length, far := if new.isEmpty then x.far else e } s)

/-- The far receiver accepts the flit that it expects; it stays in the retry buffer until it is acknowledged (R354). -/
def crossNext (m : Fin 8) (s : State) : State :=
  let x := s.link.modules[m]
  let next := x.retry.filter (fun f => decide (f.1 = x.far))
  if x.training || x.dead || next.isEmpty then s else allBeyond next (setModule m { x with far := x.far + 1 } s)

/-- A module sends what waits. -/
def pumpAt (m : Fin 8) (s : State) : State := setModule m (s.link.modules[m]).pump s

/-- FLIT_ACK (R354): the far receiver expects number e; while a module trains or is dead it carries no flit (R355, R356). -/
def execFlitAck (m : Fin 8) (e : BitVec 8) (s : State) : Res :=
  let x := s.link.modules[m]
  if x.training || x.dead then .next s else .next (pumpAt m (acceptFlits m e s))

/-- Credits for the slots of messages return from the far receiver (R352). -/
def returnSlots (k : Fin 8) (ms : List Msg) (s : State) : State :=
  let x := s.link.modules[k]
  setModule k { x with credit := (Credits.slots Credits.add x.credit ms).bounded } s

/-- The first module with a flit in its retry buffer is acknowledged by a flit that returns its slots; one whose messages wait for slots alone
gets them all. Log entry 37 (DESIGN CHOICE). -/
def tryFlitAck (s : State) : Option State :=
  let works (k : Fin 8) : Bool := !s.link.modules[k].training && !s.link.modules[k].dead
  match (List.finRange 8).find? (fun k => works k && (!s.link.modules[k].retry.isEmpty || !s.link.modules[k].pendingTx.isEmpty)) with
  | none => none
  | some k => match s.link.modules[k].retry.head? with
    | some f => some (pumpAt k (returnSlots k f.2.msgs (acceptFlits k (f.1 + 1) s)))
    | none => some (pumpAt k (setModule k { s.link.modules[k] with credit := ⟨32, 32, 32⟩ } s))

/-- The first reply of a far agent whose module works crosses into this stack (R350, R355). Log entry 37 (DESIGN CHOICE). -/
def tryReturn (s : State) : Option State :=
  let works (k : Fin 8) : Bool :=
    let y := s.link.modules[liveModule s (k.val / 4) (k.val % 4)]
    !y.training && !y.dead
  (List.finRange 8).findSome? (fun k => match s.link.modules[k].inbox with
    | [] => none
    | m :: rest => if works k then some (route m (setModule k { s.link.modules[k] with inbox := rest } s)) else none)

/-- LANE_FAILURE (R355): the module retrains; where repair does not cover the faults it comes back at x32. -/
def execLaneFailure (m : Fin 8) (repaired : Bool) (s : State) : Res :=
  let x := s.link.modules[m]
  if x.dead then .next s else .next (setModule m { x with training := true, narrow := x.narrow || !repaired } s)

/-- RETRAIN_END (R355): every unacknowledged flit is sent again from the oldest, then new flits. -/
def execRetrainEnd (m : Fin 8) (s : State) : Res :=
  let x := s.link.modules[m]
  if x.training then .next (setModule m ({ x with training := false, resent := x.retry.map Prod.fst } : Module).pump s) else .next s

/-- MODULE_RETRAIN (R355, R356): the stack manager commands a retrain, at full width or at x32; a dead module comes back, with every slot of the far
receiver free that its retry buffer does not take. -/
def execModuleRetrain (m : Fin 8) (full : Bool) (s : State) : Res :=
  let x := s.link.modules[m]
  let y := { x with training := true, dead := false, narrow := !full, told := none }
  .next (setModule m (if x.dead then { y with credit := Credits.slots Credits.take ⟨32, 32, 32⟩ x.kept, owed := ⟨0, 0, 0⟩ } else y) s)

/-- The pair of a module. -/
def pairOf (m : Fin 8) : Nat := m.val / 4

/-- Messages of a dead module go to the next live one of its pair, ahead of the messages that wait there; with none left they stay, and the
loss of the crossing is reported (R356). -/
def moveOn (m : Fin 8) (ms : List Msg) (s : State) : State :=
  let k := liveModule s (pairOf m) (m.val % 4 + 1)
  let y := s.link.modules[k]
  if y.dead ∧ y.retry = [] then notify 13 (BitVec.ofNat 64 (pairOf m)) (setModule m { s.link.modules[m] with pendingTx := ms } s)
  else setModule k (Module.pump { y with pendingTx := ms ++ y.pendingTx }) s

/-- MODULE_DEAD (R356): the module carries nothing more, and its receiver reports its own E over the sideband; once the far side's E is known, the flits from
E on and what waited move to the next module. -/
def execModuleDead (m : Fin 8) (e : Option (BitVec 8)) (s : State) : Res :=
  let x := s.link.modules[m]
  match e with
  | none =>
    let y := { x with dead := true, training := false, told := some x.expected }
    if x.retry.isEmpty then .next (moveOn m x.pendingTx (setModule m { y with pendingTx := [] } s)) else .next (setModule m y s)
  | some e =>
    let s := acceptFlits m e s
    let x := s.link.modules[m]
    let ms := x.kept ++ x.pendingTx
    .next (moveOn m ms (setModule m { x with dead := true, training := false, told := some x.expected, retry := [], pendingTx := [], far := x.next } s))

/-- A context that is switched out is killed by the stack manager (R308, R356): it is not restored, its sinks are free, its gang ends KILLED, and the
report names no stream. Log entry 25 (DEDUCED). -/
def killAway (a : Away) (s : State) : State :=
  let d0 := (a.gen.toNat * 2 ^ 12 + a.asid.toNat) * 2 ^ 48 + a.gang.toNat * 2 ^ 32 + s.core.id.toNat * 2 ^ 16 + 3
  let s := { s with
    net := { s.net with switchedOut := s.net.switchedOut.filter (fun (y : Away) => !decide (y.asid = a.asid ∧ y.gen = a.gen)) }
    mgr := { s.mgr with killQueue := s.mgr.killQueue ++ [BitVec.ofNat 1024 d0] } }
  leaveGang a.gang s.address true s

/-- SIDEBAND_TIMEOUT (R356): the messages in the retry buffer are discarded, and every context that sent one is killed; messages of those contexts that wait
for the module are discarded with them (R374). -/
def trySidebandTimeout (m : Fin 8) (s : State) : Option State :=
  let x := s.link.modules[m]
  if !x.dead || x.retry.isEmpty then none
  else
    let hit := (List.finRange 4).filter (fun r => x.kept.any (fun y => decide (senderOf s y = some r)))
    let away := s.net.switchedOut.filter (fun (a : Away) => x.kept.any (fun y => decide (y.src = s.address ∧ y.asid = a.asid ∧ y.gen = a.gen)))
    let doomed (y : Msg) : Bool := x.kept.any (fun z => decide (z.src = y.src ∧ z.asid = y.asid ∧ z.gen = y.gen))
    let lost := (x.fresh x.retry).flatMap (fun f => f.2.msgs) ++ x.pendingTx.filter doomed
    let s1 := moveOn m (x.pendingTx.filter (fun y => !doomed y)) (setModule m { x with retry := [], pendingTx := [], far := x.next } s)
    let s1 := (lost.filter (fun y => (keptIn y s).isNone)).foldl (fun s y => landed y s) s1
    let s1 := away.foldl (fun s a => killAway a s) (hit.foldl (fun s r => killByManager r s) s1)
    some (notify 6 (BitVec.ofNat 64 lost.length) s1)
/-- SIDEBAND_TIMEOUT (R356). Log entry 25 (DEDUCED). -/
def execSidebandTimeout (m : Fin 8) (s : State) : Res := orStay (trySidebandTimeout m s) s

/-! ## The pod fabric (R358 to R360) -/

/-- The held packets of a flow that follow are delivered in order; the number bounds them (R359). -/
def drainFlow (f : Nat) (s : State) : Nat → State
  | 0 => s
  | n + 1 =>
    let x := flowOf s f
    match x.held.find? (fun e => decide (e.1 = x.next)) with
    | none => s
    | some e => drainFlow f (route e.2 (setFlow f { x with next := x.next + 1, held := x.held.filter (fun y => decide (y.1 ≠ e.1)) } s)) n

/-- The packets that the stack's reorder buffer holds. -/
def heldPackets (s : State) : Nat := (s.link.flows.map (fun e => e.2.held.length)).sum

/-- FABRIC_PACKET (R359). Log entry 39 (DESIGN CHOICE). -/
def execFabricPacket (flow : Nat) (num : BitVec 32) (msg : Msg) (s : State) : Res :=
  let x := flowOf s flow
  let d := (num - x.next).toNat
  if d = 0 then
    let s := route msg (setFlow flow { x with next := x.next + 1 } s)
    let s := drainFlow flow s x.held.length
    .next (setFlow flow { flowOf s flow with ackOut := some (flowOf s flow).next } s)
  else if d ≤ 1023 then
    if x.held.any (fun e => decide (e.1 = num)) || decide (16384 ≤ heldPackets s) then .next s
    else .next (setFlow flow { x with held := x.held ++ [(num, msg)] } s)
  else if 2 ^ 31 ≤ d then .next (setFlow flow { x with ackOut := some x.next } s)
  else .next (setFlow flow { x with nakOut := some x.next } s)

/-- The packets of a flow before a number are kept no longer: their messages are on their way in the other package (R359). -/
def arrivedPackets (flow : Nat) (num : BitVec 32) (s : State) : State :=
  let x := flowOf s flow
  let stays (e : BitVec 32 × Msg) : Bool := decide ((e.1 - num).toNat < 2 ^ 31)
  let gone := x.kept.filter (fun e => !stays e)
  setFlow flow { x with kept := x.kept.filter stays } { s with net := { s.net with mesh := s.net.mesh ++ gone.map Prod.snd } }

/-- FABRIC_ACK (R359): the receiver expects number num. -/
def execFabricAck (flow : Nat) (num : BitVec 32) (s : State) : Res := .next (arrivedPackets flow num s)

/-- The oldest packet of a flow is acknowledged. Log entry 37 (DESIGN CHOICE). -/
def tryFabricAck (s : State) : Option State :=
  s.link.flows.findSome? (fun e => match e.2.kept with
    | [] => none
    | p :: _ => some (arrivedPackets e.1 (p.1 + 1) s))

/-- GAP_TIMEOUT (R359): a gap stays open, and a NAK names the number expected. -/
def execGapTimeout (flow : Nat) (s : State) : Res :=
  let x := flowOf s flow
  if x.held.isEmpty then .next s else .next (setFlow flow { x with nakOut := some x.next } s)

/-- A kept packet is sent again by a path chosen afresh (R359). -/
def resendPacket (flow : Nat) (num : BitVec 32) (s : State) : Option State :=
  ((flowOf s flow).kept.find? (fun e => decide (e.1 = num))).map (fun e => sendPacket flow num e.2 s)

/-- FABRIC_NAK (R359). Log entry 39 (DESIGN CHOICE). -/
def execFabricNak (flow : Nat) (num : BitVec 32) (s : State) : Res := orStay (resendPacket flow num s) s
/-- RESEND_TIMEOUT (R359): 43,200 cycles without an acknowledgement. -/
def execResendTimeout (flow : Nat) (num : BitVec 32) (s : State) : Res := orStay (resendPacket flow num s) s

/-- The fabric reports one of its links dead, or trained again: paths through a dead one leave the adaptive tables (R360). -/
def fabricLink (link : Nat) (dead : Bool) (s : State) : State :=
  let others := s.link.fabricDead.filter (fun k => decide (k ≠ link))
  { s with link := { s.link with fabricDead := if dead then link :: others else others } }

/-- LINK_DEAD (R360): the port leaves the adaptive tables. -/
def execLinkDead (port : Fin 8) (s : State) : Res := .next { s with link := { s.link with portDead := vset s.link.portDead port true } }
/-- LINK_RETURN (R360): a trained port returns to them. -/
def execLinkReturn (port : Fin 8) (s : State) : Res := .next { s with link := { s.link with portDead := vset s.link.portDead port false } }

/-! ## The time base (R361) -/

/-- TIMING_PACKET (R361): the master's time arrives, with whether the fraction of a tick is known to the package. TICK, which never decreases, is corrected
by at most 1 in each 1,000 ticks; a package whose error then exceeds 2 ns reports itself unsynchronised. Log entry 2 (DESIGN CHOICE). -/
def execTimingPacket (tick : Word) (synced : Bool) (s : State) : Res :=
  let ahead := s.mgr.tick.toNat < tick.toNat && decide (s.mgr.corrected.toNat + 1000 ≤ s.mgr.tick.toNat)
  let s1 := if ahead then { s with mgr := { s.mgr with tick := s.mgr.tick + 1, corrected := s.mgr.tick } } else s
  let near := synced && decide (s1.mgr.tick.toNat ≤ tick.toNat + 2) && decide (tick.toNat ≤ s1.mgr.tick.toNat + 2)
  let s2 := if s1.mgr.synced && !near then notify 12 0 s1 else s1
  .next { s2 with mgr := { s2.mgr with synced := near } }

end Sys2Proof.Machine
end

