-- ==== Sys2Proof/Machine/Dispatch.lean ====
section
/-! DEFINITION. The dispatcher: one arm per instruction or device step of the opcode table, each one direct call of its
meaning. -/

namespace Sys2Proof.Machine

/-- What an instruction of the current slot, or a device step, does to the machine. -/
def exec (i : Instr) (s : State) : Host.Outcome State Fault Refusal :=
  match i with
  | .add a b c => Sys2Proof.Machine.execAdd a b c s
  | .sub a b c => Sys2Proof.Machine.execSub a b c s
  | .and a b c => Sys2Proof.Machine.execAnd a b c s
  | .or a b c => Sys2Proof.Machine.execOr a b c s
  | .xor a b c => Sys2Proof.Machine.execXor a b c s
  | .sll a b c => Sys2Proof.Machine.execSll a b c s
  | .srl a b c => Sys2Proof.Machine.execSrl a b c s
  | .sra a b c => Sys2Proof.Machine.execSra a b c s
  | .slt a b c => Sys2Proof.Machine.execSlt a b c s
  | .sltz a b c => Sys2Proof.Machine.execSltz a b c s
  | .min a b c => Sys2Proof.Machine.execMin a b c s
  | .max a b c => Sys2Proof.Machine.execMax a b c s
  | .minz a b c => Sys2Proof.Machine.execMinz a b c s
  | .maxz a b c => Sys2Proof.Machine.execMaxz a b c s
  | .addw a b c => Sys2Proof.Machine.execAddw a b c s
  | .subw a b c => Sys2Proof.Machine.execSubw a b c s
  | .sllw a b c => Sys2Proof.Machine.execSllw a b c s
  | .srlw a b c => Sys2Proof.Machine.execSrlw a b c s
  | .sraw a b c => Sys2Proof.Machine.execSraw a b c s
  | .clz a b => Sys2Proof.Machine.execClz a b s
  | .ctz a b => Sys2Proof.Machine.execCtz a b s
  | .cnt a b => Sys2Proof.Machine.execCnt a b s
  | .andn a b c => Sys2Proof.Machine.execAndn a b c s
  | .orn a b c => Sys2Proof.Machine.execOrn a b c s
  | .mul a b c => Sys2Proof.Machine.execMul a b c s
  | .mulh a b c => Sys2Proof.Machine.execMulh a b c s
  | .mulhz a b c => Sys2Proof.Machine.execMulhz a b c s
  | .mulw a b c => Sys2Proof.Machine.execMulw a b c s
  | .div a b c => Sys2Proof.Machine.execDiv a b c s
  | .divz a b c => Sys2Proof.Machine.execDivz a b c s
  | .rem a b c => Sys2Proof.Machine.execRem a b c s
  | .remz a b c => Sys2Proof.Machine.execRemz a b c s
  | .divw a b c => Sys2Proof.Machine.execDivw a b c s
  | .divzw a b c => Sys2Proof.Machine.execDivzw a b c s
  | .remw a b c => Sys2Proof.Machine.execRemw a b c s
  | .remzw a b c => Sys2Proof.Machine.execRemzw a b c s
  | .addi a b k => Sys2Proof.Machine.execAddi a b k s
  | .addiw a b k => Sys2Proof.Machine.execAddiw a b k s
  | .andi a b k => Sys2Proof.Machine.execAndi a b k s
  | .ori a b k => Sys2Proof.Machine.execOri a b k s
  | .xori a b k => Sys2Proof.Machine.execXori a b k s
  | .slti a b k => Sys2Proof.Machine.execSlti a b k s
  | .sltiz a b k => Sys2Proof.Machine.execSltiz a b k s
  | .slli a n b => Sys2Proof.Machine.execSlli a n b s
  | .srli a n b => Sys2Proof.Machine.execSrli a n b s
  | .srai a n b => Sys2Proof.Machine.execSrai a n b s
  | .slliw a n b => Sys2Proof.Machine.execSlliw a n b s
  | .srliw a n b => Sys2Proof.Machine.execSrliw a n b s
  | .sraiw a n b => Sys2Proof.Machine.execSraiw a n b s
  | .lui a k => Sys2Proof.Machine.execLui a k s
  | .auipc a k => Sys2Proof.Machine.execAuipc a k s
  | .beq a b o => Sys2Proof.Machine.execBeq a b o s
  | .bne a b o => Sys2Proof.Machine.execBne a b o s
  | .blt a b o => Sys2Proof.Machine.execBlt a b o s
  | .bge a b o => Sys2Proof.Machine.execBge a b o s
  | .blo a b o => Sys2Proof.Machine.execBlo a b o s
  | .bhs a b o => Sys2Proof.Machine.execBhs a b o s
  | .jal a o => Sys2Proof.Machine.execJal a o s
  | .jalr a b k => Sys2Proof.Machine.execJalr a b k s
  | .loop a L => Sys2Proof.Machine.execLoop a L s
  | .loopImm n L => Sys2Proof.Machine.execLoopImm n L s
  | .lit a o => Sys2Proof.Machine.execLit a o s
  | .lb a b o => Sys2Proof.Machine.execLb a b o s
  | .lh a b o => Sys2Proof.Machine.execLh a b o s
  | .lw a b o => Sys2Proof.Machine.execLw a b o s
  | .ld a b o => Sys2Proof.Machine.execLd a b o s
  | .lbz a b o => Sys2Proof.Machine.execLbz a b o s
  | .lhz a b o => Sys2Proof.Machine.execLhz a b o s
  | .lwz a b o => Sys2Proof.Machine.execLwz a b o s
  | .sb a b o => Sys2Proof.Machine.execSb a b o s
  | .sh a b o => Sys2Proof.Machine.execSh a b o s
  | .sw a b o => Sys2Proof.Machine.execSw a b o s
  | .sd a b o => Sys2Proof.Machine.execSd a b o s
  | .lqw a b c => Sys2Proof.Machine.execLqw a b c s
  | .lqd a b c => Sys2Proof.Machine.execLqd a b c s
  | .sqw a b c => Sys2Proof.Machine.execSqw a b c s
  | .sqd a b c => Sys2Proof.Machine.execSqd a b c s
  | .amoadd a b c => Sys2Proof.Machine.execAmoadd a b c s
  | .amoaddw a b c => Sys2Proof.Machine.execAmoaddw a b c s
  | .amoswap a b c => Sys2Proof.Machine.execAmoswap a b c s
  | .amoswapw a b c => Sys2Proof.Machine.execAmoswapw a b c s
  | .amocas a b c => Sys2Proof.Machine.execAmocas a b c s
  | .amocasw a b c => Sys2Proof.Machine.execAmocasw a b c s
  | .amoand a b c => Sys2Proof.Machine.execAmoand a b c s
  | .amoandw a b c => Sys2Proof.Machine.execAmoandw a b c s
  | .amoor a b c => Sys2Proof.Machine.execAmoor a b c s
  | .amoorw a b c => Sys2Proof.Machine.execAmoorw a b c s
  | .amoxor a b c => Sys2Proof.Machine.execAmoxor a b c s
  | .amoxorw a b c => Sys2Proof.Machine.execAmoxorw a b c s
  | .amomin a b c => Sys2Proof.Machine.execAmomin a b c s
  | .amominw a b c => Sys2Proof.Machine.execAmominw a b c s
  | .amomax a b c => Sys2Proof.Machine.execAmomax a b c s
  | .amomaxw a b c => Sys2Proof.Machine.execAmomaxw a b c s
  | .amominz a b c => Sys2Proof.Machine.execAmominz a b c s
  | .amominzw a b c => Sys2Proof.Machine.execAmominzw a b c s
  | .amomaxz a b c => Sys2Proof.Machine.execAmomaxz a b c s
  | .amomaxzw a b c => Sys2Proof.Machine.execAmomaxzw a b c s
  | .vld a b c t m => Sys2Proof.Machine.execVld a b c t m s
  | .vlds a b c t m => Sys2Proof.Machine.execVlds a b c t m s
  | .vldx a b c t m => Sys2Proof.Machine.execVldx a b c t m s
  | .vst a b c t m => Sys2Proof.Machine.execVst a b c t m s
  | .vsts a b c t m => Sys2Proof.Machine.execVsts a b c t m s
  | .vstx a b c t m => Sys2Proof.Machine.execVstx a b c t m s
  | .vadd a b c w m => Sys2Proof.Machine.execVadd a b c w m s
  | .vsub a b c w m => Sys2Proof.Machine.execVsub a b c w m s
  | .vmul a b c w m => Sys2Proof.Machine.execVmul a b c w m s
  | .vmulh a b c w m => Sys2Proof.Machine.execVmulh a b c w m s
  | .vand a b c w m => Sys2Proof.Machine.execVand a b c w m s
  | .vor a b c w m => Sys2Proof.Machine.execVor a b c w m s
  | .vxor a b c w m => Sys2Proof.Machine.execVxor a b c w m s
  | .vsll a b c w m => Sys2Proof.Machine.execVsll a b c w m s
  | .vsrl a b c w m => Sys2Proof.Machine.execVsrl a b c w m s
  | .vsra a b c w m => Sys2Proof.Machine.execVsra a b c w m s
  | .vmin a b c w m => Sys2Proof.Machine.execVmin a b c w m s
  | .vmax a b c w m => Sys2Proof.Machine.execVmax a b c w m s
  | .vminz a b c w m => Sys2Proof.Machine.execVminz a b c w m s
  | .vmaxz a b c w m => Sys2Proof.Machine.execVmaxz a b c w m s
  | .vabs a b w m => Sys2Proof.Machine.execVabs a b w m s
  | .vceq a b c w m => Sys2Proof.Machine.execVceq a b c w m s
  | .vclt a b c w m => Sys2Proof.Machine.execVclt a b c w m s
  | .vclo a b c w m => Sys2Proof.Machine.execVclo a b c w m s
  | .vsel a b c m => Sys2Proof.Machine.execVsel a b c m s
  | .vsat a b k w m => Sys2Proof.Machine.execVsat a b k w m s
  | .vfadd a b c m => Sys2Proof.Machine.execVfadd a b c m s
  | .vfsub a b c m => Sys2Proof.Machine.execVfsub a b c m s
  | .vfmul a b c m => Sys2Proof.Machine.execVfmul a b c m s
  | .vfma a b c m => Sys2Proof.Machine.execVfma a b c m s
  | .vfms a b c m => Sys2Proof.Machine.execVfms a b c m s
  | .vfmin a b c m => Sys2Proof.Machine.execVfmin a b c m s
  | .vfmax a b c m => Sys2Proof.Machine.execVfmax a b c m s
  | .vfabs a b m => Sys2Proof.Machine.execVfabs a b m s
  | .vfneg a b m => Sys2Proof.Machine.execVfneg a b m s
  | .vfceq a b c m => Sys2Proof.Machine.execVfceq a b c m s
  | .vfclt a b c m => Sys2Proof.Machine.execVfclt a b c m s
  | .vfcle a b c m => Sys2Proof.Machine.execVfcle a b c m s
  | .vfrcp a b m => Sys2Proof.Machine.execVfrcp a b m s
  | .vfrsq a b m => Sys2Proof.Machine.execVfrsq a b m s
  | .vfexp a b m => Sys2Proof.Machine.execVfexp a b m s
  | .vshuf a b c w m => Sys2Proof.Machine.execVshuf a b c w m s
  | .vbcast a b w m => Sys2Proof.Machine.execVbcast a b w m s
  | .vmvx a b c w => Sys2Proof.Machine.execVmvx a b c w s
  | .vslide a b c w m => Sys2Proof.Machine.execVslide a b c w m s
  | .vzip a b c w m => Sys2Proof.Machine.execVzip a b c w m s
  | .vuzp a b c w m => Sys2Proof.Machine.execVuzp a b c w m s
  | .vreds a b w m => Sys2Proof.Machine.execVreds a b w m s
  | .vredm a b w m => Sys2Proof.Machine.execVredm a b w m s
  | .vfreds a b m => Sys2Proof.Machine.execVfreds a b m s
  | .vfredm a b m => Sys2Proof.Machine.execVfredm a b m s
  | .vcvt a d y b => Sys2Proof.Machine.execVcvt a d y b s
  | .mand a b c => Sys2Proof.Machine.execMand a b c s
  | .mor a b c => Sys2Proof.Machine.execMor a b c s
  | .mxor a b c => Sys2Proof.Machine.execMxor a b c s
  | .mnot a b => Sys2Proof.Machine.execMnot a b s
  | .mpop a b => Sys2Proof.Machine.execMpop a b s
  | .mset a b => Sys2Proof.Machine.execMset a b s
  | .guard b => Sys2Proof.Machine.execGuard b s
  | .join j => Sys2Proof.Machine.execJoin j s
  | .qjoin => Sys2Proof.Machine.execQjoin s
  | .qleave => Sys2Proof.Machine.execQleave s
  | .accz n k => Sys2Proof.Machine.execAccz n k s
  | .packx b => Sys2Proof.Machine.execPackx b s
  | .packy b => Sys2Proof.Machine.execPacky b s
  | .packxf b => Sys2Proof.Machine.execPackxf b s
  | .packyf b => Sys2Proof.Machine.execPackyf b s
  | .packk b => Sys2Proof.Machine.execPackk b s
  | .muls n b => Sys2Proof.Machine.execMuls n b s
  | .mulj n b => Sys2Proof.Machine.execMulj n b s
  | .mmar b => Sys2Proof.Machine.execMmar b s
  | .extr d n b x => Sys2Proof.Machine.execExtr d n b x s
  | .extrf d n b x => Sys2Proof.Machine.execExtrf d n b x s
  | .accrd a n b => Sys2Proof.Machine.execAccrd a n b s
  | .accwr a n b => Sys2Proof.Machine.execAccwr a n b s
  | .accmv d y => Sys2Proof.Machine.execAccmv d y s
  | .tld a b => Sys2Proof.Machine.execTld a b s
  | .tst a b => Sys2Proof.Machine.execTst a b s
  | .tlds a b => Sys2Proof.Machine.execTlds a b s
  | .act b c => Sys2Proof.Machine.execAct b c s
  | .pre b c => Sys2Proof.Machine.execPre b c s
  | .rowq a b => Sys2Proof.Machine.execRowq a b s
  | .twait a b => Sys2Proof.Machine.execTwait a b s
  | .tchk a b => Sys2Proof.Machine.execTchk a b s
  | .cpy a => Sys2Proof.Machine.execCpy a s
  | .cpygo => Sys2Proof.Machine.execCpygo s
  | .cpyq a => Sys2Proof.Machine.execCpyq a s
  | .send a b c v r => Sys2Proof.Machine.execSend a b c v r s
  | .sendl a b v r => Sys2Proof.Machine.execSendl a b v r s
  | .reply b c => Sys2Proof.Machine.execReply b c s
  | .msgx a b v => Sys2Proof.Machine.execMsgx a b v s
  | .vread a b r => Sys2Proof.Machine.execVread a b r s
  | .vwrite b c r => Sys2Proof.Machine.execVwrite b c r s
  | .vamo a b c r => Sys2Proof.Machine.execVamo a b c r s
  | .tnew b c => Sys2Proof.Machine.execTnew b c s
  | .tdec b k => Sys2Proof.Machine.execTdec b k s
  | .tarm b => Sys2Proof.Machine.execTarm b s
  | .fence y => Sys2Proof.Machine.execFence y s
  | .signal y b c => Sys2Proof.Machine.execSignal y b c s
  | .bar y b => Sys2Proof.Machine.execBar y b s
  | .oxl a b => Sys2Proof.Machine.execOxl a b s
  | .oxs a b => Sys2Proof.Machine.execOxs a b s
  | .oxc a b c => Sys2Proof.Machine.execOxc a b c s
  | .srd a n => Sys2Proof.Machine.execSrd a n s
  | .swr a n b => Sys2Proof.Machine.execSwr a n b s
  | .sset a n b => Sys2Proof.Machine.execSset a n b s
  | .sclr a n b => Sys2Proof.Machine.execSclr a n b s
  | .tret => Sys2Proof.Machine.execTret s
  | .tabort k => Sys2Proof.Machine.execTabort k s
  | .tspill => Sys2Proof.Machine.execTspill s
  | .tfill => Sys2Proof.Machine.execTfill s
  | .brk c => Sys2Proof.Machine.execBrk c s
  | .svc c => Sys2Proof.Machine.execSvc c s
  | .endStream => Sys2Proof.Machine.execEndStream s
  | .nop => Sys2Proof.Machine.execNop s
  | .qmap q => Sys2Proof.Machine.execQmap q s
  | .jrec a b => Sys2Proof.Machine.execJrec a b s
  | .jseal a => Sys2Proof.Machine.execJseal a s
  | .emit b c => Sys2Proof.Machine.execEmit b c s
  | .rngb a b => Sys2Proof.Machine.execRngb a b s
  | .cMv d y => Sys2Proof.Machine.execCMv d y s
  | .cAddi d k => Sys2Proof.Machine.execCAddi d k s
  | .cLi d k => Sys2Proof.Machine.execCLi d k s
  | .cAdd d y => Sys2Proof.Machine.execCAdd d y s
  | .cSub d y => Sys2Proof.Machine.execCSub d y s
  | .cAnd d y => Sys2Proof.Machine.execCAnd d y s
  | .cSlli d n => Sys2Proof.Machine.execCSlli d n s
  | .cSrli d n => Sys2Proof.Machine.execCSrli d n s
  | .cLw d k => Sys2Proof.Machine.execCLw d k s
  | .cSw y k => Sys2Proof.Machine.execCSw y k s
  | .cBeq y o => Sys2Proof.Machine.execCBeq y o s
  | .cBne y o => Sys2Proof.Machine.execCBne y o s
  | .cJ o => Sys2Proof.Machine.execCJ o s
  | .cEnd => Sys2Proof.Machine.execCEnd s
  | .cNop => Sys2Proof.Machine.execCNop s
  | .illop w => Sys2Proof.Machine.execIllop w s
  | .wdog slot => Sys2Proof.Machine.execWdog slot s
  | .kill r => Sys2Proof.Machine.execKill r s
  | .residencyRelease r => Sys2Proof.Machine.execResidencyRelease r s
  | .reservationClearEnd r => Sys2Proof.Machine.execReservationClearEnd r s
  | .overflowChainMove r => Sys2Proof.Machine.execOverflowChainMove r s
  | .dispatch => Sys2Proof.Machine.execDispatch s
  | .quadRemotePerform k => Sys2Proof.Machine.execQuadRemotePerform k s
  | .quadUnitMerge => Sys2Proof.Machine.execQuadUnitMerge s
  | .mcfg => Sys2Proof.Machine.execMcfg s
  | .mpack => Sys2Proof.Machine.execMpack s
  | .mmarCommand => Sys2Proof.Machine.execMmarCommand s
  | .mzero => Sys2Proof.Machine.execMzero s
  | .mextr => Sys2Proof.Machine.execMextr s
  | .mstat => Sys2Proof.Machine.execMstat s
  | .illcmd => Sys2Proof.Machine.execIllcmd s
  | .slewGrant => Sys2Proof.Machine.execSlewGrant s
  | .slewLevelStep => Sys2Proof.Machine.execSlewLevelStep s
  | .sliceWorkEnd => Sys2Proof.Machine.execSliceWorkEnd s
  | .rslewWrite cap => Sys2Proof.Machine.execRslewWrite cap s
  | .tileOpStart => Sys2Proof.Machine.execTileOpStart s
  | .vaultBeat => Sys2Proof.Machine.execVaultBeat s
  | .tileOpComplete => Sys2Proof.Machine.execTileOpComplete s
  | .pageMapResume mapped => Sys2Proof.Machine.execPageMapResume mapped s
  | .actAtHead => Sys2Proof.Machine.execActAtHead s
  | .preAtHead => Sys2Proof.Machine.execPreAtHead s
  | .activationEnd b => Sys2Proof.Machine.execActivationEnd b s
  | .prechargeEnd b => Sys2Proof.Machine.execPrechargeEnd b s
  | .refresh b => Sys2Proof.Machine.execRefresh b s
  | .refreshEnd b => Sys2Proof.Machine.execRefreshEnd b s
  | .rowRepair b row => Sys2Proof.Machine.execRowRepair b row s
  | .tempSample temps => Sys2Proof.Machine.execTempSample temps s
  | .copy r => Sys2Proof.Machine.execCopy r s
  | .restripe r => Sys2Proof.Machine.execRestripe r s
  | .fill r => Sys2Proof.Machine.execFill r s
  | .hostrd r bytes => Sys2Proof.Machine.execHostrd r bytes s
  | .hostwr r => Sys2Proof.Machine.execHostwr r s
  | .drain r => Sys2Proof.Machine.execDrain r s
  | .badCopyCommand r => Sys2Proof.Machine.execBadCopyCommand r s
  | .copyCompletion r => Sys2Proof.Machine.execCopyCompletion r s
  | .chunkMove r => Sys2Proof.Machine.execChunkMove r s
  | .restripeSwitch r => Sys2Proof.Machine.execRestripeSwitch r s
  | .translationWalk asid vpn => Sys2Proof.Machine.execTranslationWalk asid vpn s
  | .tableEntryChange level asid vpn word => Sys2Proof.Machine.execTableEntryChange level asid vpn word s
  | .dirtyLogMerge quad => Sys2Proof.Machine.execDirtyLogMerge quad s
  | .harvest asid => Sys2Proof.Machine.execHarvest asid s
  | .messageEnqueue m => Sys2Proof.Machine.execMessageEnqueue m s
  | .messageDepart => Sys2Proof.Machine.execMessageDepart s
  | .signalDecrement => Sys2Proof.Machine.execSignalDecrement s
  | .signalAck ctx => Sys2Proof.Machine.execSignalAck ctx s
  | .scopeMissBounce => Sys2Proof.Machine.execScopeMissBounce s
  | .barrierArrival gang scope core => Sys2Proof.Machine.execBarrierArrival gang scope core s
  | .agentVread m => Sys2Proof.Machine.execAgentVread m s
  | .agentVwrite m => Sys2Proof.Machine.execAgentVwrite m s
  | .agentVamo m => Sys2Proof.Machine.execAgentVamo m s
  | .vfaddc m => Sys2Proof.Machine.execVfaddc m s
  | .vfence m => Sys2Proof.Machine.execVfence m s
  | .agentCompletion => Sys2Proof.Machine.execAgentCompletion s
  | .gangEnd gang => Sys2Proof.Machine.execGangEnd gang s
  | .batchShip r => Sys2Proof.Machine.execBatchShip r s
  | .batchStore jid jgrp pgen slots => Sys2Proof.Machine.execBatchStore jid jgrp pgen slots s
  | .journalAck r pgen num => Sys2Proof.Machine.execJournalAck r pgen num s
  | .snapTruncation r => Sys2Proof.Machine.execSnapTruncation r s
  | .egressRelease r => Sys2Proof.Machine.execEgressRelease r s
  | .heartbeat r => Sys2Proof.Machine.execHeartbeat r s
  | .peerLost r => Sys2Proof.Machine.execPeerLost r s
  | .bindingFreeze r => Sys2Proof.Machine.execBindingFreeze r s
  | .windowShip r ppkg pstk => Sys2Proof.Machine.execWindowShip r ppkg pstk s
  | .windowAck r pgen => Sys2Proof.Machine.execWindowAck r pgen s
  | .replay r jid fresh digest weights => Sys2Proof.Machine.execReplay r jid fresh digest weights s
  | .snapcfg irq body => Sys2Proof.Machine.execSnapcfg irq body s
  | .snapshotCut asid => Sys2Proof.Machine.execSnapshotCut asid s
  | .pageCopy asid vpn => Sys2Proof.Machine.execPageCopy asid vpn s
  | .shingleDrain => Sys2Proof.Machine.execShingleDrain s
  | .shingleAck k accepted => Sys2Proof.Machine.execShingleAck k accepted s
  | .drainWalk asid vpn => Sys2Proof.Machine.execDrainWalk asid vpn s
  | .snapshotSeal asid => Sys2Proof.Machine.execSnapshotSeal asid s
  | .scanVisit q => Sys2Proof.Machine.execScanVisit q s
  | .scanEnd q pass => Sys2Proof.Machine.execScanEnd q pass s
  | .spareRemap q spare => Sys2Proof.Machine.execSpareRemap q spare s
  | .ringNotify ring pi relaxed => Sys2Proof.Machine.execRingNotify ring pi relaxed s
  | .placeAndStart ring p => Sys2Proof.Machine.execPlaceAndStart ring p s
  | .placeOnly ring p => Sys2Proof.Machine.execPlaceOnly ring p s
  | .start ring => Sys2Proof.Machine.execStart ring s
  | .cancel ring => Sys2Proof.Machine.execCancel ring s
  | .sealReread ring => Sys2Proof.Machine.execSealReread ring s
  | .launchForward packet n p => Sys2Proof.Machine.execLaunchForward packet n p s
  | .readyReport gang pkg status => Sys2Proof.Machine.execReadyReport gang pkg status s
  | .commit gang => Sys2Proof.Machine.execCommit gang s
  | .launchAbort gang => Sys2Proof.Machine.execLaunchAbort gang s
  | .selfAbort gang => Sys2Proof.Machine.execSelfAbort gang s
  | .armedStart r => Sys2Proof.Machine.execArmedStart r s
  | .launchReconsider p => Sys2Proof.Machine.execLaunchReconsider p s
  | .saveStart r va len => Sys2Proof.Machine.execSaveStart r va len s
  | .saveUnitAck r => Sys2Proof.Machine.execSaveUnitAck r s
  | .saveFault r => Sys2Proof.Machine.execSaveFault r s
  | .saveResume r => Sys2Proof.Machine.execSaveResume r s
  | .saveAbandon r => Sys2Proof.Machine.execSaveAbandon r s
  | .restore r va p => Sys2Proof.Machine.execRestore r va p s
  | .gate quad => Sys2Proof.Machine.execGate quad s
  | .wake quad => Sys2Proof.Machine.execWake quad s
  | .gateFall quad => Sys2Proof.Machine.execGateFall quad s
  | .wakeAdmit => Sys2Proof.Machine.execWakeAdmit s
  | .wakeComplete quad => Sys2Proof.Machine.execWakeComplete quad s
  | .controlWrite reg value => Sys2Proof.Machine.execControlWrite reg value s
  | .flitReceive m crcOk num flit => Sys2Proof.Machine.execFlitReceive m crcOk num flit s
  | .nakReceive m e => Sys2Proof.Machine.execNakReceive m e s
  | .flitAck m e => Sys2Proof.Machine.execFlitAck m e s
  | .laneFailure m repaired => Sys2Proof.Machine.execLaneFailure m repaired s
  | .retrainEnd m => Sys2Proof.Machine.execRetrainEnd m s
  | .moduleDead m e => Sys2Proof.Machine.execModuleDead m e s
  | .sidebandTimeout m => Sys2Proof.Machine.execSidebandTimeout m s
  | .fabricPacket flow num msg => Sys2Proof.Machine.execFabricPacket flow num msg s
  | .fabricAck flow num => Sys2Proof.Machine.execFabricAck flow num s
  | .gapTimeout flow => Sys2Proof.Machine.execGapTimeout flow s
  | .resendTimeout flow num => Sys2Proof.Machine.execResendTimeout flow num s
  | .linkDead port => Sys2Proof.Machine.execLinkDead port s
  | .linkReturn port => Sys2Proof.Machine.execLinkReturn port s
  | .timingPacket tick synced => Sys2Proof.Machine.execTimingPacket tick synced s
  | .hostRead off len => Sys2Proof.Machine.execHostRead off len s
  | .hostWrite off bytes relaxed => Sys2Proof.Machine.execHostWrite off bytes relaxed s
  | .cciWrite cci => Sys2Proof.Machine.execCciWrite cci s
  | .ringcfg irq body => Sys2Proof.Machine.execRingcfg irq body s
  | .cringcfg irq body => Sys2Proof.Machine.execCringcfg irq body s
  | .wincfg irq body => Sys2Proof.Machine.execWincfg irq body s
  | .dmawcfg irq body => Sys2Proof.Machine.execDmawcfg irq body s
  | .badcmd command body => Sys2Proof.Machine.execBadcmd command body s
  | .fwload irq file => Sys2Proof.Machine.execFwload irq file s
  | .imgload irq body index base room => Sys2Proof.Machine.execImgload irq body index base room s
  | .imgdrop irq body => Sys2Proof.Machine.execImgdrop irq body s
  | .imageForward source target => Sys2Proof.Machine.execImageForward source target s
  | .powerUp => Sys2Proof.Machine.execPowerUp s
  | .readyDeadline gang => Sys2Proof.Machine.execReadyDeadline gang s
  | .hostMapTimeout => Sys2Proof.Machine.execHostMapTimeout s
  | .fabricNak flow num => Sys2Proof.Machine.execFabricNak flow num s
  | .moduleRetrain m full => Sys2Proof.Machine.execModuleRetrain m full s
  | .controllerFailure vault => Sys2Proof.Machine.execControllerFailure vault s

end Sys2Proof.Machine
end

