-- ==== Sys2Proof/Machine/Automatic.lean ====
section
/-! DEFINITION. What the device does of itself, in the order in which a step of it is looked for (log entry 9), how time passes (log entry 2),
and how an instruction is fetched (R33). -/

namespace Sys2Proof.Machine

/-! ## Fetch (R33, R72) -/

/-- What a fetch gives: an instruction, a word that is none, or a trap. -/
inductive Fetched where
  | instr (i : Instr)
  | illegal (w : BitVec 32)
  | trap (cause : Nat) (info : Word)
deriving DecidableEq, Repr

/-- Bytes of the instruction whose first halfword is at a region address (R72). -/
def fetchLength (s : State) (a : Nat) : Nat := if readLE s.quad.istore (s.rs.istoreAddr a) 1 % 2 = 0 then 2 else 4

/-- Whether the halfword at a region address is tagged as code. -/
def codeAt (s : State) (a : Nat) : Bool := decide (s.rs.istoreAddr a / 2 ∈ s.quad.code)

/-- The fetch at a region address: the end of the region, the tags, the words' check, then the decoder (R33, R72, R83).
Log entry 14 (DEDUCED). -/
def fetchAt (a : Nat) (s : State) : Fetched :=
  if s.rs.regionEnd ≤ a then .trap 0x04 (BitVec.ofNat 64 a)
  else
    let n := fetchLength s a
    if n = 4 ∧ s.rs.regionEnd ≤ a + 2 then .trap 0x04 (BitVec.ofNat 64 (a + 2))
    else if !codeAt s a then .trap 0x02 (BitVec.ofNat 64 a)
    else if n = 4 ∧ codeAt s (a + 2) = false then .trap 0x02 (BitVec.ofNat 64 (a + 2))
    else match badByte s.quad.istoreBad (s.rs.istoreAddr a) (List.range n) with
      | some k => .trap 0x1D (BitVec.ofNat 64 (0x20000 + s.rs.istoreAddr a + k))
      | none => match decodeBytes (readList s.quad.istore (s.rs.istoreAddr a) n) with
        | .ok (i, _) => .instr i
        | .error _ => .illegal (BitVec.ofNat 32 (readLE s.quad.istore (s.rs.istoreAddr a) n))

/-! ## Time (R25, R26, R297, R298; log entry 2) -/

/-- Cycles pass for a residency: a task's BUDGET runs down, and its slots count as free since now unless a candidate waits.
Log entry 2 (DESIGN CHOICE). -/
def passResidency (s : State) (n : Nat) (now : Word) (r : ResIx) : Residency :=
  let x := s.res[r]
  match x.task with
  | some t => { x with task := some { t with budget := BitVec.ofNat 64 (t.budget.toNat - n) }, freeSince := now }
  | none => if (candidate s r).isSome then x else { x with freeSince := now }

/-- The cuts of the snapshots whose tick has come are made (R389). -/
def makeCuts (s : State) : State := s.resil.snapshots.foldl (fun s (x : Snapshot) => (trySnapshotCut x.asid s).getD s) s

/-- Time passes after a step: k is 1 where a cycle of issue has gone by, with the slot that issued in it and the slots that were ready in it: W
counts the cycles in which a stream was ready and did not issue (R298). Each further cycle and each tick is free. A snapshot's cut is made in the cycle in which TICK reaches its tick (R389). Log entry 2 (DESIGN CHOICE). -/
def passTime (k : Nat) (issued : Option SlotIx) (ready : SlotIx → Bool) (s : State) : State :=
  let n := k + Config.extraCycles s.free
  let now := s.core.cycle + BitVec.ofNat 64 n
  makeCuts { s with
    free := s.free + 1
    streams := Vector.ofFn (fun (i : Fin 4) =>
      let t := s.streams[i]
      if k = 0 then { t with stalled := false }
      else { t with stalled := false, wait := if ready i && decide (issued ≠ some i) then t.wait + k else 0 })
    res := Vector.ofFn (fun (r : Fin 4) => passResidency s n now r)
    vault := { s.vault with banks := dueRefreshes s.core.cycle.toNat now.toNat s }
    core := { s.core with cycle := now }
    mgr := { s.mgr with tick := s.mgr.tick + BitVec.ofNat 64 (Config.elapsedTicks s.free) } }

/-! ## The device's own steps -/

/-- A step of the device that may be enabled. -/
abbrev Attempt := State → Option State

/-- Attempts for each residency. -/
def forResidencies (f : ResIx → Attempt) : List Attempt := (List.finRange 4).map f

/-- The first barrier arrival of this core that may leave (R204, R214). -/
def tryOwnArrival : Attempt := fun s =>
  match leavesNext s BufEntry.isBar with
  | some (_, x) => match x.e with
    | .bar sc _ => tryBarrierArrival x.gang sc s.address s
    | _ => none
  | none => none

/-- The next command at the matrix port, whatever its index (R169 to R172). -/
def portAttempts : List Attempt :=
  [portStep [0xE0] (some 0) runMcfg, portStep [0xE1] (some 1) runMpack, portStep [0xE2] (some 1) runMmar, portStep [0xE3] (some 0) runMzero,
    portStep [0xE4] (some 2) runMextr, portStep [0xE5] (some 2) runMstat, portStep [0xE6, 0xE7] none (fun _ _ _ => .illegal)]

/-- The first enabled step of a list. -/
def firstEnabled (l : List Attempt) (s : State) : Option State := l.findSome? (fun f => f s)

/-- The banks' commands end, refreshes that are due begin, and rows with four corrections are repaired (R259 to R261). -/
def bankAttempts (b : BankIx) : List Attempt :=
  [tryActivationEnd b, tryPrechargeEnd b, tryRefresh b, tryRefreshEnd b,
    fun s => match s.vault.banks[b].busy with
      | .repairing row => tryRowRepair b (BitVec.ofNat 10 row) s
      | .refreshRepair row => tryRowRepair b (BitVec.ofNat 10 row) s
      | _ => s.vault.banks[b].corrections.findSome? (fun e => tryRowRepair b (BitVec.ofNat 10 e.1) s)]

/-- A quad's dirty log that is half full is merged (R277). -/
def tryOwnMerge : Attempt := fun s =>
  s.quad.dirtyLog.findSome? (fun e => tryMerge e.1 s)

/-- A SNAP record's tick has come in the window of a residency (R384). -/
def trySnapTruncation (r : ResIx) : Attempt := fun s =>
  let j := s.res[r].journal
  let j' := Journal.truncateSnaps s.mgr.tick j
  if j'.live.length < j.live.length then some (setJournal r j' s) else none

/-- For each snapshot, its cut, the drain engine's next page, and its end (R389 to R392). -/
def snapshotAttempts : List Attempt :=
  [fun s => s.resil.snapshots.findSome? (fun (x : Snapshot) => trySnapshotCut x.asid s),
    fun s => s.resil.snapshots.findSome? (fun (x : Snapshot) => if x.cut then (stalePages s x.asid).findSome? (fun vpn => tryPageCopy x.asid vpn s) else none),
    tryShingleDrain,
    fun s => s.resil.snapshots.findSome? (fun (x : Snapshot) => trySnapshotSeal x.asid s)]

/-- Gangs end, launches over several packages are committed or their deadlines pass, and quad-mates get their records (R292, R295, R296). -/
def gangAttempts : List Attempt :=
  [fun s => s.mgr.gangs.findSome? (fun (g : Gang) => tryGangEnd g.gang s),
    fun s => s.mgr.gangs.findSome? (fun (g : Gang) => tryOwnCommit g.gang s), tryMatePlacement,
    fun s => s.mgr.gangs.findSome? (fun (g : Gang) => tryReadyDeadline g.gang s),
    fun s => s.mgr.waiting.findSome? (fun w => tryReadyDeadline (pkGang w.packet) s),
    fun s => s.mgr.gangs.findSome? (fun (g : Gang) => trySelfAbort g.gang s)]

/-- Quads fall and come up, and images are loaded again (R333, R336). -/
def powerAttempts : List Attempt :=
  [fun s => s.power.quads.findSome? (fun e => tryGateFall e.1 s), fun s => s.power.waking.findSome? (fun q => tryWakeComplete q s), tryWakeAdmit,
    tryHeldWake, tryReload, tryFirmwareCheck]

/-- The device's steps in the order in which they are looked for: a release comes first, in the first cycle in which a live count is zero (R37).
Log entry 3 (DESIGN CHOICE). -/
def attempts : List Attempt :=
  forResidencies tryResidencyRelease ++ [trySlewGrant, trySliceWorkEnd, trySlewStep, tryQuadMerge, tryTileOpStart, tryPendingAct, tryRowHead .act, tryRowHead .pre, tryVaultBeat, tryTileOpComplete]
    ++ (List.finRange 16).flatMap bankAttempts
    ++ [tryRemotePerform 0, tryAgentCompletion, serveNext 0xF0, serveNext 0xF1, serveNext 0xF2, serveNext 0xF3, serveNext 0xF4]
    ++ (List.finRange 4).map (fun i => trySpillColumn i) ++ [tryCopyEngine, tryHostGo, tryNotifyGo, tryLoadGo]
    ++ portAttempts
    ++ [trySignalDecrement, tryBounce, tryEnqueue, tryOwnArrival, tryDepart, tryFlitAck, tryReturn, tryFabricAck, tryFarDelivery, trySpillNotice]
    ++ forResidencies tryClearEnd ++ forResidencies tryOverflowMove
    ++ [tryDispatch]
    ++ forResidencies tryBatchShip ++ forResidencies tryEgressRelease ++ forResidencies trySnapTruncation ++ forResidencies tryPeerLost
    ++ forResidencies trySaveUnit ++ forResidencies trySaveFault
    ++ [tryOwnMerge, tryScanBegin] ++ snapshotAttempts ++ gangAttempts ++ powerAttempts

/-- A kill whose residency has no slice work any more is carried out (R162). -/
def tryDueKill (r : ResIx) : Attempt := fun s => if s.res[r].killDue.isSome && !s.workOf r then some (finishKill r s) else none

/-- A kill that waited, and what falls due at a tick, come before everything else (R162, R295, R389). Log entry 3 (DESIGN CHOICE). -/
def urgentAttempts : List Attempt := forResidencies tryDueKill ++ forResidencies tryArmedStart ++ snapshotAttempts.take 1

end Sys2Proof.Machine
end

