-- ==== Sys2Proof/Machine/Bar0.lean ====
section
/-! DEFINITION. BAR 0 (R363 to R365, R412): what the host reads there, and what its writes do: notify windows, CCI, mailboxes, the MSI-X table. -/

namespace Sys2Proof.Machine

/-- The code of a boot state (R412). -/
def bootCode : BootState → Nat
  | .reset => 0
  | .rom => 1
  | .fwcheck => 2
  | .bringup => 3
  | .ready => 4
  | .failed => 5

/-- The boot state of each stack: this one's, and what the others report. -/
def bootCodes (s : State) : List Nat :=
  (List.finRange 4).map (fun k => bootCode (if k.val = s.ownStack then s.mgr.boot else s.host.stackBoots[k]))

/-- The boot state of the package: the lowest of the four stacks, but FAILED if any has failed (R412). -/
def packageBoot (s : State) : Nat := if 5 ∈ bootCodes s then 5 else (bootCodes s).foldl min 5

/-- Doubleword i of a mailbox (R364); what lies past the response is 0. Log entry 51 (DESIGN CHOICE). -/
def mailWord (m : Mailbox) (i : Nat) : Word :=
  if i = 0 then m.command
  else if i < 0x80 then Table.get 0 m.body i
  else if i = 0x80 then m.status
  else if i < 0x100 then m.response.getD (i - 0x81) 0
  else 0

/-- The notify window or CI register at an offset, with the ring (R363). -/
def ringRegister (off : Nat) : Option (Fin 8 × Bool) :=
  if 0x1000 ≤ off ∧ off < 0x1200 ∧ off % 0x40 < 0x10 then some (⟨(off - 0x1000) / 0x40 % 8, Nat.mod_lt _ (by decide)⟩, decide (off % 0x40 < 8)) else none

/-- The mailbox that an offset lies in, with the doubleword (R363). -/
def mailRegister (off : Nat) : Option (Fin 4 × Nat) :=
  if 0x8000 ≤ off ∧ off < 0xC000 then some (⟨(off - 0x8000) / 0x1000 % 4, Nat.mod_lt _ (by decide)⟩, off % 0x1000 / 8) else none

/-- The doubleword of BAR 0 that holds an offset (R363): write-only registers and every other offset read as 0.
Log entry 51 (DESIGN CHOICE). -/
def bar0Word (s : State) (off : Nat) : Word :=
  match ringRegister off, mailRegister off with
  | some (r, notify), _ => if notify then 0 else s.mgr.rings[r.val]'(by omega) |>.ci.setWidth 64
  | _, some (k, i) => mailWord s.host.mailboxes[k] i
  | _, _ =>
    if off / 8 = 0 then BitVec.ofNat 64 (s.core.pkg.toNat + packageBoot s * 2 ^ 20)
    else if off / 8 = 0x2000 / 8 then s.host.cpi.setWidth 64
    else if off / 8 = 0x2008 / 8 then s.host.cci.setWidth 64
    else if 0x10000 ≤ off ∧ off < 0x10400 then msixWord s ((off - 0x10000) / 8)
    else if off / 8 = 0x11000 / 8 then pendingBits s
    else 0

/-- Whether an access of BAR 0 is an aligned 4- or 8-byte one (R363). -/
def bar0Good (off : BitVec 20) (n : Nat) : Bool := (decide (n = 4) || decide (n = 8)) && decide (off.toNat % n = 0)

/-- A read of BAR 0 returns its bytes, or Unsupported Request (R363). -/
def bar0Read (off : BitVec 20) (n : Nat) (s : State) : State :=
  { s with host := { s.host with
      readData := if bar0Good off n then some ((leBytes 8 (bar0Word s off.toNat).toNat).drop (off.toNat % 8) |>.take n) else none } }

/-- A doubleword with n of its bytes, from the byte of an offset on, replaced. -/
def mergeWord (old : Word) (off n : Nat) (data : Word) : Word := setField old (8 * (off % 8)) (8 * n) (data.toNat % 2 ^ (8 * n))

/-- The body of a mailbox, up to its last nonzero doubleword. -/
def mailBody (m : Mailbox) : List Word := (List.range (m.body.foldl (fun n e => max n e.1) 0)).map (fun i => Table.get 0 m.body (i + 1))

/-- The state after a device step; one that stops changes nothing. -/
def after (o : Res) (s : State) : State :=
  match o with
  | .next s' => s'
  | _ => s

/-- FWLOAD (R413): a reserved bit of its body is BADCMD; else the ROM reads the file. -/
def firmwareCommand (irq : Bool) (body : List Word) (file : List Byte) (s : State) : Res :=
  if s.mgr.boot ≠ .rom ∨ s.host.firmware.isSome = true then .next s
  else match reservedWord [2 ^ 64 - 1, 2 ^ 64 - 1] body with
    | some i => .next (answerMail irq 0xFF i 0 s)
    | none => execFwload irq file s

/-- A command handed to the stack manager (R364, R365), with its free choices. -/
def runCommand (command : Word) (body : List Word) (index : BitVec 8) (base : BitVec 9) (room : Bool) (file : List Byte) (s : State) : Res :=
  let irq := decide (sel command 63 1 = 1)
  if sel command 16 47 ≠ 0 then execBadcmd command body s
  else match sel command 0 16 with
    | 1 => execRingcfg irq body s
    | 2 => execCringcfg irq body s
    | 3 => execWincfg irq body s
    | 4 => execDmawcfg irq body s
    | 5 => execSnapcfg irq body s
    | 6 => firmwareCommand irq body file s
    | 7 => execImgload irq body index base room s
    | 8 => execImgdrop irq body s
    | _ => execBadcmd command body s

/-- A write of doubleword i of a mailbox (R364, R365): one of the command's low half hands it over, unless a command is open; a write of the status or the
response has no effect. Log entry 51 (DESIGN CHOICE). -/
def mailWrite (k : Fin 4) (i off n : Nat) (data : Word) (index : BitVec 8) (base : BitVec 9) (room : Bool) (file : List Byte) (s : State) : State :=
  let m := s.host.mailboxes[k]
  if i = 0 then
    let c := mergeWord m.command off n data
    if mailOpenAt k s then s
    else
      let s := setMailbox k (fun (m : Mailbox) => { m with command := c }) s
      if off % 8 = 0 then
        let s := openMail { s with host := { s.host with mailAt := k } }
        after (runCommand c (mailBody m) index base room file s) s
      else s
  else if i < 0x80 then setMailbox k (fun (m : Mailbox) => { m with body := Table.put 0 m.body i (mergeWord (Table.get 0 m.body i) off n data) }) s
  else s

/-- A write of BAR 0 (R363, R364); read-only registers and every other offset ignore it, and one that is not an aligned 4- or 8-byte access has no effect. -/
def bar0Write (off : BitVec 20) (n : Nat) (data : Word) (relaxed : Bool) (index : BitVec 8) (base : BitVec 9) (room : Bool) (file : List Byte) (s : State) :
    State :=
  let o := off.toNat
  if !bar0Good off n then s
  else match ringRegister o, mailRegister o with
    | some (r, notify), _ => if notify && decide (o % 8 = 0) then after (execRingNotify r (data.setWidth 32) relaxed s) s else s
    | _, some (k, i) => mailWrite k i o n data index base room file s
    | _, _ =>
      if o = 0x2008 then after (execCciWrite (data.setWidth 32) s) s
      else if 0x10000 ≤ o ∧ o < 0x10400 then
        let i := (o - 0x10000) / 8
        raisePending { s with host := { s.host with msixTable := Table.put (msixDefault i) s.host.msixTable i (mergeWord (msixWord s i) o n data) } }
      else s

end Sys2Proof.Machine
end

