-- ==== Sys2Proof/Machine/Elsewhere.lean ====
section
/-! DEFINITION. What other cores and units do that this core can observe: accesses of quad-mates, their claims and releases, their slice pairs, the
delivery of messages elsewhere, ports and quads of others, the waits of other slew units, the journal's peers and staging, the overflow pools, the boot of
other stacks, the vectors of error reports, and the host's accesses of BAR 0 (R37, R115 to R127, R150, R203, R214, R292, R308, R332, R334, R339, R341, R363, R369, R377, R379, R391, R412). Log entries 1 and 20 (DESIGN CHOICE). -/

namespace Sys2Proof.Machine

/-- Whether core k of the quad is another core. -/
def isMate (s : State) (k : Fin 4) : Bool := decide (k.val ≠ s.coreInQuad.toNat)

/-- Replaces a quad-mate. -/
def setMate (k : Fin 4) (f : Mate → Mate) (s : State) : State :=
  { s with quad := { s.quad with mates := vset s.quad.mates k (f s.quad.mates[k]) } }

/-- The quad-remote flag of a quad-mate's residency is set (R38, R116). -/
def markMate (k : Fin 4) (gang : BitVec 16) (s : State) : State :=
  match mateRes s k gang with
  | none => s
  | some m => setMateRes s k { m with quadRemote := true }

/-- Whether an access passes the range-lock and race checks at its target (R122, R124). -/
def passes (locks : Vector (Option Lock) 8) (gs : Table Granule) (base : Nat) (by_ : BitVec 2) (write : Bool) (ins : List Nat) : Bool :=
  decide (rlockInfo locks write 0 base ins = none) && !(granulesOf ins).any (raceFails gs by_ write)

/-- A quad-mate's access at this core's reservation: it is performed and recorded where the checks pass; else the mate takes its trap (R120). -/
def accessHere (gang : BitVec 16) (by_ : BitVec 2) (write : Bool) (off n : Nat) (data : Word) (s : State) : State :=
  match residencyOf s gang with
  | none => s
  | some r =>
    let x := s.res[r]
    let ins := inOffsets x.spsize.toNat (byteRange (off : Int) n)
    if x.killed || !x.quadMapped || !passes s.core.locks x.granules x.spbase.toNat by_ write ins then s
    else
      let s := s.setRes r { x with granules := (granulesOf ins).foldl (raceRecord by_ write) x.granules }
      if write then ownStore r off n data.toNat s else s

/-- A quad-mate's access at the reservation of another quad-mate, or its own. -/
def accessMate (gang : BitVec 16) (by_ : BitVec 2) (k : Fin 4) (write : Bool) (off n : Nat) (data : Word) (s : State) : State :=
  match mateRes s k gang with
  | none => s
  | some m =>
    let ins := inOffsets m.spsize.toNat (byteRange (off : Int) n)
    if !passes s.quad.mates[k].locks m.granules m.spbase.toNat by_ write ins then s
    else
      let m := { m with granules := (granulesOf ins).foldl (raceRecord by_ write) m.granules }
      setMateRes s k (if write then m.store off n data.toNat else m)

/-- A quad-mate's access (R115, R116, R120): one that crosses the quad sets its residency's flag first. -/
def mateAccess (gang : BitVec 16) (mate target : Fin 4) (write : Bool) (off : Word) (n : Nat) (data : Word) (s : State) : State :=
  if !isMate s mate then s
  else
    let s := if mate = target then s else markMate mate gang s
    let by_ := BitVec.ofNat 2 mate.val
    if isMate s target then accessMate gang by_ target write off.toNat (min n 8) data s
    else accessHere gang by_ write off.toNat (min n 8) data s

/-- A quad-mate leaves the joined quad (R150): under JM 2 the quad splits once the slice work ahead has ended, else its claim is withdrawn. -/
def mateLeaves (k : Fin 4) (s : State) : State :=
  if s.core.jm = 2 then (if quadWorks s = false then quadSplit s else { s with quad := { s.quad with leaveDue := true } })
  else setMate k (fun m => { m with claim := false }) s

/-- A residency of a gang on another core ends (R37, R150, R214): in this core's quad its reservation and, for a multiplier residency, its claim
go with it. -/
def releasedElsewhere (gang : BitVec 16) (core : BitVec 32) (killed : Bool) (s : State) : State :=
  if core = s.address then s
  else
    let k : Fin 4 := ⟨core.toNat % 4, Nat.mod_lt _ (by decide)⟩
    let s1 :=
      if core.toNat / 4 = s.address.toNat / 4 then
        let s1 := if mateMultiplies s k gang then mateLeaves k s else s
        setMate k (fun m => { m with residencies := m.residencies.filter (fun y => decide (y.gang ≠ gang)) }) s1
      else s
    leaveGang gang core killed s1

/-- The stack manager prepares the page that a word places (R269, R414): with given data, by offset, or with the data that stand there. It reaches no bank
behind a closed port (R334). -/
def preparePage (w : Word) (data : Option Mem) (s : State) : State :=
  if mapsPage w = false ∨ (List.range (2 ^ sel w 44 3)).any (fun i => vaultGated s (pwVault w i)) = true then s
  else
    let s := match data with
      | none => s
      | some m => m.foldl (fun s (c : Nat × Byte) => if c.1 < 2 ^ 18 then vaultPut (place w c.1).addr [c.2] s else s) (zeroPage w s)
    { s with vault := { s.vault with filled := w :: s.vault.filled } }

/-- What happens elsewhere. -/
def elsewhere (a : Elsewhere) (s : State) : State :=
  match a with
  | .access gang mate target write off n data => mateAccess gang mate target write off n data s
  | .claim k =>
    if isMate s k ∧ s.core.jm ≠ 2 ∧ (s.quad.mates[k].residencies.any (fun m => m.accs)) = true then
      quadJoin (setMate k (fun m => { m with claim := true }) s)
    else s
  | .leave k => if isMate s k then mateLeaves k s else s
  | .pair k mode level busy =>
    if s.core.jm = 2 ∧ s.core.slew.quadUnit = true then s else settleLeave (setMate k (fun m => { m with mode := mode, level := min 8 level, busy := busy }) s)
  | .quadWork count => if s.core.jm = 2 ∧ s.core.slew.quadUnit = true then addWork count none none s else s
  | .lock k entry l => setMate k (fun m => { m with locks := vset m.locks entry l }) s
  | .badWords k gang words => match mateRes s k gang with
    | none => s
    | some m => setMateRes s k { m with bad := words }
  | .placed k gang => match gangOf s gang with
    | none => s
    | some g => bindMate g k s
  | .endBound gang quad bound =>
    let others := s.mgr.candidates.filter (fun e => !decide (e.1 = gang ∧ e.2.1 = quad))
    { s with mgr := { s.mgr with candidates := (bound.map (fun b => (gang, quad, b))).toList ++ others } }
  | .killed k gang =>
    let s := updateGang gang (fun g => { g with anyKilled := true }) s
    setMate k (fun m => { m with residencies := m.residencies.map (fun y => if y.gang = gang then { y with killed := true } else y) }) s
  | .released gang core killed => releasedElsewhere gang core killed s
  | .delivered place status served => (deliverFar place status served s).getD s
  | .serve job => (serveJob job s).getD s
  | .filled word data => preparePage word data s
  | .port quad closed =>
    let others := s.power.closed.filter (fun q => decide (q ≠ quad))
    { s with power := { s.power with closed := if closed then quad :: others else others } }
  | .inUse quad busy =>
    let others := s.power.inUse.filter (fun q => decide (q ≠ quad))
    { s with power := { s.power with inUse := if busy then quad :: others else others } }
  | .slewWait region core weight =>
    if core = s.unitCore then s
    else
      let g := s.power.regions[region]
      let w : SlewWait := ⟨s.core.slew.clock, core, if weight = 2 then 2 else 1⟩
      { s with power := { s.power with regions := vset s.power.regions region { g with waiting := queueWait w g.waiting } } }
  | .staging entries => { s with resil := { s.resil with stagingOthers := entries } }
  | .partnerRegion jid pkg => { s with resil := { s.resil with partnerPkgs := Table.put 0 s.resil.partnerPkgs jid.toNat pkg } }
  | .working quad busy =>
    let others := s.resil.busyQuads.filter (fun q => decide (q ≠ quad))
    { s with resil := { s.resil with busyQuads := if busy then quad :: others else others } }
  | .pool stack shingles => { s with resil := { s.resil with pools := vset s.resil.pools stack shingles } }
  | .partnerBeat jid => partnerBeat jid s
  | .partnerSilent jid => partnerSilent jid s
  | .crossed m => crossNext m s
  | .fabricPaths paths => { s with link := { s.link with fabric := paths } }
  | .fabricLink link dead => fabricLink link dead s
  | .booted stack state => { s with host := { s.host with stackBoots := vset s.host.stackBoots stack state } }
  | .errorReport v => raiseVector v.val s
  | .bar0Read off n => bar0Read off n s
  | .bar0Write off n data relaxed index base room file => bar0Write off n data relaxed index base room file s

end Sys2Proof.Machine
end

