-- ==== Sys2Proof/Machine/Issue.lean ====
section
/-! DEFINITION. Which stream issues, and what it issues: a trap that waited, a WDOG, or what it fetches (R11, R33, R162, R298, R304). -/

namespace Sys2Proof.Machine

/-- Whether a slot's stream may issue: it runs, no kill waits for its residency (R162), and its quad is ON and not being scanned (R394). -/
def canIssue (s : State) (i : SlotIx) : Bool :=
  s.streams[i].active && decide (s.res[s.streams[i].res].killDue = none) && s.quadOn && !s.inScan

/-- Whether the stream of a slot takes a WDOG at this opportunity (R26, R304). -/
def owesWdog (s : State) (i : SlotIx) : Bool :=
  let r := s.streams[i].res
  match (noteExpiry r s).res[r].task with
  | none => false
  | some t => t.owes i

/-- What the stream of a slot does when it issues: it enters a trap that waited for its slice work, takes a WDOG that it owes, or runs what it
fetches. What remains of an earlier access of the core is performed first (R112, R127, R142). -/
def issueAs (i : SlotIx) (s : State) : Res :=
  let s := finishHalves { s with cur := i }
  match s.st.due with
  | some (cause, epc, info) => if s.sliceBusy then stall s else .next (takeTrap cause epc info s)
  | none =>
    if owesWdog s i && s.st.area.isNone then exec (.wdog i) s
    else match fetchAt s.st.pc.toNat s with
      | .trap cause info => trap cause info s
      | .illegal w => exec (.illop w) s
      | .instr j => exec j s

/-- Whether the stream of a slot is ready: it can issue, and what it would issue does not stall (R18, R109, R144, R173, R210, R298). -/
def ready (s : State) (i : SlotIx) : Bool :=
  canIssue s i && match issueAs i s with
    | .next t => !t.streams[i].stalled
    | _ => true

/-- The place of a kind in the order L, A, E. -/
def Kind.order : Kind → Nat
  | .L => 0
  | .A => 1
  | .E => 2

/-- Whether slot a issues before slot b, where both are ready (R298). -/
def issuesBefore (s : State) (a b : SlotIx) : Bool :=
  let x := s.streams[a]
  let y := s.streams[b]
  let px := decide (agelim s ≤ x.wait)
  let py := decide (agelim s ≤ y.wait)
  if px ≠ py then px
  else if px = false ∧ x.kind.order ≠ y.kind.order then decide (x.kind.order < y.kind.order)
  else if x.wait ≠ y.wait then decide (y.wait < x.wait)
  else decide (a.val < b.val)

/-- The slot that issues: the first ready stream in the order of R298. -/
def pickSlot (s : State) : Option SlotIx :=
  (List.finRange 4).foldl (fun b i =>
    if ready s i then (match b with
      | none => some i
      | some j => if issuesBefore s i j then some i else some j)
    else b) none

end Sys2Proof.Machine
end

