-- ==== Sys2Proof/Machine/Step.lean ====
section
/-! DEFINITION. One step of the machine: the scheduled move, or what falls due, or an instruction of the stream that issues, or a step of the
device, or a cycle in which nothing moves. Device and streams take turns (log entry 3). -/

namespace Sys2Proof.Machine

/-- After an answer: a next state goes on, anything else stands. -/
def andThen (o : Res) (f : State → State) : Res :=
  match o with
  | .next s => .next (f s)
  | .fault e => .fault e
  | .refused e => .refused e

/-- After the issue of a slot in state s0: a cycle has gone by. The device goes next. -/
def afterIssue (s0 : State) (i : SlotIx) (s : State) : State := { passTime 1 (some i) (ready s0) s with turn := true }

/-- The stream of a slot issues. Log entry 3 (DESIGN CHOICE). -/
def issue (i : SlotIx) (s : State) : Res := andThen (issueAs i s) (afterIssue s i)

/-- After a step of the device: the streams go next. -/
def afterDevice (s : State) : State := { passTime 0 none (fun _ => false) s with turn := false }

/-- A cycle in which nothing moves. -/
def idleCycle (s : State) : State := { passTime 1 none (fun _ => false) s with turn := false }

/-- A stream issues, if one can. -/
def tryIssue (s : State) : Option Res := (pickSlot s).map (fun i => issue i s)

/-- A step of the device, if one is enabled. -/
def tryDevice (s : State) : Option Res := (firstEnabled attempts s).map (fun t => .next (afterDevice t))

/-- The device and the streams take turns; where neither can move, a cycle goes by. Log entry 3 (DESIGN CHOICE). -/
def advance (s : State) : Res :=
  if s.turn then ((tryDevice s).orElse (fun _ => tryIssue s)).getD (.next (idleCycle s))
  else ((tryIssue s).orElse (fun _ => tryDevice s)).getD (.next (idleCycle s))

/-- A move of the schedule. Log entry 3 (DESIGN CHOICE). -/
def move (m : Move) (s : State) : Res :=
  match m with
  | .device i => if i.isEvent then andThen (exec i s) afterDevice else .fault .notADeviceStep
  | .issue => (tryIssue s).getD (.next (idleCycle s))
  | .elsewhere a => .next (afterDevice (elsewhere a s))

/-- One step. Log entry 3 (DESIGN CHOICE). -/
def step (s : State) : Host.Outcome State Fault Refusal :=
  match s.schedule with
  | m :: rest => move m { s with schedule := rest }
  | [] => match firstEnabled urgentAttempts s with
    | some t => .next (afterDevice t)
    | none => advance s

/-- The residency in which withFetchWord runs its instruction: RUNNING, its image region the whole instruction store of the quad, its whole
reservation in the scratchpad, all accumulators granted. Log entry 4 (DESIGN CHOICE). -/
def fetchResidency (x : Residency) : Residency :=
  { x with
    state := .running, kinds := 2, slots := 1, accs := 64, ibase := 0, ilen := 511, spbase := 0, spsize := 49152, clearing := false, killDue := none, killed := false,
    task := some { trigger := .launch, slots := 1, sendBuf := [], ages := [], budget := 2 ^ 40, expiries := 0, graces := 0, owed := 0, owedAgain := 0, sq := Vector.replicate 4 [], vq := Vector.replicate 2 [] } }

/-- A state in which the very next step fetches and runs the instruction whose first bits are w: nothing is scheduled or due, the quad is ON,
slot 0 runs the A stream of a task of residency 0, and the instruction's bytes stand at its program counter 0, tagged as code.
Log entry 4 (DESIGN CHOICE). -/
def State.withFetchWord (s : State) (nbits w : Nat) : State :=
  let q := physQuad s s.ownQuad
  { s with
    schedule := []
    turn := false
    cur := 0
    streams := Vector.ofFn (fun (i : Fin 4) => if i = 0 then { s.streams[i] with active := true, res := 0, kind := .A, pc := 0, loops := [], due := none, stalled := false, qm := false }
      else { s.streams[i] with active := false })
    res := Vector.ofFn (fun (r : Fin 4) => if r = 0 then fetchResidency s.res[r] else { s.res[r] with state := .free, armed := [] })
    core := { s.core with remote := [], vecRun := none }
    quad := { s.quad with istore := writeList s.quad.istore 0 (wordBytes 2 (w % 2 ^ nbits)), code := [0, 1], istoreBad := [], scanHold := false }
    power := { s.power with quads := [(q, ⟨.on, 0, 0, false, false, false⟩)] }
    resil := { s.resil with snapshots := [], scanning := [], failedQuads := [] } }

end Sys2Proof.Machine
end

