-- ==== Sys2Proof/Safety.lean ====
section
/-! DEFINITION. What counts as a safe run: the machine goes on, and its data keep the forms that the rest of the model relies on. -/

namespace Sys2Proof.Machine

/-- A step answers a next state: the machine has met no fault and no refusal. -/
def goesOn (o : Res) : Prop := ∃ s, o = .next s

/-- Every byte memory of the machine is in canonical form: the scratchpad, the multiplier's buffers, the instruction store and the vaults. -/
def State.memoriesWf (s : State) : Prop :=
  Memory.wf s.core.spad = true ∧ Memory.wf s.core.xbuf = true ∧ Memory.wf s.core.ybuf = true ∧ Memory.wf s.quad.istore = true
    ∧ Memory.wf s.vault.mem = true

/-- So is every byte memory that holds a copy: the reservations of quad-mates, and the pages of a snapshot that are being copied or are
on their way out. -/
def State.copiesWf (s : State) : Prop :=
  (∀ k : Fin 4, ∀ m ∈ s.quad.mates[k].residencies, Memory.wf m.mem = true) ∧ (∀ x ∈ s.resil.shingles, Memory.wf x.bytes = true)
    ∧ ∀ x ∈ s.resil.copying, Memory.wf x.bytes = true

/-- Every stream is at a trap level that exists: 0, 1 or 2 (R303). -/
def State.levelsLegal (s : State) : Prop := ∀ i : SlotIx, s.streams[i].tlevel.toNat ≤ 2

/-- Whether a move of the schedule can be made: a device move names a device step. -/
def Move.good : Move → Bool
  | .device i => i.isEvent
  | .issue => true
  | .elsewhere _ => true

/-- Every device move of the schedule is a device step: what the model asks of those who write the schedule (R11, log entry 3). -/
def State.scheduleOfSteps (s : State) : Prop := ∀ m ∈ s.schedule, m.good = true

/-- A state is safe when the next step goes on. -/
def State.safe (s : State) : Prop := goesOn (step s)

end Sys2Proof.Machine
end

