-- ==== Sys2Proof/Certificates/Slice0/Obligations.lean ====
section
/-! DEFINITION. The statements for the provers. Spec names what the statements say of a state: whether an instruction may go on, the state
after it, and what it leaves alone. -/

namespace Sys2Proof.Spec

open Sys2Proof Sys2Proof.Machine

/-! ## Words of the statements -/

/-- An instruction of n bytes at the program counter does not straddle the end of the innermost loop level (R104). -/
def fits (n : Nat) (s : State) : Prop := (fallThrough s.st.pc n s.st.loops).2.2 = false

/-- The state after an instruction of n bytes that transfers no control: only the program counter, the loop stack and the marks of the pick
have changed (R72, R104). -/
def past (n : Nat) (s : State) : State :=
  s.setSt { s.st with
    pc := (fallThrough s.st.pc n s.st.loops).2.1
    loops := (fallThrough s.st.pc n s.st.loops).1
    wait := 0
    stalled := false }

/-- The state after a transfer to t: levels whose body does not hold t are popped (R105). -/
def movedTo (t : Word) (s : State) : State :=
  s.setSt { s.st with pc := t, loops := keepLoops t s.st.loops, wait := 0, stalled := false }

/-- The three scalar operands of an instruction at s: rs1 and rs2 as read, queues popped in order, and room at rd (R18, R21). -/
def reads2 (a b c : Reg) (s : State) (x y : Word) (t : State) : Prop :=
  ∃ s1, popX b s = some (x, s1) ∧ popX c s1 = some (y, t) ∧ roomX a t = true

/-- The two scalar operands of an instruction at s: rs1 as read, and room at rd. -/
def reads1 (a b : Reg) (s : State) (x : Word) (t : State) : Prop := popX b s = some (x, t) ∧ roomX a t = true

/-- The low 32 bits, sign-extended (R94). -/
def sextWord (x : BitVec 32) : Word := x.signExtend 64

/-- The value of rd for the members of ALU and MULDIV that never trap (R94, R95). -/
def aluResult : Instr → Option (Reg × Reg × Reg × (Word → Word → Word))
  | .add a b c => some (a, b, c, fun x y => x + y)
  | .sub a b c => some (a, b, c, fun x y => x - y)
  | .and a b c => some (a, b, c, fun x y => x &&& y)
  | .or a b c => some (a, b, c, fun x y => x ||| y)
  | .xor a b c => some (a, b, c, fun x y => x ^^^ y)
  | .sll a b c => some (a, b, c, fun x y => x <<< (y.toNat % 64))
  | .srl a b c => some (a, b, c, fun x y => x >>> (y.toNat % 64))
  | .sra a b c => some (a, b, c, fun x y => BitVec.ofInt 64 (x.toInt / 2 ^ (y.toNat % 64)))
  | .slt a b c => some (a, b, c, fun x y => if x.toInt < y.toInt then 1 else 0)
  | .sltz a b c => some (a, b, c, fun x y => if x.toNat < y.toNat then 1 else 0)
  | .min a b c => some (a, b, c, fun x y => if x.toInt ≤ y.toInt then x else y)
  | .max a b c => some (a, b, c, fun x y => if x.toInt ≤ y.toInt then y else x)
  | .minz a b c => some (a, b, c, fun x y => if x.toNat ≤ y.toNat then x else y)
  | .maxz a b c => some (a, b, c, fun x y => if x.toNat ≤ y.toNat then y else x)
  | .addw a b c => some (a, b, c, fun x y => sextWord ((x + y).setWidth 32))
  | .subw a b c => some (a, b, c, fun x y => sextWord ((x - y).setWidth 32))
  | .sllw a b c => some (a, b, c, fun x y => sextWord ((x.setWidth 32 : BitVec 32) <<< (y.toNat % 32)))
  | .srlw a b c => some (a, b, c, fun x y => sextWord ((x.setWidth 32 : BitVec 32) >>> (y.toNat % 32)))
  | .sraw a b c => some (a, b, c, fun x y => sextWord (BitVec.ofInt 32 ((x.setWidth 32 : BitVec 32).toInt / 2 ^ (y.toNat % 32))))
  | .andn a b c => some (a, b, c, fun x y => x &&& ~~~y)
  | .orn a b c => some (a, b, c, fun x y => x ||| ~~~y)
  | .mul a b c => some (a, b, c, fun x y => BitVec.ofNat 64 (x.toNat * y.toNat))
  | .mulh a b c => some (a, b, c, fun x y => BitVec.ofInt 64 (x.toInt * y.toInt / 2 ^ 64))
  | .mulhz a b c => some (a, b, c, fun x y => BitVec.ofNat 64 (x.toNat * y.toNat / 2 ^ 64))
  | .mulw a b c => some (a, b, c, fun x y => sextWord (BitVec.ofNat 32 (x.toNat * y.toNat)))
  | .cAdd d y => some (d, d, y, fun x y => x + y)
  | .cSub d y => some (d, d, y, fun x y => x - y)
  | .cAnd d y => some (d, d, y, fun x y => x &&& y)
  | _ => none

/-- The value of rd for the instructions with one scalar source (R94, R97, R98, and the compact forms of R82). -/
def oneSourceResult : Instr → Option (Reg × Reg × (Word → Word))
  | .clz a b => some (a, b, fun x => BitVec.ofNat 64 ((List.range 64).findIdx (fun k => x.getLsbD (63 - k))))
  | .ctz a b => some (a, b, fun x => BitVec.ofNat 64 ((List.range 64).findIdx (fun k => x.getLsbD k)))
  | .cnt a b => some (a, b, fun x => BitVec.ofNat 64 ((List.range 64).filter (fun k => x.getLsbD k)).length)
  | .addi a b i => some (a, b, fun x => x + i.signExtend 64)
  | .addiw a b i => some (a, b, fun x => sextWord ((x + i.signExtend 64).setWidth 32))
  | .andi a b i => some (a, b, fun x => x &&& i.signExtend 64)
  | .ori a b i => some (a, b, fun x => x ||| i.signExtend 64)
  | .xori a b i => some (a, b, fun x => x ^^^ i.signExtend 64)
  | .slti a b i => some (a, b, fun x => if x.toInt < i.toInt then 1 else 0)
  | .sltiz a b i => some (a, b, fun x => if x.toNat < (i.signExtend 64 : Word).toNat then 1 else 0)
  | .slli a n b => some (a, b, fun x => x <<< n.toNat)
  | .srli a n b => some (a, b, fun x => x >>> n.toNat)
  | .srai a n b => some (a, b, fun x => BitVec.ofInt 64 (x.toInt / 2 ^ n.toNat))
  | .slliw a n b => some (a, b, fun x => sextWord ((x.setWidth 32 : BitVec 32) <<< n.toNat))
  | .srliw a n b => some (a, b, fun x => sextWord ((x.setWidth 32 : BitVec 32) >>> n.toNat))
  | .sraiw a n b => some (a, b, fun x => sextWord (BitVec.ofInt 32 ((x.setWidth 32 : BitVec 32).toInt / 2 ^ n.toNat)))
  | .cMv d y => some (d, y, fun x => x)
  | .cAddi d i => some (d, d, fun x => x + i.signExtend 64)
  | .cLi d i => some (d, 0, fun x => x + i.signExtend 64)
  | .cSlli d n => some (d, d, fun x => x <<< n.toNat)
  | .cSrli d n => some (d, d, fun x => x >>> n.toNat)
  | _ => none

/-- A divide or remainder member: whether it is a word form, and its quotient or remainder, which truncates toward zero (R95, R96). -/
def divResult : Instr → Option (Reg × Reg × Reg × Bool × (Word → Word → Word))
  | .div a b c => some (a, b, c, false, fun x y => BitVec.ofInt 64 (x.toInt.tdiv y.toInt))
  | .divz a b c => some (a, b, c, false, fun x y => BitVec.ofNat 64 (x.toNat / y.toNat))
  | .rem a b c => some (a, b, c, false, fun x y => BitVec.ofInt 64 (x.toInt.tmod y.toInt))
  | .remz a b c => some (a, b, c, false, fun x y => BitVec.ofNat 64 (x.toNat % y.toNat))
  | .divw a b c => some (a, b, c, true, fun x y =>
      sextWord (BitVec.ofInt 32 ((x.setWidth 32 : BitVec 32).toInt.tdiv (y.setWidth 32 : BitVec 32).toInt)))
  | .divzw a b c => some (a, b, c, true, fun x y => sextWord (BitVec.ofNat 32 (x.toNat % 2 ^ 32 / (y.toNat % 2 ^ 32))))
  | .remw a b c => some (a, b, c, true, fun x y =>
      sextWord (BitVec.ofInt 32 ((x.setWidth 32 : BitVec 32).toInt.tmod (y.setWidth 32 : BitVec 32).toInt)))
  | .remzw a b c => some (a, b, c, true, fun x y => sextWord (BitVec.ofNat 32 (x.toNat % 2 ^ 32 % (y.toNat % 2 ^ 32))))
  | _ => none

/-- The divisor that a member tests: all of Y, or Y[31:0] in a word form (R96). -/
def testedDivisor (word : Bool) (y : Word) : Nat := if word then y.toNat % 2 ^ 32 else y.toNat

/-- A conditional branch: its operands rs1 and rs2 with the order in which they are popped (the first field named here first), the offset in
bytes, and when it is taken (R100, R82). -/
def branchRule : Instr → Option (Reg × Reg × Word × (Word → Word → Prop))
  | .beq a b o => some (a, b, o.signExtend 64 * 2, fun x y => x = y)
  | .bne a b o => some (a, b, o.signExtend 64 * 2, fun x y => x ≠ y)
  | .blt a b o => some (a, b, o.signExtend 64 * 2, fun x y => x.toInt < y.toInt)
  | .bge a b o => some (a, b, o.signExtend 64 * 2, fun x y => y.toInt ≤ x.toInt)
  | .blo a b o => some (a, b, o.signExtend 64 * 2, fun x y => x.toNat < y.toNat)
  | .bhs a b o => some (a, b, o.signExtend 64 * 2, fun x y => y.toNat ≤ x.toNat)
  | .cBeq y o => some (0, y.setWidth 5 + 8, o.signExtend 64 * 2, fun x z => x = z)
  | .cBne y o => some (0, y.setWidth 5 + 8, o.signExtend 64 * 2, fun x z => x ≠ z)
  | _ => none

/-- What an instruction of the current stream leaves alone in the streams: the scalar, vector, mask and operand-extension registers other than
those named, FFLAGS unless fl, QM unless qm, FMODE, every special and exception register of the stream, its identity, and every other stream.
The program counter, the loop stack and the marks of the pick are not spoken of. -/
structure StreamFrame (xs vs : Reg → Prop) (ms os : Fin 8 → Prop) (fl qm : Prop) (s t : State) : Prop where
  scalars : ∀ r : Reg, ¬ xs r → t.st.getX r = s.st.getX r
  vectors : ∀ r : Reg, ¬ vs r → t.st.v[regIx r] = s.st.v[regIx r]
  masks : ∀ k : Fin 8, ¬ ms k → t.st.m[k] = s.st.m[k]
  extensions : ∀ k : Fin 8, ¬ os k → t.st.ox[k] = s.st.ox[k]
  flags : ¬ fl → t.st.fflags = s.st.fflags
  modes : t.st.fmode = s.st.fmode ∧ (¬ qm → t.st.qm = s.st.qm)
  exceptions : t.st.tlevel = s.st.tlevel ∧ t.st.tvec = s.st.tvec ∧ t.st.tsave = s.st.tsave ∧ t.st.tsavelen = s.st.tsavelen
    ∧ t.st.traps = s.st.traps ∧ t.st.xbank = s.st.xbank ∧ t.st.loopBank = s.st.loopBank ∧ t.st.due = s.st.due
    ∧ t.st.entered = s.st.entered ∧ t.st.area = s.st.area
  identity : t.cur = s.cur ∧ t.st.active = s.st.active ∧ t.st.res = s.st.res ∧ t.st.kind = s.st.kind ∧ t.st.tileBad = s.st.tileBad
  others : ∀ j : SlotIx, j ≠ s.cur → t.streams[j] = s.streams[j]

/-- What it leaves alone in the residencies: all of the other residencies, and of its own everything but the entries of the task's queues
and, where sp, SPFLAG and the granule records of a scratchpad access (R28, R124). -/
structure GroupFrame (sp : Prop) (s t : State) : Prop where
  others : ∀ r : ResIx, r ≠ s.ri → t.res[r] = s.res[r]
  own : { t.rs with task := none, spflag := s.rs.spflag, granules := s.rs.granules } = { s.rs with task := none }
  access : ¬ sp → t.rs.spflag = s.rs.spflag ∧ t.rs.granules = s.rs.granules
  task : (t.rs.task.map fun k => { k with sq := s.rs.task.elim k.sq Task.sq, vq := s.rs.task.elim k.vq Task.vq }) = s.rs.task

/-- Everything beyond the core: the quad, the vaults, the network, the stack manager, power, links, host, snapshots, and the model's own
fields. -/
structure DeviceFrame (s t : State) : Prop where
  device : t.quad = s.quad ∧ t.vault = s.vault ∧ t.net = s.net ∧ t.mgr = s.mgr ∧ t.power = s.power ∧ t.link = s.link
    ∧ t.host = s.host ∧ t.resil = s.resil
  own : t.schedule = s.schedule ∧ t.turn = s.turn ∧ t.free = s.free

/-- The frame of an instruction that touches registers and queues only. -/
structure RegisterFrame (xs vs : Reg → Prop) (ms os : Fin 8 → Prop) (fl qm : Prop) (s t : State) : Prop where
  stream : StreamFrame xs vs ms os fl qm s t
  group : GroupFrame False s t
  memory : ∀ n, readByte t.core.spad n = readByte s.core.spad n
  core : t.core = s.core
  device : DeviceFrame s t

/-- No register of a kind. -/
def noReg : Reg → Prop := fun _ => False
/-- No register of a small file. -/
def noIx : Fin 8 → Prop := fun _ => False

/-- The instructions whose only destination is scalar register a, and which touch nothing else, with that register. -/
def scalarDest (i : Instr) : Option Reg :=
  match aluResult i, oneSourceResult i with
  | some (a, _), _ => some a
  | none, some (a, _) => some a
  | none, none =>
    match i with
    | .lui a _ => some a
    | .auipc a _ => some a
    | _ => none

/-! ## Local memory -/

/-- Whether an offset lies in the reservation of the current residency (R28). -/
def inside (s : State) (o : Int) : Prop := 0 ≤ o ∧ o < s.rs.spsize.toNat

/-- The scratchpad byte of an offset of the current residency (R27). -/
def physical (s : State) (o : Int) : Nat := s.rs.spbase.toNat + o.toNat

/-- A byte meets an entry of a range-lock table whose mode covers the access: WR every access, RD a write (R121). -/
def lockMeets (ls : Vector (Option Lock) 8) (write : Bool) (p : Nat) : Prop :=
  ∃ (k : Fin 8) (l : Lock), ls[k] = some l ∧ l.space = .spad ∧ (l.wr = true ∨ write = true) ∧ ∃ r ∈ l.ranges, r.1 ≤ p ∧ p < r.2

/-- The granule of an offset fails the race check of core c: another core wrote it, or, for a write, another core read it (R124). -/
def raceMeets (gs : Table Granule) (c : BitVec 2) (write : Bool) (o : Nat) : Prop :=
  (∃ k, (Table.get Granule.none gs (o / 256)).writer = some k ∧ k ≠ c)
  ∨ (write = true ∧ ∃ k : BitVec 2, k ≠ c ∧ (Table.get Granule.none gs (o / 256)).readers.getLsbD k.toNat = true)

/-- A local access of the offsets goes through: no FENCE holds it, no byte of it meets a range lock, a race or, when it reads, an uncorrectable
word (R120, R122, R124, R210). -/
structure LocalGoes (read write : Bool) (offs : List Int) (s : State) : Prop where
  fence : fenceHolds s = false
  locks : ∀ o ∈ offs, inside s o → ¬ lockMeets s.core.locks write (physical s o)
  races : s.rs.quadMapped = true → ∀ o ∈ offs, inside s o → ¬ raceMeets s.rs.granules s.coreInQuad write o.toNat
  sound : read = true → ∀ o ∈ offs, inside s o → physical s o / 8 ∉ s.core.spadBad

/-- The state once a local access has passed its checks: SPFLAG and the granule records have been updated (R28, R124). -/
def accessed (write : Bool) (offs : List Int) (s : State) : State :=
  recordLocal write (inOffsets s.rs.spsize.toNat offs) (commitFlag write false 0 (outOffsets s.rs.spsize.toNat offs) s)

/-- A load: rd, the base, the displacement, the bytes and the extension (R113, R82). -/
def loadRule : Instr → Option (Reg × Reg × BitVec 12 × Nat × (Nat → Word))
  | .lb a b o => some (a, b, o, 1, fun v => (BitVec.ofNat 8 v).signExtend 64)
  | .lh a b o => some (a, b, o, 2, fun v => (BitVec.ofNat 16 v).signExtend 64)
  | .lw a b o => some (a, b, o, 4, fun v => (BitVec.ofNat 32 v).signExtend 64)
  | .ld a b o => some (a, b, o, 8, fun v => BitVec.ofNat 64 v)
  | .lbz a b o => some (a, b, o, 1, fun v => BitVec.ofNat 64 v)
  | .lhz a b o => some (a, b, o, 2, fun v => BitVec.ofNat 64 v)
  | .lwz a b o => some (a, b, o, 4, fun v => BitVec.ofNat 64 v)
  | .cLw d k => some (d, 2, BitVec.ofNat 12 (4 * k.toNat), 4, fun v => (BitVec.ofNat 32 v).signExtend 64)
  | _ => none

/-- A store: the data register, the base, the displacement and the bytes (R113, R82). -/
def storeRule : Instr → Option (Reg × Reg × BitVec 12 × Nat)
  | .sb a b o => some (a, b, o, 1)
  | .sh a b o => some (a, b, o, 2)
  | .sw a b o => some (a, b, o, 4)
  | .sd a b o => some (a, b, o, 8)
  | .cSw y k => some (y, 2, BitVec.ofNat 12 (4 * k.toNat), 4)
  | _ => none

/-- An atomic: rd, the address, the operand, the bytes, whether rd is read as the expected value, and what memory then holds, from the old value,
the operand and the expected value, all of the access's width (R117). -/
def atomicRule : Instr → Option (Reg × Reg × Reg × Nat × Bool × (Nat → Nat → Nat → Nat))
  | .amoadd a b c => some (a, b, c, 8, false, fun old y _ => (old + y) % 2 ^ 64)
  | .amoaddw a b c => some (a, b, c, 4, false, fun old y _ => (old + y) % 2 ^ 32)
  | .amoswap a b c => some (a, b, c, 8, false, fun _ y _ => y)
  | .amoswapw a b c => some (a, b, c, 4, false, fun _ y _ => y)
  | .amocas a b c => some (a, b, c, 8, true, fun old y e => if old = e then y else old)
  | .amocasw a b c => some (a, b, c, 4, true, fun old y e => if old = e then y else old)
  | .amoand a b c => some (a, b, c, 8, false, fun old y _ => old &&& y)
  | .amoandw a b c => some (a, b, c, 4, false, fun old y _ => old &&& y)
  | .amoor a b c => some (a, b, c, 8, false, fun old y _ => old ||| y)
  | .amoorw a b c => some (a, b, c, 4, false, fun old y _ => old ||| y)
  | .amoxor a b c => some (a, b, c, 8, false, fun old y _ => old ^^^ y)
  | .amoxorw a b c => some (a, b, c, 4, false, fun old y _ => old ^^^ y)
  | .amomin a b c => some (a, b, c, 8, false, fun old y _ => if (BitVec.ofNat 64 old).toInt ≤ (BitVec.ofNat 64 y).toInt then old else y)
  | .amominw a b c => some (a, b, c, 4, false, fun old y _ => if (BitVec.ofNat 32 old).toInt ≤ (BitVec.ofNat 32 y).toInt then old else y)
  | .amomax a b c => some (a, b, c, 8, false, fun old y _ => if (BitVec.ofNat 64 old).toInt ≤ (BitVec.ofNat 64 y).toInt then y else old)
  | .amomaxw a b c => some (a, b, c, 4, false, fun old y _ => if (BitVec.ofNat 32 old).toInt ≤ (BitVec.ofNat 32 y).toInt then y else old)
  | .amominz a b c => some (a, b, c, 8, false, fun old y _ => min old y)
  | .amominzw a b c => some (a, b, c, 4, false, fun old y _ => min old y)
  | .amomaxz a b c => some (a, b, c, 8, false, fun old y _ => max old y)
  | .amomaxzw a b c => some (a, b, c, 4, false, fun old y _ => max old y)
  | _ => none

/-- i is a load into a of n bytes at offset off, extended by f, that s lets through; t is s with its operands read. -/
def loads (i : Instr) (a : Reg) (off : Int) (n : Nat) (f : Nat → Word) (s t : State) : Prop :=
  ∃ b o x, loadRule i = some (a, b, o, n, f) ∧ popX b s = some (x, t) ∧ roomX a t = true ∧ off = ((x + o.signExtend 64).toNat : Int)
    ∧ LocalGoes true false (byteRange off n) t ∧ fits i.len s

/-- i is a store of the low n bytes of v at offset off that s lets through; t is s with its operands read, the base before the data (R114). -/
def stores (i : Instr) (off : Int) (n v : Nat) (s t : State) : Prop :=
  ∃ a b o x w s1, storeRule i = some (a, b, o, n) ∧ popX b s = some (x, s1) ∧ popX a s1 = some (w, t) ∧ v = w.toNat
    ∧ off = ((x + o.signExtend 64).toNat : Int) ∧ LocalGoes false true (byteRange off n) t ∧ fits i.len s

/-- i is an atomic into a of n bytes at offset off with the operand y and the expected value e that s lets through; t is s with its operands read,
the address first and the expected value last. The low bits of the address are dropped (R118). -/
def atomics (i : Instr) (a : Reg) (off : Int) (n y e : Nat) (f : Nat → Nat → Nat → Nat) (s t : State) : Prop :=
  ∃ b c cas, ∃ x w z : Word, ∃ s1 s2, atomicRule i = some (a, b, c, n, cas, f) ∧ popX b s = some (x, s1) ∧ popX c s1 = some (w, s2)
    ∧ (if cas = true then popX a s2 = some (z, t) else z = 0 ∧ t = s2) ∧ roomX a t = true
    ∧ off = ((n * (x.toNat / n) : Nat) : Int) ∧ y = w.toNat % 2 ^ (8 * n) ∧ e = z.toNat % 2 ^ (8 * n)
    ∧ LocalGoes true true (byteRange off n) t ∧ fits i.len s

/-- The first byte of the bank above that of an offset (R112). -/
def nextBank (o : Nat) : Nat := (o / 3072 + 1) * 3072

/-- A local access of n bytes at off spans two banks, with bytes of the reservation in both (R112). -/
def crosses (off : Int) (n : Nat) (s : State) : Prop :=
  0 ≤ off ∧ nextBank off.toNat < off.toNat + n ∧ nextBank off.toNat < s.rs.spsize.toNat

/-- The access once its lower bank has been accessed: low is what the bytes of that bank held (R112). -/
def halfOf (t : State) (off : Int) (n : Nat) (write : Bool) (data : Word) (rd : Reg) (sg : Bool) (low : Nat) : Remote where
  slot := t.cur
  res := t.ri
  target := t.coreInQuad
  off := BitVec.ofInt 64 off
  n := n
  write := write
  data := data
  rd := rd
  signed := sg
  done := nextBank off.toNat - off.toNat
  low := low
  queued := (t.xQueue rd).isSome
  fenced := false
  gang := t.rs.gang
  size := t.rs.spsize.toNat
  at_ := t.core.cycle

/-- An access joins those that have issued and are not yet performed. -/
def awaiting (e : Remote) (t : State) : State := { t with core := { t.core with remote := t.core.remote ++ [e] } }

/-- The loads that sign-extend less than a doubleword (R113, R115). -/
def signs : Instr → Bool
  | .lb _ _ _ => true
  | .lh _ _ _ => true
  | .lw _ _ _ => true
  | .cLw _ _ => true
  | .lqw _ _ _ => true
  | _ => false

/-- u is w after n bytes of v have been stored at offset off of the reservation as it is in t: the in-range bytes hold them, every other byte of the
scratchpad reads as before, no word has become uncorrectable, and nothing else has changed. -/
structure StoredOver (off : Int) (n v : Nat) (t w u : State) : Prop where
  bytes : ∀ k < n, inside t (off + k) → readByte u.core.spad (physical t (off + k)) = BitVec.ofNat 8 (v / 2 ^ (8 * k))
  others : ∀ p, (¬ ∃ k < n, inside t (off + k) ∧ p = physical t (off + k)) → readByte u.core.spad p = readByte t.core.spad p
  words : ∀ a ∈ u.core.spadBad, a ∈ t.core.spadBad
  rest : { u with core := { u.core with spad := t.core.spad, spadBad := t.core.spadBad } } = w

/-- u is t after a store of n bytes of v at offset off has passed its checks and been performed: SPFLAG and the granule records have been updated
too. -/
def Stored (off : Int) (n v : Nat) (t u : State) : Prop := StoredOver off n v t (accessed true (byteRange off n) t) u

/-- u is t after the lower bank of a store that spans two has been accessed: its bytes are stored, and the rest of the store awaits its turn. -/
def StoredHalf (off : Int) (n : Nat) (data : Word) (t u : State) : Prop :=
  ∃ w low, StoredOver off (nextBank off.toNat - off.toNat) data.toNat t (accessed true (byteRange off n) t) w
    ∧ u = awaiting (halfOf t off n true data 0 false low) w

/-- The quad-remote instructions: rd or the data register, the address, the index, the bytes, and for a load the extension (R115). -/
def quadRule : Instr → Option (Reg × Reg × Reg × Nat × Option (Nat → Word))
  | .lqw a b c => some (a, b, c, 4, some fun v => (BitVec.ofNat 32 v).signExtend 64)
  | .lqd a b c => some (a, b, c, 8, some fun v => BitVec.ofNat 64 v)
  | .sqw a b c => some (a, b, c, 4, none)
  | .sqd a b c => some (a, b, c, 8, none)
  | _ => none

/-- A quad-remote access of the offsets to core k goes through: no FENCE holds it, and at the target no in-range byte meets a range lock or a
race, and a load meets no uncorrectable word (R116, R120, R301). -/
structure RemoteGoes (k : Fin 4) (write : Bool) (offs : List Int) (s : State) : Prop where
  fence : fenceHolds s = false
  locks : ∀ m, mateRes s k s.rs.gang = some m → ∀ o ∈ offs, 0 ≤ o → o < m.spsize.toNat →
    ¬ lockMeets s.quad.mates[k].locks write (m.spbase.toNat + o.toNat)
  races : ∀ m, mateRes s k s.rs.gang = some m → ∀ o ∈ offs, 0 ≤ o → o < m.spsize.toNat → ¬ raceMeets m.granules s.coreInQuad write o.toNat
  sound : write = false → ∀ m, mateRes s k s.rs.gang = some m → ∀ o ∈ offs, 0 ≤ o → o < m.spsize.toNat → o.toNat / 8 ∉ m.bad

/-- SPFLAG after a quad-remote access to core k of offsets of a reservation of a size (R25, R28, R116). -/
def remoteFlag (k : Fin 4) (write : Bool) (size : Nat) (offs : List Int) (old new : Word) : Prop :=
  (old.getLsbD 63 = true ∨ (∀ o ∈ offs, 0 ≤ o ∧ o < size) → new = old)
  ∧ (∀ o ∈ offs, ¬ (0 ≤ o ∧ o < size) → (∀ p ∈ offs, ¬ (0 ≤ p ∧ p < size) → o ≤ p) → old.getLsbD 63 = false →
    new = BitVec.ofNat 64 (2 ^ 63 + (if write then 2 ^ 62 else 0) + 2 ^ 61 + k.val * 2 ^ 59 + (o % 2 ^ 32).toNat))

/-- u is t after a quad-remote access of a quad-mapped residency to core k has passed its checks: the mark of R38, SPFLAG and the target's granule
records have been updated, and nothing else (R28, R116, R124). -/
structure RemoteMet (k : Fin 4) (write : Bool) (offs : List Int) (t u : State) : Prop where
  mark : u.rs.quadRemote = true
  flag : remoteFlag k write (remoteSize t k) offs t.rs.spflag u.rs.spflag
  own : u.setRs { u.rs with quadRemote := t.rs.quadRemote, spflag := t.rs.spflag } = { t with quad := u.quad }
  quad : { u.quad with mates := vset u.quad.mates k { u.quad.mates[k] with residencies := t.quad.mates[k].residencies } } = t.quad
  absent : mateRes t k t.rs.gang = none → u.quad = t.quad
  others : ∀ g, g ≠ t.rs.gang → mateRes u k g = mateRes t k g
  records : ∀ m, mateRes t k t.rs.gang = some m → ∃ gs, mateRes u k t.rs.gang = some { m with granules := gs } ∧ ∀ g : Nat,
    let old := Table.get Granule.none m.granules g
    ((∀ o ∈ offs, 0 ≤ o → o < m.spsize.toNat → o.toNat / 256 ≠ g) → Table.get Granule.none gs g = old)
    ∧ ((∃ o ∈ offs, 0 ≤ o ∧ o < m.spsize.toNat ∧ o.toNat / 256 = g) → Table.get Granule.none gs g =
      if write then { old with writer := some t.coreInQuad } else { old with readers := old.readers ||| (1#4 <<< t.coreInQuad.toNat) })

/-- A quad-remote access of n bytes at x to core k as it leaves for its target, with the size of the reservation that it met there (R116, R126). -/
def leavingFor (k : Fin 4) (x : Word) (n : Nat) (write : Bool) (data : Word) (rd : Reg) (sg : Bool) (t : State) : Remote where
  slot := t.cur
  res := t.ri
  target := BitVec.ofNat 2 k.val
  off := x
  n := n
  write := write
  data := data
  rd := rd
  signed := sg
  done := 0
  low := 0
  queued := (t.xQueue rd).isSome
  fenced := false
  gang := t.rs.gang
  size := remoteSize t k
  at_ := t.core.cycle

/-! ## Vectors -/

/-- Element j of width w is active under a mask: its bit, or both of its bits at width 64 (R20, R128). -/
def laneOn (g : BitVec 16) (w j : Nat) : Prop :=
  if w = 64 then g.getLsbD (2 * j) = true ∧ g.getLsbD (2 * j + 1) = true else g.getLsbD (j * w / 32) = true

/-- The bits of an element of width w as a two's-complement value (R8). -/
def signedLane (w x : Nat) : Int := if 2 * x < 2 ^ w then (x : Int) else (x : Int) - 2 ^ w

/-- v is the merge of f on the active elements of width w, modulo 2^w, with the elements of old elsewhere (R60, R128). -/
def merged (w : Nat) (g : BitVec 16) (old v : VWord) (f : Nat → Int) : Prop :=
  ∀ j < 512 / w, (laneOn g w j → (elem v w j : Int) = f j % 2 ^ w) ∧ (¬ laneOn g w j → elem v w j = elem old w j)

/-- The VALU instructions with two vector sources: vd, the sources, the width, the mask, and the value of an element (R133). -/
def laneRule2 : Instr → Option (Reg × Reg × Reg × Nat × MaskField × (Nat → Nat → Int))
  | .vadd a b c w m => some (a, b, c, elemWidth w, m, fun x y => x + y)
  | .vsub a b c w m => some (a, b, c, elemWidth w, m, fun x y => x - y)
  | .vmul a b c w m => some (a, b, c, elemWidth w, m, fun x y => x * y)
  | .vmulh a b c w m => some (a, b, c, elemWidth w, m, fun x y => signedLane (elemWidth w) x * signedLane (elemWidth w) y / 2 ^ elemWidth w)
  | .vand a b c w m => some (a, b, c, elemWidth w, m, fun x y => ((x &&& y : Nat) : Int))
  | .vor a b c w m => some (a, b, c, elemWidth w, m, fun x y => ((x ||| y : Nat) : Int))
  | .vxor a b c w m => some (a, b, c, elemWidth w, m, fun x y => ((x ^^^ y : Nat) : Int))
  | .vsll a b c w m => some (a, b, c, elemWidth w, m, fun x y => x * 2 ^ (y % elemWidth w))
  | .vsrl a b c w m => some (a, b, c, elemWidth w, m, fun x y => x / 2 ^ (y % elemWidth w))
  | .vsra a b c w m => some (a, b, c, elemWidth w, m, fun x y => signedLane (elemWidth w) x / 2 ^ (y % elemWidth w))
  | .vmin a b c w m => some (a, b, c, elemWidth w, m, fun x y => min (signedLane (elemWidth w) x) (signedLane (elemWidth w) y))
  | .vmax a b c w m => some (a, b, c, elemWidth w, m, fun x y => max (signedLane (elemWidth w) x) (signedLane (elemWidth w) y))
  | .vminz a b c w m => some (a, b, c, elemWidth w, m, fun x y => min x y)
  | .vmaxz a b c w m => some (a, b, c, elemWidth w, m, fun x y => max x y)
  | _ => none

/-- Those with one: VABS and VSAT (R133, R134). -/
def laneRule1 : Instr → Option (Reg × Reg × Nat × MaskField × (Nat → Int))
  | .vabs a b w m => some (a, b, elemWidth w, m, fun x => |signedLane (elemWidth w) x|)
  | .vsat a b k w m => some (a, b, elemWidth w, m, fun x =>
      max (-(2 ^ k.toNat)) (min (2 ^ k.toNat - 1) (signedLane (elemWidth w) x)))
  | _ => none

/-- The integer comparisons (R134). -/
def compareRule : Instr → Option (Reg × Reg × Reg × Nat × MaskField × (Nat → Nat → Prop))
  | .vceq a b c w m => some (a, b, c, elemWidth w, m, fun x y => x = y)
  | .vclt a b c w m => some (a, b, c, elemWidth w, m, fun x y => signedLane (elemWidth w) x < signedLane (elemWidth w) y)
  | .vclo a b c w m => some (a, b, c, elemWidth w, m, fun x y => x < y)
  | _ => none

/-- Element k of width w lies in the group of mask bit j (R20, R134). -/
def inGroup (w j k : Nat) : Prop := if w = 64 then k = j / 2 else k * w / 32 = j

/-- The moves with two vector sources (R136): the value of element j from the two sources. -/
def moveRule2 : Instr → Option (Reg × Reg × Reg × Nat × MaskField × (VWord → VWord → Nat → Nat))
  | .vshuf a b c w m => some (a, b, c, elemWidth w, m, fun x y j =>
      if elem y (elemWidth w) j < 512 / elemWidth w then elem x (elemWidth w) (elem y (elemWidth w) j) else 0)
  | .vzip a b c w m => some (a, b, c, elemWidth w, m, fun x y j =>
      if j % 2 = 0 then elem x (elemWidth w) (j / 2) else elem y (elemWidth w) ((j - 1) / 2))
  | .vuzp a b c w m => some (a, b, c, elemWidth w, m, fun x y j =>
      if j < 512 / elemWidth w / 2 then elem x (elemWidth w) (2 * j) else elem y (elemWidth w) (2 * (j - 512 / elemWidth w / 2)))
  | _ => none

/-- The mask instructions with a mask destination and mask sources (R139). -/
def maskRule : Instr → Option (Reg × (Stream → BitVec 16))
  | .mand a b c => some (a, fun t => t.getM (reg8 b) &&& t.getM (reg8 c))
  | .mor a b c => some (a, fun t => t.getM (reg8 b) ||| t.getM (reg8 c))
  | .mxor a b c => some (a, fun t => t.getM (reg8 b) ^^^ t.getM (reg8 c))
  | .mnot a b => some (a, fun t => ~~~(t.getM (reg8 b)))
  | _ => none

/-- A floating instruction on the elements of one, two or three sources: vd, the sources in the order in which they are read, the mask, and the
result and flags of an element in a rounding mode (R55 to R58, R135). -/
def floatRule : Instr → Option (Reg × List Reg × MaskField × (RMode → List Nat → Nat × BitVec 5))
  | .vfadd a b c m => some (a, [b, c], m, fun r l => fadd32 r (l.getD 0 0) (l.getD 1 0))
  | .vfsub a b c m => some (a, [b, c], m, fun r l => fsub32 r (l.getD 0 0) (l.getD 1 0))
  | .vfmul a b c m => some (a, [b, c], m, fun r l => fmul32 r (l.getD 0 0) (l.getD 1 0))
  | .vfma a b c m => some (a, [b, c, a], m, fun r l => ffma32 r (l.getD 0 0) (l.getD 1 0) (l.getD 2 0))
  | .vfms a b c m => some (a, [b, c, a], m, fun r l => ffma32 r (l.getD 0 0) (l.getD 1 0) (fneg32 (l.getD 2 0)))
  | .vfmin a b c m => some (a, [b, c], m, fun _ l => fminmax32 false (l.getD 0 0) (l.getD 1 0))
  | .vfmax a b c m => some (a, [b, c], m, fun _ l => fminmax32 true (l.getD 0 0) (l.getD 1 0))
  | .vfabs a b m => some (a, [b], m, fun _ l => (l.getD 0 0 % 2 ^ 31, 0))
  | .vfneg a b m => some (a, [b], m, fun _ l => (l.getD 0 0 ^^^ 2 ^ 31, 0))
  | .vfrcp a b m => some (a, [b], m, fun r l => frcp32 r (l.getD 0 0))
  | .vfrsq a b m => some (a, [b], m, fun r l => frsq32 r (l.getD 0 0))
  | .vfexp a b m => some (a, [b], m, fun r l => fexp32 r (l.getD 0 0))
  | _ => none

/-- The floating comparisons (R57, R135). -/
def floatCompareRule : Instr → Option (Reg × Reg × Reg × MaskField × (Nat → Nat → Bool × BitVec 5))
  | .vfceq a b c m => some (a, b, c, m, fceq32)
  | .vfclt a b c m => some (a, b, c, m, fcmp32 false)
  | .vfcle a b c m => some (a, b, c, m, fcmp32 true)
  | _ => none

/-- Reads vector sources in order: their values and the state after their pops (R21, R140). -/
def readsV : List Reg → State → List VWord → State → Prop
  | [], s, [], t => t = s
  | r :: rs, s, v :: vs, t => ∃ s1, popV r s = some (v, s1) ∧ readsV rs s1 vs t
  | _, _, _, _ => False

/-- The flags that the active 32-bit elements raise together (R59). -/
def raised (g : BitVec 16) (fl : BitVec 5) (f : Nat → BitVec 5) : Prop :=
  ∀ b < 5, fl.getLsbD b = true ↔ ∃ j < 16, laneOn g 32 j ∧ (f j).getLsbD b = true

/-- The flags that n elements raise together. -/
def raisedBy (fl : BitVec 5) (n : Nat) (f : Nat → BitVec 5) : Prop :=
  ∀ b < 5, fl.getLsbD b = true ↔ ∃ j < n, (f j).getLsbD b = true

/-- The active 32-bit elements of a vector. -/
def leaves (g : BitVec 16) (x : VWord) (j : Nat) : Option Nat := if g.getLsbD j then some (elem x 32 j) else none

/-- Node i of level k of the tree of R61 with R62's inactive inputs: none where no element below it is active. -/
def treeValue (f : Nat → Nat → Nat × BitVec 5) (leaf : Nat → Option Nat) : Nat → Nat → Option Nat
  | 0, i => leaf i
  | k + 1, i => match treeValue f leaf k (2 * i), treeValue f leaf k (2 * i + 1) with
    | some x, some y => some (f x y).1
    | some x, none => some x
    | none, y => y

/-- A node at or below node i of level k raises flag b (R59, R62). -/
def treeFlag (f : Nat → Nat → Nat × BitVec 5) (leaf : Nat → Option Nat) (b : Nat) : Nat → Nat → Prop
  | 0, _ => False
  | k + 1, i => treeFlag f leaf b k (2 * i) ∨ treeFlag f leaf b k (2 * i + 1)
    ∨ ∃ x y, treeValue f leaf k (2 * i) = some x ∧ treeValue f leaf k (2 * i + 1) = some y ∧ (f x y).2.getLsbD b = true

/-- A code of a VCVT names a format: code 12 only where the field of ox7 at bit lo is a B8 field with P other than 0 (R138). -/
def namesFormat (c : BitVec 4) (o : BitVec 128) (lo : Nat) : Prop :=
  c = 12 → o.toNat / 2 ^ lo % 16 = 12 ∧ o.toNat / 2 ^ (lo + 4) % 8 ≠ 0

/-- The format field that it names. -/
def namedFormat (c : BitVec 4) (o : BitVec 128) (lo : Nat) : BitVec 10 :=
  if c = 12 then BitVec.ofNat 10 (o.toNat / 2 ^ lo) else c.setWidth 10

/-- A vector load or store of one of the three kinds, with its operands as read (R129): the vector register, the element type, the mask, the base
offset and the addressing. -/
def vectorLoad (i : Instr) (a : Reg) (et : BitVec 4) (m : MaskField) (base : Int) (k : VecKind) (s t : State) : Prop :=
  (∃ b c x, i = .vld a b c et m ∧ popX b s = some (x, t) ∧ base = x.toNat + c.toInt * 64 ∧ k = .unit)
  ∨ (∃ b c x y s1, i = .vlds a b c et m ∧ popX b s = some (x, s1) ∧ popX c s1 = some (y, t) ∧ base = x.toNat ∧ k = .stride y.toInt)
  ∨ (∃ b c x y s1, i = .vldx a b c et m ∧ popX b s = some (x, s1) ∧ popV c s1 = some (y, t) ∧ base = x.toNat ∧ k = .index y)

/-- The same for a store, whose data v is read last. -/
def vectorStore (i : Instr) (a : Reg) (et : BitVec 4) (m : MaskField) (base : Int) (k : VecKind) (v : VWord) (s t : State) : Prop :=
  (∃ b c x s1, i = .vst a b c et m ∧ popX b s = some (x, s1) ∧ popV a s1 = some (v, t) ∧ base = x.toNat + c.toInt * 64 ∧ k = .unit)
  ∨ (∃ b c x y s1 s2, i = .vsts a b c et m ∧ popX b s = some (x, s1) ∧ popX c s1 = some (y, s2) ∧ popV a s2 = some (v, t)
    ∧ base = x.toNat ∧ k = .stride y.toInt)
  ∨ (∃ b c x y s1 s2, i = .vstx a b c et m ∧ popX b s = some (x, s1) ∧ popV c s1 = some (y, s2) ∧ popV a s2 = some (v, t)
    ∧ base = x.toNat ∧ k = .index y)

/-- The memory format of a typed vector access: that of the bank which holds its base offset, RAW out of range (R27, R130). -/
def baseFormat (s : State) (base : Int) : BitVec 10 :=
  if 0 ≤ base ∧ base < s.rs.spsize.toNat then s.core.bfmt[(physical s base) / 3072 % 16]'(Nat.mod_lt _ (by decide)) else 0

/-- Whether the elements of an access pass unconverted: the raw form, a RAW memory format, or two equal formats (R46, R130). -/
def unconverted (et : BitVec 4) (f : BitVec 10) : Bool := decide (et = 0) || decide (f.toNat % 16 = 0) || formatEq f (et.setWidth 10)

/-- The value and flags of register element j of a load whose memory element is b (R130). -/
def elementRead (s : State) (et : BitVec 4) (base : Int) (b : Nat) : Nat × BitVec 5 :=
  if unconverted et (baseFormat s base) then (b, 0)
  else convertElem (formatOf (baseFormat s base)) (formatOf (et.setWidth 10)) (rmode s.st.fmode) b

/-- The memory element and flags of register element b of a store (R130). -/
def elementWritten (s : State) (et : BitVec 4) (base : Int) (b : Nat) : Nat × BitVec 5 :=
  if unconverted et (baseFormat s base) then (b, 0)
  else convertElem (formatOf (et.setWidth 10)) (formatOf (baseFormat s base)) (rmode s.st.fmode) b

/-- The vector access of a shape as it has been issued, before its first bank access (R132). -/
def issued (t : State) (h : VecShape) (g : BitVec 16) (val : Nat → Nat) (fl : BitVec 5) (dest : Option VecDest) : VecRun :=
  ⟨t.cur, h.pieces g t.rs.spsize.toNat val, [], fl, dest⟩

/-- No vector access is under way. -/
def noRun (t : State) : State := { t with core := { t.core with vecRun := none } }

/-- The number that an exact finite value stands for. -/
def number : FVal → ℚ
  | .num n m e => (if n then -1 else 1) * m * (2 : ℚ) ^ e
  | _ => 0

/-- An FP32 pattern of a finite number (R45). -/
def finite32 (a : Nat) : Prop := a < 2 ^ 32 ∧ ∃ n m e, fp32Val a = .num n m e

/-- y and the flags fl are the nonzero number x rounded once to FP32 in mode r (R52, R54, R55): y is the nearest number of the mode, an even one at a
tie, or the infinity where the mode overflows to it; NX, OF and UF tell whether it is exact, overflows, or is tiny. -/
structure RoundsTo (r : RMode) (x : ℚ) (y : Nat) (fl : BitVec 5) : Prop where
  pattern : y < 2 ^ 32 ∧ y % 2 ^ 31 ≤ 0x7F800000 ∧ (2 ^ 31 ≤ y ↔ x < 0)
  infinite : y % 2 ^ 31 = 0x7F800000 ↔ (r = .rne ∧ 2 ^ 128 - 2 ^ 103 ≤ |x|) ∨ (r = .rup ∧ 2 ^ 128 - 2 ^ 104 < x)
    ∨ (r = .rdn ∧ x < -(2 ^ 128 - 2 ^ 104))
  down : r = .rdn → finite32 y → number (fp32Val y) ≤ x ∧ ∀ z, finite32 z → number (fp32Val z) ≤ x → number (fp32Val z) ≤ number (fp32Val y)
  up : r = .rup → finite32 y → x ≤ number (fp32Val y) ∧ ∀ z, finite32 z → x ≤ number (fp32Val z) → number (fp32Val y) ≤ number (fp32Val z)
  zero : r = .rtz → |number (fp32Val y)| ≤ |x| ∧ ∀ z, finite32 z → |number (fp32Val z)| ≤ |x| → |number (fp32Val z)| ≤ |number (fp32Val y)|
  near : r = .rne → finite32 y → ∀ z, finite32 z → |number (fp32Val y) - x| ≤ |number (fp32Val z) - x|
    ∧ (|number (fp32Val y) - x| = |number (fp32Val z) - x| → number (fp32Val z) ≠ number (fp32Val y) → y % 2 = 0)
  inexact : fl.getLsbD 0 = true ↔ ¬ (finite32 y ∧ number (fp32Val y) = x)
  overflow : fl.getLsbD 2 = true ↔ y % 2 ^ 31 = 0x7F800000 ∨ 2 ^ 128 ≤ |x|
  underflow : (fl.getLsbD 1 = true → fl.getLsbD 0 = true ∧ |x| < 1 / 2 ^ 126)
    ∧ (fl.getLsbD 0 = true → |x| < 1 / 2 ^ 126 - 1 / 2 ^ 150 → fl.getLsbD 1 = true)
  others : fl.getLsbD 3 = false ∧ fl.getLsbD 4 = false

/-! ## Wide multiplier -/

/-- A multiplier instruction that names the accumulators ns can start: the residency has a grant that holds them, no matrix command that has arrived and no
slice work stands before it, and a quad that has been joined has merged its pairs (R23, R143, R144, R150, R172). -/
def multGoes (ns : List Nat) (s : State) : Prop :=
  s.rs.accs ≠ 0 ∧ s.core.portQ = [] ∧ s.core.slew.work = [] ∧ (s.core.jm = 2 → s.core.slew.quadUnit = true) ∧ ∀ n ∈ ns, n < 64 ∧ n % 32 < s.rs.accs.toNat / 2

/-- The value of digits q_0, q_1, … of width w: Σ q_j × 2^(w × j) (R63). -/
def digitsValue (w : Nat) : List Int → Int
  | [] => 0
  | q :: qs => q + 2 ^ w * digitsValue w qs

/-- The pack instructions with their kind (R152, R155). -/
def packRule : Instr → Option (Reg × PackFn)
  | .packx b => some (b, .x)
  | .packy b => some (b, .y)
  | .packxf b => some (b, .xf)
  | .packyf b => some (b, .yf)
  | .packk b => some (b, .k)
  | _ => none

/-- The multiplies by one selector, with the accumulator: whether joined, and the register of the selector (R156, R157). -/
def multiplyRule : Instr → Option (Bool × AccNum × Reg)
  | .muls n b => some (false, n, b)
  | .mulj n b => some (true, n, b)
  | _ => none

/-- The other accumulators of the core are as before. -/
def otherAccs (ns : List Nat) (s t : State) : Prop := ∀ q : Fin 64, q.val ∉ ns → t.core.accs[q] = s.core.accs[q]

/-- u is t but for the core's accumulators and slew unit: a multiply's frame. -/
def onlyAccs (t u : State) : Prop := { u with core := { u.core with accs := t.core.accs, slew := t.core.slew } } = t

/-- One element x as pack_align leaves it under a scale exponent and a window of w bits: its integer, nearest with ties to even and clamped above, with a
fixed scale below too, and its code (R65, R154). -/
def alignedAs (w : Nat) (fixed : Bool) (sc : Int) (x : FVal) (d : Packed) : Prop :=
  d.scale = sc
  ∧ (x.isNan = true → d.q = 0 ∧ d.code = .nan)
  ∧ (∀ n, x = .inf n → d.q = 0 ∧ d.code = if n then .ninf else .pinf)
  ∧ (∀ n m e, x = .num n m e → m = 0 → d.q = 0 ∧ d.code = .zero)
  ∧ (∀ n m e, x = .num n m e → m ≠ 0 → d.code = (if n then .neg else .pos)
    ∧ ∃ z : Int, |(z : ℚ) - number x / 2 ^ sc| ≤ 1 / 2 ∧ (|(z : ℚ) - number x / 2 ^ sc| = 1 / 2 → z % 2 = 0)
      ∧ d.q = if fixed then max (-(2 ^ (w - 1))) (min z (2 ^ (w - 1) - 1)) else min z (2 ^ (w - 1) - 1))

/-- E is the exponent of a group: that of its greatest finite nonzero magnitude, or 0 where it has none (R65). -/
def groupExponent (xs : List FVal) (E : Int) : Prop :=
  (E = 0 ∧ ∀ x ∈ xs, number x = 0) ∨ ((∃ x ∈ xs, (2 : ℚ) ^ E ≤ |number x|) ∧ ∀ x ∈ xs, |number x| < (2 : ℚ) ^ (E + 1))

/-- ds is a group of elements after pack_align with a window of w bits and the scale of the descriptor, if it fixes one (R65, R154). -/
def alignedGroup (w : Nat) (fix : Option Int) (xs : List FVal) (ds : List Packed) : Prop :=
  ds.length = xs.length ∧ ∃ E, groupExponent xs E
    ∧ ∀ e ∈ xs.zip ds, alignedAs w fix.isSome (fix.getD (E - ((w : Int) - 2))) e.1 e.2

/-- The element of row m and column k of a pack's source (R42, R153). -/
def sourceElement (s : State) (p : PackDesc) (m k : Nat) : FVal := readElem (formatOf p.fmt) (packElem s s.ri p m k)

/-- A product of two codes sets the flag N, P or M (R68). -/
def setsN (x y : Code) : Prop :=
  x = .nan ∨ y = .nan ∨ ((x = .pinf ∨ x = .ninf) ∧ y = .zero) ∨ (x = .zero ∧ (y = .pinf ∨ y = .ninf))
/-- A product of which one factor is infinite, and which does not set N, is infinite with the sign of the product (R68). -/
def setsInf (x y : Code) (negative : Bool) : Prop :=
  ¬ setsN x y ∧ (x = .pinf ∨ x = .ninf ∨ y = .pinf ∨ y = .ninf)
    ∧ (decide (x = .neg ∨ x = .ninf) ^^ decide (y = .neg ∨ y = .ninf)) = negative

/-- The flags of digit d after the products of the given operands, each the side data of an X entry's digits and of a Y row's (R68). -/
def flagsAfter (steps : List (List Side × List Side)) (d : Nat) (old new : DigitSide) : Prop :=
  let some_ := fun (p : Code → Code → Prop) => ∃ e ∈ steps, ∃ i x y, e.1[i]? = some x ∧ i ≤ d ∧ e.2[d - i]? = some y ∧ p x.code y.code
  (new.n = true ↔ old.n = true ∨ some_ setsN) ∧ (new.p = true ↔ old.p = true ∨ some_ fun x y => setsInf x y false)
    ∧ (new.m = true ↔ old.m = true ∨ some_ fun x y => setsInf x y true)

/-! ## Engines, messages and system -/

/-- The tile instructions: rd, the descriptor's register and what they ask for (R175). -/
def tileRule : Instr → Option (Reg × Reg × EngKind)
  | .tld a b => some (a, b, .tld)
  | .tst a b => some (a, b, .tst)
  | .tlds a b => some (a, b, .tlds)
  | _ => none

/-- The row instructions (R187). -/
def rowRule : Instr → Option (Reg × Reg × EngKind)
  | .act b c => some (b, c, .act)
  | .pre b c => some (b, c, .pre)
  | _ => none

/-- A bank is refreshing or under repair (R188). -/
def bankAway (x : Bank) : Prop := x.busy = .refreshing ∨ ∃ r, x.busy = .repairing r ∨ x.busy = .refreshRepair r

/-- The send buffer of the running task; empty where there is none (R202). -/
def buffer (s : State) : List BufEntry := s.task.elim [] Task.sendBuf

/-- u is t with entries behind its send buffer, each with the cycle of its issue, and the sinks that they hold (R202, R209). -/
def Appended (es : List BufEntry) (t u : State) : Prop :=
  ∃ k, t.task = some k ∧
    let k' : Task := { k with sendBuf := k.sendBuf ++ es, ages := k.ages ++ es.map fun _ => t.core.cycle }
    u = (t.setTask k').setRs { (t.setTask k').rs with sinks := t.rs.sinks + (es.filter BufEntry.holdsSink).length }

/-- The running task's send buffer has room for n messages of which r ask for a reply (R202). -/
def sendRoom (n r : Nat) (s : State) : Prop := s.task ≠ none ∧ sendCount s + n ≤ 16 ∧ r ≤ s.sinksFree

/-- The one message that each of these instructions appends, from the operands as read: the header word or address, the data and the
destination (R200, R206, R210). t is the state after the operands are read. -/
def sendRule (i : Instr) (s t : State) (m : Msg) : Prop :=
  (∃ a b c v r h p d s1 s2, i = .send a b c v r ∧ popX b s = some (h, s1) ∧ popV c s1 = some (p, s2) ∧ popX a s2 = some (d, t)
    ∧ m = newMsg t (d.setWidth 32) v (decide (r = 1)) (BitVec.ofNat 16 (h.toNat / 2 ^ 16)) (BitVec.ofNat 8 (h.toNat / 2 ^ 8))
      (BitVec.ofNat 8 h.toNat) (min (h.toNat / 2 ^ 40 % 2 ^ 7) 64) p.toNat)
  ∨ (∃ b c h p s1, i = .reply b c ∧ popX b s = some (h, s1) ∧ popV c s1 = some (p, t)
    ∧ m = newMsg t (BitVec.ofNat 32 (h.toNat / 2 ^ 32)) 1 false (BitVec.ofNat 16 (h.toNat / 2 ^ 16)) (BitVec.ofNat 8 h.toNat) 0 64 p.toNat)
  ∨ (∃ a b r x k s1, i = .vread a b r ∧ popX b s = some (x, s1) ∧ popX a s1 = some (k, t)
    ∧ m = vaultRequest t 0xF0 x (decide (r = 1)) (BitVec.ofNat 16 (k.toNat / 2 ^ 16))
      [if k.toNat % 2 ^ 7 = 0 ∨ 56 < k.toNat % 2 ^ 7 then 56 else k.toNat % 2 ^ 7])
  ∨ (∃ b c r x v s1, i = .vwrite b c r ∧ popX b s = some (x, s1) ∧ popX c s1 = some (v, t)
    ∧ m = vaultRequest t 0xF1 x (decide (r = 1)) 0 [8, v.toNat])
  ∨ (∃ a b c r x v d s1 s2, i = .vamo a b c r ∧ popX b s = some (x, s1) ∧ popX c s1 = some (v, s2) ∧ popX a s2 = some (d, t)
    ∧ m = vaultRequest t 0xF2 x (decide (r = 1)) (BitVec.ofNat 16 (d.toNat / 2 ^ 16))
      [d.toNat % 2 ^ 5, v.toNat, (((d >>> 32).setWidth 32).signExtend 64 : Word).toNat])
  ∨ (∃ y b c x o s1, i = .signal y b c ∧ popX b s = some (x, s1) ∧ popX c s1 = some (o, t)
    ∧ m = { newMsg t (x.setWidth 32) 0 true 0 0 0xDF 16 (o.toNat % 2 ^ 16 + 2 ^ 64) with scope := y, sg := true })

/-- The doubleword of a task record of the current residency (R212). -/
def recordField (s : State) (off k : Nat) : Nat := readLE s.core.spad (s.rs.spbase.toNat + off + k) 8

/-- No quad-remote access of the current stream is under way. -/
def settled (s : State) : Prop := ∀ e ∈ s.core.remote, e.slot ≠ s.cur

/-- Nor is a vector access under way. -/
def atRest (s : State) : Prop := settled s ∧ s.core.vecRun = none

/-- The streams of the running task; 1 where there is none (R25). -/
def groupSize (s : State) : Nat := s.task.elim 1 fun k => ((List.range 4).filter fun i => k.slots.getLsbD i).length

/-- The system registers with their numbers and values; none for a number that R24 does not list (R24, R25, R27). -/
def systemValue (s : State) : Nat → Option Word
  | 0x000 => some (s.core.id.setWidth 64)
  | 0x001 => some (BitVec.ofNat 64 (s.core.id.toNat / 4 % 2 ^ 11))
  | 0x002 => some (BitVec.ofNat 64 (s.core.id.toNat / 2 ^ 13))
  | 0x004 => some (BitVec.ofNat 64 ((if s.st.qm then 2 ^ 8 else 0) + (groupSize s - 1) % 4 * 2 ^ 4
      + (match s.st.kind with
        | .L => 0
        | .A => 4
        | .E => 8) + s.cur.val))
  | 0x050 => some (s.task.elim 0 Task.budget)
  | 0x070 => some (BitVec.ofNat 64 ((buffer s).filter fun e => match e with
      | .fence _ => false
      | _ => true).length)
  | 0x071 => some (BitVec.ofNat 64 (min 255 (waitingFor s.core s.ri 2) * 2 ^ 16 + min 255 (waitingFor s.core s.ri 1) * 2 ^ 8
      + min 255 (waitingFor s.core s.ri 0)))
  | 0x003 => some (s.core.pkg.setWidth 64)
  | 0x010 => some (BitVec.ofNat 64 (s.rs.gen.toNat * 2 ^ 12 + s.rs.asid.toNat))
  | 0x011 => some (s.rs.spbase.setWidth 64)
  | 0x012 => some (s.rs.spsize.setWidth 64)
  | 0x013 => some s.rs.spflag
  | 0x030 => some (BitVec.ofNat 64 (s.core.jm.toNat * 2 ^ 24 + s.core.wy.toNat * 2 ^ 16 + s.core.wx.toNat * 2 ^ 8 + s.core.sq.toNat))
  | 0x038 => some (s.st.fmode.setWidth 64)
  | 0x039 => some (s.st.fflags.setWidth 64)
  | 0x040 => some (s.st.tlevel.setWidth 64)
  | 0x041 => some s.st.tvec
  | 0x042 => some s.st.traps[0].cause
  | 0x043 => some s.st.traps[0].epc
  | 0x044 => some s.st.traps[0].info
  | 0x045 => some s.st.traps[0].msg
  | 0x046 => some s.st.traps[1].cause
  | 0x047 => some s.st.traps[1].epc
  | 0x048 => some s.st.traps[1].info
  | 0x049 => some s.st.traps[1].msg
  | 0x04A => some s.st.tsave
  | 0x04B => some s.st.tsavelen
  | 0x051 => some (s.core.agelim.setWidth 64)
  | 0x060 => some s.mgr.tick
  | 0x061 => some s.core.cycle
  | 0x080 => some s.rs.raceinfo
  | 0x090 => some s.rs.jseq
  | 0x091 => some s.rs.jack
  | n => if 0x020 ≤ n ∧ n ≤ 0x02F then
      some (if s.rs.spsize.toNat ≤ (n - 0x020) * 3072 then 0
        else (s.core.bfmt[(s.rs.spbase.toNat / 3072 + (n - 0x020)) % 16]'(Nat.mod_lt _ (by decide))).setWidth 64)
    else none

/-- The residency's other streams are not running, so that the current stream's END ends the task (R15). -/
def lastStream (s : State) : Prop := ∀ j : SlotIx, j ≠ s.cur → s.streams[j].active = true → s.streams[j].res ≠ s.ri

/-- The quad-remote flag is set in some residency of the current residency's gang in the quad (R38). -/
def gangMarked (s : State) : Prop :=
  s.rs.quadRemote = true ∨ ∃ m ∈ s.quad.mates.toList, ∃ x ∈ m.residencies, x.gang = s.rs.gang ∧ x.quadRemote = true

/-- The END of the current stream would release a quad-mapped residency whose gang is marked (R37, R38). -/
def earlyEnd (s : State) : Prop := s.rs.quadMapped = true ∧ isLive (endOfStream s) s.ri = false ∧ gangMarked s

/-- An entry of a send buffer is an emission (R228). -/
def emission (e : BufEntry) : Bool := match e with
  | .emit _ _ _ => true
  | _ => false

/-- u is t after the record at off of the current residency, whose first doubleword is then w, has become ready: one that stands queued is marked for
re-arming, another joins the ready queue, or, while that is full or a chain stands behind it, the end of the chain (R39, R212, R213). -/
def readied (r : ResIx) (off w : Nat) (t u : State) : Prop :=
  off ∉ u.rs.armed
  ∧ (w / 2 ^ 49 % 2 = 1 → recordField u off 0 = w - w / 2 ^ 50 % 2 * 2 ^ 50 + 2 ^ 50 ∧ u.core.readyQ = t.core.readyQ)
  ∧ (w / 2 ^ 49 % 2 = 0 → (∀ o, t.rs.ovTail = some o → o % 64 = 0) → recordField u off 0 = w + 2 ^ 49
    ∧ (t.core.readyQ.length < 16 ∧ t.rs.ovHead = none →
      u.core.readyQ = t.core.readyQ ++ [⟨r, off, t.core.cycle.toNat⟩] ∧ u.rs.ovHead = none)
    ∧ (¬ (t.core.readyQ.length < 16 ∧ t.rs.ovHead = none) → u.core.readyQ = t.core.readyQ ∧ u.rs.ovHead = some (t.rs.ovHead.getD off)
      ∧ u.rs.ovTail = some off ∧ recordField u off 8 % 2 ^ 16 = 0xFFFF
      ∧ ∀ o, t.rs.ovTail = some o → o ≠ off → recordField u o 8 % 2 ^ 16 = off))

/-! ## Device steps -/

/-- u is t but for its slew unit and the slew regions. -/
def onlySlew (t u : State) : Prop :=
  { u with core := { u.core with slew := t.core.slew }, power := { u.power with regions := t.power.regions } } = t

/-- The weight of the grants that a region made in the three cycles before a cycle and in it (R339). -/
def windowSum (g : SlewRegion) (clock : Nat) : Nat := ((g.recent.filter (fun e => decide (clock < e.1 + 4))).map Prod.snd).sum

/-- Byte o of the reservation at which a pending access acts: this core's own, or a quad-mate's of the gang that issued it; 0 where it was out of range
when the access committed, or is so now (R28, R32, R120). -/
def targetByte (s : State) (e : Remote) (o : Nat) : Byte :=
  if e.size ≤ o then 0
  else if e.target = s.coreInQuad then
    (if o < s.res[e.res].spsize.toNat then readByte s.core.spad (s.res[e.res].spbase.toNat + o) else 0)
  else (mateRes s ⟨e.target.toNat, e.target.isLt⟩ e.gang).elim 0 (fun m => m.byte o)

/-- The reservation at which a pending access acts holds byte o, and did so when the access committed. -/
def targetHolds (s : State) (e : Remote) (o : Nat) : Prop :=
  o < e.size ∧ if e.target = s.coreInQuad then o < s.res[e.res].spsize.toNat
    else ∃ m, mateRes s ⟨e.target.toNat, e.target.isLt⟩ e.gang = some m ∧ o < m.spsize.toNat

/-- The bytes that a pending access has before it in one bank: its last bank access (R112). -/
def lastBank (e : Remote) : Prop :=
  ¬ (nextBank (e.off.toNat + e.done) < e.off.toNat + e.n ∧ nextBank (e.off.toNat + e.done) < e.size)

/-- u runs the activation that a descriptor names, with the word hdr in x3 and the words p in x4 to x7 of each of its streams; s is the state before
(R13, R14). -/
def started (s u : State) (r : ResIx) (trigger : Trigger) (d : Descriptor) (hdr : Word) (p : Nat → Word) : Prop :=
  (∃ k, u.res[r].task = some k ∧ k.trigger = trigger ∧ k.sendBuf = [] ∧ k.budget = s.res[r].budget)
  ∧ ∀ e ∈ taskStreams s.res[r] d, let t := u.streams[e.1]
    t.active = true ∧ t.res = r ∧ t.kind = e.2.1 ∧ t.pc = e.2.2.setWidth 64 ∧ t.tlevel = 0 ∧ t.loops = [] ∧ t.qm = false
    ∧ t.getX 2 = d.frame.setWidth 64 ∧ t.getX 3 = hdr ∧ (∀ k < 4, t.getX (BitVec.ofNat 5 (4 + k)) = p k)
    ∧ (∀ x : Reg, x.toNat < 2 ∨ 8 ≤ x.toNat → t.getX x = 0)

/-- The launch task of a residency starts: at the handler that a launch by message names, or at its image's entry, with the launch arguments (R285). -/
def launched (s u : State) (r : ResIx) : Prop :=
  started s u r .launch (if s.res[r].eh = true then s.res[r].role.handler s.res[r].hidx.toNat else ⟨0, s.res[r].role.entry.getD 0, 0, 2, 0⟩) 0
    (fun k => if h : k < 4 then s.res[r].args[k] else 0)

/-- The commands of the matrix port: the index, the right asked for, and what the command runs (R170). -/
def portRule : Instr → Option (Nat × Option Nat × (Msg → ResIx → State → Command))
  | .mcfg => some (0xE0, some 0, runMcfg)
  | .mpack => some (0xE1, some 1, runMpack)
  | .mmarCommand => some (0xE2, some 1, runMmar)
  | .mzero => some (0xE3, some 0, runMzero)
  | .mextr => some (0xE4, some 2, runMextr)
  | .mstat => some (0xE5, some 2, runMstat)
  | _ => none

/-! ## The tile engine and the vaults -/

/-- The queue of the tile engine is e, then rest. -/
def engHead (s : State) (e : EngOp) (rest : List EngOp) : Prop := s.core.engQ = e :: rest

/-- Byte o of a local space of a residency (R28, R176). -/
def localByte (s : State) (r : ResIx) (sp : Space) (o : Nat) : Byte :=
  match sp with
  | .xbuf => readByte s.core.xbuf o
  | .ybuf => readByte s.core.ybuf o
  | .spad => if o < s.res[r].spsize.toNat then readByte s.core.spad (s.res[r].spbase.toNat + o) else 0

/-- A column of the vaults is good: its vault is not lost, its beat meets no parity failure, and its two words are correctable (R263). -/
def columnGood (s : State) (a : Nat) : Prop :=
  lostVault a s = false ∧ s.vault.busBad.count (a / 16) = 0 ∧ a / 16 * 2 ∉ s.vault.bad ∧ a / 16 * 2 + 1 ∉ s.vault.bad

/-- The vault address of the next beat of an operation whose page has word w (R176, R267). -/
def beatPlace (e : EngOp) (w : Word) : Place := place w (beatVa e.desc e.beats % 2 ^ 18)

/-- The next beat of the head operation can move: it is at work on a page that it has checked, no earlier beat waits at its bank, the row is open with
nothing in progress, and the vault is not being copied to a spare quad (R178, R257, R397). -/
def beatGoes (s : State) (e : EngOp) (w : Word) : Prop :=
  e.isTile = true ∧ e.started = true ∧ e.ended = none ∧ e.faultWhy = 0 ∧ e.beats < tileBeats e.desc
  ∧ knownPage s e (pageOf (beatVa e.desc e.beats)) = some w ∧ vaultMoving s (beatPlace e w).vault = false
  ∧ (∀ b ∈ s.vault.beats, b.who.live s = true → b.vault = (beatPlace e w).vault → b.bank = (beatPlace e w).bankIx → b.who = .tile)
  ∧ ((beatPlace e w).vault = s.ownVault → beatReady s.vault.banks[(beatPlace e w).bankIx] (beatPlace e w).row = true)

/-- The access table of the core's own vault lets the operation move a beat: the right of a store or of a load (R371). -/
def beatAllowed (s : State) (e : EngOp) : Prop :=
  accessAllows s s.ownVault s.res[e.res].asid (if e.kind = .tst then 29 else 30) s.address = true

/-- A bank with nothing waiting: no row command, no refresh and no repair. -/
def quietBank (x : Bank) : Prop := x.want = [] ∧ x.refreshDue = false ∧ x.repairDue = none

/-- No copy of the leaf entry of a page that a quad's dirty log holds waits for its port or its bank (R277, R334). -/
def logGoes (s : State) (quad : BitVec 13) : Prop := ∀ e ∈ s.quad.dirtyLog, e.1 = quad → leafHeld e.2.1 e.2.2.1.toNat s = none

/-- The beats of a column meet no parity failure, and its vault is not lost (R263, R397). -/
def busGood (s : State) (a : Nat) : Prop := lostVault a s = false ∧ s.vault.busBad.count (a / 16) = 0

/-- No word of the vaults is uncorrectable, and no beat meets a parity failure. -/
def readable (s : State) : Prop := s.vault.bad = [] ∧ s.vault.busBad = [] ∧ s.resil.lostVaults = []

/-- The pages whose rows are filled with zeros as a word takes the place of another in a table, k levels above the leaves: those mapped anew that have
not been prepared for it (R414). -/
def zeroFilled (s : State) (k : Nat) (old new : Word) : List Word := (newLeaves s k old new).filter fun w => !prepared s w

/-- The words of a page in both translation buffers. -/
def inBuffers (s : State) (asid : Asid) (vpn : Vpn) (w : Word) : Prop :=
  (∃ e, bufFind s.vault.ctrlBuf asid vpn.toNat = some e ∧ e.word = w) ∧ (∃ e, bufFind s.vault.stackBuf asid vpn.toNat = some e ∧ e.word = w)

/-! ## The copy engine and the vault agents -/

/-- The device step that performs a copy command by its CMD (R190). -/
def copyEvent (cmd : Nat) (r : ResIx) (i : Instr) : Prop :=
  (cmd = 0 ∧ i = .copy r) ∨ (cmd = 1 ∧ i = .restripe r) ∨ (cmd = 2 ∧ i = .fill r) ∨ (cmd = 3 ∧ i = .hostrd r []) ∨ (cmd = 4 ∧ i = .hostwr r)
  ∨ (cmd = 5 ∧ i = .drain r) ∨ (5 < cmd ∧ i = .badCopyCommand r)

/-- The record at off heads the chain of a residency and may start: it is the chain's turn, nothing of the record has run, and no lock holds it
(R193). -/
def copyStarts (s : State) (r : ResIx) (off : Nat) (rec : BitVec 512) : Prop :=
  hasTurn r s = true ∧ chainHead s r = some (off, rec) ∧ s.quad.copyRun[r] = none ∧ recordWaits s r off = false

/-- The steps of the copy engine for a chain (R193). -/
def copyStep (r : ResIx) (i : Instr) : Prop :=
  (∃ cmd, copyEvent cmd r i) ∨ (∃ bytes, i = .hostrd r bytes) ∨ i = .chunkMove r ∨ i = .restripeSwitch r ∨ i = .copyCompletion r

/-- The record passes its descriptor checks (R190, R195). -/
def copyGood (s : State) (r : ResIx) (rec : BitVec 512) : Prop := copyBadBit (decide (s.res[r].accs ≠ 0)) rec = none

/-- The command at off has ended with a status, a detail and the bytes done (R193). -/
def copyEnded (u : State) (r : ResIx) (off st d done : Nat) : Prop :=
  ∃ c, u.quad.copyRun[r] = some c ∧ c.off = off ∧ c.ended = true ∧ c.status = BitVec.ofNat 8 st ∧ c.detail = BitVec.ofNat 8 d ∧ c.done = done

/-- The command c of the record at the head of a chain whose turn it is goes on: it starts now, or it is in progress with no fault, and bytes are left to
move (R193). -/
def copyGoes (s : State) (r : ResIx) (rec : BitVec 512) (c : CopyRun) : Prop :=
  hasTurn r s = true ∧ (∃ off, (copyStarts s r off rec ∧ copyGood s r rec ∧ c = CopyRun.fresh off)
    ∨ (chainHead s r = some (off, rec) ∧ s.quad.copyRun[r] = some c ∧ c.ended = false ∧ c.faultWhy = 0))
  ∧ c.done < crLen rec

/-- k more bytes of a command count as moved, and it ends DONE with the last of them (R190, R193). -/
def copyAdvanced (u : State) (r : ResIx) (rec : BitVec 512) (c : CopyRun) (k : Nat) (out : Option (List Byte)) : Prop :=
  ∃ c', u.quad.copyRun[r] = some c' ∧ c'.off = c.off ∧ c'.done = c.done + k ∧ c'.out = out
    ∧ (c'.ended = true ↔ crLen rec ≤ c.done + k) ∧ (c'.ended = true → c'.status = 0 ∧ c'.detail = 0)

/-- A unit of bytes is written at the destination of a command in a reservation: the first 16 of those due, those out of range are dropped, and no other byte
of the scratchpad changes (R28, R30, R233). -/
def unitWritten (s u : State) (r : ResIx) (rec : BitVec 512) (c : CopyRun) (due : List Byte) : Prop :=
  let at_ := s.res[r].spbase.toNat + crDst rec + c.done
  copyAdvanced u r rec c (min due.length 16) (if due.length ≤ 16 then none else some (due.drop 16)) ∧ u.vault = s.vault
  ∧ ∀ a, readByte u.core.spad a = (if at_ ≤ a ∧ a < at_ + min due.length 16 ∧ a < s.res[r].spbase.toNat + s.res[r].spsize.toNat then due.getD (a - at_) 0
      else readByte s.core.spad a)

/-- The bytes of the next unit of a command's source in a reservation; those out of range read as 0 (R28, R233). -/
def unitRead (s : State) (r : ResIx) (rec : BitVec 512) (c : CopyRun) : List Byte :=
  (List.range (min (crLen rec - c.done) 16)).map (fun i =>
    if crSrc rec + c.done + i < s.res[r].spsize.toNat then readByte s.core.spad (s.res[r].spbase.toNat + crSrc rec + c.done + i) else 0)

/-- A re-stripe is at work on a page: its record heads the chain, whose turn it is, and its run has set MIG for the page (R193, R279). -/
def restriping (s : State) (r : ResIx) (off : Nat) (rec : BitVec 512) (c : CopyRun) : Prop :=
  hasTurn r s = true ∧ chainHead s r = some (off, rec) ∧ crCmd rec = 1 ∧ s.quad.copyRun[r] = some c ∧ c.ended = false ∧ c.faultWhy = 0 ∧ c.moving = true

/-- The vault step of a request by its index (R206). -/
def agentEvent (h : BitVec 8) (i : Instr) : Prop :=
  (h = 0xF0 ∧ i = .agentVread none) ∨ (h = 0xF1 ∧ i = .agentVwrite none) ∨ (h = 0xF2 ∧ i = .agentVamo none) ∨ (h = 0xF3 ∧ i = .vfaddc none)
  ∨ (h = 0xF4 ∧ i = .vfence none)

/-- A request j stands at place i, waits at no fault and is not decided, and no earlier request of its index can go on (R236). -/
def agentTurn (s : State) (i : Nat) (j : AgentJob) : Prop :=
  s.net.agentQ[i]? = some j ∧ j.faultWhy = 0 ∧ j.status = 0
  ∧ ∀ k < i, (∀ x, s.net.agentQ[k]? = some x → x.m.hidx ≠ j.m.hidx) ∨ tryJob k s = none

/-- The translation of a request's page at the agent of its vault: through the controller's buffer where the vault is the core's own (R270). -/
def agentTranslates (s : State) (j : AgentJob) : Lookup × State :=
  if j.vault = s.ownVault then translate j.m.asid (pageOf (reqAddr j.m)) s else translateStack j.m.asid (pageOf (reqAddr j.m)) s

/-- The agent can take up a request: no earlier one of its source waits to be taken up there, its payload is good, its page with word w is translated,
permitted and not stale, a re-stripe is not moving its bytes, and the port of a vault to which it is forwarded and the access table let it pass (R208,
R236, R242, R334, R371). -/
def agentAccepts (s : State) (i : Nat) (j : AgentJob) (w : Word) (t : State) : Prop :=
  j.word = none ∧ behindSource i j s (fun x => x.word.isNone) = false ∧ badRequest j.m = false ∧ agentTranslates s j = (.ok w, t)
  ∧ permits w (reqNeeds j.m).1 (reqNeeds j.m).2 = true ∧ ((reqNeeds j.m).2 = true → epochStale t j.m.asid w = false)
  ∧ inMove t j.m.asid (pageOf (reqAddr j.m)) w (servedSpan t j.m w).1 (servedSpan t j.m w).2 = false
  ∧ (let v := (requestPlace t j.m.asid (pageOf (reqAddr j.m)) w (servedSpan t j.m w).1).vault
     (v = j.vault ∨ vaultGated t v = false) ∧ accessAllows t v j.m.asid (reqRight j.m) j.m.src = true)

/-- The request as the agent takes it up: with the word under which its bytes lie, and the columns that hold those it serves (R208, R242). -/
def takenUp (t : State) (j : AgentJob) (w : Word) : AgentJob :=
  let g := servedSpan t j.m w
  { j with
    word := some (holderWord t j.m.asid (pageOf (reqAddr j.m)) w g.1), span := g.2, served := g.2, left := reqColumns g.1 g.2 }

/-- Where the bytes of a request in the column at page offset c begin: offset and place (R208, R242). -/
def columnAt (s : State) (j : AgentJob) (w : Word) (c : Nat) : Nat × Place :=
  let lo := max c (reqAddr j.m % 2 ^ 18)
  (lo, requestPlace s j.m.asid (pageOf (reqAddr j.m)) w lo)

/-- How many bytes of a request lie in the column at page offset c. -/
def columnSpan (j : AgentJob) (c : Nat) : Nat := min (c + 16) (reqAddr j.m % 2 ^ 18 + j.span) - max c (reqAddr j.m % 2 ^ 18)

/-- The column at page offset c, the first that is left of a request, can move: no earlier beat waits at its bank, its row is open with nothing in progress,
a written page is not stale, and the column is good (R257, R263, R275). -/
def columnGoes (s : State) (j : AgentJob) (w : Word) (c : Nat) (rest : List Nat) : Prop :=
  j.word = some w ∧ j.left = c :: rest ∧ c < 2 ^ 18 ∧ ((reqNeeds j.m).2 = true → epochStale s j.m.asid w = false) ∧ columnGood s (columnAt s j w c).2.addr
  ∧ (let p := requestPlace s j.m.asid (pageOf (reqAddr j.m)) w c
     (∀ b ∈ s.vault.beats, b.who.live s = true → b.vault = p.vault → b.bank = p.bankIx → b.who = .agent j.id c)
     ∧ vaultMoving s p.vault = false ∧ (p.vault = s.ownVault → beatReady s.vault.banks[p.bankIx] p.row = true))

/-- A request has moved its column: it stands at its place with what it has become, or, with no column left, it is served: it leaves, and one of this core
completes internally (R206, R235). -/
def agentMoved (s u : State) (i : Nat) (j' : AgentJob) : Prop :=
  (j'.left ≠ [] → u.net.agentQ = s.net.agentQ.modify i (fun _ => j') ∧ u.net.completions = s.net.completions)
  ∧ (j'.left = [] → u.net.agentQ = s.net.agentQ.eraseIdx i ∧ u.net.completions = s.net.completions ++ (if j'.own then [j'] else []))

/-- A reply has set out: at this stack's interfaces, at the module by which it comes from another stack, or past this stack (R350). -/
def replySent (u : State) (vault : Nat) (a : Msg) : Prop :=
  if vault / 2 ^ 13 = u.ownStack then a ∈ u.net.inbound ++ u.net.leaving
  else (∃ k, arrivalModule u (vault / 2 ^ 13) (vault / 4 % 2 ^ 11) a.dest = some k ∧ a ∈ u.link.modules[k].inbox)
    ∨ arrivalModule u (vault / 2 ^ 13) (vault / 4 % 2 ^ 11) a.dest = none ∧ a ∈ u.net.mesh
/-! ## The network and the journal -/

/-- A message can enter the receive queue of a residency (R197, R198): the residency takes it, is neither killed nor saving, has a handler for it, and
its queue has room; it is neither a SIGNAL nor a reply. -/
def receives (s : State) (r : ResIx) (m : Msg) : Prop :=
  (List.finRange 4).find? (fun k => s.res[k].takes m) = some r ∧ s.res[r].killed = false ∧ s.res[r].state ≠ .saving
  ∧ m.hidx.toNat < 0xE0 ∧ s.quadOn = true ∧ decrements m = false ∧ m.vn ≠ 1 ∧ (s.res[r].role.handler m.hidx.toNat).kinds ≠ 0
  ∧ (s.core.rx m.vn.toNat).length < rxDepth m.vn.toNat

/-- No residency waits for its spilled mail, and none that is saving has mail to move (R317, R318). -/
def noMail (s : State) : Prop := ∀ r : ResIx, s.res[r].mail = false ∧ (s.res[r].state = .saving → holdsMail s r = false)

/-- A message for this core itself, not for a vault (R3, R197). -/
def forHere (s : State) (m : Msg) : Prop :=
  m.dest = s.address ∧ m.dest.toNat % 2 ^ 15 / 4 % 2 ^ 11 < 1600 ∧ toAgent m = false ∧ m.scope.toNat < 5

/-- The released entry at place i is the first, arrivals apart, that may leave, and no reply of the device goes before it (R204). -/
def leavesAt (s : State) (i : Nat) (x : Released) : Prop :=
  s.net.leaving = [] ∧ s.net.outbound[i]? = some x ∧ x.e.isBar = false ∧ mayLeave s i x = true
  ∧ ∀ k < i, ∀ y, s.net.outbound[k]? = some y → y.e.isBar = true ∨ mayLeave s k y = false

/-- The residency that is the context of an address space and generation (R197). -/
def contextAt (s : State) (asid : Asid) (gen : BitVec 4) : Option ResIx :=
  (List.finRange 4).find? (fun r => decide (s.res[r].state ≠ .free) && decide (s.res[r].asid = asid) && decide (s.res[r].gen = gen))
/-! ## Snapshots, launches and saves -/

/-- A mailbox command is served: the package is READY and no IMGLOAD is open (R364, R412). -/
def mailServed (s : State) : Prop := s.mgr.boot = .ready ∧ mailOpen s = false

/-- Vector 0 has been raised, or is pending where the table masks it (R363, R369). -/
def vectorRaised (s u : State) : Prop :=
  if vectorMasked s 0 = true then u.host.msix = s.host.msix ∧ 0 ∈ u.host.vectorsHeld
  else u.host.msix = s.host.msix ++ [0] ∧ u.host.vectorsHeld = s.host.vectorsHeld

/-- The mailbox holds an answer (R365), and vector 0 was raised if the command asked for it (R369). -/
def mailAnswered (irq : Bool) (status detail value : Nat) (s u : State) : Prop :=
  (u.host.mailboxes[s.host.mailAt]).status = mailStatus status detail value
  ∧ (irq = true → vectorRaised s u) ∧ (irq = false → u.host.msix = s.host.msix ∧ u.host.vectorsHeld = s.host.vectorsHeld)

/-- A page of an address space waits for its copy, can be reached now, and has a shingle and an entry of a copy table free for it (R334, R390, R391). -/
def pageWaits (s : State) (asid : Asid) (vpn : Vpn) (x : Snapshot) : Prop :=
  snapshotOf s asid = some x ∧ x.cut = true ∧ pageStale s asid vpn.toNat = true ∧ sel (leafWord s asid vpn.toNat) 60 1 = 0
  ∧ leafHeld asid vpn.toNat s = none ∧ shingleFree s (pageStack (leafWord s asid vpn.toNat)) = true ∧ copyFree s (pageStack (leafWord s asid vpn.toNat)) = true
  ∧ ∀ c ∈ s.resil.copying, ¬ (c.asid = asid ∧ c.vpn = vpn)

/-- A page stands at place i of the copy tables, first of its entries, while a snapshot of its address space is in progress (R390). -/
def pageCopied (s : State) (asid : Asid) (vpn : Vpn) (x : Snapshot) (i : Nat) (c : PageCopy) : Prop :=
  snapshotOf s asid = some x ∧ s.resil.copying[i]? = some c ∧ c.asid = asid ∧ c.vpn = vpn
  ∧ ∀ d ∈ s.resil.copying.take i, ¬ (d.asid = asid ∧ d.vpn = vpn)

/-- The steps that copy a page: of the page itself, and of a drain engine that has reached it (R390, R391). -/
def copyPageEvent (s : State) (asid : Asid) (vpn : Vpn) (i : Instr) : Prop :=
  i = .pageCopy asid vpn ∨ (i = .drainWalk asid vpn ∧ nextDrain s asid = some vpn.toNat)

/-- The front end of a ring takes record p, sealed for the ring's position, of the given MODE, from state s, which reading it leaves as t
(R286, R290). -/
def takes (ring : Fin 24) (mode : Nat) (p : BitVec 1024) (s t : State) : Prop :=
  nextRecord ring s = some (p, t) ∧ sealGood p t.mgr.rings[ring].ci = true ∧ pkMode p = mode

/-- What the front end checks before it places a record of a ring (R286). -/
def ringRefusal (ring : Fin 24) (p : BitVec 1024) (t : State) : Option Refused :=
  if pkMode p ≤ 1 then placeRefusal t p (deviceAsid ring t) else startRefusal t p

/-- The device step that acts on a record by its MODE (R286). -/
def modeEvent (ring : Fin 24) (at_ : Option Placement) (mode : Nat) (i : Instr) : Prop :=
  (mode = 0 ∧ i = .placeAndStart ring at_) ∨ (mode = 1 ∧ i = .placeOnly ring at_) ∨ (mode = 2 ∧ i = .start ring) ∨ (mode = 3 ∧ i = .cancel ring)

/-- A gang whose launch over several packages awaits its COMMIT (R296). -/
def awaits (s : State) (gang : BitVec 16) (g : Gang) : Prop := gangOf s gang = some g ∧ pendingGang g = true

/-- No gang of that number is in the gang table, nor a residency of it on this core that a reservation holds. -/
def gangGone (u : State) (gang : BitVec 16) : Prop := gangOf u gang = none

/-- A residency is killed, or its kill is due once its slice work has ended (R162, R308). -/
def killedOrDue (s u : State) (r : ResIx) : Prop :=
  (s.workOf r = false → u.res[r].killed = true) ∧ (s.workOf r = true → u.res[r].killDue ≠ none)

/-- The placement puts the gang on this core: its quads are those that the launch asks for and its cores hold this one, the core admits it, and the image has a role for it (R291 to
R293, R405). -/
def placedHere (s : State) (p : BitVec 1024) (a : Placement) (i : Image) (role : Role) : Prop :=
  quadsGood p a.quads = true ∧ s.core.id.toNat ∈ placedCores p s.core.pkg.toNat a.quads ∧ admits s p a = true
  ∧ imageOf s p = some i ∧ i.roleOf s.core.id.toNat = some role

/-- A residency may be saved: its work has stopped, no SIGNAL for it waits to be performed, its journal records are sealed and acknowledged, and its egress gate is empty (R311). -/
def saveSealed (s : State) (r : ResIx) : Prop :=
  saveReady s r = true ∧ (∀ m ∈ s.net.signals, s.res[r].takes m = false) ∧ s.res[r].journal.unsealed = [] ∧ s.res[r].jseq.toNat ≤ s.res[r].journal.covered.toNat ∧ s.res[r].journal.gate = []

/-- A residency is being saved, and its save has not stopped (R314, R315). -/
def saves (s : State) (r : ResIx) : Prop := s.res[r].state = .saving ∧ s.res[r].saveFaulted = false ∧ s.res[r].killed = false
/-! ## Power, links, the host and boot -/

/-- A module of the links works: it neither trains nor is dead (R355, R356). -/
def works (s : State) (m : Fin 8) : Prop := s.link.modules[m].training = false ∧ s.link.modules[m].dead = false

/-- A HOST_READ or HOST_WRITE, and the access that it begins under the window's entry (R365, R366). -/
def hostArrival (i : Instr) (s : State) (a : HostAccess) : Prop :=
  (∃ off len, i = .hostRead off len ∧ a = ⟨off, len.toNat, none, false, windowOf s off.toNat, 0, [], 0⟩)
  ∨ (∃ off bytes relaxed, i = .hostWrite off bytes relaxed ∧ a = ⟨off, bytes.length, some bytes, relaxed, windowOf s off.toNat, 0, [], 0⟩)

/-- An access is refused (R366): a read returns Unsupported Request, a write is counted, and no memory changes; it stands in no bank's queue. -/
def hostRefused (a : HostAccess) (s u : State) : Prop :=
  u.vault = { s.vault with beats := u.vault.beats } ∧ (a.data = none → u.host.readData = none) ∧ (a.data ≠ none → u.host.refusedWrites = s.host.refusedWrites + 1)

/-- Mailbox k is answered (R365). -/
def mailboxAnswered (k : Fin 4) (irq : Bool) (status detail value : Nat) (s u : State) : Prop :=
  (u.host.mailboxes[k]).status = mailStatus status detail value
  ∧ (irq = true → vectorRaised s u) ∧ (irq = false → u.host.msix = s.host.msix ∧ u.host.vectorsHeld = s.host.vectorsHeld)

/-- Where a packet of a flow of this stack goes (R358, R360): by a live path of one of its two ports; with both dead it crosses a module to a stack with a
live port, or waits to be sent again. -/
def packetSent (flow : Nat) (num : BitVec 32) (y : Msg) (s u : State) : Prop :=
  (portLive s (portAt s 0) = true ∨ portLive s (portAt s 1) = true →
    ∃ p path, (p = portAt s 0 ∨ p = portAt s 1) ∧ portLive s p = true ∧ path ∈ livePaths s p ∧ (flowOf u flow).paths = (flowOf s flow).paths ++ [(num, p, path)])
  ∧ (portLive s (portAt s 0) = false → portLive s (portAt s 1) = false →
    (∀ p, farPort s = some p → u = crossStack (p.val / 2) (endQuad y.dest) y s) ∧ (farPort s = none → u = s))

/-- The read of an image file that an IMGLOAD asks for (R409), and what it answers. -/
def imageRead (body : List Word) (s : State) : Served :=
  devRead (BitVec.ofNat 12 (bodyWord body 0)) (bodyWord body 1) (bodyWord body 2) (openMail s) (bodyWord body 2 + 1)

/-- The reserved bits of a mailbox body are zero (R365). -/
def bodyGood (masks : List Nat) (body : List Word) : Prop := reservedWord masks body = none

/-- A mailbox command with the masks of the bits that its body defines (R365). -/
def mailRule : Instr → Option (Bool × List Nat × List Word)
  | .ringcfg irq body => some (irq, [0x0FFF0F07, 2 ^ 48 - 1], body)
  | .cringcfg irq body => some (irq, [2 ^ 64 - 1, 15], body)
  | .wincfg irq body => some (irq, [255, 2 ^ 64 - 1], body)
  | .dmawcfg irq body => some (irq, [15, 0xEFFF000000000000, 2 ^ 64 - 1, 2 ^ 64 - 1], body)
  | .imgload irq body _ _ _ => some (irq, [0xFFF, 2 ^ 48 - 1, 2 ^ 64 - 1], body)
  | .imgdrop irq body => some (irq, [0xFF], body)
  | _ => none

/-- What the stack manager's write of a control register leaves (R4, R25, R272, R289, R293, R294, R310, R311, R317, R331, R370, R375,
R413). -/
def controlWritten (reg : ControlReg) (v : BitVec 128) (s u : State) : Prop :=
  match reg with
  | .occ => u.mgr.occ = if 4 ≤ fld v 0 5 ∧ fld v 0 5 ≤ 16 then v.setWidth 5 else s.mgr.occ
  | .agelim => u.core.agelim = v.setWidth 16
  | .root asid =>
      let filled := zeroFilled s 3 (rootOf s asid) (v.setWidth 64)
      let held := ∃ w ∈ filled, ∃ i < 2 ^ sel w 44 3, vaultGated s (pwVault w i) = true
      (copyOwed s asid 3 (rootOf s asid) = true ∨ held → u = s)
      ∧ (copyOwed s asid 3 (rootOf s asid) = false → ¬ held → rootOf u asid = v.setWidth 64
        ∧ (s.memoriesWf → ∀ a, ((∃ w ∈ filled, inPage w a = true) → readByte u.vault.mem a = 0)
          ∧ ((∀ w ∈ filled, inPage w a = false) → readByte u.vault.mem a = readByte s.vault.mem a)))
  | .access quad asid => accessEntry u quad asid = v.setWidth 32 &&& 0xFFE00000
  | .deviceRing k asid n => 4 ≤ n.toNat → n.toNat ≤ 12 → fld v 0 48 % 128 = 0 → ∀ j : Fin 24, j.val = 8 + k.val →
      u.mgr.rings[j] = ⟨true, v.setWidth 48, n, asid, 0, 0, 0, s.mgr.rings[j].doorbell⟩
  | .doorbell k asid => ∀ j : Fin 24, j.val = 8 + k.val → u.mgr.rings[j] = { s.mgr.rings[j] with doorbell := some (asid, v.setWidth 48) }
  | .qpwr q => (1640 ≤ q → u = s) ∧ (q < 1640 → fld v 0 2 = 0 → qpwr u q = { qpwr s q with bb := BitVec.ofNat 4 (fld v 8 4), err := (qpwr s q).err && decide (fld v 7 1 = 0) })
  | .dlLatch => u.mgr.dlhdr = none ∧ u.mgr.dlwhy = 0
  | .drain r => u.res[r] = if s.res[r].state = .running ∧ isVictim s r = true then { s.res[r] with state := .draining } else s.res[r]
  | .binding r => fld v 126 2 = 1 → fld v 60 4 < 8 → fld v 0 48 % 128 = 0 → u.res[r].journal.state = .bound
      ∧ u.res[r].journal.jid = BitVec.ofNat 16 (fld v 80 16) ∧ u.res[r].journal.lbase = BitVec.ofNat 48 (fld v 0 48)
      ∧ u.res[r].journal.pgen = BitVec.ofNat 8 (fld v 118 8)
  | .quadMap logical => (1640 ≤ fld v 0 11 ∨ 1600 ≤ logical.toNat → u = s)
      ∧ (fld v 0 11 < 1640 → logical.toNat < 1600 → physQuad u logical.toNat = fld v 0 11
        ∧ (s.memoriesWf → physQuad s logical.toNat ≠ fld v 0 11 → ∀ a < 2 ^ 27, readByte u.vault.mem ((quadNumber s logical.toNat).toNat * 2 ^ 27 + a)
          = readByte s.vault.mem (dramBlock s (fld v 0 11) * 2 ^ 27 + a)))
  | .bringUpDone => (s.mgr.boot = .bringup → bringUpGood s = true → u.mgr.boot = .ready) ∧ (s.mgr.boot ≠ .bringup ∨ bringUpGood s = false → u = s)
  | .spill asid gen => spillArea u asid gen = some (fld v 0 48)

/-! ## Words and steps -/

/-- Words with their sizes, written out field by field from bit 31 or 15 down by the spec's tables, and the instructions they stand for (R73, R75
to R82): add x1, x2, x3; addi x5, x6, −1; srai x7, x8, 40; beq x1, x2, −4; lwz x9, −8(x10); amocas.d x11, (x12), x13; vclt.8 m3, v1, v2;
vfma v4, v5, v6, m2; vcvt v1, v2 from code 5 to code 6; accz a40, 4; extr x3, a33, x4; tst x14, ox5; send x1, x2, v3, sys, rq;
signal 2, x5, x6; brk 0x25; beq x9, x0, +5 halfwords. -/
def specWords : List (Nat × Nat × Instr) :=
  [(32, 0b0000000000_00011_00010_00001_000000_1, .add 1 2 3),
   (32, 0b111111111111111_00110_00101_000010_1, .addi 5 6 0x7FFF),
   (32, 0b010_000000_101000_01000_00111_001001_1, .srai 7 40 8),
   (32, 0b111111111110_000_00010_00001_001100_1, .beq 1 2 0xFFE),
   (32, 0b111111111000_110_01010_01001_010000_1, .lwz 9 10 0xFF8),
   (32, 0b1_000000010_01101_01100_01011_010011_1, .amocas 11 12 13),
   (32, 0b10000_00_000_00010_00001_00011_010111_1, .vclt 3 1 2 0 0),
   (32, 0b0000011_010_00110_00101_00100_011000_1, .vfma 4 5 6 2),
   (32, 0b1010_00_0_101_0_0110_00010_00001_011001_1, .vcvt 1 6 5 2),
   (32, 0b0000100_100_00011_00000_01000_011011_1, .accz 40 3),
   (32, 0b0000000_101_00001_00100_00011_011110_1, .extr 3 33 4 1),
   (32, 0b0000001_000_00000_00101_01110_011111_1, .tst 14 5),
   (32, 0b0000000_1_10_00011_00010_00001_100011_1, .send 1 2 3 2 1),
   (32, 0b0000001_010_00110_00101_00000_100110_1, .signal 2 5 6),
   (32, 0b0000100_001_00101_00000_00000_101001_1, .brk 0x25),
   (16, 0b00000101_001_1011_0, .cBeq 1 5)]

/-- In state s the stream of slot k issues at the next step, with t left of the schedule (R11, R298): the schedule says so, or nothing is scheduled or due and it
is the streams' turn or the device cannot move; and the pick takes the slot. -/
def issues (s : State) (k : SlotIx) (t : State) : Prop :=
  ((∃ rest, s.schedule = .issue :: rest ∧ t = { s with schedule := rest })
    ∨ (s.schedule = [] ∧ t = s ∧ firstEnabled urgentAttempts s = none ∧ (s.turn = false ∨ firstEnabled attempts s = none)))
  ∧ pickSlot t = some k

/-- The state in which the stream of slot k issues: it is the current one, and the upper halves of earlier accesses of the core are performed (R112, R127). -/
def issuing (t : State) (k : SlotIx) : State := finishHalves { t with cur := k }

/-- The stream that issues fetches (R26, R33, R224, R225, R304): no trap waits for it, and it owes no WDOG, or a TSPILL or TFILL of it is still in progress. -/
def fetches (s : State) (k : SlotIx) : Prop := s.st.due = none ∧ (owesWdog s k = false ∨ s.st.area ≠ none)

/-- The n bytes from region address a of the stream's image on lie in the region, are tagged as code and correct, and hold the word w
(R33, R72, R401). -/
def codeHolds (s : State) (a n w : Nat) : Prop :=
  a + n ≤ s.rs.regionEnd ∧ codeAt s a = true ∧ (n = 4 → codeAt s (a + 2) = true)
  ∧ (∀ k < n, (s.rs.istoreAddr a + k) / 8 ∉ s.quad.istoreBad) ∧ readList s.quad.istore (s.rs.istoreAddr a) n = wordBytes (n / 2) w

end Sys2Proof.Spec

open Sys2Proof Sys2Proof.Machine Sys2Proof.Spec

/-! ## Scalar and control instructions -/

/-- R94, R95: each of these writes to rd the value of its table, and goes on past itself. The compact forms have the same effect (R82). -/
def Sys2Proof.Spec.AluResults : Prop :=
  ∀ i a b c f s x y t, aluResult i = some (a, b, c, f) → reads2 a b c s x y t → fits i.len s →
    exec i s = .next (past i.len (writeX a (f x y) t))

/-- R94, R97, R98: the same for the instructions with one scalar source. -/
def Sys2Proof.Spec.OneSourceResults : Prop :=
  ∀ i a b f s x t, oneSourceResult i = some (a, b, f) → i.wellFormed = true → reads1 a b s x t → fits i.len s →
    exec i s = .next (past i.len (writeX a (f x) t))

/-- R95: with a divisor that is not zero, the divide and remainder members write the truncated quotient or the remainder. -/
def Sys2Proof.Spec.DivideResults : Prop :=
  ∀ i a b c w f s x y t, divResult i = some (a, b, c, w, f) → reads2 a b c s x y t → testedDivisor w y ≠ 0 → fits i.len s →
    exec i s = .next (past i.len (writeX a (f x y) t))

/-- R96: with a zero divisor they take DIVZERO, with TINFO the dividend, as though nothing had been popped. -/
def Sys2Proof.Spec.DivideByZeroTraps : Prop :=
  ∀ i a b c w f s x y t, divResult i = some (a, b, c, w, f) → reads2 a b c s x y t → testedDivisor w y = 0 → s.sliceBusy = false →
    exec i s = .next (takeTrap 0x08 s.st.pc x s)

/-- R95, R96: the multiply members of the group write the low or the high part of the product, and trap on no operands. -/
def Sys2Proof.Spec.MultiplyMembers : Prop :=
  ∀ (i : Instr) (a b c : Reg) (f : Word → Word → Word) (s t : State) (x y : Word),
    (i = .mul a b c ∧ f = (fun x y => x * y)) ∨ (i = .mulh a b c ∧ f = (fun x y => BitVec.ofInt 64 (x.toInt * y.toInt / 2 ^ 64)))
      ∨ (i = .mulhz a b c ∧ f = (fun x y => BitVec.ofNat 64 (x.toNat * y.toNat / 2 ^ 64)))
      ∨ (i = .mulw a b c ∧ f = (fun x y => (BitVec.ofNat 32 (x.toNat * y.toNat)).signExtend 64)) →
    reads2 a b c s x y t → fits i.len s → exec i s = .next (past i.len (writeX a (f x y) t))

/-- The results of the multiply and divide group, and the trap of a divisor of 0. -/
def Obligations.Divisions : Prop := DivideResults ∧ DivideByZeroTraps ∧ MultiplyMembers

/-- R99: LUI writes U and AUIPC writes PC + U. -/
def Sys2Proof.Spec.UpperImmediates : Prop :=
  ∀ (a : Reg) (i : BitVec 20) (s : State), roomX a s = true → fits 4 s →
    exec (.lui a i) s = .next (past 4 (writeX a (BitVec.ofInt 64 (BitVec.ofNat 32 (i.toNat * 2 ^ 12)).toInt) s))
    ∧ exec (.auipc a i) s = .next (past 4 (writeX a (s.st.pc + BitVec.ofInt 64 (BitVec.ofNat 32 (i.toNat * 2 ^ 12)).toInt) s))

/-- R100: a branch transfers when its condition holds of rs1 and rs2, and otherwise goes on; field b is read before field a (R21). -/
def Sys2Proof.Spec.Branches : Prop :=
  ∀ i a b o p s x y s1 t, branchRule i = some (a, b, o, p) → popX b s = some (y, s1) → popX a s1 = some (x, t) →
    (p x y → exec i s = .next (movedTo (s.st.pc + o) t)) ∧ (¬ p x y → fits i.len s → exec i s = .next (past i.len t))

/-- R101, R102: JAL and JALR write the address that follows them and transfer; a JALR with an odd target takes IALIGN instead. -/
def Sys2Proof.Spec.Jumps : Prop :=
  (∀ (a : Reg) (o : BitVec 20) (s : State), roomX a s = true →
    exec (.jal a o) s = .next (movedTo (s.st.pc + o.signExtend 64 * 2) (writeX a (s.st.pc + 4) s)))
  ∧ (∀ (o : BitVec 11) (s : State), exec (.cJ o) s = .next (movedTo (s.st.pc + o.signExtend 64 * 2) s))
  ∧ (∀ (a b : Reg) (i : BitVec 15) (s : State) (x : Word) (t : State), reads1 a b s x t →
    ((x + i.signExtend 64).getLsbD 0 = false →
      exec (.jalr a b i) s = .next (movedTo (x + i.signExtend 64) (writeX a (s.st.pc + 4) t)))
    ∧ ((x + i.signExtend 64).getLsbD 0 = true → s.sliceBusy = false →
      exec (.jalr a b i) s = .next (takeTrap 0x03 s.st.pc (x + i.signExtend 64) s)))

/-- Where a branch, a jump and a jump through a register go. -/
def Obligations.ControlTransfers : Prop := Branches ∧ Jumps

/-- R103: a LOOP whose count is not zero pushes a level, unless two are active or the body would end beyond the enclosing one; a LOOP whose
count is zero goes on at the end of its body, as after a fall-through. -/
def Sys2Proof.Spec.Loops : Prop :=
  ∀ (L : BitVec 10) (count : Word) (s t : State) (i : Instr),
    ((∃ a, i = .loop a L ∧ popX a s = some (count, t)) ∨ (∃ n : BitVec 10, i = .loopImm n L ∧ count = BitVec.ofNat 64 n.toNat ∧ t = s)) →
    (count ≠ 0 → s.st.loops = [] →
      exec i s = .next (t.setSt { t.st with
        pc := s.st.pc + 4, loops := [⟨s.st.pc + 4, s.st.pc + 4 + BitVec.ofNat 64 (2 * L.toNat), count⟩], wait := 0, stalled := false }))
    ∧ (∀ lv, count ≠ 0 → s.st.loops = [lv] → (s.st.pc + 4 + BitVec.ofNat 64 (2 * L.toNat)).toNat ≤ lv.stop.toNat →
      exec i s = .next (t.setSt { t.st with
        pc := s.st.pc + 4, loops := [⟨s.st.pc + 4, s.st.pc + 4 + BitVec.ofNat 64 (2 * L.toNat), count⟩, lv], wait := 0, stalled := false }))
    ∧ (∀ lv, count ≠ 0 → s.st.loops = [lv] → lv.stop.toNat < (s.st.pc + 4 + BitVec.ofNat 64 (2 * L.toNat)).toNat → s.sliceBusy = false →
      exec i s = .next (takeTrap 0x01 s.st.pc (BitVec.ofNat 64 (encode i)) s))
    ∧ (count ≠ 0 → 2 ≤ s.st.loops.length → s.sliceBusy = false →
      exec i s = .next (takeTrap 0x01 s.st.pc (BitVec.ofNat 64 (encode i)) s))
    ∧ (count = 0 → s.st.loops = [] →
      exec i s = .next (t.setSt { t.st with
        pc := s.st.pc + 4 + BitVec.ofNat 64 (2 * L.toNat), wait := 0, stalled := false }))

/-- R104, R105: what follows an instruction inside a loop body: the next address, the start of the next pass, the way out after the last
pass, or the trap of a straddle, which waits for the stream's slice work (R162); and a transfer keeps exactly the levels whose body holds its target. -/
def Sys2Proof.Spec.LoopEnds : Prop :=
  (∀ (a : Word) (n : Nat), fallThrough a n [] = ([], a + BitVec.ofNat 64 n, false))
  ∧ (∀ (a : Word) (n : Nat) (lv : Loop) (rest : List Loop), a.toNat < lv.stop.toNat → lv.stop.toNat < a.toNat + n →
    fallThrough a n (lv :: rest) = (rest, a + BitVec.ofNat 64 n, true))
  ∧ (∀ (a : Word) (n : Nat) (lv : Loop) (rest : List Loop), ¬ (a.toNat < lv.stop.toNat ∧ lv.stop.toNat < a.toNat + n) →
    a + BitVec.ofNat 64 n ≠ lv.stop → fallThrough a n (lv :: rest) = (lv :: rest, a + BitVec.ofNat 64 n, false))
  ∧ (∀ (a : Word) (n : Nat) (lv : Loop) (rest : List Loop), ¬ (a.toNat < lv.stop.toNat ∧ lv.stop.toNat < a.toNat + n) →
    a + BitVec.ofNat 64 n = lv.stop →
    (1 < lv.remaining.toNat → fallThrough a n (lv :: rest) = ({ lv with remaining := lv.remaining - 1 } :: rest, lv.start, false))
    ∧ (lv.remaining.toNat ≤ 1 → fallThrough a n (lv :: rest) = fallThrough a n rest))
  ∧ (∀ (i : Instr) (s : State), ¬ fits i.len s →
    (s.sliceBusy = false →
      retire i s = .next (takeTrap 0x01 (s.st.pc + BitVec.ofNat 64 i.len) (BitVec.ofNat 64 (encode i)) (past i.len s)))
    ∧ (s.sliceBusy = true → ∃ u, retire i s = .next u
      ∧ u.st.due = some (0x01, s.st.pc + BitVec.ofNat 64 i.len, BitVec.ofNat 64 (encode i)) ∧ u.st.tlevel = s.st.tlevel))
  ∧ (∀ (t : Word) (lv : Loop) (rest : List Loop),
    keepLoops t (lv :: rest) = if lv.start.toNat ≤ t.toNat ∧ t.toNat < lv.stop.toNat then lv :: rest else keepLoops t rest)

/-- How a loop level is pushed, repeated and left. -/
def Obligations.LoopRules : Prop := Loops ∧ LoopEnds

/-- R107: LIT writes the little-endian doubleword at its target when all of it lies in the image region; otherwise it takes IBOUND. The
first clause holds where no word of the store that it reads is uncorrectable (log entry 14). -/
def Sys2Proof.Spec.Literals : Prop :=
  ∀ (a : Reg) (o : BitVec 20) (s : State), roomX a s = true →
    let t := s.st.pc + o.signExtend 64 * 2
    (t.toNat + 8 ≤ s.rs.regionEnd → s.quad.istoreBad = [] → fits 4 s →
      exec (.lit a o) s = .next (past 4 (writeX a (BitVec.ofNat 64 (readLE s.quad.istore (s.rs.istoreAddr t.toNat) 8)) s)))
    ∧ (s.rs.regionEnd < t.toNat + 8 → s.sliceBusy = false → exec (.lit a o) s = .next (takeTrap 0x04 s.st.pc t s))

/-- The results of the scalar instructions that read no memory and transfer no control (R94 to R102). -/
def Obligations.ScalarResults : Prop := AluResults ∧ OneSourceResults ∧ UpperImmediates ∧ Literals

/-- R93: no member reads or writes any state other than its registers; the same of the immediate forms. Whenever one of these answers a next
state (it may also wait for a queue), everything but rd, the queues that it names and the program counter is as before. -/
def Sys2Proof.Spec.ScalarFrames : Prop :=
  ∀ i a s t, scalarDest i = some a → fits i.len s → exec i s = .next t →
    RegisterFrame (· = a) noReg noIx noIx False False s t

/-- R19, R20: x0 reads as zero and m0 as all ones, and writes to them are discarded; any other register reads as written and leaves the
others alone. -/
def Sys2Proof.Spec.RegisterFiles : Prop :=
  (∀ (t : Stream) (v : Word), t.getX 0 = 0 ∧ t.putX 0 v = t)
  ∧ (∀ (t : Stream) (r q : Reg) (v : Word), r ≠ 0 → (t.putX r v).getX r = v ∧ (q ≠ r → (t.putX r v).getX q = t.getX q))
  ∧ (∀ (t : Stream) (v : BitVec 16), t.getM 0 = 0xFFFF ∧ t.putM 0 v = t)
  ∧ (∀ (t : Stream) (i j : Fin 8) (v : BitVec 16), i ≠ 0 → (t.putM i v).getM i = v ∧ (j ≠ i → (t.putM i v).getM j = t.getM j))

/-- R21, R18: while QM is 1, a read of x28 to x31 pops the oldest entry of its queue and stalls when it is empty, and a write pushes behind
the newest and stalls when eight are present; with QM 0 the names are registers. -/
def Sys2Proof.Spec.ScalarQueues : Prop :=
  ∀ (s : State) (k : Task) (q : Fin 4) (r : Reg) (v : Word), s.task = some k → scalarQueue r = some q → s.core.remote = [] →
    (s.st.qm = true →
      (k.sq[q] = [] → popX r s = none)
      ∧ (∀ x rest, k.sq[q] = x :: rest → popX r s = some (x, s.setTask { k with sq := vset k.sq q rest }))
      ∧ (roomX r s = decide (k.sq[q].length < 8))
      ∧ (writeX r v s = s.setTask { k with sq := vset k.sq q (k.sq[q] ++ [v]) }))
    ∧ (s.st.qm = false → popX r s = some (s.st.getX r, s) ∧ roomX r s = true ∧ writeX r v s = s.setSt (s.st.putX r v))

/-- R112 to R114: a load writes its n bytes, extended as its name says, to rd, after SPFLAG and the granule records of its access; where its bytes lie
in two banks it has read the lower one, and the rest awaits its turn. -/
def Sys2Proof.Spec.LoadResults : Prop :=
  ∀ i a off n f s t, loads i a off n f s t →
    (¬ crosses off n t → exec i s = .next (past i.len (writeX a (f (spadRd t off n)) (accessed false (byteRange off n) t))))
    ∧ (crosses off n t → exec i s = .next (past i.len
        (awaiting (halfOf t off n false 0 a (signs i) (spadRd t off (nextBank off.toNat - off.toNat))) (accessed false (byteRange off n) t))))

/-- R6, R28: what an access reads is little-endian, byte by byte from the reservation, and zero for a byte out of range. -/
def Sys2Proof.Spec.ReadBytes : Prop :=
  ∀ (s : State) (off : Int) (n k : Nat), k < n →
    (inside s (off + k) → BitVec.ofNat 8 (spadRd s off n / 2 ^ (8 * k)) = readByte s.core.spad (physical s (off + k)))
    ∧ (¬ inside s (off + k) → BitVec.ofNat 8 (spadRd s off n / 2 ^ (8 * k)) = 0)
    ∧ spadRd s off n < 2 ^ (8 * n)

/-- What a load reads.
Where the rules leave a choice it is that of log entries 8 and 15. -/
def Obligations.LocalLoads : Prop := LoadResults ∧ ReadBytes

/-- R112, R113, R28: a store puts the low n bytes of its register at its offset, drops those out of range, and stores nowhere else; where its bytes
lie in two banks it has stored those of the lower one, and the rest awaits its turn.
Where the rules leave a choice it is that of log entries 8 and 15. -/
def Obligations.StoreResults : Prop :=
  ∀ i off n v s t, s.memoriesWf → stores i off n v s t → ∃ u, exec i s = .next (past i.len u)
    ∧ (¬ crosses off n t → Stored off n v t u) ∧ (crosses off n t → StoredHalf off n (BitVec.ofNat 64 v) t u)

/-- R117, R118: an atomic writes the old value to rd, sign-extended in a word form, and leaves the new one in memory.
Where the rules leave a choice it is that of log entries 15 and 49. -/
def Obligations.AtomicResults : Prop :=
  ∀ i a off n y e f s t, s.memoriesWf → atomics i a off n y e f s t → ∃ u,
    exec i s = .next (past i.len (writeX a (if n = 4 then (BitVec.ofNat 32 (spadRd t off n)).signExtend 64 else BitVec.ofNat 64 (spadRd t off n)) u))
    ∧ Stored off n (f (spadRd t off n) y e) t u

/-- R25, R28: SPFLAG takes the first access that has a byte out of range, with the lowest such offset, and keeps it; an access wholly in range
leaves it alone. -/
def Sys2Proof.Spec.RangeFlag : Prop :=
  ∀ (write : Bool) (offs : List Int) (s : State),
    ((∀ o ∈ offs, inside s o) ∨ s.rs.spflag.getLsbD 63 = true → (accessed write offs s).rs.spflag = s.rs.spflag)
    ∧ (∀ o ∈ offs, ¬ inside s o → (∀ p ∈ offs, ¬ inside s p → o ≤ p) → s.rs.spflag.getLsbD 63 = false →
      (accessed write offs s).rs.spflag = BitVec.ofNat 64 (2 ^ 63 + (if write then 2 ^ 62 else 0) + (o % 2 ^ 32).toNat))

/-- R123, R124: an access that has passed leaves this core as the writer, or among the readers, of every granule that it touches in range, and
every other granule as it was; a residency that is not quad-mapped keeps no records. -/
def Sys2Proof.Spec.GranuleRecords : Prop :=
  ∀ (write : Bool) (offs : List Int) (s : State) (g : Nat),
    let old := Table.get Granule.none s.rs.granules g
    let new := Table.get Granule.none (accessed write offs s).rs.granules g
    (s.rs.quadMapped = false ∨ (∀ o ∈ offs, inside s o → o.toNat / 256 ≠ g) → new = old)
    ∧ (s.rs.quadMapped = true → (∃ o ∈ offs, inside s o ∧ o.toNat / 256 = g) →
      new = if write then { old with writer := some s.coreInQuad } else { old with readers := old.readers ||| (1#4 <<< s.coreInQuad.toNat) })

/-- What an access to the scratchpad records. -/
def Obligations.AccessRecords : Prop := RangeFlag ∧ GranuleRecords

/-- R121, R122: a load or store with a byte that meets a range lock takes RLOCK, as though nothing had been popped; TINFO gives the write bit, the
core, the lowest entry that the lowest such offset meets, and that offset. -/
def Obligations.RangeLocks : Prop :=
  ∀ (i : Instr) (write : Bool) (off : Int) (n : Nat) (s t : State) (o : Nat) (k : Fin 8),
    ((write = false ∧ ∃ a b d x f, loadRule i = some (a, b, d, n, f) ∧ popX b s = some (x, t) ∧ roomX a t = true
        ∧ off = ((x + d.signExtend 64).toNat : Int))
      ∨ (write = true ∧ ∃ a b d x w s1, storeRule i = some (a, b, d, n) ∧ popX b s = some (x, s1) ∧ popX a s1 = some (w, t)
        ∧ off = ((x + d.signExtend 64).toNat : Int))) →
    fenceHolds t = false → s.sliceBusy = false →
    ((o : Int) ∈ byteRange off n) → inside t o → lockMeets t.core.locks write (physical t o) →
    (∀ p : Nat, p < o → (p : Int) ∈ byteRange off n → ¬ lockMeets t.core.locks write (physical t p)) →
    (∃ l, t.core.locks[k] = some l ∧ l.space = .spad ∧ (l.wr = true ∨ write = true) ∧ ∃ r ∈ l.ranges, r.1 ≤ physical t o ∧ physical t o < r.2) →
    (∀ j < k, ∀ l, t.core.locks[j] = some l → ¬ (l.space = .spad ∧ (l.wr = true ∨ write = true) ∧ ∃ r ∈ l.ranges, r.1 ≤ physical t o ∧ physical t o < r.2)) →
    exec i s = .next (takeTrap 0x15 s.st.pc
      (BitVec.ofNat 64 ((if write then 2 ^ 24 else 0) + t.coreInQuad.toNat * 2 ^ 20 + k.val * 2 ^ 16 + o)) s)

/-- The frames of loads, stores and atomics that go through: registers other than rd, flags, special and exception registers, other streams and
residencies, the device, and every byte of memory outside the bytes stored. -/
def Obligations.LocalFrames : Prop :=
  (∀ i a off n f s t u, loads i a off n f s t → exec i s = .next u →
    StreamFrame (· = a) noReg noIx noIx False False s u ∧ GroupFrame True s u ∧ DeviceFrame s u
    ∧ { u.core with remote := s.core.remote } = s.core ∧ (¬ crosses off n t → u.core = s.core)
    ∧ ∀ p, readByte u.core.spad p = readByte s.core.spad p)
  ∧ (∀ i off n v s t u, s.memoriesWf → stores i off n v s t → exec i s = .next u →
    StreamFrame noReg noReg noIx noIx False False s u ∧ GroupFrame True s u ∧ DeviceFrame s u
    ∧ { u.core with spad := s.core.spad, spadBad := s.core.spadBad, remote := s.core.remote } = s.core
    ∧ (¬ crosses off n t → u.core.remote = s.core.remote)
    ∧ ∀ p, (¬ ∃ k < n, inside s (off + k) ∧ p = physical s (off + k)) → readByte u.core.spad p = readByte s.core.spad p)
  ∧ (∀ i a off n y e f s t u, s.memoriesWf → atomics i a off n y e f s t → exec i s = .next u →
    StreamFrame (· = a) noReg noIx noIx False False s u ∧ GroupFrame True s u ∧ DeviceFrame s u
    ∧ { u.core with spad := s.core.spad, spadBad := s.core.spadBad } = s.core
    ∧ ∀ p, (¬ ∃ k < n, inside s (off + k) ∧ p = physical s (off + k)) → readByte u.core.spad p = readByte s.core.spad p)

/-- R115, R116: LQW, LQD, SQW and SQD. With the index of this core they are local accesses of their offset; in a residency that is not quad-mapped
a remote load reads zero and a remote store stores nothing; otherwise the access leaves for the reservation of its gang on the target, which a
later QUAD_REMOTE_PERFORM serves: SPFLAG and the target's granule records are updated, the residency is marked (R38), the program counter goes on, and
nothing else changes.
Where the rules leave a choice it is that of log entries 8 and 20. -/
def Obligations.QuadAccesses : Prop :=
  (∀ i a b c n f s x y s1 t, quadRule i = some (a, b, c, n, some f) → popX b s = some (x, s1) → popX c s1 = some (y, t) → roomX a t = true →
    fits i.len s →
    (y.setWidth 2 = t.coreInQuad → LocalGoes true false (byteRange x.toNat n) t →
      (¬ crosses x.toNat n t → exec i s = .next (past i.len (writeX a (f (spadRd t x.toNat n)) (accessed false (byteRange x.toNat n) t))))
      ∧ (crosses x.toNat n t → exec i s = .next (past i.len
        (awaiting (halfOf t x.toNat n false 0 a (signs i) (spadRd t x.toNat (nextBank x.toNat - x.toNat)))
          (accessed false (byteRange x.toNat n) t)))))
    ∧ (∀ k : Fin 4, y.setWidth 2 ≠ t.coreInQuad → k.val = y.toNat % 4 → RemoteGoes k false (byteRange x.toNat n) t →
      (t.rs.quadMapped = false → ∃ u, exec i s = .next (past i.len (writeX a 0 u)) ∧ u.setRs { u.rs with spflag := t.rs.spflag } = t
        ∧ remoteFlag k false 0 (byteRange x.toNat n) t.rs.spflag u.rs.spflag)
      ∧ (t.rs.quadMapped = true → ∃ u, RemoteMet k false (byteRange x.toNat n) t u
        ∧ exec i s = .next (past i.len (awaiting (leavingFor k x n false 0 a (signs i) t) u)))))
  ∧ (∀ i a b c n s x y v s1 s2 t, quadRule i = some (a, b, c, n, none) → popX b s = some (x, s1) → popX c s1 = some (y, s2) →
    popX a s2 = some (v, t) → s.memoriesWf → fits i.len s →
    (y.setWidth 2 = t.coreInQuad → LocalGoes false true (byteRange x.toNat n) t →
      ∃ u, exec i s = .next (past i.len u) ∧ (¬ crosses x.toNat n t → Stored x.toNat n v.toNat t u)
        ∧ (crosses x.toNat n t → StoredHalf x.toNat n v t u))
    ∧ (∀ k : Fin 4, y.setWidth 2 ≠ t.coreInQuad → k.val = y.toNat % 4 → RemoteGoes k true (byteRange x.toNat n) t →
      (t.rs.quadMapped = false → ∃ u, exec i s = .next (past i.len u) ∧ u.setRs { u.rs with spflag := t.rs.spflag } = t
        ∧ remoteFlag k true 0 (byteRange x.toNat n) t.rs.spflag u.rs.spflag)
      ∧ (t.rs.quadMapped = true → ∃ u, RemoteMet k true (byteRange x.toNat n) t u
        ∧ exec i s = .next (past i.len (awaiting (leavingFor k x n true v 0 false t) u)))))

/-- R217: OXL reads and OXS writes the sixteen bytes at the offset with its low four bits cleared; OXC replaces a halfword or a doubleword. -/
def Obligations.OperandExtensions : Prop :=
  (∀ (a b : Reg) (s t : State) (x : Word), popX b s = some (x, t) → fits 4 s →
    LocalGoes true false (byteRange ((16 * (x.toNat / 16) : Nat) : Int) 16) t →
    exec (.oxl a b) s = .next (past 4 (writeOx a (BitVec.ofNat 128 (spadRd t ((16 * (x.toNat / 16) : Nat) : Int) 16))
      (accessed false (byteRange ((16 * (x.toNat / 16) : Nat) : Int) 16) t))))
  ∧ (∀ (a b : Reg) (s t : State) (x : Word), popX b s = some (x, t) → fits 4 s → s.memoriesWf →
    LocalGoes false true (byteRange ((16 * (x.toNat / 16) : Nat) : Int) 16) t →
    ∃ u, exec (.oxs a b) s = .next (past 4 u) ∧ Stored ((16 * (x.toNat / 16) : Nat) : Int) 16 (t.oxv a).toNat t u)
  ∧ (∀ (a b c : Reg) (s t : State) (x : Word), (Instr.oxc a b c).wellFormed = true → popX b s = some (x, t) → fits 4 s →
    ∃ v, exec (.oxc a b c) s = .next (past 4 (writeOx a v t))
      ∧ ∀ k < 128, v.getLsbD k =
        if c.toNat < 8 then (if k / 16 = c.toNat then x.getLsbD (k % 16) else (t.oxv a).getLsbD k)
        else if k / 64 = c.toNat - 8 then x.getLsbD (k % 64) else (t.oxv a).getLsbD k)

/-- R60, R128, R133, R134: the integer vector instructions compute each active element modulo 2^w and keep the others; no flag changes. -/
def Obligations.VectorResults : Prop :=
  (∀ i a b c w m f s x y s1 t, laneRule2 i = some (a, b, c, w, m, f) → popV b s = some (x, s1) → popV c s1 = some (y, t) → roomV a t = true →
    fits 4 s →
    ∃ v, exec i s = .next (past 4 (writeV a v t)) ∧ merged w (t.mask m) (oldV a t) v (fun j => f (elem x w j) (elem y w j)))
  ∧ (∀ i a b w m f s x t, laneRule1 i = some (a, b, w, m, f) → i.wellFormed = true → popV b s = some (x, t) → roomV a t = true → fits 4 s →
    ∃ v, exec i s = .next (past 4 (writeV a v t)) ∧ merged w (t.mask m) (oldV a t) v (fun j => f (elem x w j)))

/-- R134: a comparison writes each bit of the mask whose elements are active: true when every element of its group satisfies the relation. VSEL
selects element by element and writes all of them. -/
def Sys2Proof.Spec.VectorCompares : Prop :=
  (∀ i a b c w m p s x y s1 t, compareRule i = some (a, b, c, w, m, p) → popV b s = some (x, s1) → popV c s1 = some (y, t) → fits 4 s →
    ∃ g, exec i s = .next (past 4 (writeM (reg8 a) g t)) ∧ ∀ j < 16,
      ((∃ k, inGroup w j k ∧ laneOn (t.mask m) w k) → (g.getLsbD j = true ↔ ∀ k < 512 / w, inGroup w j k → p (elem x w k) (elem y w k)))
      ∧ ((¬ ∃ k, inGroup w j k ∧ laneOn (t.mask m) w k) → g.getLsbD j = (t.st.getM (reg8 a)).getLsbD j))
  ∧ (∀ a b c m s x y s1 t, popV b s = some (x, s1) → popV c s1 = some (y, t) → roomV a t = true → fits 4 s →
    ∃ v, exec (.vsel a b c m) s = .next (past 4 (writeV a v t))
      ∧ ∀ j < 16, elem v 32 j = if (t.mask m).getLsbD j then elem x 32 j else elem y 32 j)

/-- R136: the moves. -/
def Sys2Proof.Spec.VectorMoves : Prop :=
  (∀ i a b c w m f s x y s1 t, moveRule2 i = some (a, b, c, w, m, f) → popV b s = some (x, s1) → popV c s1 = some (y, t) → roomV a t = true →
    fits 4 s →
    ∃ v, exec i s = .next (past 4 (writeV a v t)) ∧ merged w (t.mask m) (oldV a t) v (fun j => f x y j))
  ∧ (∀ a b w m s x t, popX b s = some (x, t) → roomV a t = true → fits 4 s →
    ∃ v, exec (.vbcast a b w m) s = .next (past 4 (writeV a v t)) ∧ merged (elemWidth w) (t.mask m) (oldV a t) v (fun _ => x.toNat))
  ∧ (∀ a b c w s x y s1 t, popV b s = some (x, s1) → popX c s1 = some (y, t) → roomX a t = true → fits 4 s →
    exec (.vmvx a b c w) s = .next (past 4 (writeX a
      (if y.toNat < 512 / elemWidth w then BitVec.ofInt 64 (signedLane (elemWidth w) (elem x (elemWidth w) y.toNat)) else 0) t)))
  ∧ (∀ a b c w m s x y s1 t, popV b s = some (x, s1) → popX c s1 = some (y, t) → roomV a t = true → fits 4 s →
    ∃ v, exec (.vslide a b c w m) s = .next (past 4 (writeV a v t)) ∧ merged (elemWidth w) (t.mask m) (oldV a t) v (fun j =>
      if 0 ≤ (j : Int) + y.toInt ∧ (j : Int) + y.toInt < 512 / elemWidth w then elem x (elemWidth w) ((j : Int) + y.toInt).toNat else 0))

/-- R61, R62, R137: VREDS leaves the sum of the active elements modulo 2^w in element 0, VREDM their signed maximum or the least value, and zero
in every other bit. -/
def Sys2Proof.Spec.IntegerReductions : Prop :=
  ∀ (a b : Reg) (w : BitVec 2) (m : MaskField) (s : State) (x : VWord) (t : State), popV b s = some (x, t) → roomV a t = true → fits 4 s →
    (∃ v : VWord, exec (.vreds a b w m) s = .next (past 4 (writeV a v t))
      ∧ v.toNat = ((List.range (512 / elemWidth w)).map
          (fun j => if active (t.mask m) (elemWidth w) j then elem x (elemWidth w) j else 0)).sum % 2 ^ elemWidth w)
    ∧ (∃ v : VWord, exec (.vredm a b w m) s = .next (past 4 (writeV a v t)) ∧ v.toNat < 2 ^ elemWidth w
      ∧ (∀ j < 512 / elemWidth w, laneOn (t.mask m) (elemWidth w) j →
          signedLane (elemWidth w) (elem x (elemWidth w) j) ≤ signedLane (elemWidth w) v.toNat)
      ∧ ((∃ j < 512 / elemWidth w, laneOn (t.mask m) (elemWidth w) j ∧ v.toNat = elem x (elemWidth w) j)
        ∨ ((∀ j < 512 / elemWidth w, ¬ laneOn (t.mask m) (elemWidth w) j) ∧ v.toNat = 2 ^ (elemWidth w - 1))))

/-- What the permutations and the integer reductions of a vector give. -/
def Obligations.VectorRearrangements : Prop := VectorMoves ∧ IntegerReductions

/-- R139: the mask instructions. -/
def Sys2Proof.Spec.MaskResults : Prop :=
  (∀ i a f s, maskRule i = some (a, f) → fits 4 s → exec i s = .next (past 4 (writeM (reg8 a) (f s.st) s)))
  ∧ (∀ (a b : Reg) (s : State), roomX a s = true → fits 4 s →
    exec (.mpop a b) s = .next (past 4 (writeX a
      (BitVec.ofNat 64 ((List.range 16).filter (fun k => (s.st.getM (reg8 b)).getLsbD k)).length) s)))
  ∧ (∀ (a b : Reg) (s t : State) (x : Word), popX b s = some (x, t) → fits 4 s →
    exec (.mset a b) s = .next (past 4 (writeM (reg8 a) (x.setWidth 16) t)))

/-- What vector compares and mask instructions leave in mask registers. -/
def Obligations.VectorMasks : Prop := VectorCompares ∧ MaskResults

/-- R55 to R59, R135: a floating instruction computes each active element in the mode of FMODE, keeps the others, and ORs the flags of the active
elements into FFLAGS. VFMA and VFMS read vd last. VFABS and VFNEG change bit 31 only and raise nothing (R56). -/
def Sys2Proof.Spec.FloatResults : Prop :=
  (∀ i a rs m f s vs t, floatRule i = some (a, rs, m, f) → readsV rs s vs t → roomV a t = true → fits 4 s →
    ∃ v fl, exec i s = .next (past 4 (writeV a v (orFlags fl t)))
      ∧ merged 32 (t.mask m) (oldV a t) v (fun j => (f (rmode t.st.fmode) (vs.map (fun x => elem x 32 j))).1)
      ∧ raised (t.mask m) fl (fun j => (f (rmode t.st.fmode) (vs.map (fun x => elem x 32 j))).2))
  ∧ (∀ i a b c m f s x y s1 t, floatCompareRule i = some (a, b, c, m, f) → popV b s = some (x, s1) → popV c s1 = some (y, t) → fits 4 s →
    ∃ g fl, exec i s = .next (past 4 (writeM (reg8 a) g (orFlags fl t)))
      ∧ (∀ j < 16, g.getLsbD j = if (t.mask m).getLsbD j then (f (elem x 32 j) (elem y 32 j)).1 else (t.st.getM (reg8 a)).getLsbD j)
      ∧ raised (t.mask m) fl (fun j => (f (elem x 32 j) (elem y 32 j)).2))

/-- R55: the sum, the difference, the product and the fused product and sum of finite numbers are the exact result rounded once; an exact result of
zero is the zero that the signs of its terms give. R55 to R58: NaNs, infinities, zeros and the special cases of the table of R58, in every rounding mode. -/
def Sys2Proof.Spec.FloatSpecialCases : Prop :=
  (∀ r a b c, finite32 a → finite32 b → finite32 c →
    let x := number (fp32Val a)
    let y := number (fp32Val b)
    let z := number (fp32Val c)
    let negative := fun (p : Nat) => decide (2 ^ 31 ≤ p)
    let zero := fun (p q : Bool) (both : Prop) [Decidable both] =>
      if both ∧ p = q then (if p then 2 ^ 31 else 0, (0 : BitVec 5)) else (if r = .rdn then 2 ^ 31 else 0, 0)
    (x + y ≠ 0 → RoundsTo r (x + y) (fadd32 r a b).1 (fadd32 r a b).2)
    ∧ (x + y = 0 → fadd32 r a b = zero (negative a) (negative b) (x = 0))
    ∧ (x - y ≠ 0 → RoundsTo r (x - y) (fsub32 r a b).1 (fsub32 r a b).2)
    ∧ (x - y = 0 → fsub32 r a b = zero (negative a) (!negative b) (x = 0))
    ∧ (x * y ≠ 0 → RoundsTo r (x * y) (fmul32 r a b).1 (fmul32 r a b).2)
    ∧ (x * y = 0 → fmul32 r a b = (if negative a = negative b then 0 else 2 ^ 31, 0))
    ∧ (x * y + z ≠ 0 → RoundsTo r (x * y + z) (ffma32 r a b c).1 (ffma32 r a b c).2)
    ∧ (x * y + z = 0 → ffma32 r a b c = zero (negative a ^^ negative b) (negative c) (z = 0)))
  ∧ (∀ r a b, a < 2 ^ 32 → b < 2 ^ 32 → (fp32Val a).isNan = true ∨ (fp32Val b).isNan = true →
    (fadd32 r a b).1 = 0x7FC00000 ∧ (fmul32 r a b).1 = 0x7FC00000
    ∧ ((fadd32 r a b).2 = if (fp32Val a).isSignalling || (fp32Val b).isSignalling then 16 else 0)
    ∧ ((fmul32 r a b).2 = if (fp32Val a).isSignalling || (fp32Val b).isSignalling then 16 else 0)
    ∧ fceq32 a b = (false, if (fp32Val a).isSignalling || (fp32Val b).isSignalling then 16 else 0)
    ∧ fcmp32 false a b = (false, 16) ∧ fcmp32 true a b = (false, 16))
  ∧ (∀ big a b, (fp32Val a).isNan = true →
    (fminmax32 big a b).1 = (if (fp32Val b).isNan then 0x7FC00000 else b) ∧ (fminmax32 big b a).1 = (if (fp32Val b).isNan then 0x7FC00000 else b))
  ∧ (∀ r, fadd32 r 0x7F800000 0xFF800000 = (0x7FC00000, 16) ∧ fmul32 r 0x7F800000 0 = (0x7FC00000, 16)
    ∧ (∀ q, ffma32 r 0x7F800000 0 q = (0x7FC00000, 16)))
  ∧ (∀ r z, z = 0 ∨ z = 0x80000000 → fadd32 r z z = (z, 0))
  ∧ (∀ r, fadd32 r 0 0x80000000 = (if r = .rdn then 0x80000000 else 0, 0))
  ∧ (∀ r a n m e, fp32Val a = .num n m e → 0 < m → fsub32 r a a = (if r = .rdn then 0x80000000 else 0, 0))
  ∧ (∀ r, frcp32 r 0 = (0x7F800000, 8) ∧ frcp32 r 0x80000000 = (0xFF800000, 8) ∧ frcp32 r 0x7F800000 = (0, 0)
    ∧ frcp32 r 0xFF800000 = (0x80000000, 0))
  ∧ (∀ r, frsq32 r 0 = (0x7F800000, 8) ∧ frsq32 r 0x80000000 = (0xFF800000, 8) ∧ frsq32 r 0x7F800000 = (0, 0)
    ∧ frsq32 r 0xFF800000 = (0x7FC00000, 16))
  ∧ (∀ r a m e, fp32Val a = .num true m e → 0 < m → frsq32 r a = (0x7FC00000, 16))
  ∧ (∀ r, fexp32 r 0 = (0x3F800000, 0) ∧ fexp32 r 0x80000000 = (0x3F800000, 0) ∧ fexp32 r 0x7F800000 = (0x7F800000, 0)
    ∧ fexp32 r 0xFF800000 = (0, 0))

/-- What the floating-point lane operations give, and their special cases. -/
def Obligations.FloatRules : Prop := FloatResults ∧ FloatSpecialCases

/-- R59, R61, R62, R137: VFREDS and VFREDM leave in element 0 the root of the four-level tree over the active elements, each node one FP32 operation in
the mode of FMODE, or the identity +0 or −inf where no element is active, zero in every other bit, and in FFLAGS the flags that the nodes raise. R50 to R54,
R138: VCVT converts as many elements as both formats hold, leaves zero above them and raises their flags; a code 12 takes its field from ox7, and takes
FMTBAD with the low half of ox7 where that is no B8 field. R51: its examples, in every rounding mode.
Where the rules leave a choice it is that of log entry 11. -/
def Obligations.FloatReductionsAndConversions : Prop :=
  (∀ (a b : Reg) (m : MaskField) (s : State) (x : VWord) (t : State), popV b s = some (x, t) → roomV a t = true → fits 4 s →
    (∃ v fl, exec (.vfreds a b m) s = .next (past 4 (writeV a v (orFlags fl t))) ∧ v.toNat < 2 ^ 32
      ∧ v.toNat = (treeValue (fadd32 (rmode t.st.fmode)) (leaves (t.mask m) x) 4 0).getD 0
      ∧ ∀ k < 5, fl.getLsbD k = true ↔ treeFlag (fadd32 (rmode t.st.fmode)) (leaves (t.mask m) x) k 4 0)
    ∧ (∃ v fl, exec (.vfredm a b m) s = .next (past 4 (writeV a v (orFlags fl t))) ∧ v.toNat < 2 ^ 32
      ∧ v.toNat = (treeValue (fminmax32 true) (leaves (t.mask m) x) 4 0).getD 0xFF800000
      ∧ ∀ k < 5, fl.getLsbD k = true ↔ treeFlag (fminmax32 true) (leaves (t.mask m) x) k 4 0))
  ∧ (∀ (a b : Reg) (d f : BitVec 4) (s : State) (x : VWord) (t : State), popV b s = some (x, t) → roomV a t = true → fits 4 s →
    (Instr.vcvt a d f b).wellFormed = true → namesFormat f t.st.ox[7] 0 → namesFormat d t.st.ox[7] 16 →
    let n := 512 / max (formatBits f.toNat) (formatBits d.toNat)
    let one := fun j => convertElem (formatOf (namedFormat f t.st.ox[7] 0)) (formatOf (namedFormat d t.st.ox[7] 16)) (rmode t.st.fmode)
      (elem x (formatBits f.toNat) j)
    ∃ v fl, exec (.vcvt a d f b) s = .next (past 4 (writeV a v (orFlags fl t)))
      ∧ (∀ j < n, elem v (formatBits d.toNat) j = (one j).1 % 2 ^ formatBits d.toNat)
      ∧ v.toNat < 2 ^ (formatBits d.toNat * n) ∧ raisedBy fl n (fun j => (one j).2))
  ∧ (∀ (a b : Reg) (d f : BitVec 4) (s : State) (x : VWord) (t : State), popV b s = some (x, t) → roomV a t = true → s.sliceBusy = false →
    ¬ (namesFormat f t.st.ox[7] 0 ∧ namesFormat d t.st.ox[7] 16) →
    exec (.vcvt a d f b) s = .next (takeTrap 0x0B s.st.pc (t.st.ox[7].setWidth 64) s))
  ∧ (∀ (r : RMode) (inf sat : Bool),
    let to8 := fun inf sat b => (convertElem (formatOf 11) ⟨12, 4, true, inf, sat⟩ r b).1
    to8 inf sat 0x3C23D70A = 0x0A ∧ to8 false sat 0x43750000 = 0x7F ∧ to8 false false 0x43780000 = 0x80 ∧ to8 false true 0x447A0000 = 0x7F
    ∧ to8 true false 0x447A0000 = 0x7F ∧ to8 true true 0x447A0000 = 0x7E ∧ to8 inf sat 0x80000000 = 0)

/-- R129, R130, R131: where element i of a vector access starts, its size in memory, and how many elements there are. -/
def Sys2Proof.Spec.VectorAddresses : Prop :=
  ∀ (s : State) (t : BitVec 4) (base : Int),
    let w := if t = 0 then 32 else formatBits t.toNat
    let fmt := if 0 ≤ base ∧ base < s.rs.spsize.toNat then (bits (s.core.bfmt[(physical s base) / 3072 % 16]'(Nat.mod_lt _ (by decide))).toNat 0 4) else 0
    let e := if t = 0 then 32 else if fmt = 0 then formatBits t.toNat else formatBits fmt
    (∀ k, (vecShape s t base k).n = 512 / w ∧ (vecShape s t base k).ebits = e)
    ∧ (∀ i < 512 / w, (vecShape s t base .unit).at_[i]? = some (base + ((i * e / 8 : Nat) : Int)))
    ∧ (∀ d, ∀ i < 512 / w, (vecShape s t base (.stride d)).at_[i]? = some (base + i * d))
    ∧ (∀ v, ∀ i < 512 / w, (vecShape s t base (.index v)).at_[i]? = some (base + ((elem v w i * max (e / 8) 1 : Nat) : Int)))

/-- R132, R142: the bank accesses of a vector access, in order: each lies in one bank; those of a unit stride are one for each bank, the lower bank
first; and together they are the bytes of the active elements that lie in the reservation. -/
def Sys2Proof.Spec.VectorPieces : Prop :=
  ∀ (s : State) (et : BitVec 4) (base : Int) (k : VecKind) (g : BitVec 16) (val : Nat → Nat),
    let h := vecShape s et base k
    let p := h.pieces g s.rs.spsize.toNat val
    h.ebits ≠ 0 → (∀ q ∈ p, q ≠ [] ∧ ∀ c ∈ q, ∀ d ∈ q, c.1 / 3072 = d.1 / 3072)
    ∧ (k = .unit → (p.map fun q => (q.headD (0, 0, 0)).1 / 3072).Pairwise (· < ·))
    ∧ (∀ o : Nat, (∃ q ∈ p, ∃ c ∈ q, c.1 = o) ↔ (o < s.rs.spsize.toNat ∧ (o : Int) ∈ h.offs g))

/-- R129, R130, R132: a vector load whose format is accepted and whose access goes through has its first bank access performed at once and the others
after it; once they all are, it has read, and where the formats differ converted, each active element, kept the others, and raised the flags of the
conversions. -/
def Sys2Proof.Spec.VectorLoads : Prop :=
  ∀ i a et m base k s t, vectorLoad i a et m base k s t → i.wellFormed = true → roomV a t = true → fits 4 s →
    vecFormatFault t (vecShape t et base k) (t.mask m) = none → LocalGoes true false ((vecShape t et base k).offs (t.mask m)) t →
    let h := vecShape t et base k
    let run := startVec (issued t h (t.mask m) (fun _ => 0) 0 (some ⟨a, et, t.mask m, h⟩)) (accessed false (h.offs (t.mask m)) t)
    let one := fun j => elementRead t et base
      (if h.ebits = 4 then spadRd t (h.at_.getD j 0) 1 / 2 ^ (4 * (j % 2)) % 16 else spadRd t (h.at_.getD j 0) (h.ebits / 8))
    exec i s = .next (past 4 run)
    ∧ ∃ v fl, finishVec run = writeV a v (orFlags fl (noRun (accessed false (h.offs (t.mask m)) t)))
      ∧ merged h.width (t.mask m) (oldV a t) v (fun j => (one j).1)
      ∧ ∀ b < 5, fl.getLsbD b = true ↔ ∃ j < h.n, laneOn (t.mask m) h.width j ∧ (one j).2.getLsbD b = true

/-- R129, R130, R132: a vector store whose format is accepted and whose access goes through has its first bank access performed at once and the others
after it; once they all are, each active element, converted where the formats differ, lies whole in its bytes, but for a byte that an element of higher
index has written after it, a half byte leaves the other half, no other byte has changed, and the flags of the conversions have joined FFLAGS. -/
def Sys2Proof.Spec.VectorStores : Prop :=
  ∀ i a et m base k v s t, vectorStore i a et m base k v s t → i.wellFormed = true → fits 4 s → s.memoriesWf →
    vecFormatFault t (vecShape t et base k) (t.mask m) = none →
    LocalGoes (decide ((vecShape t et base k).ebits = 4)) true ((vecShape t et base k).offs (t.mask m)) t →
    let h := vecShape t et base k
    let on := fun j => j < h.n ∧ laneOn (t.mask m) h.width j
    let from_ := fun j => h.at_.getD j 0
    let one := fun j => elementWritten t et base (elem v h.width j)
    ∃ val fl, exec i s = .next (past 4 (startVec (issued t h (t.mask m) val fl none) (accessed true (h.offs (t.mask m)) t)))
      ∧ (∀ b < 5, fl.getLsbD b = true ↔ ∃ j, on j ∧ (one j).2.getLsbD b = true)
      ∧ ∃ u, finishVec (startVec (issued t h (t.mask m) val fl none) (accessed true (h.offs (t.mask m)) t)) = orFlags fl u
        ∧ { u with core := { u.core with spad := t.core.spad, spadBad := t.core.spadBad } } = noRun (accessed true (h.offs (t.mask m)) t)
        ∧ (∀ w ∈ u.core.spadBad, w ∈ t.core.spadBad)
        ∧ (∀ p, (¬ ∃ o ∈ h.offs (t.mask m), inside t o ∧ p = physical t o) → readByte u.core.spad p = readByte t.core.spad p)
        ∧ (h.ebits ≠ 4 → ∀ j, on j → ∀ q : Nat, q < h.ebits / 8 → inside t (from_ j + q) →
          (∀ l, j < l → on l → ¬ (from_ l ≤ from_ j + q ∧ from_ j + q < from_ l + (h.ebits / 8 : Nat))) →
          readByte u.core.spad (physical t (from_ j + q)) = BitVec.ofNat 8 ((one j).1 / 2 ^ (8 * q)))
        ∧ (h.ebits = 4 → ∀ j < h.n, inside t (from_ j) →
          (readByte u.core.spad (physical t (from_ j))).toNat / 2 ^ (4 * (j % 2)) % 16 =
            if active (t.mask m) h.width j then (one j).1 % 16 else (readByte t.core.spad (physical t (from_ j))).toNat / 2 ^ (4 * (j % 2)) % 16)

/-- Where vector loads and stores go and what they move.
Where the rules leave a choice it is that of log entries 11 and 15. -/
def Obligations.VectorMemory : Prop := VectorAddresses ∧ VectorPieces ∧ VectorLoads ∧ VectorStores

/-- R21, R140: while QM is 1, v30 and v31 are the two vector queues of four entries. -/
def Sys2Proof.Spec.VectorQueues : Prop :=
  ∀ (s : State) (k : Task) (q : Fin 2) (r : Reg) (v : VWord), s.task = some k → vectorQueue r = some q →
    (s.st.qm = true →
      (k.vq[q] = [] → popV r s = none)
      ∧ (∀ x rest, k.vq[q] = x :: rest → popV r s = some (x, s.setTask { k with vq := vset k.vq q rest }))
      ∧ (roomV r s = decide (k.vq[q].length < 4))
      ∧ (writeV r v s = s.setTask { k with vq := vset k.vq q (k.vq[q] ++ [v]) }) ∧ oldV r s = 0)
    ∧ (s.st.qm = false → popV r s = some (s.st.v[regIx r], s) ∧ roomV r s = true
      ∧ writeV r v s = s.setSt { s.st with v := vset s.st.v (regIx r) v })

/-- What the register files hold, and what the queue aliases do. -/
def Obligations.RegistersAndQueues : Prop := RegisterFiles ∧ ScalarQueues ∧ VectorQueues

/-- The frames of the vector and mask instructions: only vd, or the mask named, and the queues; FFLAGS only in the floating ones; vector loads
and stores besides the bytes stored, SPFLAG and the granule records. -/
def Sys2Proof.Spec.VectorFrames : Prop :=
  (∀ i a s t, ((∃ b c w m f, laneRule2 i = some (a, b, c, w, m, f)) ∨ (∃ b w m f, laneRule1 i = some (a, b, w, m, f))
      ∨ (∃ b c w m f, moveRule2 i = some (a, b, c, w, m, f)) ∨ (∃ b c m, i = .vsel a b c m) ∨ (∃ b w m, i = .vbcast a b w m)
      ∨ (∃ b c w m, i = .vslide a b c w m) ∨ (∃ b w m, i = .vreds a b w m) ∨ (∃ b w m, i = .vredm a b w m)) →
    fits 4 s → exec i s = .next t → RegisterFrame noReg (· = a) noIx noIx False False s t)
  ∧ (∀ i a s t, (∃ rs m f, floatRule i = some (a, rs, m, f)) ∨ (∃ b m, i = .vfreds a b m) ∨ (∃ b m, i = .vfredm a b m) →
    fits 4 s → exec i s = .next t → RegisterFrame noReg (· = a) noIx noIx True False s t)
  ∧ (∀ i a s t, (∃ b c w m p, compareRule i = some (a, b, c, w, m, p)) ∨ (∃ f, maskRule i = some (a, f)) ∨ (∃ b, i = .mset a b) →
    fits 4 s → exec i s = .next t → RegisterFrame noReg noReg (· = reg8 a) noIx False False s t)
  ∧ (∀ i a s t, (∃ b c m f, floatCompareRule i = some (a, b, c, m, f)) →
    fits 4 s → exec i s = .next t → RegisterFrame noReg noReg (· = reg8 a) noIx True False s t)
  ∧ (∀ i a s t, (∃ b c w, i = .vmvx a b c w) ∨ (∃ b, i = .mpop a b) →
    fits 4 s → exec i s = .next t → RegisterFrame (· = a) noReg noIx noIx False False s t)
  ∧ (∀ i a et m base k s t u, vectorLoad i a et m base k s t → roomV a t = true → fits 4 s →
    vecFormatFault t (vecShape t et base k) (t.mask m) = none → LocalGoes true false ((vecShape t et base k).offs (t.mask m)) t →
    exec i s = .next u →
    StreamFrame noReg (· = a) noIx noIx True False s u ∧ GroupFrame True s u ∧ DeviceFrame s u ∧ { u.core with vecRun := s.core.vecRun } = s.core
    ∧ ∀ p, readByte u.core.spad p = readByte s.core.spad p)
  ∧ (∀ i a et m base k v s t u, vectorStore i a et m base k v s t → fits 4 s → s.memoriesWf →
    vecFormatFault t (vecShape t et base k) (t.mask m) = none →
    LocalGoes (decide ((vecShape t et base k).ebits = 4)) true ((vecShape t et base k).offs (t.mask m)) t → exec i s = .next u →
    StreamFrame noReg noReg noIx noIx True False s u ∧ GroupFrame True s u ∧ DeviceFrame s u
    ∧ { u.core with spad := s.core.spad, spadBad := s.core.spadBad, vecRun := s.core.vecRun } = s.core
    ∧ ∀ p, (¬ ∃ o ∈ (vecShape t et base k).offs (t.mask m), inside s o ∧ p = physical s o) → readByte u.core.spad p = readByte s.core.spad p)

/-- What the scalar and vector instructions leave unchanged. -/
def Obligations.RegisterFrames : Prop := ScalarFrames ∧ VectorFrames

/-- R149, R150: GUARD writes SQ, WX and WY; JOIN writes JM unless the quad is joined; ACCZ clears N to N + k and nothing else; QJOIN claims, and with
the fourth claim of a gang joins the quad; QLEAVE splits a joined quad or withdraws the claim. -/
def Sys2Proof.Spec.MultiplierConfiguration : Prop :=
  (∀ (b : Reg) (s t : State) (x : Word), popX b s = some (x, t) → multGoes [] t → fits 4 s →
    exec (.guard b) s = .next (past 4 { t with core := { t.core with
      sq := x.setWidth 5, wx := (x >>> 8).setWidth 7, wy := (x >>> 16).setWidth 7 } }))
  ∧ (∀ (j : BitVec 1) (s : State), multGoes [] s → s.core.jm ≠ 2 → fits 4 s →
    exec (.join j) s = .next (past 4 { s with core := { s.core with jm := j.setWidth 2 } }))
  ∧ (∀ (j : BitVec 1) (s : State), multGoes [] s → s.core.jm = 2 →
    exec (.join j) s = .next (takeTrap 0x0A s.st.pc (BitVec.ofNat 64 (2 ^ 63)) s))
  ∧ (∀ (n : AccNum) (k : BitVec 5) (s : State), multGoes ((List.range (k.toNat + 1)).map (fun i => n.toNat + i)) s → fits 4 s →
    ∃ u, exec (.accz n k) s = .next (past 4 u) ∧ { u with core := { u.core with accs := s.core.accs } } = s
      ∧ ∀ q : Fin 64, u.core.accs[q] = if n.toNat ≤ q.val ∧ q.val ≤ n.toNat + k.toNat then Acc.zero else s.core.accs[q])
  ∧ (∀ s : State, multGoes [] s → fits 4 s →
    (∀ k : Fin 4, k.val ≠ s.coreInQuad.toNat → mateMultiplies s k s.rs.gang = true) →
    ∃ u, exec .qjoin s = .next (past 4 u) ∧ u.quad.claim = true
      ∧ ((∀ k : Fin 4, k.val ≠ s.coreInQuad.toNat → s.quad.mates[k].claim = true) → u.core.jm = 2)
      ∧ ((∃ k : Fin 4, k.val ≠ s.coreInQuad.toNat ∧ s.quad.mates[k].claim = false) → u.core.jm = s.core.jm))
  ∧ (∀ s : State, multGoes [] s → fits 4 s →
    ∃ u, exec .qleave s = .next (past 4 u) ∧ u.quad.claim = false
      ∧ (s.core.jm = 2 → u.core.jm = 0 ∧ ∀ k : Fin 4, u.quad.mates[k].claim = false) ∧ (s.core.jm ≠ 2 → u.core.jm = s.core.jm))

/-- R143: an instruction of ops 0x1B to 0x1E that a residency without accumulators issues takes ILLOP with TINFO 64. -/
def Sys2Proof.Spec.MultiplierGrant : Prop :=
  ∀ (s : State), s.rs.accs = 0 → s.sliceBusy = false →
    (∀ j, exec (.join j) s = .next (takeTrap 0x01 s.st.pc 64 s))
    ∧ exec .qjoin s = .next (takeTrap 0x01 s.st.pc 64 s) ∧ exec .qleave s = .next (takeTrap 0x01 s.st.pc 64 s)
    ∧ (∀ n k, exec (.accz n k) s = .next (takeTrap 0x01 s.st.pc 64 s))
    ∧ (∀ d n, exec (.accmv d n) s = .next (takeTrap 0x01 s.st.pc 64 s))
    ∧ (∀ b, exec (.mmar b) s = .next (takeTrap 0x01 s.st.pc 64 s))
    ∧ (∀ b x t, popX b s = some (x, t) → exec (.guard b) s = .next (takeTrap 0x01 s.st.pc 64 s)
      ∧ ∀ n, exec (.muls n b) s = .next (takeTrap 0x01 s.st.pc 64 s) ∧ exec (.mulj n b) s = .next (takeTrap 0x01 s.st.pc 64 s)
        ∧ (∀ a, roomX a t = true → exec (.accrd a n b) s = .next (takeTrap 0x01 s.st.pc 64 s)
          ∧ exec (.extr a n b 1) s = .next (takeTrap 0x01 s.st.pc 64 s) ∧ exec (.extrf a n b 1) s = .next (takeTrap 0x01 s.st.pc 64 s))
        ∧ (∀ a, roomV a t = true → exec (.extr a n b 0) s = .next (takeTrap 0x01 s.st.pc 64 s)
          ∧ exec (.extrf a n b 0) s = .next (takeTrap 0x01 s.st.pc 64 s))
        ∧ (∀ a v u, popX a t = some (v, u) → exec (.accwr a n b) s = .next (takeTrap 0x01 s.st.pc 64 s)))
    ∧ (∀ i b f, packRule i = some (b, f) → fenceHolds s = false → exec i s = .next (takeTrap 0x01 s.st.pc 64 s))

/-- Configuring the wide multiplier, and the grant of accumulators.
Where the rules leave a choice it is that of log entry 20. -/
def Obligations.MultiplierSetup : Prop := MultiplierConfiguration ∧ MultiplierGrant

/-- R145, R152 to R155: a pack whose descriptor, configuration, format and window pass and whose source, in the scratchpad or in the destination's own
buffer, can be read writes its destination. An X entry or Y row that it writes holds what is stored in it in two's complement, and no other. -/
def Sys2Proof.Spec.Packs : Prop :=
  (∀ i b f s, packRule i = some (b, f) → multGoes [] s → fits 4 s →
    let d := s.oxv b
    let p := packDesc f d
    let w := if p.toY then s.core.wy.toNat else s.core.wx.toNat
    (if f = .k then groupFault s.core d else tileFault s.core f d) = none → packConfigGood s.core f = true →
    packAccepts f (bits p.fmt.toNat 0 4) = true → windowGood w (bits p.fmt.toNat 0 4) = true →
    (∀ k : Fin 8, ∀ l, s.core.locks[k] = some l → l.space = .spad) →
    (p.spad = true → LocalGoes true false ((packBytes p).map (fun (o : Nat) => (o : Int))) s →
      exec i s = .next (past 4 (packStore f p (packValues s s.ri f p w)
        (accessed false ((packBytes p).map (fun (o : Nat) => (o : Int))) s))))
    ∧ (p.spad = false → (∀ o ∈ packBytes p, o < bufSize p.toY → o / 8 ∉ bufBad s.core p.toY) →
      exec i s = .next (past 4 (packStore f p (packValues s s.ri f p w) s))))
  ∧ (∀ (r : Nat) (v : Int) (ds : List Packed) (q : Nat) (s : State), Memory.wf s.core.ybuf = true → r < 64 →
    rowValue (putRow r v ds q s).core r = (BitVec.ofInt 4096 v).toInt
    ∧ ∀ r', r' ≠ r → rowValue (putRow r v ds q s).core r' = rowValue s.core r')
  ∧ (∀ (e : Nat) (v : Int) (ds : List Packed) (q : Nat) (s : State), Memory.wf s.core.xbuf = true →
    entryValue (putEntry e v ds q s).core e = (BitVec.ofInt (entryWidth s.core) v).toInt
    ∧ ∀ e', e' ≠ e → entryValue (putEntry e v ds q s).core e' = entryValue s.core e')

/-- R64, R65, R154, R155: the elements of a pack: an integer stands for itself with the code of its sign and scale 0; the floating elements of a row, of
a column for PACKYF, or of a PACKK's group are aligned together. -/
def Sys2Proof.Spec.PackElements : Prop :=
  ∀ (s : State) (f : PackFn) (p : PackDesc) (w : Nat), packAccepts f (bits p.fmt.toNat 0 4) = true →
    let v := packValues s s.ri f p w
    let at_ := fun m k => (v.getD m []).getD k ⟨0, .zero, 0⟩
    v.length = p.rows ∧ (∀ l ∈ v, l.length = p.cols)
    ∧ (formatInt (bits p.fmt.toNat 0 4) = true → ∀ m < p.rows, ∀ k < p.cols,
      ((at_ m k).q : ℚ) = number (sourceElement s p m k) ∧ (at_ m k).scale = 0
        ∧ (at_ m k).code = if (at_ m k).q = 0 then .zero else if (at_ m k).q < 0 then .neg else .pos)
    ∧ (formatInt (bits p.fmt.toNat 0 4) = false → f ≠ .yf → ∀ m < p.rows,
      alignedGroup w p.fix ((List.range p.cols).map (sourceElement s p m)) ((List.range p.cols).map (at_ m)))
    ∧ (formatInt (bits p.fmt.toNat 0 4) = false → f = .yf → ∀ k < p.cols,
      alignedGroup w p.fix ((List.range p.rows).map fun m => sourceElement s p m k) ((List.range p.rows).map fun m => at_ m k))

/-- R63, R154, R155: what a pack writes of its elements v: a tile pack of X its elements, row by row, each in an entry of its own; a tile pack of Y each
row's digits in a row of Y; PACKK its digits, in reverse order under REV, in one entry or row; every other entry and row is as before. The first position of
each digit holds its code and its scale (R66, R148). -/
def Sys2Proof.Spec.PackStores : Prop :=
  ∀ (f : PackFn) (p : PackDesc) (v : List (List Packed)) (s : State), Memory.wf s.core.xbuf = true → Memory.wf s.core.ybuf = true →
    Table.wf Side.zero s.core.xside = true → Table.wf Side.zero s.core.yside = true → sqGood s.core = true →
    let u := packStore f p v s
    let value := fun (l : List Packed) => digitsValue (digitWidth s.core) (l.map Packed.q)
    let g := if p.rev = true then (v.headD []).reverse else v.headD []
    let entry := fun (e : Nat) (z : Int) => entryValue u.core e = (BitVec.ofInt (entryWidth s.core) z).toInt
    let row := fun (r : Nat) (z : Int) => rowValue u.core r = (BitVec.ofInt 4096 z).toInt
    (p.toY = false → rowValue u.core = rowValue s.core ∧ u.core.yside = s.core.yside)
    ∧ (p.toY = true → entryValue u.core = entryValue s.core ∧ u.core.xside = s.core.xside)
    ∧ (f ≠ .k → p.toY = false →
      (∀ i d, v.flatten[i]? = some d → entry (p.dst + i) d.q
        ∧ xSide u.core ((p.dst + i) * entryWidth s.core / 4) = ⟨d.code, d.scale⟩)
      ∧ ∀ e, (e < p.dst ∨ p.dst + v.flatten.length ≤ e) → entryValue u.core e = entryValue s.core e)
    ∧ (f ≠ .k → p.toY = true → (∀ l ∈ v, l.length ≤ rowDigits s.core) →
      (∀ i l, v[i]? = some l → row (p.dst + i) (value l)
        ∧ ∀ j d, l[j]? = some d → ySide u.core (1024 * (p.dst + i) + j * s.core.sq.toNat) = ⟨d.code, d.scale⟩)
      ∧ ∀ r, (r < p.dst ∨ p.dst + v.length ≤ r) → rowValue u.core r = rowValue s.core r)
    ∧ (f = .k → p.toY = false → g.length ≤ entryDigits s.core →
      entry p.dst (value g) ∧ (∀ e, e ≠ p.dst → entryValue u.core e = entryValue s.core e)
      ∧ ∀ j d, g[j]? = some d → xSide u.core (p.dst * entryWidth s.core / 4 + j * s.core.sq.toNat) = ⟨d.code, d.scale⟩)
    ∧ (f = .k → p.toY = true → g.length ≤ rowDigits s.core →
      row p.dst (value g) ∧ (∀ r, r ≠ p.dst → rowValue u.core r = rowValue s.core r)
      ∧ ∀ j d, g[j]? = some d → ySide u.core (1024 * p.dst + j * s.core.sq.toNat) = ⟨d.code, d.scale⟩)

/-- What the packs store: the elements that they align, and the entries and rows that they write.
Where the rules leave a choice it is that of log entries 17 and 44. -/
def Obligations.PackResults : Prop := Packs ∧ PackElements ∧ PackStores

/-- R67, R68, R69, R156, R157: a multiply that passes its checks adds the entry times the row to the accumulator, modulo 2^4352, adds its terms to the
count, gives each digit its exponent and its special flags, changes no other accumulator, and starts a unit of slice work. -/
def Sys2Proof.Spec.MultiplyResults : Prop :=
  ∀ i j n b s x t, multiplyRule i = some (j, n, b) → popX b s = some (x, t) → multGoes [n.toNat] t → fits 4 s →
    let e := x.toNat % 4096
    let r := x.toNat / 2 ^ 16 % 64
    let inc := if j then entryDigits t.core else 1
    let a := accOf t.core n.toNat
    e < entryCount t.core → guardGood t.core = true → (t.core.jm = 1 → n.toNat < 32) →
    (j = true → entryDigits t.core ≠ 0 ∧ oneScale (entrySides t.core true e) = true ∧ oneScale (rowSides t.core r) = true) →
    (j = false → t.core.jm ≠ 2 ∧ t.core.wx.toNat ≤ entryWidth t.core) →
    (∀ k : Fin 8, ∀ l, t.core.locks[k] = some l → l.space = .spad) → a.poison = false →
    (a.count ≠ 0 → expMismatch (accExps a (mulExps t.core j e r).length) (mulExps t.core j e r) = none) →
    t.core.wx.toNat + t.core.wy.toNat + ceilLog2 (a.count.toNat + inc) + 1 ≤ digitWidth t.core → operandBad t.core e r = false →
    ∃ u, exec i s = .next (past 4 u) ∧ onlyAccs t u ∧ otherAccs [n.toNat] t u
      ∧ (accOf u.core n.toNat).value = BitVec.ofInt 4352 (a.value.toInt + entryValue t.core e * rowValue t.core r)
      ∧ (accOf u.core n.toNat).count.toNat = min (a.count.toNat + inc) (2 ^ 32 - 1)
      ∧ (accOf u.core n.toNat).poison = false
      ∧ (∀ d < 1088, let old := a.digit d; let new := (accOf u.core n.toNat).digit d
        flagsAfter [(entrySides t.core j e, rowSides t.core r)] d old new
        ∧ (d < (if j then accDigits t.core else rowDigits t.core) →
          new.exp = (xSide t.core (e * entryWidth t.core / 4)).scale
            + (ySide t.core (1024 * r + if j then 0 else d * t.core.sq.toNat)).scale)
        ∧ ((if j then accDigits t.core else rowDigits t.core) ≤ d → new.exp = old.exp))
      ∧ u.core.slew.work = [⟨1, some s.cur, none, some t.ri⟩]

/-- R67, R68, R69, R160, R161: an MMAR that passes its checks performs, k-step by k-step, the multiply of row i of X with row y0 + i of Y into each of its
accumulators, adds K to its count, and gives its digits their exponents and special flags. -/
def Sys2Proof.Spec.MacroMultiply : Prop :=
  ∀ (b : Reg) (s : State),
    let c := s.core
    let d := s.oxv b
    let m := d.toNat / 2 ^ 24 % 128
    let k := d.toNat / 2 ^ 32 % 128
    let x0 := d.toNat % 4096
    let y0 := d.toNat / 2 ^ 12 % 64
    let ns := mmarAccs c.jm (d.toNat / 2 ^ 40 % 32) m
    multGoes ns s → fits 4 s → mmarFault c d = none → guardGood c = true → c.jm ≠ 2 → c.wx.toNat ≤ entryWidth c →
    (∀ q : Fin 8, ∀ l, c.locks[q] = some l → l.space = .spad) → poisoned c ns = none →
    (∀ e ∈ ns.zipIdx, mmarMismatch c e.1 (x0 + e.2 * k) y0 k = none) → countFault c k ns = none →
    (∀ i < k, ∀ row < m, operandBad c (x0 + row * k + i) (y0 + i) = false) →
    ∃ u, exec (.mmar b) s = .next (past 4 u) ∧ onlyAccs s u ∧ otherAccs ns s u
      ∧ (∀ e ∈ ns.zipIdx, (accOf u.core e.1).value = BitVec.ofInt 4352 ((accOf c e.1).value.toInt
          + ((List.range k).map (fun i => entryValue c (x0 + e.2 * k + i) * rowValue c (y0 + i))).sum)
        ∧ (accOf u.core e.1).count.toNat = min ((accOf c e.1).count.toNat + k) (2 ^ 32 - 1) ∧ (accOf u.core e.1).poison = false
        ∧ ∀ j < 1088, let old := (accOf c e.1).digit j; let new := (accOf u.core e.1).digit j
          flagsAfter ((List.range k).map fun i => (entrySides c false (x0 + e.2 * k + i), rowSides c (y0 + i))) j old new
          ∧ (j < rowDigits c → new.exp = (xSide c ((x0 + e.2 * k) * entryWidth c / 4)).scale + (ySide c (1024 * y0 + j * c.sq.toNat)).scale)
          ∧ (rowDigits c ≤ j → new.exp = old.exp))
      ∧ u.core.slew.work = [⟨if c.jm = 0 then k * ((m + 1) / 2) else k * m, some s.cur, none, some s.ri⟩]

/-- What the multiplications add to accumulators.
Where the rules leave a choice it is that of log entries 12 and 17. -/
def Obligations.Multiplications : Prop := MultiplyResults ∧ MacroMultiply

/-- R70: the digits that the walk reads lie in the range of a signed digit of width w, and together they are the accumulator's value
modulo 2^(w × n). -/
def Sys2Proof.Spec.DigitWalk : Prop :=
  ∀ (w n : Nat) (z : Int), 0 < w →
    (digitWalk w n z).length = n ∧ (∀ d ∈ digitWalk w n z, -(2 ^ (w - 1)) ≤ d ∧ d < 2 ^ (w - 1))
    ∧ (digitsValue w (digitWalk w n z)) % 2 ^ (w * n) = z % 2 ^ (w * n)

/-- R70: when every digit's sum of terms fits in a signed digit, as R69 sees to, the walk gives back exactly those sums, whatever borrows the
value holds, and zero above them. -/
def Sys2Proof.Spec.DigitsExact : Prop :=
  ∀ (w : Nat) (qs : List Int) (k : Nat), 0 < w → (∀ q ∈ qs, -(2 ^ (w - 1)) ≤ q ∧ q < 2 ^ (w - 1)) →
    digitWalk w (qs.length + k) (digitsValue w qs) = qs ++ List.replicate k 0

/-- R63, R69, R70: the dot products of a row-broadcast accumulation are exact: the digit j of Σ x_i × row_i, each row packed from digits, is the
sum of x_i × y_ij whenever these sums fit a signed digit. -/
def Sys2Proof.Spec.RowBroadcastExact : Prop :=
  ∀ (w n : Nat) (terms : List (Int × List Int)), 0 < w → (∀ e ∈ terms, e.2.length = n) →
    (∀ j < n, -(2 ^ (w - 1)) ≤ (terms.map (fun e => e.1 * e.2.getD j 0)).sum ∧ (terms.map (fun e => e.1 * e.2.getD j 0)).sum < 2 ^ (w - 1)) →
    ∀ j < n, (digitWalk w n (terms.map (fun e => e.1 * digitsValue w e.2)).sum).getD j 0 = (terms.map (fun e => e.1 * e.2.getD j 0)).sum

/-- How digits are packed and read back, and that products are exact.
Where the rules leave a choice it is that of log entry 12. -/
def Obligations.ExactDigits : Prop := DigitWalk ∧ DigitsExact ∧ RowBroadcastExact

/-- R164 to R166: EXTR reads a digit saturated to 64 bits, or sixteen from it on saturated to 32; EXTRF the same as FP32; ACCRD reads and ACCWR writes a doubleword
of the value, and at index 68 the count; ACCMV copies all of an accumulator. A poisoned source takes UEDATA with TINFO 0x100 + n, which aborts the
activation (R145, R163).
Where the rules leave a choice it is that of log entry 12. -/
def Obligations.AccumulatorMoves : Prop :=
  (∀ (n : AccNum) (b : Reg) (s t : State) (x : Word), popX b s = some (x, t) → multGoes [n.toNat] t → (accOf t.core n.toNat).poison = true →
    let out : Res := .next (takeTrap 0x1D s.st.pc (BitVec.ofNat 64 (0x100 + n.toNat)) s)
    (∀ d, roomX d t = true → exec (.accrd d n b) s = out
      ∧ (1 ≤ t.core.sq.toNat → t.core.sq.toNat ≤ 18 → exec (.extr d n b 1) s = out ∧ exec (.extrf d n b 1) s = out))
    ∧ (∀ d, roomV d t = true → 1 ≤ t.core.sq.toNat → t.core.sq.toNat ≤ 18 → exec (.extr d n b 0) s = out ∧ exec (.extrf d n b 0) s = out))
  ∧ (∀ (d n : AccNum) (s : State), multGoes [d.toNat, n.toNat] s → (accOf s.core n.toNat).poison = true →
    exec (.accmv d n) s = .next (takeTrap 0x1D s.st.pc (BitVec.ofNat 64 (0x100 + n.toNat)) s))
  ∧ (∀ (d : Reg) (n : AccNum) (b : Reg) (s t : State) (x : Word), popX b s = some (x, t) → multGoes [n.toNat] t → fits 4 s →
    1 ≤ t.core.sq.toNat → t.core.sq.toNat ≤ 18 → (accOf t.core n.toNat).poison = false →
    let j := x.toNat % 2 ^ 16
    (roomX d t = true →
      exec (.extr d n b 1) s = .next (past 4 (writeX d (BitVec.ofInt 64
        (max (-(2 ^ 63)) (min (2 ^ 63 - 1) ((digitsFrom t.core (accOf t.core n.toNat) j 1).headD 0)))) t))
      ∧ exec (.extrf d n b 1) s = .next (past 4 (writeX d (BitVec.ofNat 64
        (digitFp t.core (accOf t.core n.toNat) j ((digitsFrom t.core (accOf t.core n.toNat) j 1).headD 0))) t)))
    ∧ (roomV d t = true →
      (∃ v, exec (.extr d n b 0) s = .next (past 4 (writeV d v t))
        ∧ ∀ k < 16, signedLane 32 (elem v 32 k) = max (-(2 ^ 31)) (min (2 ^ 31 - 1) ((digitsFrom t.core (accOf t.core n.toNat) j 16).getD k 0)))
      ∧ (∃ v, exec (.extrf d n b 0) s = .next (past 4 (writeV d v t))
        ∧ ∀ k < 16, elem v 32 k
          = digitFp t.core (accOf t.core n.toNat) (j + k) ((digitsFrom t.core (accOf t.core n.toNat) j 16).getD k 0) % 2 ^ 32)))
  ∧ (∀ (a : Reg) (n : AccNum) (b : Reg) (s t : State) (x : Word), popX b s = some (x, t) → roomX a t = true → multGoes [n.toNat] t → fits 4 s →
    (accOf t.core n.toNat).poison = false →
    exec (.accrd a n b) s = .next (past 4 (writeX a
      (if x.toNat % 128 < 68 then BitVec.ofNat 64 ((accOf t.core n.toNat).value.toNat / 2 ^ (64 * (x.toNat % 128)))
        else if x.toNat % 128 = 68 then (accOf t.core n.toNat).count.setWidth 64 else 0) t)))
  ∧ (∀ (a : Reg) (n : AccNum) (b : Reg) (s s1 t : State) (x v : Word), popX b s = some (x, s1) → popX a s1 = some (v, t) →
    multGoes [n.toNat] t → fits 4 s →
    ∃ u, exec (.accwr a n b) s = .next (past 4 u) ∧ onlyAccs t u ∧ otherAccs [n.toNat] t u
      ∧ (∀ k < 68, BitVec.ofNat 64 ((accOf u.core n.toNat).value.toNat / 2 ^ (64 * k))
          = if x.toNat % 128 = k then v else BitVec.ofNat 64 ((accOf t.core n.toNat).value.toNat / 2 ^ (64 * k)))
      ∧ (accOf u.core n.toNat).count = if x.toNat % 128 = 68 then v.setWidth 32 else (accOf t.core n.toNat).count)
  ∧ (∀ (d n : AccNum) (s : State), multGoes [d.toNat, n.toNat] s → fits 4 s → (accOf s.core n.toNat).poison = false →
    ∃ u, exec (.accmv d n) s = .next (past 4 u) ∧ onlyAccs s u ∧ otherAccs [d.toNat] s u ∧ accOf u.core d.toNat = accOf s.core n.toNat)

/-- The frames of the multiplier instructions that complete: GUARD to ACCZ, packs and moves leave every register, the flags, the special and
exception registers, the other streams and the scratchpad as they were, but for the scalar or vector destination of EXTR, EXTRF and ACCRD. -/
def Sys2Proof.Spec.MultiplierFrames : Prop :=
  (∀ i s u, (∃ b, i = .guard b) ∨ (∃ j, i = .join j) ∨ i = .qjoin ∨ i = .qleave ∨ (∃ n k, i = .accz n k) ∨ (∃ b f, packRule i = some (b, f))
      ∨ (∃ j n b, multiplyRule i = some (j, n, b)) ∨ (∃ b, i = .mmar b) ∨ (∃ a n b, i = .accwr a n b) ∨ (∃ d n, i = .accmv d n) →
    fits 4 s → s.st.active = true → s.sliceBusy = false → s.workOf s.ri = false →
    exec i s = .next u → u.st.tlevel = s.st.tlevel → u.st.active = true →
    StreamFrame noReg noReg noIx noIx False False s u ∧ (∀ p, readByte u.core.spad p = readByte s.core.spad p)
    ∧ u.vault = s.vault ∧ u.net = s.net ∧ u.mgr = s.mgr)
  ∧ (∀ (d : Reg) (n : AccNum) (b : Reg) (x : BitVec 1) (s u : State), fits 4 s → s.st.active = true → s.sliceBusy = false → s.workOf s.ri = false →
    exec (.extr d n b x) s = .next u ∨ exec (.extrf d n b x) s = .next u → u.st.tlevel = s.st.tlevel → u.st.active = true →
    StreamFrame (fun r => x = 1 ∧ r = d) (fun r => x = 0 ∧ r = d) noIx noIx False False s u ∧ u.core = s.core ∧ DeviceFrame s u)
  ∧ (∀ (a : Reg) (n : AccNum) (b : Reg) (s u : State), fits 4 s → s.st.active = true → s.sliceBusy = false → s.workOf s.ri = false →
    exec (.accrd a n b) s = .next u → u.st.tlevel = s.st.tlevel → u.st.active = true →
    StreamFrame (· = a) noReg noIx noIx False False s u ∧ u.core = s.core ∧ DeviceFrame s u)

/-- R173 to R175, R184: a tile instruction that finds room appends its operation with the descriptor and the next tag to the engine queue, takes the
first free entry of the lock table, writes the tag to rd, and moves the tag on, over 0xFFFF_FFFF to 1. ACT and PRE append theirs. -/
def Sys2Proof.Spec.EngineIssue : Prop :=
  (∀ i a b k s l, tileRule i = some (a, b, k) → roomX a s = true → fenceHolds s = false → s.core.engQ.length < 16 → freeLock s.core.locks = some l →
    fits 4 s →
    ∃ u, exec i s = .next (past 4 (writeX a (s.rs.nextTag.setWidth 64) u))
      ∧ (∃ e, u.core.engQ = s.core.engQ ++ [e] ∧ e.kind = k ∧ e.desc = s.oxv b ∧ e.tag = s.rs.nextTag ∧ e.res = s.ri ∧ e.slot = s.cur
        ∧ e.lock = some l ∧ e.started = false ∧ e.ended = none ∧ e.owned = true)
      ∧ (∃ x, u.core.locks[l] = some x ∧ (x.wr = true ↔ k ≠ .tst)) ∧ (∀ j, j ≠ l → u.core.locks[j] = s.core.locks[j])
      ∧ u.rs.lastTag = s.rs.nextTag ∧ u.rs.nextTag = (if s.rs.nextTag = 0xFFFFFFFF then 1 else s.rs.nextTag + 1)
      ∧ u.streams = s.streams ∧ (∀ p, readByte u.core.spad p = readByte s.core.spad p) ∧ u.vault = s.vault)
  ∧ (∀ i b c k s x y s1 t, rowRule i = some (b, c, k) → popX b s = some (x, s1) → popX c s1 = some (y, t) → fenceHolds s = false →
    t.core.engQ.length < 16 → fits 4 s →
    ∃ u e, exec i s = .next (past 4 u) ∧ u.core.engQ = t.core.engQ ++ [e] ∧ e.kind = k ∧ e.va = x ∧ e.len = y ∧ e.res = t.ri ∧ e.slot = t.cur
      ∧ { u with core := { u.core with engQ := t.core.engQ } } = t)

/-- R181, R182: TWAIT writes a status once there is one; TCHK writes it at once, or the status PENDING of an operation that is still open; a tag that
has not been issued is NOTAG, and xt = 0 with no operation of the stream open gives the first bad status, or 0. -/
def Sys2Proof.Spec.TileStatus : Prop :=
  ∀ (a b : Reg) (s t : State) (x : Word), popX b s = some (x, t) → roomX a t = true → fits 4 s →
    (∀ w, tileStatus t (x.setWidth 32) = some w →
      exec (.twait a b) s = .next (past 4 (writeX a w t)) ∧ exec (.tchk a b) s = .next (past 4 (writeX a w t)))
    ∧ (tileStatus t (x.setWidth 32) = none →
      exec (.twait a b) s = .next (s.setSt { s.st with stalled := true })
      ∧ exec (.tchk a b) s = .next (past 4 (writeX a (BitVec.ofNat 64 (x.toNat % 2 ^ 16 * 2 ^ 16 + 1)) t)))
    ∧ (t.rs.lastTag.toNat < x.toNat % 2 ^ 32 → tileStatus t (x.setWidth 32) = some (BitVec.ofNat 64 (x.toNat % 2 ^ 16 * 2 ^ 16 + 9)))
    ∧ (x.toNat % 2 ^ 32 = 0 → (∀ e ∈ t.core.engQ, e.slot ≠ t.cur) → tileStatus t (x.setWidth 32) = some (t.st.tileBad.getD 0))

/-- R188: ROWQ reads 0 for an address whose page is not in the controller's buffer, and otherwise, when the page lies whole in the core's own vault,
its layer, bank, row and MIG, and what the bank does: REF while it refreshes or is under repair, and OPEN while it holds the row open otherwise. -/
def Sys2Proof.Spec.RowQueries : Prop :=
  ∀ (a b : Reg) (s t : State) (x : Word), popX b s = some (x, t) → roomX a t = true → fits 4 s →
    exec (.rowq a b) s = .next (past 4 (writeX a (rowStatus t x) t))
    ∧ (bufFind t.vault.ctrlBuf t.rs.asid (pageOf x.toNat) = none → rowStatus t x = 0)
    ∧ (∀ e, bufFind t.vault.ctrlBuf t.rs.asid (pageOf x.toNat) = some e → pageIsLocal t e.word = true →
      (rowStatus t x).getLsbD 63 = true
      ∧ (let p := place e.word (x.toNat % 2 ^ 18)
        (rowStatus t x).toNat % 2 ^ 12 = p.row ∧ (rowStatus t x).toNat / 2 ^ 12 % 2 ^ 4 = p.bank ∧ (rowStatus t x).toNat / 2 ^ 16 % 2 ^ 44 = p.layer
          ∧ (rowStatus t x).getLsbD 60 = e.word.getLsbD 60)
      ∧ ((rowStatus t x).getLsbD 61 = true ↔ bankAway t.vault.banks[(place e.word (x.toNat % 2 ^ 18)).bankIx])
      ∧ ((rowStatus t x).getLsbD 62 = true ↔
        t.vault.banks[(place e.word (x.toNat % 2 ^ 18)).bankIx].openRow = some (place e.word (x.toNat % 2 ^ 18)).row
          ∧ ¬ bankAway t.vault.banks[(place e.word (x.toNat % 2 ^ 18)).bankIx]))

/-- What the queries of tile operations and rows answer. -/
def Obligations.EngineQueries : Prop := TileStatus ∧ RowQueries

/-- R191, R192: CPY refuses with 0 a record out of range or misaligned, or one that the lock table has no room for; a record that it takes is stored
in the reservation, with its LINK at 0xFFFF and the formats of its local endpoints, becomes the LINK of the record before it, and gets the next number. CPYGO hands the appended records over, and CPYQ counts both kinds. -/
def Sys2Proof.Spec.CopyInstructions : Prop :=
  (∀ (a : Reg) (s : State), roomX a s = true → fenceHolds s = false → fits 4 s →
    let at_ := (oxRecord s).toNat / 2 ^ 16 % 2 ^ 16
    (at_ % 64 ≠ 0 ∨ s.rs.spsize.toNat ≤ at_ + 63 → exec (.cpy a) s = .next (past 4 (writeX a 0 s)))
    ∧ (freeLocks s.core.locks < 3 + (crLocalSrc (oxRecord s)).isSome.toNat + (crLocalDst (oxRecord s)).isSome.toNat →
      exec (.cpy a) s = .next (past 4 (writeX a 0 s)))
    ∧ (at_ % 64 = 0 → at_ + 63 < s.rs.spsize.toNat → s.memoriesWf →
      3 + (crLocalSrc (oxRecord s)).isSome.toNat + (crLocalDst (oxRecord s)).isSome.toNat ≤ freeLocks s.core.locks →
      LocalGoes false true (byteRange at_ 64) s →
      ∃ u, exec (.cpy a) s = .next (past 4 (writeX a (s.rs.nseq.setWidth 64) u))
        ∧ ((∀ o, lastRecord s.rs = some o → o + 8 ≤ at_ ∨ at_ + 64 ≤ o) →
          spadRd u at_ 64 = (cpyRecord s (oxRecord s)).toNat
          ∧ ∀ o, lastRecord s.rs = some o → recWord u s.ri o / 2 ^ 32 % 2 ^ 16 = at_ ∧ recWord u s.ri o % 2 ^ 32 = recWord s s.ri o % 2 ^ 32
            ∧ recWord u s.ri o / 2 ^ 48 = recWord s s.ri o / 2 ^ 48)
        ∧ crFld (cpyRecord s (oxRecord s)) 32 16 = 0xFFFF ∧ crFld (cpyRecord s (oxRecord s)) 0 32 = crFld (oxRecord s) 0 32
        ∧ u.rs.appended = s.rs.appended ++ [(at_, s.rs.nseq)] ∧ u.rs.nseq = (if s.rs.nseq = 0xFFFFFFFF then 1 else s.rs.nseq + 1)
        ∧ u.streams = s.streams))
  ∧ (∀ s : State, fenceHolds s = false → fits 4 s →
    ∃ u, exec .cpygo s = .next (past 4 u) ∧ u.rs.handedOver = s.rs.handedOver ++ s.rs.appended ∧ u.rs.appended = [] ∧ u.core = s.core
      ∧ u.streams = s.streams)
  ∧ (∀ (a : Reg) (s : State), roomX a s = true → fits 4 s →
    exec (.cpyq a) s = .next (past 4 (writeX a (BitVec.ofNat 64 (s.rs.appended.length % 2 ^ 16 * 2 ^ 48
      + s.rs.handedOver.length % 2 ^ 16 * 2 ^ 32 + s.rs.lastCseq.toNat)) s)))

/-- What issuing tile operations and appending copy records does.
Where the rules leave a choice it is that of log entries 13, 18 and 36. -/
def Obligations.EngineInstructions : Prop := EngineIssue ∧ CopyInstructions

/-- R196, R200 to R202, R206, R210: each of these appends one message to the send buffer of its task; SENDL appends ⌈L/64⌉ messages in order, with
rising SEQ. A buffer without room takes SENDFULL and appends nothing. -/
def Sys2Proof.Spec.Sends : Prop :=
  (∀ i s t m, sendRule i s t m → fits 4 s → sendRoom 1 m.rq.toNat t → ∃ u, exec i s = .next (past 4 u) ∧ Appended [.msg m] t u)
  ∧ (∀ i s t m, sendRule i s t m → s.sliceBusy = false → 16 < sendCount t + 1 →
    exec i s = .next (takeTrap 0x10 s.st.pc (BitVec.ofNat 64 (sendCount t * 2 ^ 8 + 1)) s))
  ∧ (∀ (a b : Reg) (v : BitVec 2) (r : BitVec 1) (s t : State) (dst : Word), popX a s = some (dst, t) → fits 4 s →
    let d := t.oxv b
    let l := d.toNat / 2 ^ 16 % 2 ^ 11
    let n := (l + 63) / 64
    1 ≤ l → l ≤ 1024 → d.toNat / 2 ^ 27 % 2 ^ 5 = 0 → d.toNat / 2 ^ 56 = 0 → sendRoom n (if r = 1 then n else 0) t →
    LocalGoes true false (byteRange ((d.toNat % 2 ^ 16 : Nat) : Int) l) t →
    ∃ u, exec (.sendl a b v r) s = .next (past 4 u)
      ∧ Appended ((List.range n).map (fun i => .msg (newMsg t (dst.setWidth 32) v (decide (r = 1)) (BitVec.ofNat 16 (d.toNat / 2 ^ 32 + i))
        (BitVec.ofNat 8 (d.toNat / 2 ^ 48)) 0 (min 64 (l - 64 * i)) (spadRd t ((d.toNat % 2 ^ 16 : Nat) : Int) l / 2 ^ (512 * i)))))
        (accessed false (byteRange ((d.toNat % 2 ^ 16 : Nat) : Int) l) t) u)

/-- R196, R4: what the network interface fills in: the residency's context, the sender's address, the narrowest scope that holds both cores, and
payload bytes beyond LEN that are zero. -/
def Sys2Proof.Spec.MessageFields : Prop :=
  ∀ (s : State) (dest : BitVec 32) (vn : BitVec 2) (rq : Bool) (seq : BitVec 16) (h rh : BitVec 8) (len v : Nat),
    let m := newMsg s dest vn rq seq h rh len v
    m.gen = s.rs.gen ∧ m.asid = s.rs.asid ∧ m.src = BitVec.ofNat 32 (s.core.pkg.toNat * 2 ^ 15 + s.core.id.toNat) ∧ m.dest = dest ∧ m.vn = vn
    ∧ m.rq = rq ∧ m.dev = false ∧ m.spl = false
    ∧ (∀ k < len, k < 64 → BitVec.ofNat 8 (m.payload.toNat / 2 ^ (8 * k)) = BitVec.ofNat 8 (v / 2 ^ (8 * k)))
    ∧ (len ≤ 64 → m.payload.toNat < 2 ^ (8 * len))
    ∧ sameScope m.scope.toNat s.address dest = true ∧ ∀ sc < m.scope.toNat, sameScope sc s.address dest = false

/-- What the message instructions append to the send buffer.
Where the rules leave a choice it is that of log entry 25. -/
def Obligations.SendRules : Prop := Sends ∧ MessageFields

/-- R205, R203, R214: MSGX reads the trigger's second header doubleword, the waiting messages, the free and held sinks, or a payload doubleword; FENCE
puts a fence point behind messages of the buffer; BAR appends an arrival and takes SENDFULL while one of its scope is held.
Where the rules leave a choice it is that of log entry 25. -/
def Obligations.MessageQueriesAndBarriers : Prop :=
  (∀ (a b : Reg) (v : BitVec 2) (s t : State) (x : Word), popX b s = some (x, t) → roomX a t = true → fits 4 s →
    ∃ w, exec (.msgx a b v) s = .next (past 4 (writeX a w t))
      ∧ (∀ m, t.trigger = some m → x.toNat % 256 = 0 → w = msgD1 m)
      ∧ (x.toNat % 256 = 1 → w = BitVec.ofNat 64 (waitingFor t.core t.ri v.toNat))
      ∧ (x.toNat % 256 = 2 → w = BitVec.ofNat 64 t.sinksFree) ∧ (x.toNat % 256 = 3 → w = BitVec.ofNat 64 t.rs.sinks)
      ∧ (∀ m, ∀ k < 8, t.trigger = some m → x.toNat % 256 = 0x10 + k → w = BitVec.ofNat 64 (m.payload.toNat / 2 ^ (64 * k)))
      ∧ (t.trigger = none → 3 < x.toNat % 256 → w = 0))
  ∧ (∀ (y : BitVec 3) (s : State), fits 4 s →
    ∃ u, exec (.fence y) s = .next (past 4 u) ∧ buffer u = (if 0 < sendCount s then buffer s ++ [.fence y] else buffer s)
      ∧ u.streams = s.streams ∧ (y = 0 → sendCount s = 0 → u = s))
  ∧ (∀ (y : BitVec 3) (b : Reg) (s t : State) (o : Word), popX b s = some (o, t) → fits 4 s → sendRoom 1 0 t →
    ((∀ e ∈ t.rs.arrivals, e.1 ≠ y) → ∃ u, exec (.bar y b) s = .next (past 4 u) ∧ buffer u = buffer t ++ [.bar y o]
      ∧ u.rs.arrivals = t.rs.arrivals ++ [(y, o)] ∧ u.core = t.core)
    ∧ ((∃ e ∈ t.rs.arrivals, e.1 = y) → s.sliceBusy = false →
      exec (.bar y b) s = .next (takeTrap 0x10 s.st.pc (BitVec.ofNat 64 (2 ^ 17 + sendCount t * 2 ^ 8 + 1)) s)))

/-- R39, R212, R213: TNEW writes the count, the task number and the argument of a record and clears what the rule clears, TDEC takes k + 1 from the count,
and TARM marks a record whose count is not zero as armed; an armed record whose count reaches zero, and one that TARM finds at zero, becomes ready; a record
out of range is left alone.
Where the rules leave a choice it is that of log entry 38. -/
def Obligations.TaskRecords : Prop :=
  ∀ (b : Reg) (s t : State) (x : Word), popX b s = some (x, t) → s.memoriesWf → fits 4 s →
    let off := 64 * (x.toNat / 64)
    LocalGoes true true (byteRange (off : Int) 64) t →
    (∀ c d, d = t.oxv c → d.toNat / 2 ^ 32 % 2 ^ 16 < t.rs.role.tasks.length → d.toNat / 2 ^ 48 % 2 ^ 16 = 0 → off + 64 ≤ t.rs.spsize.toNat →
      ∃ u, exec (.tnew b c) s = .next (past 4 u)
        ∧ recordField u off 0 = recordField t off 0 / 2 ^ 49 * 2 ^ 49 + d.toNat / 2 ^ 32 % 2 ^ 16 * 2 ^ 32 + d.toNat % 2 ^ 32
        ∧ recordField u off 16 = d.toNat / 2 ^ 64 ∧ recordField u off 24 = 0 ∧ recordField u off 32 = 0 ∧ recordField u off 40 = 0)
    ∧ (∀ c, tnewBadBit t (t.oxv c) = none → t.rs.spsize.toNat < off + 64 → ∃ u, exec (.tnew b c) s = .next (past 4 u) ∧ u.core = t.core)
    ∧ (∀ k : BitVec 3, off + 64 ≤ t.rs.spsize.toNat →
      (recordField t off 0 / 2 ^ 48 % 2 = 0 ∨ recordField t off 0 % 2 ^ 32 = 0 ∨ k.toNat + 1 < recordField t off 0 % 2 ^ 32) →
      ∃ u, exec (.tdec b k) s = .next (past 4 u)
        ∧ recordField u off 0 = recordField t off 0 / 2 ^ 32 * 2 ^ 32 + (recordField t off 0 % 2 ^ 32 - (k.toNat + 1)))
    ∧ (∀ k : BitVec 3, off + 64 ≤ t.rs.spsize.toNat → recordField t off 0 / 2 ^ 48 % 2 = 1 → 0 < recordField t off 0 % 2 ^ 32 →
      recordField t off 0 % 2 ^ 32 ≤ k.toNat + 1 →
      ∃ u, exec (.tdec b k) s = .next (past 4 u) ∧ readied t.ri off (recordField t off 0 - recordField t off 0 % 2 ^ 32 - 2 ^ 48) t u)
    ∧ (off + 64 ≤ t.rs.spsize.toNat → recordField t off 0 % 2 ^ 32 ≠ 0 →
      ∃ u, exec (.tarm b) s = .next (past 4 u) ∧ off ∈ u.rs.armed ∧ recordField u off 0 / 2 ^ 48 % 2 = 1
        ∧ recordField u off 0 % 2 ^ 48 = recordField t off 0 % 2 ^ 48 ∧ recordField u off 0 / 2 ^ 49 = recordField t off 0 / 2 ^ 49)
    ∧ (off + 64 ≤ t.rs.spsize.toNat → recordField t off 0 % 2 ^ 32 = 0 →
      ∃ u, exec (.tarm b) s = .next (past 4 u)
        ∧ readied t.ri off (recordField t off 0 - recordField t off 0 / 2 ^ 48 % 2 * 2 ^ 48) t u)
    ∧ (t.rs.spsize.toNat < off + 64 → (∀ k : BitVec 3, ∃ u, exec (.tdec b k) s = .next (past 4 u) ∧ u.core = t.core)
      ∧ ∃ u, exec (.tarm b) s = .next (past 4 u) ∧ u.core = t.core)

/-- R24, R25, R27, R215: SRD reads a listed register; SWR, SSET and SCLR return the old value and write FMODE, FFLAGS, TVEC, TSAVE and TSAVELEN in their
fields, a bank's format, and a lower BUDGET; a write to a read-only register is discarded; a number that R24 does not list takes ILLOP. GUARDCFG takes its
place in the multiplier order (R216), so the reads here ask that no slice work is under way and no matrix command waits.
Where the rules leave a choice it is that of log entry 49. -/
def Obligations.SystemRegisters : Prop :=
  (∀ (a : Reg) (n : BitVec 12) (s : State) (v : Word), systemValue s n.toNat = some v → roomX a s = true →
    (n = 0x030 → s.core.slew.work = [] ∧ s.core.jm ≠ 2 ∧ s.core.portQ = []) → fits 4 s → exec (.srd a n) s = .next (past 4 (writeX a v s)))
  ∧ (∀ (a b : Reg) (n : BitVec 12) (s t : State) (x v : Word), popX b s = some (x, t) → systemValue t n.toNat = some v → roomX a t = true →
    fits 4 s →
    (n = 0x038 → exec (.swr a n b) s = .next (past 4 (writeX a v (t.setSt { t.st with fmode := x.setWidth 2 })))
      ∧ exec (.sset a n b) s = .next (past 4 (writeX a v (t.setSt { t.st with fmode := t.st.fmode ||| x.setWidth 2 })))
      ∧ exec (.sclr a n b) s = .next (past 4 (writeX a v (t.setSt { t.st with fmode := t.st.fmode &&& ~~~(x.setWidth 2) }))))
    ∧ (n = 0x039 → exec (.swr a n b) s = .next (past 4 (writeX a v (t.setSt { t.st with fflags := x.setWidth 5 })))
      ∧ exec (.sset a n b) s = .next (past 4 (writeX a v (t.setSt { t.st with fflags := t.st.fflags ||| x.setWidth 5 })))
      ∧ exec (.sclr a n b) s = .next (past 4 (writeX a v (t.setSt { t.st with fflags := t.st.fflags &&& ~~~(x.setWidth 5) }))))
    ∧ (let three := fun (put : Word → State) =>
        exec (.swr a n b) s = .next (past 4 (writeX a v (put x))) ∧ exec (.sset a n b) s = .next (past 4 (writeX a v (put (v ||| x))))
          ∧ exec (.sclr a n b) s = .next (past 4 (writeX a v (put (v &&& ~~~x))))
      (n = 0x041 → three fun w => t.setSt { t.st with tvec := w &&& 0xFFC0 })
      ∧ (n = 0x04A → three fun w => t.setSt { t.st with tsave := w &&& 0x0000FFFFFFFFFE00 })
      ∧ (n = 0x04B → three fun w => t.setSt { t.st with tsavelen := w &&& 0xFFFFFFFF })
      ∧ (∀ k, t.task = some k → n = 0x050 → three fun w => if w.toNat < k.budget.toNat then t.setTask { k with budget := w } else t)
      ∧ (∀ k : Nat, k < 16 → n.toNat = 0x020 + k → three fun w => if t.rs.spsize.toNat ≤ k * 3072 then t
        else { t with core := { t.core with
          bfmt := vset t.core.bfmt ⟨(t.rs.spbase.toNat / 3072 + k) % 16, Nat.mod_lt _ (by decide)⟩ (w.setWidth 10) } }))
    ∧ (n = 0x000 ∨ n = 0x001 ∨ n = 0x002 ∨ n = 0x004 ∨ n = 0x070 ∨ n = 0x071 ∨ n = 0x003 ∨ n = 0x010 ∨ n = 0x011 ∨ n = 0x012 ∨ n = 0x040 ∨ n = 0x051 ∨ n = 0x060 ∨ n = 0x061 ∨ n = 0x090 ∨ n = 0x091 →
      exec (.swr a n b) s = .next (past 4 (writeX a v t)) ∧ exec (.sset a n b) s = .next (past 4 (writeX a v t))
      ∧ exec (.sclr a n b) s = .next (past 4 (writeX a v t)))
    ∧ (n = 0x013 → x.getLsbD 63 = true →
      exec (.swr a n b) s = .next (past 4 (writeX a v (t.setRs { t.rs with spflag := 0 })))
      ∧ exec (.sclr a n b) s = .next (past 4 (writeX a v t))))
  ∧ (∀ (a b : Reg) (n : BitVec 12) (s t : State) (x : Word), systemValue s n.toNat = none → s.sliceBusy = false →
    exec (.srd a n) s = .next (takeTrap 0x01 s.st.pc (n.setWidth 64) s)
    ∧ (popX b s = some (x, t) → exec (.swr a n b) s = .next (takeTrap 0x01 s.st.pc (n.setWidth 64) s)
      ∧ exec (.sset a n b) s = .next (takeTrap 0x01 s.st.pc (n.setWidth 64) s)
      ∧ exec (.sclr a n b) s = .next (takeTrap 0x01 s.st.pc (n.setWidth 64) s)))

/-- R302: the handler of a cause is twice HADDR of its halfword of the table at TBASE × 64, when TVEC.EN and V are set and the table lies in
the region; UEDATA has none. -/
def Sys2Proof.Spec.TrapVectors : Prop :=
  ∀ (s : State) (cause : Nat), cause < 32 →
    let base := 64 * (s.st.tvec.toNat / 64 % 512)
    let h := readLE s.quad.istore (s.rs.istoreAddr (base + 2 * cause)) 2
    (s.st.tvec.getLsbD 15 = true → base + 64 ≤ s.rs.regionEnd → cause ≠ 0x1D → h / 2 ^ 15 % 2 = 1 →
      vectorOf s cause = some (BitVec.ofNat 64 (2 * (h % 2 ^ 14))))
    ∧ (s.st.tvec.getLsbD 15 = false ∨ s.rs.regionEnd < base + 64 ∨ cause = 0x1D ∨ h / 2 ^ 15 % 2 = 0 → vectorOf s cause = none)

/-- R301, R303: a stream below level 2 that takes a cause with a vector writes the next level's record, banks x24 to x31 and the loop stack, reads
those registers as 0, raises TLEVEL and goes on at the handler; nothing else changes. -/
def Sys2Proof.Spec.TrapEntry : Prop :=
  ∀ (s : State) (cause : Nat) (epc info h : Word) (n : Fin 2), atRest s → s.st.tlevel.toNat = n.val → vectorOf s cause = some h →
    let u := takeTrap cause epc info s
    u.st.traps[n] = ⟨BitVec.ofNat 64 cause, epc &&& 0x7FFE, info, s.rs.tmsg⟩ ∧ u.st.tlevel = s.st.tlevel + 1 ∧ u.st.pc = h
    ∧ (∀ k : Fin 8, u.st.xbank[n][k] = s.st.x[24 + k.val]'(by omega)) ∧ u.st.loopBank[n] = s.st.loops ∧ u.st.loops = []
    ∧ (∀ r : Reg, 24 ≤ r.toNat → u.st.getX r = 0) ∧ (∀ r : Reg, r.toNat < 24 → u.st.getX r = s.st.getX r)
    ∧ u.st.entered.toNat = max s.st.entered.toNat (n.val + 1) ∧ u.st.due = none
    ∧ u.st.v = s.st.v ∧ u.st.m = s.st.m ∧ u.st.ox = s.st.ox ∧ u.st.fmode = s.st.fmode ∧ u.st.fflags = s.st.fflags ∧ u.st.qm = s.st.qm
    ∧ (∀ m : Fin 2, m ≠ n → u.st.traps[m] = s.st.traps[m] ∧ u.st.xbank[m] = s.st.xbank[m])
    ∧ (∀ j : SlotIx, j ≠ s.cur → u.streams[j] = s.streams[j]) ∧ u.res = s.res ∧ u.core = s.core ∧ DeviceFrame s u

/-- R303, R162: at level 2 the context is killed, and a cause without a vector aborts the activation: every stream of the residency stops, and the others
go on. A kill waits while slice work of the residency's streams is in progress. -/
def Sys2Proof.Spec.TrapWithoutHandler : Prop :=
  (∀ (s : State) (cause : Nat) (epc info : Word), atRest s → 2 ≤ s.st.tlevel.toNat → s.workOf s.ri = true →
    takeTrap cause epc info s = s.setRs { s.rs with killDue := some (s.rs.killDue.getD ⟨some s.cur, 1, cause, epc, info⟩) })
  ∧ ∀ (s : State) (cause : Nat) (epc info : Word), atRest s → s.workOf s.ri = false → (2 ≤ s.st.tlevel.toNat ∨ vectorOf s cause = none) →
    (∀ j : SlotIx, s.streams[j].res = s.ri → (takeTrap cause epc info s).streams[j].active = false)
    ∧ (∀ j : SlotIx, s.streams[j].res ≠ s.ri → (takeTrap cause epc info s).streams[j] = s.streams[j])
    ∧ (2 ≤ s.st.tlevel.toNat → (takeTrap cause epc info s).rs.killed = true ∧ (takeTrap cause epc info s).mgr.killQueue.length = s.mgr.killQueue.length + 1)
    ∧ (s.st.tlevel.toNat < 2 → s.mgr.abortLog.length < 1024 →
      (takeTrap cause epc info s).mgr.abortLog.length = s.mgr.abortLog.length + 1)

/-- What taking a trap does.
Where the rules leave a choice it is that of log entry 8. -/
def Obligations.TrapEntryRules : Prop := TrapVectors ∧ TrapEntry ∧ TrapWithoutHandler

/-- R220: TRET gives x24 to x31 and the loop stack of the level back, lowers TLEVEL and goes on at TEPC; straight after an entry it restores every
register, and the stream goes on at the saved address. At level 0 it takes ILLOP. -/
def Sys2Proof.Spec.TrapReturn : Prop :=
  (∀ (s : State), s.st.tlevel ≠ 0 → settled s → exec .tret s = .next (returnFromTrap s))
  ∧ (∀ (s : State), s.st.tlevel = 0 → s.sliceBusy = false → exec .tret s = .next (takeTrap 0x01 s.st.pc (BitVec.ofNat 64 (encode .tret)) s))
  ∧ (∀ (s : State) (n : Fin 2), s.st.tlevel.toNat = n.val + 1 →
    (∀ r : Fin 8, (returnFromTrap s).st.x[24 + r.val]'(by omega) = s.st.xbank[n][r])
    ∧ (∀ r : Reg, r.toNat < 24 → (returnFromTrap s).st.getX r = s.st.getX r)
    ∧ (returnFromTrap s).st.tlevel = s.st.tlevel - 1 ∧ (returnFromTrap s).st.traps = s.st.traps
    ∧ (s.st.loopBank[n] = [] → (returnFromTrap s).st.pc = s.st.traps[n].epc ∧ (returnFromTrap s).st.loops = []))
  ∧ (∀ (s : State) (cause : Nat) (epc info h : Word), atRest s → s.st.tlevel.toNat < 2 → vectorOf s cause = some h →
    (returnFromTrap (takeTrap cause epc info s)).st.x = s.st.x ∧ (returnFromTrap (takeTrap cause epc info s)).st.tlevel = s.st.tlevel
    ∧ (s.st.loops = [] → (returnFromTrap (takeTrap cause epc info s)).st.pc = epc &&& 0x7FFE)
    ∧ (returnFromTrap (takeTrap cause epc info s)).core = s.core ∧ (returnFromTrap (takeTrap cause epc info s)).res = s.res)

/-- R221, R222: BRK traps at itself and SVC after itself, with the code in TINFO; TABORT stops every stream of the activation and discards what it
has not released. -/
def Sys2Proof.Spec.TrapInstructions : Prop :=
  (∀ (c : BitVec 8) (s : State), s.sliceBusy = false →
    exec (.brk c) s = .next (takeTrap 0x1E s.st.pc (c.setWidth 64) s) ∧ exec (.svc c) s = .next (takeTrap 0x1F (s.st.pc + 4) (c.setWidth 64) s))
  ∧ (∀ (k : BitVec 1) (s : State), s.rs.abortCount < 15 →
    ∃ u, exec (.tabort k) s = .next u ∧ (∀ j : SlotIx, s.streams[j].res = s.ri → u.streams[j].active = false)
      ∧ (∀ j : SlotIx, s.streams[j].res ≠ s.ri → u.streams[j] = s.streams[j]) ∧ u.rs.task = none ∧ u.rs.appended = []
      ∧ u.rs.handedOver = s.rs.handedOver ∧ u.rs.jseq = s.rs.jseq ∧ u.rs.journal = s.rs.journal
      ∧ u.rs.abortCount = s.rs.abortCount + k.toNat ∧ u.net.outbound = s.net.outbound)

/-- What the trap instructions do. -/
def Obligations.TrapInstructionRules : Prop := TrapReturn ∧ TrapInstructions

/-- R223 to R225, R233: the save area's 64 doublewords, and that TFILL restores from them what TSPILL has put there. Either starts once its page is
translated and permitted, moves one column of 16 bytes at a time, and completes with the thirty-second.
Where the rules leave a choice it is that of log entry 22. -/
def Obligations.SaveArea : Prop :=
  (∀ s : State, (saveWords s).length = 64 ∧ (saveWords s)[63]? = some 1
    ∧ (∀ r : Reg, r.toNat < 24 → (saveWords s)[r.toNat]? = some (s.st.getX r))
    ∧ (∀ k : Fin 8, (saveWords s)[24 + k.val]? = some (s.st.xbank[trapBank s.st][k]))
    ∧ (saveWords s)[36]? = some s.st.traps[trapBank s.st].cause ∧ (saveWords s)[37]? = some s.st.traps[trapBank s.st].epc
    ∧ (saveWords s)[38]? = some s.st.traps[trapBank s.st].info ∧ (saveWords s)[39]? = some s.st.traps[trapBank s.st].msg
    ∧ (∀ k, 40 ≤ k → k < 63 → (saveWords s)[k]? = some 0))
  ∧ (∀ s t : State, t.st.tlevel = s.st.tlevel → s.st.traps[trapBank s.st].cause.toNat < 256 →
    s.st.traps[trapBank s.st].epc &&& 0x7FFE = s.st.traps[trapBank s.st].epc →
    s.st.traps[trapBank s.st].msg &&& 0xFFFFFFFFFFFFFF00 = s.st.traps[trapBank s.st].msg →
    let u := restoreArea (fun k => (saveWords s).getD k 0) t
    (∀ r : Reg, r.toNat < 24 → u.st.getX r = s.st.getX r) ∧ u.st.xbank[trapBank s.st] = s.st.xbank[trapBank s.st]
    ∧ (∀ k : Fin 8, u.st.getM k = s.st.getM k) ∧ u.st.fmode = s.st.fmode ∧ u.st.fflags = s.st.fflags
    ∧ u.st.traps[trapBank s.st] = s.st.traps[trapBank s.st])
  ∧ (∀ (s s1 : State) (w : Word), s.st.tlevel ≠ 0 → settled s → s.st.area = none → 512 * s.st.tlevel.toNat ≤ s.st.tsavelen.toNat →
    translateStack s.rs.asid (pageOf (saveArea s.st)) s = (.ok w, s1) →
    (permits w false true = true → exec .tspill s = .next (s1.setSt { s.st with
      area := some ⟨true, saveArea s.st, w, (saveWords s).flatMap (fun d => leBytes 8 d.toNat), 0⟩, stalled := true }))
    ∧ (permits w true false = true →
      exec .tfill s = .next (s1.setSt { s.st with area := some ⟨false, saveArea s.st, w, [], 0⟩, stalled := true })))
  ∧ (∀ (i : SlotIx) (s u : State) (a : Area), s.streams[i].area = some a → trySpillColumn i s = some u →
    (∀ j : SlotIx, j ≠ i → u.streams[j] = s.streams[j])
    ∧ (u.streams[i] = s.streams[i] ∨ ∃ c : List Byte, (a.wr = true → c = []) ∧ (a.wr = false → c.length = 16)
      ∧ u.streams[i] = { s.streams[i] with area := some { a with bytes := a.bytes ++ c, done := a.done + 1 } }))
  ∧ (∀ (s : State) (a : Area), s.st.tlevel ≠ 0 → settled s → s.st.area = some a →
    (a.done < 32 → exec .tspill s = .next (s.setSt { s.st with stalled := true }) ∧ exec .tfill s = .next (s.setSt { s.st with stalled := true }))
    ∧ (32 ≤ a.done → fits 4 s →
      let d := fun i => (BitVec.ofNat 64 (bytesLE ((a.bytes.drop (8 * i)).take 8)) : Word)
      exec .tspill s = .next (past 4 (s.setSt { s.st with area := none }))
      ∧ (d 63 = 1 → exec .tfill s = .next (past 4 (restoreArea d (s.setSt { s.st with area := none }))))
      ∧ (d 63 ≠ 1 → s.sliceBusy = false → exec .tfill s = .next (takeTrap 0x0B s.st.pc (d 63) (s.setSt { s.st with area := none })))))
  ∧ (∀ s : State, s.st.tlevel ≠ 0 → settled s → s.st.area = none → s.st.tsavelen.toNat < 512 * s.st.tlevel.toNat → s.sliceBusy = false →
    exec .tspill s = .next (takeTrap 0x19 s.st.pc (BitVec.ofNat 64 (512 * s.st.tlevel.toNat)) s)
    ∧ exec .tfill s = .next (takeTrap 0x19 s.st.pc (BitVec.ofNat 64 (512 * s.st.tlevel.toNat)) s))

/-- R15, R204, R218: END, in either encoding, frees the slot; the last stream of a task ends it, and then its buffered messages are released to the
network interface, its EMIT entries to the egress gate, and its records handed over. One that would release a quad-mapped residency of a gang that has
crossed the quad takes EXITEARLY (R38). NOP does nothing, and QMAP writes SLOT.QM. -/
def Sys2Proof.Spec.StreamEnd : Prop :=
  (∀ i s, i = .endStream ∨ i = .cEnd → endWaits s = false → earlyEnd s → exec i s = .next (takeTrap 0x17 s.st.pc 0 s))
  ∧ (∀ i s, i = .endStream ∨ i = .cEnd → endWaits s = false → ¬ earlyEnd s →
    ∃ u, exec i s = .next u ∧ u.st.active = false ∧ (∀ j : SlotIx, j ≠ s.cur → u.streams[j] = s.streams[j])
      ∧ (¬ lastStream s → u.rs.task = s.rs.task ∧ u.net = s.net)
      ∧ (∀ k, lastStream s → s.rs.task = some k → u.rs.task = none ∧ u.rs.abortCount = 0 ∧ u.rs.appended = []
        ∧ u.rs.handedOver = s.rs.handedOver ++ s.rs.appended
        ∧ u.rs.journal.gate = s.rs.journal.gate ++ k.sendBuf.filter emission
        ∧ u.net.outbound = s.net.outbound ++ (k.sendBuf.zipIdx.filter fun e => !emission e.1).map fun e =>
          ⟨s.ri, s.rs.gang, s.net.nextId, e.1, k.ages.getD e.2 s.core.cycle⟩)
      ∧ u.vault = s.vault ∧ (∀ p, readByte u.core.spad p = readByte s.core.spad p))
  ∧ (∀ i s, i = .nop ∨ i = .cNop → fits i.len s → exec i s = .next (past i.len s))
  ∧ (∀ (q : BitVec 1) (s : State), fits 4 s → exec (.qmap q) s = .next (past 4 (s.setSt { s.st with qm := decide (q = 1) })))

/-- R226 to R230, R377: JREC stages a record under the next number, refuses at 256 unacknowledged ones, and waits while the staging is full; JSEAL closes the staged records into a batch and
returns the highest; EMIT appends its entry; RNGB fills its destination with four Philox blocks and moves the counter on by four. -/
def Sys2Proof.Spec.JournalInstructions : Prop :=
  (∀ (a b : Reg) (s : State), roomX a s = true → fits 4 s →
    let d := s.oxv b
    let off : Nat := d.toNat % 2 ^ 16
    let n : Nat := 16 * (d.toNat / 2 ^ 16 % 2 ^ 8)
    off % 16 = 0 → 16 ≤ n → n ≤ 64 → d.toNat / 2 ^ 24 % 2 ^ 8 = 0 → d.toNat / 2 ^ 64 = 0 →
    (256 ≤ s.rs.jseq.toNat - s.rs.journal.covered.toNat → exec (.jrec a b) s = .next (past 4 (writeX a (BitVec.allOnes 64) s)))
    ∧ (s.rs.jseq.toNat - s.rs.journal.covered.toNat < 256 → stagingFull s = true → exec (.jrec a b) s = stall s)
    ∧ (s.rs.jseq.toNat - s.rs.journal.covered.toNat < 256 → stagingFull s = false → LocalGoes true false (byteRange (off : Int) n) s →
      ∃ u, exec (.jrec a b) s = .next (past 4 (writeX a s.rs.jseq u)) ∧ u.rs.jseq = s.rs.jseq + 1
        ∧ u.rs.journal.unsealed = s.rs.journal.unsealed ++ [⟨s.rs.jseq, BitVec.ofNat 32 (d.toNat / 2 ^ 32), s.rs.journal.jid,
          BitVec.ofNat 7 n, BitVec.ofNat 512 (spadRd s (off : Int) n)⟩]
        ∧ u.streams = s.streams ∧ u.core = s.core))
  ∧ (∀ (a : Reg) (s : State), roomX a s = true → fits 4 s →
    (s.rs.journal.unsealed = [] → exec (.jseal a) s = .next (past 4 (writeX a (BitVec.allOnes 64) s)))
    ∧ (∀ l x, s.rs.journal.unsealed = l ++ [x] →
      ∃ u, exec (.jseal a) s = .next (past 4 (writeX a x.num u)) ∧ u.rs.journal.unsealed = []
        ∧ u.rs.journal.batches.map Batch.slots = s.rs.journal.batches.map Batch.slots ++ [s.rs.journal.unsealed]
        ∧ u.rs.jseq = s.rs.jseq ∧ u.streams = s.streams ∧ u.core = s.core))
  ∧ (∀ (b c : Reg) (s t : State) (p : VWord), popV c s = some (p, t) → fits 4 s →
    let d := t.oxv b
    d.toNat / 2 ^ 120 % 2 ^ 7 ≤ 64 → (d.toNat / 2 ^ 127 = 1 ∨ d.toNat % 2 ^ 64 < t.rs.jseq.toNat) → sendRoom 1 0 t →
    ∃ u, exec (.emit b c) s = .next (past 4 u)
      ∧ Appended [.emit (newMsg t (BitVec.ofNat 32 (d.toNat / 2 ^ 64)) 0 false (BitVec.ofNat 16 (d.toNat / 2 ^ 96)) (BitVec.ofNat 8 (d.toNat / 2 ^ 112))
        0 (d.toNat / 2 ^ 120 % 2 ^ 7) p.toNat) (decide (d.toNat / 2 ^ 127 = 1)) (d.setWidth 64)] t u)
  ∧ (∀ (a b : Reg) (s : State), roomV a s = true → fits 4 s →
    ∃ v, exec (.rngb a b) s = .next (past 4 (writeV a v (writeOx (b + 1) (s.oxv (b + 1) + 4) s)))
      ∧ ∀ j < 4, elem v 128 j = philoxBlock (s.oxv b) (s.oxv (b + 1)) j)

/-- What ends a stream, and what the journal instructions do.
Where the rules leave a choice it is that of log entry 19. -/
def Obligations.EndAndJournal : Prop := StreamEnd ∧ JournalInstructions

/-- The frames of these instructions when they complete (no trap and no end of the activation): registers other than rd, flags, modes, special
and exception registers, the other streams, and memory but for the record that CPY, TNEW, TDEC and TARM write, the LINK of the record before a
CPY and the LINK of the overflow chain's tail. -/
def Sys2Proof.Spec.SystemFrames : Prop :=
  ∀ (i : Instr) (s u : State), fits 4 s → s.st.active = true → s.sliceBusy = false → s.workOf s.ri = false → s.memoriesWf → exec i s = .next u → u.st.tlevel = s.st.tlevel →
    u.st.active = true →
    (∀ a, (∃ b k, tileRule i = some (a, b, k)) ∨ (∃ b, i = .rowq a b) ∨ (∃ b, i = .twait a b) ∨ (∃ b, i = .tchk a b) ∨ i = .cpyq a
        ∨ (∃ b v, i = .msgx a b v) ∨ (∃ n, i = .srd a n) ∨ (∃ b, i = .jrec a b) ∨ i = .jseal a →
      StreamFrame (· = a) noReg noIx noIx False False s u ∧ ∀ p, readByte u.core.spad p = readByte s.core.spad p)
    ∧ ((∃ b c k, rowRule i = some (b, c, k)) ∨ i = .cpygo ∨ (∃ t m, sendRule i s t m) ∨ (∃ a b v r, i = .sendl a b v r) ∨ (∃ y, i = .fence y)
        ∨ (∃ y b, i = .bar y b) ∨ (∃ b c, i = .emit b c) →
      StreamFrame noReg noReg noIx noIx False False s u ∧ ∀ p, readByte u.core.spad p = readByte s.core.spad p)
    ∧ (∀ b c x t, i = .tnew b c → popX b s = some (x, t) →
      StreamFrame noReg noReg noIx noIx False False s u
      ∧ ∀ p, (p < s.rs.spbase.toNat + 64 * (x.toNat / 64) ∨ s.rs.spbase.toNat + 64 * (x.toNat / 64) + 64 ≤ p) →
        readByte u.core.spad p = readByte s.core.spad p)
    ∧ (∀ b x t, ((∃ k, i = .tdec b k) ∨ i = .tarm b) → popX b s = some (x, t) →
      StreamFrame noReg noReg noIx noIx False False s u
      ∧ ∀ p, (p < s.rs.spbase.toNat + 64 * (x.toNat / 64) ∨ s.rs.spbase.toNat + 64 * (x.toNat / 64) + 64 ≤ p) →
        (∀ o, s.rs.ovTail = some o → p < s.rs.spbase.toNat + o + 8 ∨ s.rs.spbase.toNat + o + 16 ≤ p) →
        readByte u.core.spad p = readByte s.core.spad p)
    ∧ (∀ a, i = .cpy a →
      StreamFrame (· = a) noReg noIx noIx False False s u
      ∧ ∀ p, (p < s.rs.spbase.toNat + (oxRecord s).toNat / 2 ^ 16 % 2 ^ 16 ∨ s.rs.spbase.toNat + (oxRecord s).toNat / 2 ^ 16 % 2 ^ 16 + 64 ≤ p) →
        (∀ o, lastRecord s.rs = some o → p < s.rs.spbase.toNat + o ∨ s.rs.spbase.toNat + o + 8 ≤ p) →
        readByte u.core.spad p = readByte s.core.spad p)

/-- What the multiplier's, the engines' and the system instructions leave unchanged. -/
def Obligations.EngineFrames : Prop := MultiplierFrames ∧ SystemFrames

/-- R36, R37, R39, R83, R126, R304, R308: a word that is no instruction takes ILLOP; a stream that owes a WDOG takes it, the task getting
its grace, and the third expiry kills the context; KILL stops a context and reports it; a residency with no work left is returned; a cleared reservation readies its launch task; the head of
an overflow chain moves into the ready queue; a quad-remote access reaches its target or its register; a vector access goes on by one bank access, and ends with the last. -/
def Sys2Proof.Spec.CoreSteps : Prop :=
  (∀ (w : BitVec 32) (s : State), s.sliceBusy = false → exec (.illop w) s = .next (takeTrap 0x01 s.st.pc (w.setWidth 64) s))
  ∧ (∀ (k : SlotIx) (s : State) (x : Task) (h : Word) (n : Fin 2), s.streams[k].active = true → s.res[s.streams[k].res].task = some x →
    x.owed.getLsbD k.val = true → x.expiries < 3 → x.budget ≠ 0 ∨ x.graces ≠ x.expiries →
    (∀ j : SlotIx, j ≠ k → x.owed.getLsbD j.val = false ∧ x.owedAgain.getLsbD j.val = false) →
    s.streams[k].due = none → s.streams[k].area = none → ({ s with cur := k } : State).sliceBusy = false → atRest { s with cur := k } →
    s.streams[k].tlevel.toNat = n.val → vectorOf { s with cur := k } 0x1C = some h →
    ∃ u, exec (.wdog k) s = .next u ∧ u.streams[k].tlevel = s.streams[k].tlevel + 1 ∧ u.streams[k].pc = h
      ∧ u.streams[k].traps[n].cause = 0x1C ∧ u.streams[k].traps[n].epc = s.streams[k].pc &&& 0x7FFE
      ∧ ∃ y, u.res[s.streams[k].res].task = some y ∧ y.owed.getLsbD k.val = false ∧ y.budget = if x.graces = 0 then 512 else x.budget)
  ∧ (∀ (k : SlotIx) (s : State) (x : Task), s.streams[k].active = true → s.res[s.streams[k].res].task = some x →
    s.streams[k].due = none → s.streams[k].area = none → x.budget = 0 → x.graces = 2 → x.expiries = 2 → s.workOf s.streams[k].res = false →
    ∃ u, exec (.wdog k) s = .next u ∧ u.res[s.streams[k].res].killed = true ∧ u.mgr.killQueue.length = s.mgr.killQueue.length + 1)
  ∧ (∀ (r : ResIx) (s : State), s.res[r].state ≠ .free → s.res[r].killed = false → s.workOf r = true →
    ∃ u, exec (.kill r) s = .next u ∧ u.res[r].killDue ≠ none ∧ u.res[r].killed = false ∧ u.streams = s.streams ∧ u.core = s.core)
  ∧ (∀ (r : ResIx) (s : State), s.res[r].state ≠ .free → s.res[r].killed = false → s.workOf r = false →
    ∃ u, exec (.kill r) s = .next u ∧ u.res[r].killed = true ∧ u.res[r].task = none
      ∧ (∀ j : SlotIx, s.streams[j].res = r → u.streams[j].active = false) ∧ (∀ j : SlotIx, s.streams[j].res ≠ r → u.streams[j] = s.streams[j])
      ∧ u.mgr.killQueue.length = s.mgr.killQueue.length + 1 ∧ (∀ e ∈ u.core.readyQ, e.res ≠ r))
  ∧ (∀ (r : ResIx) (s : State), releasable s r = true →
    ∃ u, exec (.residencyRelease r) s = .next u ∧ u.res[r].state = .free ∧ u.res[r].spsize = 0 ∧ u.res[r].task = none ∧ u.res[r].slots = 0)
  ∧ (∀ (r : ResIx) (s : State), s.res[r].clearing = true → s.inScan = false →
    ∃ u, exec (.reservationClearEnd r) s = .next u ∧ u.res[r].clearing = false
      ∧ (s.res[r].state = .running → s.res[r].launchHeld = true → u.res[r].launchReady = true))
  ∧ (∀ (r : ResIx) (s : State) (off : Nat), s.res[r].ovHead = some off → s.core.readyQ.length < 16 → s.inScan = false →
    ∃ u, exec (.overflowChainMove r) s = .next u ∧ u.core.readyQ = s.core.readyQ ++ [⟨r, off, s.core.cycle.toNat⟩] ∧ u.core.spad = s.core.spad
      ∧ u.streams = s.streams)
  ∧ (∀ (s : State) (e : Remote) (o n j : Nat), j < n → BitVec.ofNat 8 (targetRd s e o n / 2 ^ (8 * j)) = targetByte s e (o + j))
  ∧ (∀ (i : Nat) (s : State) (e : Remote), s.core.remote[i]? = some e → e.done < e.n →
    (∀ x ∈ s.core.remote.take i, ¬ (x.slot = e.slot ∧ x.res = e.res ∧ x.target = e.target)) →
    (¬ lastBank e → ∃ u low, exec (.quadRemotePerform i) s = .next u ∧ u.streams = s.streams ∧ u.res = s.res
      ∧ u.core.remote = s.core.remote.set i { e with done := nextBank (e.off.toNat + e.done) - e.off.toNat, low := low })
    ∧ (lastBank e → ∃ u, exec (.quadRemotePerform i) s = .next u ∧ u.core.remote = s.core.remote.eraseIdx i
      ∧ (e.write = false → e.queued = false → s.streams[e.slot].active = true → s.streams[e.slot].res = e.res → e.rd ≠ 0 →
        let v := e.low + 2 ^ (8 * e.done) * targetRd s e (e.off.toNat + e.done) (e.n - e.done)
        (e.signed = false → u.streams[e.slot].getX e.rd = BitVec.ofNat 64 v)
        ∧ (e.signed = true → e.n = 4 → u.streams[e.slot].getX e.rd = (BitVec.ofNat 32 v).signExtend 64))
      ∧ (e.write = true → u.streams = s.streams ∧ u.res = s.res ∧ (s.memoriesWf → s.copiesWf → ∀ j < e.n, e.done ≤ j →
        targetHolds s e (e.off.toNat + j) → targetByte u e (e.off.toNat + j) = BitVec.ofNat 8 (e.data.toNat / 2 ^ (8 * j))))))
  ∧ (∀ (s : State) (q : VecRun), s.core.vecRun = some q → exec (.quadRemotePerform s.core.remote.length) s = .next (vecStep s)
    ∧ (1 < q.pieces.length → ∃ g, (vecStep s).core.vecRun = some { q with pieces := q.pieces.drop 1, got := g } ∧ (vecStep s).streams = s.streams)
    ∧ (q.pieces.length ≤ 1 → (vecStep s).core.vecRun = none))

/-- R13, R14, R295, R297, R285: the dispatcher starts the chosen activation: a launch task with its arguments, a task record with its four
doublewords, a message with its header and payload; an ARMED record starts when TICK has reached its start tick. -/
def Sys2Proof.Spec.Dispatch : Prop :=
  (∀ (s : State) (r : ResIx) (c : Candidate), s.quad.scanHold = false → s.quadOn = true → chosen s = some (r, c) →
    ∃ u, exec .dispatch s = .next u
      ∧ (c.trigger = .launch → launched s u r ∧ u.res[r].launchHeld = false)
      ∧ (∀ off d, c.trigger = .record off → s.res[r].role.tasks[recWord s r off / 2 ^ 32 % 2 ^ 16]? = some d →
        started s u r (.record off) d 0 (fun k => BitVec.ofNat 64 (recWord s r (off + 16 + 8 * k))))
      ∧ (∀ m, c.trigger = .message m → started s u r (.message m) (s.res[r].role.handler m.hidx.toNat) (msgD0 m) (msgPayload m)))
  ∧ (∀ (s : State) (r : ResIx), s.res[r].state = .armed → s.res[r].clearing = false → s.res[r].killed = false → s.res[r].task = none →
    s.res[r].startTick.toNat ≤ s.mgr.tick.toNat → s.quadOn = true → s.quad.scanHold = false →
    ∃ u, exec (.armedStart r) s = .next u ∧ u.res[r].state = .running ∧ launched s u r)
  ∧ (∀ (r : ResIx) (trigger : Trigger) (d : Descriptor) (hdr : Word) (p : Nat → Word) (s : State),
    started s (startTask r trigger d hdr p s) r trigger d hdr p)

/-- The device steps of streams, residencies and the dispatcher.
Where the rules leave a choice it is that of log entries 8, 9, 20 and 21. -/
def Obligations.TaskSteps : Prop := CoreSteps ∧ Dispatch

/-- R150, R337 to R341: the pairs of a joined quad merge once none has unfinished work, at the least of their levels; a unit that needs a grant gets one
when its region's window and queue allow it, and no window of four cycles holds more than two; at a step boundary the level moves by one towards
CAP; an operation ends in the cycle in which its work is done, which answers a matrix command and lets a kill that waited go on (R162, R171); and CAP of a
region is written. -/
def Sys2Proof.Spec.SlewSteps : Prop :=
  (∀ s : State, s.core.jm = 2 → s.core.slew.quadUnit = false → s.core.slew.work = [] →
    (∀ k : Fin 4, k.val ≠ s.coreInQuad.toNat → s.quad.mates[k].busy = false) →
    ∃ u, exec .quadUnitMerge s = .next u ∧ onlySlew s u ∧ u.core.slew.quadUnit = true
      ∧ (s.core.slew.mode = .idle ∨ (∃ k : Fin 4, k.val ≠ s.coreInQuad.toNat ∧ s.quad.mates[k].mode = .idle) →
        u.core.slew.mode = .idle ∧ u.core.slew.level = 0)
      ∧ (s.core.slew.mode ≠ .idle → (∀ k : Fin 4, k.val ≠ s.coreInQuad.toNat → s.quad.mates[k].mode ≠ .idle) →
        let n := u.core.slew.level
        n ≤ s.core.slew.level ∧ (∀ k : Fin 4, k.val ≠ s.coreInQuad.toNat → n ≤ s.quad.mates[k].level)
        ∧ (n = s.core.slew.level ∨ ∃ k : Fin 4, k.val ≠ s.coreInQuad.toNat ∧ n = s.quad.mates[k].level)
        ∧ u.core.slew.mode = if n = 0 then .idle else .fill))
  ∧ (∀ s : State, needsGrant s.core.slew = true →
    let g := s.power.regions[s.region]
    (∀ e ∈ g.recent, e.1 + 4 ≤ s.core.slew.clock) → g.waiting = [] →
    ∃ u, exec .slewGrant s = .next u ∧ u.core.slew.mode = .work ∧ u.power.regions[s.region].gcnt.toNat = min 0xFFFF (g.gcnt.toNat + 1)
      ∧ (u.core.slew.work = s.core.slew.work → onlySlew s u))
  ∧ (∀ (own : Option SlewWait) (clock : Nat) (g : SlewRegion), windowSum g clock ≤ 2 → windowSum (regionCycle own clock g).2 clock ≤ 2)
  ∧ (∀ (room : Nat) (ws : List SlewWait), (grantRound room ws).1 ++ (grantRound room ws).2 = ws
    ∧ ((grantRound room ws).1.map SlewWait.weight).sum ≤ room)
  ∧ (∀ (s : State) w rest, s.core.slew.work = w :: rest → s.core.slew.mode = .work → s.core.slew.t + 1 = stepLength s.core.slew →
    let cap := slewCap s.power.regions[s.region]
    ∃ u, exec .slewLevelStep s = .next u ∧ u.core.slew.t = 0
      ∧ u.core.slew.level = (if s.core.slew.level < cap then s.core.slew.level + 1
        else if cap < s.core.slew.level then s.core.slew.level - 1 else s.core.slew.level)
      ∧ (u.core.slew.work = s.core.slew.work → onlySlew s u))
  ∧ (∀ (s : State) w rest, s.core.slew.work = w :: rest → s.core.slew.mode = .work → 8 * w.count ≤ s.core.slew.acc + s.core.slew.level →
    ((∀ r : ResIx, s.res[r].killDue = none) → s.quad.leaveDue = false → ∃ t, onlySlew s t ∧ t.core.slew.work = rest ∧ t.core.slew.acc = 0
      ∧ (w.reply = none → exec .sliceWorkEnd s = .next t)
      ∧ (∀ m a, w.reply = some (m, a) → exec .sliceWorkEnd s = .next (postReply a (landed m t))))
    ∧ (∀ r : ResIx, s.res[r].killDue ≠ none → rest = [] → ∃ u, exec .sliceWorkEnd s = .next u ∧ u.res[r].killed = true))
  ∧ (∀ (w : Fin 30 × BitVec 4) (s : State), ∃ u, exec (.rslewWrite w) s = .next u ∧ u.power.regions[w.1].cap = w.2
    ∧ u.power.regions[w.1].gcnt = s.power.regions[w.1].gcnt ∧ (∀ k, k ≠ w.1 → u.power.regions[k] = s.power.regions[k]) ∧ u.core = s.core)

/-- R169 to R171: a command of the matrix port that passes its checks is performed and answered with status 0 and its data, one with slice work when
that has ended; one that fails a check is denied with the reason; one that asks for no reply is a dead letter; an index without a command is ILLCMD. The answer goes to the source on RPY with SEQ and RHIDX of the command. -/
def Sys2Proof.Spec.MatrixPort : Prop :=
  (∀ i h right run m rest r s s1 data, portRule i = some (h, right, run) → s.core.portQ = m :: rest → m.hidx.toNat = h → s.inScan = false →
    m.rq = true → s.quadOn = true → portChecks s m right = .inr r → run m r s = .op (.ok s1) data →
    (s1.core.slew.work = s.core.slew.work → exec i s = .next (answer 0 0 0 data m s1))
    ∧ (∀ x, s1.core.slew.work = s.core.slew.work ++ [x] → ∃ u, exec i s = .next u
      ∧ u.core.slew.work = s.core.slew.work ++ [{ x with reply := some (m, portReply m 0 0 0 data s1) }]
      ∧ u.core.portQ = s1.core.portQ.tail ∧ u.core.accs = s1.core.accs ∧ u.net = s1.net))
  ∧ (∀ i h right run m rest s, portRule i = some (h, right, run) → s.core.portQ = m :: rest → m.hidx.toNat = h → s.inScan = false →
    m.rq = false → exec i s = .next (landed m (dropDead 6 m { s with core := { s.core with portQ := rest } })))
  ∧ (∀ i h right run m rest reason s, portRule i = some (h, right, run) → s.core.portQ = m :: rest → m.hidx.toNat = h → s.inScan = false →
    m.rq = true → s.quadOn = true → portChecks s m right = .inl reason → exec i s = .next (answer 1 reason 0 [] m s))
  ∧ (∀ m rest r s, s.core.portQ = m :: rest → m.hidx.toNat = 0xE6 ∨ m.hidx.toNat = 0xE7 → s.inScan = false → m.rq = true → s.quadOn = true →
    portChecks s m none = .inr r → exec .illcmd s = .next (answer 5 0 0 [] m s))
  ∧ (∀ (m : Msg) (r : ResIx) (s : State), 24 ≤ m.len.toNat → (∀ k, 2 ≤ k → k < 8 → msgPayload m k = 0) → s.res[r].accs ≠ 0 →
    s.core.slew.work = [] → s.core.jm ≠ 2 →
    runMcfg m r s = .op (.ok { s with core := { s.core with
      sq := (msgPayload m 1).setWidth 5, wx := (msgPayload m 1 >>> 8).setWidth 7, wy := (msgPayload m 1 >>> 16).setWidth 7 } }) [])
  ∧ (∀ (m : Msg) (st reason info : Nat) (data : List Word) (s : State), st < 256 → reason < 256 →
    let a := portReply m st reason info data s
    a.dest = m.src ∧ a.src = s.address ∧ a.vn = 1 ∧ a.seq = m.seq ∧ a.hidx = m.rhidx ∧ a.len = 64
    ∧ a.payload.toNat % 2 ^ 64 = m.seq.toNat * 2 ^ 32 + reason * 2 ^ 8 + st)

/-- The device steps of the slew units and the matrix port.
Where the rules leave a choice it is that of log entries 9, 12, 20 and 24. -/
def Obligations.MultiplierSteps : Prop := SlewSteps ∧ MatrixPort

/-- R178, R180, R181, R184: the head operation of the tile engine starts, ends with BADDESC, or with GATED behind its quad's closed router, before it
starts, moves its beats between the local space and the vault one column at a time, or ends with ACCESS where the access table forbids the beat (R371), and leaves the queue with its status. -/
def Sys2Proof.Spec.TileSteps : Prop :=
  (∀ (s : State) e rest, engHead s e rest → e.isTile = true → e.started = false →
    tileBadBit e.kind (decide (s.res[e.res].accs ≠ 0)) e.desc = none → s.quadOn = true → opWaits s e = false →
    ∃ u, exec .tileOpStart s = .next u ∧ engHead u { e with started := true } rest)
  ∧ (∀ (s : State) e rest bit, engHead s e rest → e.isTile = true → e.started = false →
    tileBadBit e.kind (decide (s.res[e.res].accs ≠ 0)) e.desc = some bit →
    ∃ u, exec .tileOpStart s = .next u ∧ engHead u { e with started := true, ended := some (5, BitVec.ofNat 8 bit), faultWhy := 0 } rest)
  ∧ (∀ (s : State) e rest, engHead s e rest → e.isTile = true → e.started = false →
    tileBadBit e.kind (decide (s.res[e.res].accs ≠ 0)) e.desc = none → s.quadOn = false →
    ∃ u, exec .tileOpStart s = .next u ∧ engHead u { e with started := true, ended := some (4, 0), faultWhy := 0 } rest)
  ∧ (∀ (s : State) e rest w, engHead s e rest → beatGoes s e w → ¬ beatAllowed s e →
    ∃ u, exec .vaultBeat s = .next u ∧ engHead u { e with ended := some (8, 0), faultWhy := 0 } rest ∧ u.vault.mem = s.vault.mem ∧ u.core.spad = s.core.spad)
  ∧ (∀ (s : State) e rest w, engHead s e rest → s.memoriesWf → beatGoes s e w → beatAllowed s e → e.kind ≠ .tst → columnGood s (beatPlace e w).addr →
    ∃ u, exec .vaultBeat s = .next u ∧ engHead u { e with beats := e.beats + 1 } rest ∧ u.vault.mem = s.vault.mem
      ∧ ∀ k < 16, (tdSpace e.desc = .spad → beatLocal e.desc e.beats + k < s.res[e.res].spsize.toNat) →
        localByte u e.res (tdSpace e.desc) (beatLocal e.desc e.beats + k) = readByte s.vault.mem ((beatPlace e w).addr + k))
  ∧ (∀ (s : State) e rest w bs, engHead s e rest → s.memoriesWf → beatGoes s e w → beatAllowed s e → e.kind = .tst → columnGood s (beatPlace e w).addr →
    (beatPlace e w).addr % 16 = 0 → tileRead s s.res[e.res] (tdSpace e.desc) (beatLocal e.desc e.beats) = some bs →
    logFull s.res[e.res].asid (pageOf (beatVa e.desc e.beats)) (beatPlace e w).vault s = false →
    ∃ u, exec .vaultBeat s = .next u ∧ engHead u { e with beats := e.beats + 1 } rest
      ∧ (∀ k < 16, readByte u.vault.mem ((beatPlace e w).addr + k) = localByte s e.res (tdSpace e.desc) (beatLocal e.desc e.beats + k))
      ∧ ∀ a, (a < (beatPlace e w).addr ∨ (beatPlace e w).addr + 16 ≤ a) → readByte u.vault.mem a = readByte s.vault.mem a)
  ∧ (∀ (s : State) e rest (st d : BitVec 8), engHead s e rest → e.isTile = true → e.started = true →
    (e.ended = some (st, d) ∨ (e.ended = none ∧ tileBeats e.desc ≤ e.beats ∧ st = 0 ∧ d = 0)) →
    ∃ u, exec .tileOpComplete s = .next u ∧ u.core.engQ = rest
      ∧ u.res[e.res].statuses.getLast? = some (e.tag, statusWord (16 * e.beats) e.tag.toNat d.toNat st.toNat)
      ∧ u.res[e.res].completed = s.res[e.res].completed + 1
      ∧ (∀ k, e.lock = some k → u.core.locks[k] = none) ∧ u.core.spad = s.core.spad ∧ u.vault = s.vault)
  ∧ (∀ (s : State) e rest (mapped : Bool), engHead s e rest → e.faultWhy ≠ 0 →
    ∃ u, exec (.pageMapResume mapped) s = .next u
      ∧ engHead u (if mapped then { e with faultWhy := 0 } else { e with faultWhy := 0, ended := some (7, BitVec.ofNat 8 (faultDetail s.res[e.res].killed e.faultWhy)) }) rest)

/-- R187, R254, R258 to R262, R180: ACT and PRE leave the queue at its head and issue their row commands, an ACT once its walk is done; activation, precharge,
refresh and repair of a bank end, and one of them that has nothing after it leaves the bank idle; a refresh that is due begins in an idle bank, or beside a repair; a row
with its fourth correction moves to a spare, and a bank without a spare is reported; a sample of temperatures sets the layers' states and stops a transfer that meets a throttled layer. -/
def Sys2Proof.Spec.BankSteps : Prop :=
  (∀ (s : State) e rest, engHead s e rest → e.kind = .act ∧ s.core.acts = [] ∨ e.kind = .pre →
    ∃ u a, exec (if e.kind = .act then .actAtHead else .preAtHead) s = .next u ∧ u.streams = s.streams ∧ u.res = s.res
      ∧ u.core = { s.core with engQ := rest, acts := s.core.acts ++ a }
      ∧ (e.kind = .pre ∨ (∀ n, pageOf e.va.toNat ≤ n → n * 2 ^ 18 < e.va.toNat + e.len.toNat →
        (bufFind s.vault.ctrlBuf s.res[e.res].asid n).isSome = true) → a = []))
  ∧ (∀ (s t : State) a more, s.core.acts = a :: more → rowRange true a.1 a.2.1 a.2.2 s = some t →
    exec .actAtHead s = .next { t with core := { t.core with acts := more } })
  ∧ (∀ (s : State) e rest t, engHead s e rest → e.kind = .act ∧ s.core.acts = [] ∨ e.kind = .pre → e.len.toNat ≤ 16 → 0 < e.len.toNat → e.va.toNat % 16 = 0 →
    e.va.toNat + 16 ≤ 2 ^ 48 →
    bufFind s.vault.ctrlBuf s.res[e.res].asid (pageOf e.va.toNat) = some t → sel t.word 60 1 = 0 → pageIsLocal s t.word = true →
    let p := place t.word (e.va.toNat % 2 ^ 18)
    ∃ u, exec (if e.kind = .act then .actAtHead else .preAtHead) s = .next u
      ∧ u.vault.banks[p.bankIx] = (if e.kind = .act then askRow p.row s.vault.banks[p.bankIx] else askClose p.row s.vault.banks[p.bankIx]))
  ∧ (∀ (b : BankIx) (r : Nat) (s : State), quietBank s.vault.banks[b] → s.vault.banks[b].busy = .activating r →
    ∃ u, exec (.activationEnd b) s = .next u ∧ u.vault.banks[b] = { s.vault.banks[b] with busy := .idle, openRow := some r })
  ∧ (∀ (b : BankIx) (s : State), quietBank s.vault.banks[b] → s.vault.banks[b].busy = .precharging →
    ∃ u, exec (.prechargeEnd b) s = .next u ∧ u.vault.banks[b] = { s.vault.banks[b] with busy := .idle, openRow := none })
  ∧ (∀ (b : BankIx) (s : State), s.vault.banks[b].busy = .idle → s.vault.banks[b].refreshDue = true →
    ∃ u, exec (.refresh b) s = .next u ∧ u.vault.banks[b] = { s.vault.banks[b] with busy := .refreshing, refreshDue := false })
  ∧ (∀ (b : BankIx) (s : State), quietBank s.vault.banks[b] → s.vault.banks[b].busy = .refreshing →
    ∃ u, exec (.refreshEnd b) s = .next u ∧ u.vault.banks[b] = { s.vault.banks[b] with busy := .idle })
  ∧ (∀ (b : BankIx) (row : Nat) (s : State), s.vault.banks[b].busy = .refreshing → s.vault.banks[b].refreshDue = false →
    s.vault.banks[b].repairDue = some row →
    ∃ u, exec (.refreshEnd b) s = .next u ∧ u.vault.banks[b] = { s.vault.banks[b] with busy := .repairing row })
  ∧ (∀ (b : BankIx) (row : Nat) (s : State), (s.vault.banks[b].busy = .repairing row → s.vault.banks[b].refreshDue = true →
      ∃ u, exec (.refresh b) s = .next u ∧ u.vault.banks[b] = { s.vault.banks[b] with busy := .refreshRepair row, refreshDue := false })
    ∧ (s.vault.banks[b].busy = .refreshRepair row →
      ∃ u, exec (.refreshEnd b) s = .next u ∧ u.vault.banks[b] = { s.vault.banks[b] with busy := .repairing row }))
  ∧ (∀ (b : BankIx) (row : BitVec 10) (s : State), 4 ≤ Table.get 0 s.vault.banks[b].corrections row.toNat → 16 ≤ s.vault.banks[b].spares →
    s.vault.banks[b].full = false → s.vault.banks[b].busy ≠ .repairing row.toNat → s.vault.banks[b].busy ≠ .refreshRepair row.toNat →
    ∃ u, exec (.rowRepair b row) s = .next u ∧ u.vault.banks[b] = { s.vault.banks[b] with full := true })
  ∧ (∀ (b : BankIx) (row : BitVec 10) (s : State), s.vault.banks[b].busy = .repairing row.toNat →
    Table.wf 0 s.vault.banks[b].corrections = true →
    ∃ u, exec (.rowRepair b row) s = .next u ∧ u.vault.banks[b].spares = s.vault.banks[b].spares + 1
      ∧ Table.get 0 u.vault.banks[b].corrections row.toNat = 0
      ∧ ∀ k, k ≠ row.toNat → Table.get 0 u.vault.banks[b].corrections k = Table.get 0 s.vault.banks[b].corrections k)
  ∧ (∀ (temps : List Nat) (s : State), ∃ u, exec (.tempSample temps) s = .next u ∧ u.vault.mem = s.vault.mem
      ∧ ∀ (i : Fin 8) (t : Nat), temps[i.val]? = some t →
        u.vault.hot[i] = (if 85 < t then true else if t ≤ 80 then false else s.vault.hot[i])
        ∧ u.vault.throttled[i] = (if 105 < t then true else if t ≤ 100 then false else s.vault.throttled[i]))
  ∧ (∀ (temps : List Nat) (s : State) e rest (i : Fin 8) (t : Nat), engHead s e rest → e.kind = .tld ∨ e.kind = .tlds → e.started = true → e.ended = none →
    e.beats < tileBeats e.desc → temps[i.val]? = some t → 105 < t → s.vault.throttled[i] = false →
    (∀ j : Fin 8, j.val < i.val → s.vault.throttled[j] = true ∨ ∀ x, temps[j.val]? = some x → x ≤ 105) →
    ∃ u, exec (.tempSample temps) s = .next u ∧ engHead u { e with ended := some (3, BitVec.ofNat 8 i.val), faultWhy := 0 } rest)

/-- The device steps of the tile engine and the banks.
Where the rules leave a choice it is that of log entries 9, 10, 13, 18, 40 and 46. -/
def Obligations.TileEngineSteps : Prop := TileSteps ∧ BankSteps

/-- R270, R272 to R278, R414: a walk fills both translation buffers; a change of a table entry writes the mirror and the entry, leaves no stale
translation, and fills the pages that it maps anew with zeros, unless their rows have been prepared; a quad's dirty log of 128 entries or more is merged,
with its tables readable to the last entry; a harvest advances the harvest number
and merges every log. A step that needs a copy of an entry that it cannot reach waits.
Where the rules leave a choice it is that of log entries 9, 34 and 46. -/
def Obligations.TranslationSteps : Prop :=
  (∀ (asid : Asid) (vpn : Vpn) (w : Word) (s t : State), bufFind s.vault.ctrlBuf asid vpn.toNat = none → bufFind s.vault.stackBuf asid vpn.toNat = none →
    walk asid vpn.toNat s = (.ok w, t) →
    ∃ u, exec (.translationWalk asid vpn) s = .next u ∧ inBuffers u asid vpn w ∧ u.core = t.core ∧ u.vault.mem = t.vault.mem)
  ∧ (∀ (level : Fin 3) (asid : Asid) (vpn : Vpn) (word : Word) (s : State) (p m : Place), s.memoriesWf →
    levelEntry level asid vpn.toNat s = some (p, m) → s.resil.snapshots = [] → copyHeld s p = false → copyHeld s m = false →
    p.addr + 8 ≤ m.addr ∨ m.addr + 8 ≤ p.addr → busGood s p.addr → busGood s m.addr →
    let filled := zeroFilled s (2 - level.val) (BitVec.ofNat 64 (readLE s.vault.mem p.addr 8)) word
    (∀ w ∈ filled, ∀ i < 2 ^ sel w 44 3, vaultGated s (pwVault w i) = false) →
    ∃ u, exec (.tableEntryChange level asid vpn word) s = .next u
      ∧ readLE u.vault.mem p.addr 8 = word.toNat ∧ readLE u.vault.mem m.addr 8 = word.toNat
      ∧ (∀ a, (a < p.addr ∨ p.addr + 8 ≤ a) → (a < m.addr ∨ m.addr + 8 ≤ a) →
        ((∃ w ∈ filled, inPage w a = true) → readByte u.vault.mem a = 0)
        ∧ ((∀ w ∈ filled, inPage w a = false) → readByte u.vault.mem a = readByte s.vault.mem a))
      ∧ (∀ e ∈ u.vault.ctrlBuf ++ u.vault.stackBuf, e.asid = asid →
        e.vpn.toNat / 2 ^ (10 * (2 - level.val)) ≠ vpn.toNat / 2 ^ (10 * (2 - level.val))))
  ∧ (∀ (quad : BitVec 13) (s : State), logGoes s quad → readable s → 128 ≤ (logOf s quad).length →
    ∃ u, exec (.dirtyLogMerge quad) s = .next u ∧ u.quad.dirtyLog = s.quad.dirtyLog.filter (fun e => decide (e.1 ≠ quad)) ∧ u.core = s.core)
  ∧ (∀ (quad : BitVec 13) (s : State), ¬ logGoes s quad ∨ (logOf s quad).length < 128 → exec (.dirtyLogMerge quad) s = .next s)
  ∧ (∀ (asid : Asid) (s : State), readable s → (∀ quad, logGoes s quad) → (∀ vpn ∈ mappedPages s asid, leafHeld asid vpn s = none) →
    ∃ u, exec (.harvest asid) s = .next u ∧ u.vault.harvest = s.vault.harvest + 1 ∧ u.quad.dirtyLog = []
    ∧ (∀ e ∈ u.vault.harvested, e.1 = asid) ∧ u.core = s.core ∧ u.streams = s.streams)

/-- R190, R193, R195, R233, R368: the engine serves the chains in turn; a copy command whose record fails a check ends with BADDESC and the failing bit, one without its right with DENIED; FILL,
COPY, HOSTRD and HOSTWR between the scratchpad and themselves, a pattern or the host move every byte; DRAIN ends; a completed command writes DONE,
then CSEQ and CSTAT into its record, with which it leaves the chain, and then decrements the record that it names. -/
def Sys2Proof.Spec.CopySteps : Prop :=
  (∀ (r : ResIx) (s : State) i, copyStep r i → hasTurn r s = false → exec i s = .next s)
  ∧ (∀ (r : ResIx) (s : State) off rec bit i, copyStarts s r off rec → copyEvent (crCmd rec) r i → copyBadBit (decide (s.res[r].accs ≠ 0)) rec = some bit →
    ∃ u, exec i s = .next u ∧ copyEnded u r off 5 bit 0 ∧ u.core = s.core ∧ u.vault = s.vault ∧ u.host = s.host)
  ∧ (∀ (r : ResIx) (s : State) off rec i, copyStarts s r off rec → copyGood s r rec → copyEvent (crCmd rec) r i →
    (crCmd rec = 3 ∧ hostAllowed r 62 rec s = false) ∨ (crCmd rec = 4 ∧ hostAllowed r 61 rec s = false) ∨ (crCmd rec = 1 ∧ engineRight s s.res[r].asid 26 = false) →
    ∃ u, exec i s = .next u ∧ copyEnded u r off 8 0 0 ∧ u.core = s.core ∧ u.vault = s.vault ∧ u.host = s.host)
  ∧ (∀ (r : ResIx) (s : State) off rec i, copyStarts s r off rec → copyGood s r rec → copyEvent (crCmd rec) r i → crLen rec = 0 → crCmd rec ≠ 1 →
    (crCmd rec = 3 → hostAllowed r 62 rec s = true) → (crCmd rec = 4 → hostAllowed r 61 rec s = true) →
    ∃ u, exec i s = .next u ∧ (crCmd rec ≤ 5 → copyEnded u r off 0 0 0) ∧ u.core = s.core ∧ u.vault = s.vault ∧ u.host = s.host)
  ∧ (∀ (r : ResIx) (s : State) rec c, copyGoes s r rec c → s.memoriesWf → crCmd rec = 2 → crDsp rec = 1 →
    ∃ u, exec (.fill r) s = .next u ∧ unitWritten s u r rec c ((List.range (min (crLen rec - c.done) 16)).map (fun i =>
      BitVec.ofNat 8 (crArg0 rec / 2 ^ (8 * ((c.done + i) % 8))))))
  ∧ (∀ (r : ResIx) (s : State) rec c, copyGoes s r rec c → crCmd rec = 0 → crSsp rec = 1 → crDsp rec = 1 → crConverts rec = false → s.core.spadBad = [] →
    c.out = none → c.got = [] →
    ∃ u, exec (.copy r) s = .next u ∧ u.quad.copyRun[r] = some { c with out := some (unitRead s r rec c) } ∧ u.core = s.core ∧ u.vault = s.vault)
  ∧ (∀ (r : ResIx) (s : State) rec c bs, copyGoes s r rec c → s.memoriesWf → crCmd rec = 0 → crDsp rec = 1 → crConverts rec = false →
    c.out = some bs → bs ≠ [] →
    ∃ u, exec (.copy r) s = .next u ∧ unitWritten s u r rec c bs)
  ∧ (∀ (r : ResIx) (s : State) rec c (bytes : List Byte), copyGoes s r rec c → s.memoriesWf → crCmd rec = 3 → crDsp rec = 1 →
    hostAllowed r 62 rec s = true → c.out = none → c.done = 0 → crLen rec ≤ bytes.length →
    ∃ u, exec (.hostrd r bytes) s = .next u ∧ unitWritten s u r rec c (bytes.take (crLen rec)))
  ∧ (∀ (r : ResIx) (s : State) rec c (bytes bs : List Byte), copyGoes s r rec c → s.memoriesWf → crCmd rec = 3 → crDsp rec = 1 → c.out = some bs →
    bs ≠ [] →
    ∃ u, exec (.hostrd r bytes) s = .next u ∧ unitWritten s u r rec c bs)
  ∧ (∀ (r : ResIx) (s : State) rec c, copyGoes s r rec c → crCmd rec = 4 → crSsp rec = 1 → hostAllowed r 61 rec s = true → s.core.spadBad = [] →
    ∃ u, exec (.hostwr r) s = .next u ∧ copyAdvanced u r rec c (min (crLen rec - c.done) 16) c.out ∧ u.core = s.core ∧ u.vault = s.vault
      ∧ u.host.written = s.host.written ++ (unitRead s r rec c).zipIdx.map (fun e => (BitVec.ofNat 64 (crArg0 rec + c.done + e.2), e.1)))
  ∧ (∀ (r : ResIx) (s : State) off rec, copyStarts s r off rec → copyGood s r rec → crCmd rec = 5 →
    ∃ u, exec (.drain r) s = .next u ∧ copyEnded u r off 0 0 0 ∧ u.core = s.core ∧ u.vault = s.vault ∧ u.host = s.host)
  ∧ (∀ (r : ResIx) (s : State) off seq rest c, s.res[r].handedOver = (off, seq) :: rest → s.quad.copyRun[r] = some c → c.ended = true → c.off = off →
    s.memoriesWf → c.decr = none → hasTurn r s = true →
    (c.wrote = false → ∃ u, exec (.copyCompletion r) s = .next u ∧ u.res = s.res ∧ u.quad.copyRun[r] = some { c with wrote := true }
      ∧ recWord u r (off + 48) = c.done % 2 ^ 64 ∧ u.core.locks = s.core.locks)
    ∧ (c.wrote = true → ∃ u, exec (.copyCompletion r) s = .next u ∧ u.res[r].handedOver = rest ∧ u.res[r].lastCseq = seq
      ∧ recWord u r (off + 56) = c.status.toNat * 2 ^ 32 + seq.toNat
      ∧ (∀ (k : Fin 8) (x : Lock), u.core.locks[k] = some x → x.owner ≠ some (r, off))
      ∧ (crFld (readRecord s r off) 4 1 = 0 → u.quad.copyRun[r] = none)
      ∧ (crFld (readRecord s r off) 4 1 = 1 → u.quad.copyRun[r] = some { c with decr := some (crFld (readRecord s r off) 48 16 / 64 * 64) })))
  ∧ (∀ (r : ResIx) (s : State) c a, s.quad.copyRun[r] = some c → c.decr = some a → hasTurn r s = true →
    let t := decRecord r a 1 { s with quad := { s.quad with copyRun := vset s.quad.copyRun r none } }
    exec (.copyCompletion r) s = .next { t with quad := { t.quad with copyTurn := r.val } })

/-- R233, R242, R279: a re-stripe sets MIG for its next page, moves it column by column and chunk by chunk, and after the last chunk and the switch tick
writes the new word: the page counts as done. A column that moves without an error holds at its new place what it held at the old. -/
def Sys2Proof.Spec.RestripeSteps : Prop :=
  (∀ (r : ResIx) (s t : State) off rec w, copyStarts s r off rec → copyGood s r rec → crCmd rec = 1 → engineRight s s.res[r].asid 26 = true →
    translateStack s.res[r].asid (pageOf (crSrc rec)) s = (.ok w, t) → sel w 60 1 = 0 → epochStale t s.res[r].asid w = false →
    leafHeld s.res[r].asid (pageOf (crSrc rec)) t = none →
    ∃ u c, exec (.restripe r) s = .next u ∧ u.quad.copyRun[r] = some c ∧ c.moving = true ∧ c.page = pageOf (crSrc rec) ∧ c.chunk = 0 ∧ c.col = 0 ∧ c.ended = false
      ∧ bufFind u.vault.stackBuf s.res[r].asid (pageOf (crSrc rec)) = none ∧ bufFind u.vault.ctrlBuf s.res[r].asid (pageOf (crSrc rec)) = none
      ∧ u.core = t.core)
  ∧ (∀ (r : ResIx) (s : State) off rec c, restriping s r off rec c →
    let old := leafWord s s.res[r].asid c.page
    let new : Word := BitVec.ofNat 64 (crArg0 rec)
    let size := moveChunk old new
    let lo := c.chunk * size
    let o := lo + 16 * c.col
    ∀ d t, lo < 2 ^ 18 → pageInUse s s.res[r].asid c.page = false → requestInUse s s.res[r].asid c.page lo (lo + size) = false →
    leafHeld s.res[r].asid c.page s = none → vaultGated s (place old o).vault = false → vaultGated s (place new o).vault = false →
    moveColumn s.res[r].asid c.page old new o s = some (d, t) →
    ∃ u c', exec (.chunkMove r) s = .next u ∧ u.quad.copyRun[r] = some c' ∧ c'.moving = true ∧ c'.done = c.done ∧ c'.ended = false
      ∧ (16 * (c.col + 1) < size → c'.chunk = c.chunk ∧ c'.col = c.col + 1) ∧ (size ≤ 16 * (c.col + 1) → c'.chunk = c.chunk + 1 ∧ c'.col = 0)
      ∧ (d = 0 → c'.status = c.status) ∧ (d ≠ 0 → c.status = 0 → c'.status = 6 ∧ c'.detail = BitVec.ofNat 8 d)
      ∧ (c.chunk ≠ 0 ∨ 16 * (c.col + 1) < size → u.vault.mem = t.vault.mem) ∧ u.core = s.core)
  ∧ (∀ (asid : Asid) (vpn : Nat) (old new : Word) (o : Nat) (s t : State), s.memoriesWf → moveColumn asid vpn old new o s = some (0, t) →
    (∀ k < 16, readByte t.vault.mem ((place new o).addr + k) = readByte s.vault.mem ((place old o).addr + k))
    ∧ ∀ a, (a < (place new o).addr ∨ (place new o).addr + 16 ≤ a) → readByte t.vault.mem a = readByte s.vault.mem a)
  ∧ (∀ (r : ResIx) (s : State) off rec c, restriping s r off rec c →
    2 ^ 18 ≤ c.chunk * moveChunk (leafWord s s.res[r].asid c.page) (BitVec.ofNat 64 (crArg0 rec)) → crArg1 rec ≤ s.mgr.tick.toNat →
    leafHeld s.res[r].asid c.page s = none →
    ∃ u c', exec (.restripeSwitch r) s = .next u ∧ u.quad.copyRun[r] = some c' ∧ c'.moving = false ∧ c'.done = c.done + 2 ^ 18
      ∧ (c'.ended = true ↔ crLen rec ≤ c.done + 2 ^ 18) ∧ bufFind u.vault.stackBuf s.res[r].asid c.page = none ∧ u.core = s.core)

/-- The device steps of the copy engine.
Where the rules leave a choice it is that of log entries 9, 10, 35 and 36. -/
def Obligations.CopyEngineSteps : Prop := CopySteps ∧ RestripeSteps

/-- R206 to R208, R233, R235, R236, R242, R257: an agent takes up the request whose turn it is and moves its columns, each when it is the oldest beat of
its bank: a read keeps its bytes and answers them, a write stores them, an atomic gives the new value, a fence waits for the earlier requests; a served
request replies where RQ asks for it, one of this core completes internally, and the interface sends the rest of a write that was served in part.
Where the rules leave a choice it is that of log entries 9, 10, 34 and 48. -/
def Obligations.AgentSteps : Prop :=
  (∀ (ev : Instr) (s t : State) i j w, agentTurn s i j → agentEvent j.m.hidx ev → j.m.hidx ≠ 0xF4 → agentAccepts s i j w t →
    ∃ u, exec ev s = .next u ∧ u.vault.mem = t.vault.mem ∧ u.core = t.core ∧ u.net.completions = s.net.completions
      ∧ u.net.agentQ = s.net.agentQ.modify i (fun _ => takenUp t j w))
  ∧ (∀ (s : State) i j w c rest, agentTurn s i j → j.m.hidx = 0xF0 → columnGoes s j w c rest →
    let got := writeList j.got (columnAt s j w c).1 (readList s.vault.mem (columnAt s j w c).2.addr (columnSpan j c))
    ∃ u, exec (.agentVread none) s = .next u ∧ u.vault.mem = s.vault.mem ∧ agentMoved s u i { j with left := rest, got := got }
      ∧ (rest = [] → j.m.rq = true → ∃ a, replySent u (deciding j s) a ∧ a.dest = j.m.src ∧ a.vn = 1 ∧ a.seq = j.m.seq ∧ a.hidx = j.m.rhidx
        ∧ a.src = BitVec.ofNat 32 (s.core.pkg.toNat * 2 ^ 15 + deciding j s)
        ∧ a.payload = BitVec.ofNat 512 ((statusWord j.served j.m.seq.toNat j.detail.toNat 0).toNat + bytesLE (readList got (reqAddr j.m % 2 ^ 18) j.served) * 2 ^ 64)))
  ∧ (∀ (s : State) i j w c rest, agentTurn s i j → j.m.hidx = 0xF1 → columnGoes s j w c rest → s.memoriesWf →
    logFull j.m.asid (pageOf (reqAddr j.m)) (columnAt s j w c).2.vault s = false →
    ∃ u, exec (.agentVwrite none) s = .next u ∧ agentMoved s u i { j with left := rest }
      ∧ readLE u.vault.mem (columnAt s j w c).2.addr (columnSpan j c)
        = j.m.payload.toNat / 2 ^ (128 + 8 * ((columnAt s j w c).1 - reqAddr j.m % 2 ^ 18)) % 2 ^ (8 * columnSpan j c)
      ∧ ∀ a, (a < (columnAt s j w c).2.addr ∨ (columnAt s j w c).2.addr + columnSpan j c ≤ a) → readByte u.vault.mem a = readByte s.vault.mem a)
  ∧ (∀ (s : State) i j w c, agentTurn s i j → j.m.hidx = 0xF2 → reqD1 j.m = 16 → j.span = 8 → columnGoes s j w c [] → c ≤ reqAddr j.m % 2 ^ 18 →
    s.memoriesWf → logFull j.m.asid (pageOf (reqAddr j.m)) (columnAt s j w c).2.vault s = false →
    ∃ u, exec (.agentVamo none) s = .next u ∧ u.net.agentQ = s.net.agentQ.eraseIdx i
      ∧ readLE u.vault.mem (columnAt s j w c).2.addr 8 = (readLE s.vault.mem (columnAt s j w c).2.addr 8 + sel j.m.payload 128 64) % 2 ^ 64)
  ∧ (∀ (s : State) i j w c, agentTurn s i j → j.m.hidx = 0xF3 → j.span = 8 → columnGoes s j w c [] → c ≤ reqAddr j.m % 2 ^ 18 →
    s.memoriesWf → logFull j.m.asid (pageOf (reqAddr j.m)) (columnAt s j w c).2.vault s = false →
    ∃ u, exec (.vfaddc none) s = .next u ∧ u.net.agentQ = s.net.agentQ.eraseIdx i
      ∧ readLE u.vault.mem (columnAt s j w c).2.addr 4 =
        (fadd32 .rne (readLE s.vault.mem (columnAt s j w c).2.addr 4) (reqD1 j.m % 2 ^ 32)).1 % 2 ^ 32)
  ∧ (∀ (s t : State) i j w, agentTurn s i j → j.m.hidx = 0xF4 → agentAccepts s i j w t → behindSource i j s (fun _ => true) = false →
    ∃ u, exec (.vfence none) s = .next u ∧ u.net.agentQ = s.net.agentQ.eraseIdx i ∧ u.vault.mem = t.vault.mem
      ∧ u.net.completions = s.net.completions ++ (if j.own then [{ j with
        word := some (holderWord t j.m.asid (pageOf (reqAddr j.m)) w (reqAddr j.m % 2 ^ 18)) }] else []))
  ∧ (∀ (ev : Instr) (s t : State) i j w, agentTurn s i j → agentEvent j.m.hidx ev → j.word = none → behindSource i j s (fun x => x.word.isNone) = false →
    badRequest j.m = false → agentTranslates s j = (.ok w, t) → permits w (reqNeeds j.m).1 (reqNeeds j.m).2 = false →
    ∃ u, exec ev s = .next u ∧ u.net.agentQ = s.net.agentQ.modify i (fun _ => { j with faultWhy := 2 }))
  ∧ (∀ (ev : Instr) (s : State) i j, agentTurn s i j → agentEvent j.m.hidx ev → j.word = none → behindSource i j s (fun x => x.word.isNone) = false →
    badRequest j.m = true →
    ∃ u, exec ev s = .next u ∧ u.net.agentQ = s.net.agentQ.eraseIdx i ∧ u.vault = s.vault ∧ u.core = s.core
      ∧ u.net.completions = s.net.completions ++ (if j.own then [{ j with status := 5 }] else []))
  ∧ (∀ (s : State) j rest, s.net.completions = j :: rest → hasRest j.m j.status j.served = false →
    exec .agentCompletion s = .next (landed j.m { s with net := { s.net with completions := rest } }))
  ∧ (∀ (s t : State) j rest f v, s.net.completions = j :: rest → hasRest j.m j.status j.served = true → s.net.flying.find? (fun f => decide (f.m = j.m)) = some f →
    j.m.scope.toNat < 5 → j.m.dest.toNat / 2 ^ 15 = s.core.pkg.toNat → v / 2 ^ 13 = s.ownStack →
    let m := continuation j.m j.served
    let s1 := landed j.m { s with net := { s.net with completions := rest } }
    routeVault (trimmed m) { s1 with net := { s1.net with flying := s1.net.flying ++ [⟨m, f.gang, f.buf, flightDest m s1, flightWord m s1⟩] } } = (some v, t) →
    ∃ u x, exec .agentCompletion s = .next u ∧ u.net.completions = rest ∧ u.net.agentQ = s.net.agentQ ++ [x] ∧ x.m = trimmed m ∧ x.vault = v
      ∧ u.net.flying = s1.net.flying ++ [⟨m, f.gang, f.buf, flightDest m s1, flightWord m s1⟩])

/-- R197, R198, R203, R204, R206, R209 to R211, R214, R292, R310: a message enters its residency's receive queue, or is a dead letter; released entries
leave when their own send buffer, fence points and releases allow it, a request for its vault's agent; a SIGNAL decrements its record, is acknowledged
and frees its sink; a scope miss bounces; barrier arrivals gather until the barrier releases; and a gang that no core holds any more is reported.
Where the rules leave a choice it is that of log entries 9, 25 and 37. -/
def Obligations.NetworkSteps : Prop :=
  (∀ (a : Option Msg) (m : Msg) (rest : List Msg) (r : ResIx) (s : State), noMail s → receives s r m →
    (a = none ∧ s.net.inbound = m :: rest) ∨ (∃ m0, a = some m0 ∧ m = trimmed m0 ∧ forHere s m0 ∧ s.net.inbound = [] ∧ rest = []) →
    ∃ u e, exec (.messageEnqueue a) s = .next u ∧ u.net.inbound = rest ∧ u.core.rx m.vn.toNat = s.core.rx m.vn.toNat ++ [e]
      ∧ e.m = m ∧ e.res = r ∧ e.held = false ∧ u.streams = s.streams ∧ u.res = s.res)
  ∧ (∀ (m : Msg) (rest : List Msg) (s : State), noMail s → s.net.inbound = m :: rest → m.hidx.toNat < 0xE0 → s.quadOn = true →
    (∀ k : ResIx, s.res[k].takes m = false) → (∀ x ∈ s.net.switchedOut, ¬ (x.asid = m.asid ∧ x.gen = m.gen)) →
    ∃ u, exec (.messageEnqueue none) s = .next u ∧ u.core = s.core ∧ (m.rq = false → u.net.inbound = rest)
      ∧ (m.rq = true → deviceReply 0x10 m.rhidx m s.address ∈ u.net.inbound ++ u.net.leaving)
      ∧ u.mgr.dlcnt = (if s.mgr.dlcnt = BitVec.allOnes 32 then s.mgr.dlcnt else s.mgr.dlcnt + 1)
      ∧ (s.mgr.dlhdr = none → u.mgr.dlhdr = some (msgD0 m, msgD1 m) ∧ u.mgr.dlwhy = 1) ∧ (s.mgr.dlhdr ≠ none → u.mgr.dlhdr = s.mgr.dlhdr ∧ u.mgr.dlwhy = s.mgr.dlwhy))
  ∧ (∀ (s : State) i k x y, s.net.outbound[i]? = some x → k < i → s.net.outbound[k]? = some y → y.buf = x.buf → mayLeave s i x = false)
  ∧ (∀ (s : State), s.net.leaving = [] → (∀ k y, s.net.outbound[k]? = some y → y.e.isBar = true ∨ mayLeave s k y = false) → exec .messageDepart s = .next s)
  ∧ (∀ (s : State) i x m, leavesAt s i x → x.e = .msg m → m.sg = false → forHere s m →
    ∃ u, exec .messageDepart s = .next u ∧ u.net.outbound = s.net.outbound.eraseIdx i ∧ u.net.inbound = s.net.inbound ++ [trimmed m]
      ∧ u.net.flying = s.net.flying ++ [⟨m, x.gang, x.buf, m.dest, 0⟩] ∧ u.core = s.core ∧ u.res = s.res)
  ∧ (∀ (s t : State) i x m v, leavesAt s i x → x.e = .msg m → m.sg = false → m.vn ≠ 1 → toAgent m = true → m.scope.toNat < 5 →
    m.dest.toNat / 2 ^ 15 = s.core.pkg.toNat → v / 2 ^ 13 = s.ownStack →
    let s1 := { s with net := { s.net with outbound := s.net.outbound.eraseIdx i } }
    routeVault (trimmed m) { s1 with net := { s1.net with flying := s1.net.flying ++ [⟨m, x.gang, x.buf, flightDest m s1, flightWord m s1⟩] } } = (some v, t) →
    ∃ u j, exec .messageDepart s = .next u ∧ u.net.outbound = s.net.outbound.eraseIdx i ∧ u.net.agentQ = s.net.agentQ ++ [j] ∧ j.m = trimmed m ∧ j.vault = v
      ∧ j.own = (decide (m.src = s.address) && !m.dev) ∧ j.status = (if vaultGated t v then 4 else 0) ∧ u.core = s.core)
  ∧ (∀ (s : State) i x m r, leavesAt s i x → x.e = .msg m → m.sg = true → forHere s m → sameScope m.scope.toNat m.src m.dest = true →
    contextAt s m.asid m.gen = some r →
    ∃ u, exec .messageDepart s = .next u ∧ u.net.outbound = s.net.outbound.eraseIdx i ∧ u.net.inbound = s.net.inbound ++ [trimmed m]
      ∧ u.res[r].pendingSignals = s.res[r].pendingSignals + 1)
  ∧ (∀ (s : State) i x m, leavesAt s i x → x.e = .msg m → m.sg = true → sameScope m.scope.toNat m.src m.dest = false →
    exec .messageDepart s = .next { s with net := { s.net with outbound := s.net.outbound.eraseIdx i, bounces := s.net.bounces ++ [m] } })
  ∧ (∀ (s : State) i x sc, leavesAt s i x → x.e = .fence sc →
    exec .messageDepart s = .next { s with net := { s.net with outbound := s.net.outbound.eraseIdx i } })
  ∧ (∀ (s : State) i x sc, x.e = .fence sc → (∃ f ∈ s.net.flying, f.buf = x.buf ∧ pendingAt s sc f = true) → mayLeave s i x = false)
  ∧ (∀ (s : State) i x m, x.e = .msg m → m.sg = true → writesDone s x m.scope = false → mayLeave s i x = false)
  ∧ (∀ (m : Msg) (rest : List Msg) (r : ResIx) (s : State), s.net.signals = m :: rest → (List.finRange 4).find? (fun k => s.res[k].takes m) = some r →
    s.res[r].killed = false → s.res[r].state ≠ .saving → s.memoriesWf → s.inScan = false →
    let off := bits m.payload.toNat 0 16 / 64 * 64
    off + 64 ≤ s.res[r].spsize.toNat → 2 ≤ recWord s r off % 2 ^ 32 →
    ∃ u, exec .signalDecrement s = .next u ∧ u.net.signals = rest ∧ recWord u r off = recWord s r off - 1
      ∧ (m.rq = true → m.src = s.address → contextAt s m.asid m.gen = some r → 0 < s.res[r].pendingSignals →
        u.res[r].sinks = s.res[r].sinks - 1 ∧ u.res[r].pendingSignals = s.res[r].pendingSignals - 1)
      ∧ (m.rq = true → m.src ≠ s.address → u.net.acks = s.net.acks ++ [m]))
  ∧ (∀ (ctx : Asid × BitVec 4) (r : ResIx) (s : State), contextAt s ctx.1 ctx.2 = some r → 0 < s.res[r].pendingSignals →
    (s.res[r].state ≠ .saving →
      exec (.signalAck ctx) s = .next (s.setRes r { s.res[r] with sinks := s.res[r].sinks - 1, pendingSignals := s.res[r].pendingSignals - 1 }))
    ∧ (s.res[r].state = .saving → ∃ u a, exec (.signalAck ctx) s = .next u ∧ u.net.inbound = s.net.inbound ++ [a] ∧ isAck a = true ∧ a.asid = ctx.1
      ∧ a.gen = ctx.2 ∧ u.res[r].pendingSignals = s.res[r].pendingSignals - 1 ∧ u.res[r].sinks = s.res[r].sinks))
  ∧ (∀ (m : Msg) (rest : List Msg) (s : State), s.net.bounces = m :: rest → m.src = s.address →
    exec .scopeMissBounce s = .next { s with net := { s.net with
      bounces := rest, inbound := s.net.inbound ++ [deviceReply 0x11 0xDF m s.address], inTicks := s.net.inTicks ++ [s.mgr.tick] } })
  ∧ (∀ (gang : BitVec 16) (scope : BitVec 3) (core : BitVec 32) (off : Word) (s : State),
    (core = s.address ∧ ∃ i, ownArrival s gang scope = some (i, off)) ∨ (core ≠ s.address ∧ arrivedAt s gang scope core = none ∧ off = 0) →
    core ∈ barrierMembers s gang scope core →
    ∃ u, exec (.barrierArrival gang scope core) s = .next u
      ∧ (∀ i, core = s.address → ownArrival s gang scope = some (i, off) → u.net.outbound = s.net.outbound.eraseIdx i)
      ∧ ((∃ x ∈ barrierMembers s gang scope core, x ≠ core ∧ arrivedAt s gang scope x = none) →
        u.net.arrivals = s.net.arrivals ++ [(gang, scope, core, off)] ∧ u.core = s.core)
      ∧ ((∀ x ∈ barrierMembers s gang scope core, x = core ∨ arrivedAt s gang scope x ≠ none) →
        ∀ x ∈ u.net.arrivals, x.1 = gang → x.2.1 = scope → sameScope scope.toNat x.2.2.1 core = false))
  ∧ (∀ (gang : BitVec 16) (g : Gang) (s : State), gangOf s gang = some g →
    g.holders ≠ [] ∨ residencyOf s gang ≠ none ∨ (∃ a ∈ s.net.switchedOut, a.gang = gang) → exec (.gangEnd gang) s = .next s)
  ∧ (∀ (gang : BitVec 16) (g : Gang) (s : State), gangOf s gang = some g → g.holders = [] → residencyOf s gang = none →
    (∀ a ∈ s.net.switchedOut, a.gang ≠ gang) →
    ∃ u, exec (.gangEnd gang) s = .next u ∧ u.mgr.gangs = s.mgr.gangs.filter (fun x => decide (x.gang ≠ gang)) ∧ (∀ a ∈ u.net.arrivals, a.1 ≠ gang)
      ∧ (g.forwarded = none → pkt g.packet 6 23 1 = 1 → endMessage g s ∈ u.net.inbound ++ u.net.leaving)
      ∧ (g.forwarded = none → pkt g.packet 6 22 1 = 1 → s.host.cringSet = false →
        u.mgr.hostEntries = s.mgr.hostEntries ++ [(endWord g, s.mgr.tick, BitVec.ofNat 6 (pkt g.packet 6 16 6))]))

/-- R227, R228, R376 to R386: a batch is written to the window and shipped as messages of 64 bytes with a closing one; the partner stores it twice and acknowledges its highest number; an acknowledgement
that counts covers records; emissions leave the gate once covered; peers exchange heartbeats and are missed; a change of partner freezes the binding,
ships the live window and binds again; every window held for a silent package is handed over; and a lost package's window is replayed under a fresh JID.
Where the rules leave a choice it is that of log entries 9, 28 and 29. -/
def Obligations.JournalSteps : Prop :=
  (∀ (r : ResIx) (s : State) xs rest, s.res[r].journal.state = .bound → s.res[r].journal.unshipped = xs :: rest →
    ∃ u, exec (.batchShip r) s = .next u
      ∧ u.resil.shippedOut = s.resil.shippedOut ++ batchMessages s.res[r].journal xs
      ∧ u.res[r].journal = { s.res[r].journal with unshipped := rest, shipped := (topNumber xs).orElse (fun _ => s.res[r].journal.shipped) } ∧ u.vault = s.vault)
  ∧ (∀ (r : ResIx) (s t : State) b rest d bs, s.res[r].journal.unshipped = [] → s.res[r].journal.faulted = false → shippable s s.res[r].journal = some (b, rest) →
    let j := s.res[r].journal
    let xs := b.slots.map (fun (y : JSlot) => { y with jid := j.jid })
    j.window.length + xs.length ≤ 2 ^ (8 + j.lnw.toNat) →
    writeSlots s.res[r].asid j (j.windowPos + j.window.length) xs s = .done 0 d bs t →
    ∃ u, exec (.batchShip r) s = .next u ∧ u.res[r].journal.batches = rest ∧ u.res[r].journal.window = j.window ++ xs.map (fun y => (y, true))
      ∧ u.vault = t.vault
      ∧ (j.state = .bound → u.resil.shippedOut = t.resil.shippedOut ++ batchMessages j xs)
      ∧ (j.state ≠ .bound → u.res[r].journal.unshipped = [xs] ∧ u.resil.shippedOut = t.resil.shippedOut))
  ∧ (∀ (j : Journal) (xs : List JSlot), (batchMessages j xs).getLast? = some ⟨j.ppkg, j.pstk, j.jid, j.pgen, [], topNumber xs⟩
    ∧ (batchMessages j xs).flatMap JournalMsg.content = xs.flatMap slotBytes ∧ (batchMessages j xs).length = 2 * xs.length + 1
    ∧ (∀ m ∈ batchMessages j xs, m.pkg = j.ppkg ∧ m.stk = j.pstk ∧ m.jid = j.jid ∧ m.pgen = j.pgen ∧ m.content.length ≤ 64))
  ∧ (∀ (jid jgrp : BitVec 16) (pgen : BitVec 8) (slots : List JSlot) (last : JSlot) (s : State), slots.getLast? = some last →
    ∃ u, exec (.batchStore jid jgrp pgen slots) s = .next u ∧ u.resil.partnerAcks = s.resil.partnerAcks ++ [(jid, pgen, last.num)]
      ∧ (∃ w ∈ u.resil.partnerWindows, w.jid = jid ∧ w.jgrp = jgrp)
      ∧ ((∀ x ∈ slots, slotKind x ≠ 3 ∧ slotKind x ≠ 4) → s.resil.partnerWindows = [] → u.resil.partnerWindows = [⟨jid, jgrp, slots, slots⟩]))
  ∧ (∀ (r : ResIx) (pgen : BitVec 8) (num : Word) (s : State), ackCounts s.res[r].journal pgen num = true →
    ∃ u, exec (.journalAck r pgen num) s = .next u ∧ u.res[r].jack = num ∧ u.res[r].journal.applied = some num
      ∧ u.res[r].journal.covered = (if s.res[r].journal.covered.toNat ≤ num.toNat then num + 1 else s.res[r].journal.covered))
  ∧ (∀ (r : ResIx) (pgen : BitVec 8) (num : Word) (s : State), ackCounts s.res[r].journal pgen num = false →
    exec (.journalAck r pgen num) s = .next (setJournal r { s.res[r].journal with lastHeard := s.core.cycle } s))
  ∧ (∀ (r : ResIx) (s : State), ∃ u, exec (.snapTruncation r) s = .next u ∧ u.core = s.core ∧ u.resil.partnerWindows.length = s.resil.partnerWindows.length
      ∧ ∀ w ∈ u.resil.partnerWindows, ∀ v ∈ u.resil.partnerWindows, v.jgrp = w.jgrp → ∀ x ∈ w.slots ++ w.mirror, ∀ y ∈ v.slots, snapTruncates s.mgr.tick y x = false)
  ∧ (∀ (r : ResIx) (m : Msg) nd dep rest (s : State), s.res[r].journal.gate = .emit m nd dep :: rest → gateOpen s.res[r].journal nd dep = true → forHere s m →
    ∃ u, exec (.egressRelease r) s = .next u ∧ u.res[r].journal = { s.res[r].journal with gate := rest } ∧ u.net.inbound = s.net.inbound ++ [trimmed m]
      ∧ u.net.flying = s.net.flying ++ [⟨m, s.res[r].gang, 0, m.dest, 0⟩])
  ∧ (∀ (r : ResIx) (s : State), s.res[r].journal.state = .bound →
    ∃ u, exec (.heartbeat r) s = .next u ∧ u.resil.heartbeats = s.resil.heartbeats + 1 ∧ u.res[r].journal.lastHeard = s.core.cycle ∧ u.core = s.core)
  ∧ (∀ (r : ResIx) (s : State), s.res[r].journal.state = .bound → s.res[r].journal.peerLost = false →
    27000 ≤ s.core.cycle.toNat - s.res[r].journal.lastHeard.toNat →
    ∃ u, exec (.peerLost r) s = .next u ∧ u.res[r].journal = { s.res[r].journal with peerLost := true }
      ∧ u.mgr.notices = s.mgr.notices ++ [(4, BitVec.ofNat 64 s.res[r].journal.jid.toNat)])
  ∧ (∀ (jid : BitVec 16) (w : PartnerWindow) (s : State), w ∈ s.resil.partnerWindows → w.jid = jid →
    (27000 ≤ s.core.cycle.toNat - (Table.get 0 s.resil.partnerHeard jid.toNat).toNat →
      (elsewhere (.partnerSilent jid) s).mgr.notices = s.mgr.notices ++ (s.resil.partnerWindows.filter fun v =>
        decide (Table.get 0 s.resil.partnerPkgs v.jid.toNat = Table.get 0 s.resil.partnerPkgs jid.toNat)).map fun v => (4, v.jid.setWidth 64))
    ∧ (s.core.cycle.toNat - (Table.get 0 s.resil.partnerHeard jid.toNat).toNat < 27000 → elsewhere (.partnerSilent jid) s = s))
  ∧ (∀ (r : ResIx) (s : State), s.res[r].journal.state ≠ .absent →
    ∃ u, exec (.bindingFreeze r) s = .next u ∧ u.res[r].journal.state = .changing ∧ u.res[r].journal.pgen = s.res[r].journal.pgen + 1
      ∧ u.res[r].journal.window = s.res[r].journal.window)
  ∧ (∀ (r : ResIx) (ppkg : BitVec 17) (pstk : BitVec 2) (s : State), s.res[r].journal.state ≠ .bound →
    ∃ u, exec (.windowShip r ppkg pstk) s = .next u
      ∧ u.resil.shippedOut = s.resil.shippedOut ++ batchMessages { s.res[r].journal with ppkg := ppkg, pstk := pstk } s.res[r].journal.live
      ∧ u.res[r].journal.ppkg = ppkg ∧ u.res[r].journal.pstk = pstk ∧ u.res[r].journal.windowOut = true ∧ u.res[r].journal.unshipped = [])
  ∧ (∀ (r : ResIx) (s : State), s.res[r].journal.state ≠ .bound → s.res[r].journal.windowOut = true →
    ∃ u, exec (.windowAck r s.res[r].journal.pgen) s = .next u ∧ u.res[r].journal.state = .bound ∧ u.res[r].journal.windowOut = false
      ∧ u.res[r].journal.peerLost = false)
  ∧ (∀ (r : ResIx) (jid fresh jgrp : BitVec 16) (digest weights : Word) slots mirror k d bs (s t : State),
    s.resil.partnerWindows.find? (fun w => decide (w.jid = jid)) = some ⟨k, jgrp, slots, mirror⟩ → s.res[r].state ≠ .free → s.res[r].journal.state ≠ .bound →
    s.res[r].journal.windowOut = false → s.res[r].journal.window = [] → (∀ x ∈ slots, slotKind x = 1 → openAgrees digest weights x = true) →
    slots.length ≤ 2 ^ (8 + s.res[r].journal.lnw.toNat) →
    writeSlots s.res[r].asid s.res[r].journal s.res[r].journal.windowPos slots s = .done 0 d bs t →
    ∃ u, exec (.replay r jid fresh digest weights) s = .next u ∧ u.vault = t.vault
      ∧ u.res[r].journal = { s.res[r].journal with jid := fresh, jgrp := jgrp, window := slots.map (fun y => (y, true)) })

/-- R387 to R397: a snapshot is taken up, cut at its tick, copied column by column through the copy tables, drained, acknowledged and sealed with its manifest; quads are scanned, and
pass or are retired; a spare is woken, holds the traffic while the vaults are copied, and takes a retired quad's number; and a failed controller loses its vault.
Where the rules leave a choice it is that of log entries 9, 10, 41 and 42. -/
def Obligations.SnapshotAndScanSteps : Prop :=
  (∀ (irq : Bool) (body : List Word) (s : State), mailServed s → snapBad body = none → s.mgr.tick.toNat + 10000 ≤ bodyWord body 1 →
    let asid := BitVec.ofNat 12 (bits (bodyWord body 0) 16 12)
    snapshotOf s asid = none →
    ∃ u x, exec (.snapcfg irq body) s = .next u ∧ mailAnswered irq 0 0 0 s u ∧ u.resil.snapshots = s.resil.snapshots ++ [x] ∧ x.asid = asid
      ∧ x.tick = BitVec.ofNat 64 (bodyWord body 1) ∧ x.cut = false ∧ x.failed = 0 ∧ x.copied = 0)
  ∧ (∀ (irq : Bool) (body : List Word) (s : State), mailServed s → snapBad body = none → bodyWord body 1 < s.mgr.tick.toNat + 10000 →
    ∃ u, exec (.snapcfg irq body) s = .next u ∧ mailAnswered irq 9 0 0 s u ∧ u.resil = s.resil)
  ∧ (∀ (asid : Asid) (x : Snapshot) (s : State), snapshotOf s asid = some x → x.cut = false → x.tick.toNat ≤ s.mgr.tick.toNat →
    Table.wf 0 s.vault.epochs = true →
    ∃ u, exec (.snapshotCut asid) s = .next u ∧ epochOf u asid = epochOf s asid + 1 ∧ snapshotOf u asid = some { x with cut := true } ∧ u.core = s.core)
  ∧ (∀ (asid : Asid) (vpn : Vpn) (x : Snapshot) (s : State) (i : Instr), pageWaits s asid vpn x → copyPageEvent s asid vpn i →
    ∃ u, exec i s = .next u ∧ u.resil = { s.resil with copying := s.resil.copying ++ [⟨pageStack (leafWord s asid vpn.toNat), asid, vpn, 0, [], true⟩] }
      ∧ u.core = s.core ∧ u.vault = s.vault)
  ∧ (∀ (asid : Asid) (vpn : Vpn) (x : Snapshot) (k : Nat) (c : PageCopy) (s t : State) (i : Instr), pageCopied s asid vpn x k c → copyPageEvent s asid vpn i →
    c.col < 16384 →
    let p := place (leafWord s asid vpn.toNat) (16 * c.col)
    vaultGated s p.vault = false → openColumn p s = some t →
    ∃ u, exec i s = .next u ∧ u.core = s.core ∧ u.vault.mem = s.vault.mem ∧ u.resil.copying = s.resil.copying.set k { c with
      col := c.col + 1, good := c.good && decide ((beatRead p.addr t).1 = 0), bytes := writeList c.bytes (16 * c.col) (readList s.vault.mem p.addr 16) })
  ∧ (∀ (asid : Asid) (vpn : Vpn) (x : Snapshot) (k : Nat) (c : PageCopy) (s : State) (i : Instr), pageCopied s asid vpn x k c → copyPageEvent s asid vpn i →
    16384 ≤ c.col → leafHeld asid vpn.toNat s = none →
    ∃ u, exec i s = .next u ∧ u.core = s.core ∧ u.resil.copying = s.resil.copying.eraseIdx k
      ∧ (c.good = true → snapshotOf u asid = some { x with copied := x.copied + 1 }
        ∧ u.resil.shingles = s.resil.shingles ++ [⟨c.stack, asid, vpn, x.step, x.tick, epochOf s asid, c.bytes, none⟩])
      ∧ (c.good = false → snapshotOf u asid = some { x with failed := if x.failed = 0 then 2 else x.failed } ∧ u.resil.shingles = s.resil.shingles))
  ∧ (∀ (a b : List Shingle) (x : Shingle) (y : Snapshot) (s : State), s.resil.shingles = a ++ x :: b → (∀ z ∈ a, z.sent ≠ none) → x.sent = none →
    snapshotOf s x.asid = some y →
    ∃ u, exec .shingleDrain s = .next u ∧ u.resil.shingles = a ++ { x with sent := some (endpointOf y x.vpn.toNat) } :: b)
  ∧ (∀ (i : Nat) (accepted : Bool) (x : Shingle) (e : BitVec 17) (s : State), s.resil.shingles[i]? = some x → x.sent = some e →
    ∃ u, exec (.shingleAck i accepted) s = .next u ∧ u.resil.shingles = s.resil.shingles.eraseIdx i
      ∧ (accepted = true → u.resil.snapshots = s.resil.snapshots)
      ∧ (∀ y, accepted = false → snapshotOf s x.asid = some y → y.failed = 0 →
        snapshotOf u x.asid = some { y with failed := 1, refuser := e }))
  ∧ (∀ (asid : Asid) (x : Snapshot) (s : State), snapshotOf s asid = some x → mailOpenAt x.mail s = false → x.failed ≠ 0 ∨ sealable s x = true →
    ∃ u, exec (.snapshotSeal asid) s = .next u ∧ snapshotOf u asid = none ∧ (u.host.mailboxes[x.mail]).response = snapResult x
      ∧ vectorRaised s u ∧ (∀ y ∈ u.resil.shingles, y.asid ≠ asid) ∧ (∀ c ∈ u.resil.copying, c.asid ≠ asid)
      ∧ u.resil.manifests = s.resil.manifests ++ (if x.failed = 0 then [⟨x.endpoints.getD 0 0, asid, x.step, x.tick, x.copied⟩] else []))
  ∧ (∀ (q : BitVec 11) (s : State), 1640 ≤ q.toNat ∨ visitDue s q = false → exec (.scanVisit q) s = .next s)
  ∧ (∀ (q : BitVec 11) (s : State), q.toNat < 1640 → visitDue s q = true → quadQuiet s q = true →
    ∃ u, exec (.scanVisit q) s = .next u ∧ u.resil.scanning = s.resil.scanning ++ [(q, s.mgr.tick)]
      ∧ (q.toNat < 1600 → u.resil.serviceNext.toNat = q.toNat + 1 ∧ u.resil.spareNext = s.resil.spareNext)
      ∧ (1600 ≤ q.toNat → u.resil.spareNext.toNat = q.toNat + 1 ∧ u.resil.serviceNext = s.resil.serviceNext)
      ∧ (q.toNat = s.ownQuad → u.quad.scanHold = true) ∧ u.core = s.core)
  ∧ (∀ (q : BitVec 11) (s : State), q.toNat < 1640 → visitDue s q = true → quadQuiet s q = false →
    ∃ u, exec (.scanVisit q) s = .next u ∧ u.resil = s.resil ∧ (q.toNat = s.ownQuad → u.quad.scanHold = true) ∧ u.core = s.core)
  ∧ (∀ (q : BitVec 11) (pass : Bool) (t : Word) (s : State), s.resil.scanning.find? (fun e => decide (e.1 = q)) = some (q, t) →
    ∃ u, exec (.scanEnd q pass) s = .next u ∧ (∀ e ∈ u.resil.scanning, e.1 ≠ q) ∧ (q.toNat = s.ownQuad → u.quad.scanHold = false)
      ∧ (pass = true → Table.wf 0 s.resil.passTick = true → passTickOf u q.toNat = t ∧ u.res = s.res)
      ∧ (pass = false → q ∈ u.resil.failedQuads
        ∧ (q.toNat = s.ownQuad → ∀ r : ResIx, s.res[r].state ≠ .free → s.res[r].killed = false → killedOrDue s u r)))
  ∧ (∀ (q : BitVec 11) (spare : Nat) (s : State), spareFits q spare s = false → exec (.spareRemap q spare) s = .next s)
  ∧ (∀ (q : BitVec 11) (spare : Nat) (s : State), spareFits q spare s = true → (qpwr s spare).state ≠ .on →
    exec (.spareRemap q spare) s = .next ((tryWake spare s).getD s))
  ∧ (∀ (q : BitVec 11) (spare : Nat) (s : State), spareFits q spare s = true → (qpwr s spare).state = .on → (q, spare) ∉ s.resil.remapping →
    exec (.spareRemap q spare) s = .next { s with resil := { s.resil with remapping := s.resil.remapping ++ [(q, spare)] } })
  ∧ (∀ (q : BitVec 11) (spare : Nat) (s : State), spareFits q spare s = true → (qpwr s spare).state = .on → (q, spare) ∈ s.resil.remapping →
    isQuad (physQuad s q.toNat) = true → Table.wf 0 s.mgr.quadMap = true →
    ∃ u, exec (.spareRemap q spare) s = .next u ∧ physQuad u q.toNat = spare ∧ q ∉ u.resil.failedQuads ∧ (qpwr u spare).state = .on
      ∧ (∀ e ∈ u.resil.remapping, e.1 ≠ q) ∧ (s.memoriesWf → ∀ a, a / 2 ^ 27 < 2 ^ 13 → readByte u.vault.mem a = readByte s.vault.mem a))
  ∧ (∀ (vault : BitVec 15) (s : State), vault.toNat / 2 ^ 13 = s.ownStack → BitVec.ofNat 11 (vault.toNat / 4) ∈ s.resil.failedQuads →
    vault ∉ s.resil.lostVaults →
    ∃ u, exec (.controllerFailure vault) s = .next u ∧ u.resil.lostVaults = s.resil.lostVaults ++ [vault]
      ∧ (7, vault.setWidth 64) ∈ u.mgr.notices
      ∧ (∀ r : ResIx, s.res[r].state ≠ .free → s.res[r].killed = false → pagesIn s s.res[r].asid vault.toNat = true → killedOrDue s u r))

/-- R283 to R296: the front end takes the records of a ring in order, refuses one with its status, places, starts or cancels a gang, rereads a record
whose seal fails, and settles a launch over several packages.
Where the rules leave a choice it is that of log entries 9, 20 and 26. -/
def Obligations.LaunchSteps : Prop :=
  (∀ (ring : Fin 8) (k : Fin 24) (pi : BitVec 32) (relaxed : Bool) (s : State),
    relaxed = true ∨ ((∀ a ∈ s.host.pending, a.data = none ∨ a.relaxed = true) ∧ s.host.notifies = []) → k.val = ring.val → s.mgr.rings[k].bound = true →
    ∃ u, exec (.ringNotify ring pi relaxed) s = .next u
      ∧ u.mgr.rings[k] = { s.mgr.rings[k] with
        pi := if (pi - s.mgr.rings[k].ci).toNat ≤ 2 ^ s.mgr.rings[k].k.toNat then pi else s.mgr.rings[k].ci + BitVec.ofNat 32 (2 ^ s.mgr.rings[k].k.toNat) })
  ∧ (∀ (ring : Fin 8) (pi : BitVec 32) (s : State), (∃ a ∈ s.host.pending, a.data ≠ none ∧ a.relaxed = false) ∨ s.host.notifies ≠ [] →
    ∃ u, exec (.ringNotify ring pi false) s = .next u ∧ u.mgr = s.mgr ∧ ∃ before, u.host.notifies = s.host.notifies ++ [(ring, pi, before)])
  ∧ (∀ (ring : Fin 24) (at_ : Option Placement) (mode : Nat) (i : Instr) (p : BitVec 1024) (st : Refused) (s t v : State), modeEvent ring at_ mode i →
    takes ring mode p s t → ringRefusal ring p t = some st →
    devPut t.mgr.rings[ring].asid (recordVa t.mgr.rings[ring] + 56) (leBytes 8 (st.1 + st.2 * 2 ^ 8)) t = some v →
    ∃ u, exec i s = .next u ∧ u.mgr.rings[ring].ci = t.mgr.rings[ring].ci + 1 ∧ u.mgr.gangs = t.mgr.gangs ∧ u.res = t.res ∧ u.vault = v.vault)
  ∧ (∀ (ring : Fin 24) (mode : Nat) (i : Instr) (p : BitVec 1024) (s t v : State), modeEvent ring none mode i → mode < 2 →
    takes ring mode p s t → ringRefusal ring p t = none → closeRecord ring (0, 0) t = some v → inLaunchRange p v.core.id.toNat = true →
    (∀ a : Placement, admits v p a = false) →
    ∃ u, exec i s = .next u ∧ u.mgr.waiting = v.mgr.waiting ++ [⟨p, some ring, t.mgr.rings[ring].ci, none, v.mgr.tick, []⟩] ∧ u.res = v.res
      ∧ u.mgr.gangs = v.mgr.gangs
      ∧ u.mgr.launchOut = v.mgr.launchOut ++ (packetPackages v p).map (fun k => (k, .forward p t.mgr.rings[ring].ci)))
  ∧ (∀ (ring : Fin 24) (mode : Nat) (a : Placement) (i : Instr) (p : BitVec 1024) (im : Image) (role : Role) (s t v : State),
    modeEvent ring (some a) mode i → mode < 2 → takes ring mode p s t → ringRefusal ring p t = none → closeRecord ring (0, 0) t = some v →
    placedHere v p a im role →
    ∃ u g, exec i s = .next u ∧ u.mgr.gangs = v.mgr.gangs ++ [g] ∧ g.gang = pkGang p ∧ g.packet = p ∧ g.started = startsAtOnce p
      ∧ g.ready = (if pkPfirst p < pkPlast p then ownReport v p else [])
      ∧ u.res[a.res].state = firstState p ∧ u.res[a.res].gang = pkGang p ∧ u.res[a.res].asid = pkAsid p ∧ u.res[a.res].gen = nextGen v (pkAsid p)
      ∧ u.res[a.res].slots = a.slots ∧ u.res[a.res].clearing = true ∧ u.res[a.res].launchHeld = true ∧ u.res[a.res].role = role
      ∧ u.res[a.res].spbase = BitVec.ofNat 16 (a.bank.toNat * 3072) ∧ u.res[a.res].spsize = BitVec.ofNat 16 (pkSize p)
      ∧ (∀ r : ResIx, r ≠ a.res → u.res[r] = v.res[r]))
  ∧ (∀ (ring : Fin 24) (p : BitVec 1024) (r : ResIx) (s t v : State), takes ring 2 p s t → startRefusal t p = none → closeRecord ring (0, 0) t = some v →
    residencyOf v (pkGang p) = some r → v.res[r].state = .bound →
    ∃ u, exec (.start ring) s = .next u ∧ u.res[r].state = (if pkTk p then .armed else .running)
      ∧ u.res[r].startTick = BitVec.ofNat 64 (pkTick p) ∧ (∀ k : Fin 4, u.res[r].args[k] = BitVec.ofNat 64 (pkt p (8 + k.val) 0 64))
      ∧ (∀ g, gangOf u (pkGang p) = some g → g.started = true))
  ∧ (∀ (ring : Fin 24) (p : BitVec 1024) (s t v : State), takes ring 3 p s t → startRefusal t p = none → closeRecord ring (10, 0) t = some v →
    ∃ u, exec (.cancel ring) s = .next u ∧ gangGone u (pkGang p) ∧ (∀ r, residencyOf v (pkGang p) = some r → u.res[r] = Residency.free))
  ∧ (∀ (ring : Fin 24) (p : BitVec 1024) (s t : State), nextRecord ring s = some (p, t) → sealGood p t.mgr.rings[ring].ci = false →
    t.mgr.rings[ring].rereads < 8 →
    ∃ u, exec (.sealReread ring) s = .next u ∧ u.mgr.rings[ring] = { t.mgr.rings[ring] with rereads := t.mgr.rings[ring].rereads + 1 })
  ∧ (∀ (packet : BitVec 1024) (src : BitVec 17) (n : BitVec 32) (at_ : Option Placement) (s : State), sealGood packet n = false →
    exec (.launchForward packet (src, n) at_) s = .next (reportForward (pkGang packet) (3, 0) src s))
  ∧ (∀ (packet : BitVec 1024) (src : BitVec 17) (n : BitVec 32) (a : Placement) (im : Image) (role : Role) (s : State), sealGood packet n = true → pkMode packet ≤ 1 →
    placeRefusal s packet none = none → pkTk packet = false ∨ s.mgr.synced = true → placedHere s packet a im role →
    ∃ u g, exec (.launchForward packet (src, n) (some a)) s = .next u ∧ u.mgr.gangs = s.mgr.gangs ++ [g] ∧ g.gang = pkGang packet ∧ g.forwarded = some src
      ∧ u.mgr.launchOut = s.mgr.launchOut ++ [(src, .report (pkGang packet) 0)] ∧ u.mgr.reports = s.mgr.reports ++ [(pkGang packet, 0, 0)] ∧ u.res[a.res].state = firstState packet ∧ u.res[a.res].gang = pkGang packet)
  ∧ (∀ (gang : BitVec 16) (pkg : BitVec 17) (status : BitVec 8) (g : Gang) (s : State), gangOf s gang = some g → g.forwarded = none → inTime s g.packet = true →
    (∀ e ∈ g.ready, e.1 ≠ pkg) →
    ∃ u, exec (.readyReport gang pkg status) s = .next u ∧ gangOf u gang = some { g with ready := g.ready ++ [(pkg, status)] } ∧ u.res = s.res)
  ∧ (∀ (gang : BitVec 16) (g : Gang) (s : State), awaits s gang g →
    g.forwarded ≠ none ∨ allReady s g = true →
    ∃ u, exec (.commit gang) s = .next u ∧ gangOf u gang = some { g with committed := true, started := decide (pkMode g.packet = 0) }
      ∧ (g.forwarded = none → u.mgr.launchOut = s.mgr.launchOut ++ (packetPackages s g.packet).map (fun k => (k, .commit gang)))
      ∧ (pkMode g.packet ≠ 0 → u.res = s.res)
      ∧ (∀ r, pkMode g.packet = 0 → residencyOf s gang = some r → s.res[r].state = .bound → u.res[r].state = .armed ∧ u.res[r].startTick = BitVec.ofNat 64 (pkTick g.packet)))
  ∧ (∀ (gang : BitVec 16) (g : Gang) (s : State), awaits s gang g →
    g.forwarded ≠ none ∨ ((firstRefusal g).isSome = true ∧ g.ready.length = (rangePackages g).length) →
    ∃ u, exec (.launchAbort gang) s = .next u ∧ gangGone u gang ∧ (∀ r, residencyOf s gang = some r → u.res[r] = Residency.free))
  ∧ (∀ (gang : BitVec 16) (g : Gang) (s : State), awaits s gang g → g.forwarded = none → inTime s g.packet = false → allReady s g = false →
    ∃ u, exec (.readyDeadline gang) s = .next u ∧ gangGone u gang ∧ (∀ r, residencyOf s gang = some r → u.res[r] = Residency.free))
  ∧ (∀ (gang : BitVec 16) (g : Gang) (s : State), awaits s gang g → pkTick g.packet ≤ s.mgr.tick.toNat + 2000 →
    ∃ u, exec (.selfAbort gang) s = .next u ∧ gangGone u gang ∧ (∀ r, residencyOf s gang = some r → u.res[r] = Residency.free))
  ∧ (∀ (w : Waiting) (a : Placement) (im : Image) (role : Role) (s : State), firstWaiting s = some w → placedHere s w.packet a im role →
    w.forwarded = none ∨ refusesReady s w.packet = false →
    ∃ u g, exec (.launchReconsider (some a)) s = .next u ∧ u.mgr.waiting = s.mgr.waiting.filter (fun x => decide (x ≠ w))
      ∧ u.mgr.gangs = s.mgr.gangs ++ [g] ∧ g.gang = pkGang w.packet ∧ g.packet = w.packet ∧ g.forwarded = w.forwarded
      ∧ g.ready = w.ready ++ (if w.forwarded = none ∧ pkPfirst w.packet < pkPlast w.packet then ownReport s w.packet else [])
      ∧ u.mgr.launchOut = s.mgr.launchOut ++ (match w.forwarded with
        | none => []
        | some src => [(src, .report (pkGang w.packet) 0)])
      ∧ u.res[a.res].state = firstState w.packet
      ∧ u.res[a.res].gang = pkGang w.packet)

/-- R311 to R318: a save starts once the residency's work has stopped, its records are sealed and acknowledged and its gate is empty; it is written unit by
unit with its progress, waits at a fault, goes on or is abandoned; and a complete area comes back, while a save that is not complete is refused.
Where the rules leave a choice it is that of log entries 9, 10 and 27. -/
def Obligations.SaveSteps : Prop :=
  (∀ (r : ResIx) (va len : Word) (s : State), saveReady s r = true → s.res[r].journal.unsealed ≠ [] →
    exec (.saveStart r va len) s = .next (sealBatch r s))
  ∧ (∀ (r : ResIx) (va len : Word) (s : State), saveSealed s r → footprint s.res[r] ≤ len.toNat → va.toNat % 256 = 0 →
    ∃ u, exec (.saveStart r va len) s = .next u ∧ u.res[r].state = .saving ∧ u.res[r].saveVa = va ∧ u.res[r].saveProgress = 0 ∧ u.core = s.core)
  ∧ (∀ (r : ResIx) (va len : Word) (s : State), saveSealed s r →
    len.toNat < footprint s.res[r] ∨ (footprint s.res[r] ≤ len.toNat ∧ va.toNat % 256 ≠ 0) →
    ∃ u, exec (.saveStart r va len) s = .next u ∧ u.res[r].state = .running
      ∧ u.mgr.notices = s.mgr.notices ++ [(1, if len.toNat < footprint s.res[r] then 0x19 else 5)])
  ∧ (∀ (r : ResIx) (s t v : State) (e : Nat) (bs : List Byte),
    let p := s.res[r].saveProgress
    let p' := min (p + 2048) (footprint s.res[r])
    saves s r → s.core.spadBad = [] → s.core.xBad = [] → s.core.yBad = [] →
    devWrite s.res[r].asid (s.res[r].saveVa.toNat + p) (unitBytes s r) s ((unitBytes s r).length + 1) = .done 0 e bs t →
    devPut s.res[r].asid (s.res[r].saveVa.toNat + 8) (leBytes 8 p') (touchQuad s.res[r].asid t.ownQuad t) = some v →
    ∃ u, exec (.saveUnitAck r) s = .next u ∧ u.vault = v.vault
      ∧ (p' ≠ footprint s.res[r] → u.res[r].saveProgress = p' ∧ u.res[r].state = .saving)
      ∧ (p' = footprint s.res[r] → u.res[r].state = .free ∧ ∃ a ∈ u.net.switchedOut, a.asid = s.res[r].asid ∧ a.gen = s.res[r].gen))
  ∧ (∀ (r : ResIx) (s t : State) (d e : Nat) (bs : List Byte), saves s r → d ≠ 0 → t.vault.busErrors ≠ s.vault.busErrors →
    devWrite s.res[r].asid (s.res[r].saveVa.toNat + s.res[r].saveProgress) (unitBytes s r) s ((unitBytes s r).length + 1) = .done d e bs t →
    exec (.saveUnitAck r) s = .next t)
  ∧ (∀ (r : ResIx) (s t : State) (why va : Nat), saves s r →
    devWrite s.res[r].asid (s.res[r].saveVa.toNat + s.res[r].saveProgress) (unitBytes s r) s ((unitBytes s r).length + 1) = .fault why va t →
    ∃ u, exec (.saveFault r) s = .next u ∧ u.res[r] = { s.res[r] with saveFaulted := true }
      ∧ u.mgr.notices = s.mgr.notices ++ [(2, BitVec.ofNat 64 (va % 2 ^ 48 + why * 2 ^ 48))])
  ∧ (∀ (r : ResIx) (s t v : State) (e why va : Nat) (bs : List Byte),
    let p' := min (s.res[r].saveProgress + 2048) (footprint s.res[r])
    saves s r → s.core.spadBad = [] → s.core.xBad = [] → s.core.yBad = [] →
    devWrite s.res[r].asid (s.res[r].saveVa.toNat + s.res[r].saveProgress) (unitBytes s r) s ((unitBytes s r).length + 1) = .done 0 e bs t →
    devWrite s.res[r].asid (s.res[r].saveVa.toNat + 8) (leBytes 8 p') (touchQuad s.res[r].asid t.ownQuad t) 9 = .fault why va v →
    ∃ u, exec (.saveFault r) s = .next u ∧ u.res[r] = { s.res[r] with saveFaulted := true }
      ∧ u.mgr.notices = s.mgr.notices ++ [(2, BitVec.ofNat 64 (va % 2 ^ 48 + why * 2 ^ 48))])
  ∧ (∀ (r : ResIx) (s : State), s.res[r].state = .saving →
    exec (.saveResume r) s = .next (s.setRes r { s.res[r] with saveFaulted := false }))
  ∧ (∀ (r : ResIx) (n : Nat) (s : State), s.res[r].state = .saving → s.res[r].saveFaulted = true → s.res[r].killed = false →
    spilledReplies s.res[r].asid s.res[r].gen s = some n → n - s.res[r].mailSinks ≤ s.sinksFree →
    ∃ u, exec (.saveAbandon r) s = .next u ∧ u.res[r].state = .running ∧ u.res[r].mail = true ∧ u.res[r].saveFaulted = false
      ∧ u.res[r].sinks = s.res[r].sinks + (n - s.res[r].mailSinks) ∧ u.res[r].mailSinks = n)
  ∧ (∀ (r : ResIx) (va : Word) (at_ : Placement) (s t : State) a h bad, savedContext va.toNat at_.gen s = some (a, .ok h bad t) →
    readLE h 0 8 ≠ 1 ∨ readLE h 8 8 ≠ readLE h 0x10 8 → exec (.restore r va at_) s = .next (notify 3 va t))
  ∧ (∀ (r : ResIx) (va w : Word) (at_ : Placement) (s : State) a, savedContext va.toNat at_.gen s = some (a, .fault w) → (15, w) ∉ s.mgr.notices →
    exec (.restore r va at_) s = .next (notify 15 w s))
  ∧ (∀ (r : ResIx) (va : Word) (at_ : Placement) (s t v : State) a h bad g im role m bads n, savedContext va.toNat at_.gen s = some (a, .ok h bad t) →
    readLE h 0 8 = 1 → readLE h 8 8 = readLE h 0x10 8 → gangOf t a.gang = some g → at_.res = r → admits t g.packet at_ = true →
    imageOf t g.packet = some im → im.roleOf t.core.id.toNat = some role → pkAccs g.packet = 0 →
    areaBytes a.asid va.toNat (256 + pkSize g.packet) t = .ok m bads v →
    spilledReplies a.asid a.gen v = some n → n ≤ v.sinksFree → v.core.readyQ.length + min 16 (readLE m 0x80 1 % 32) ≤ 16 →
    ∃ u, exec (.restore r va at_) s = .next u ∧ u.res[r].state = .running ∧ u.res[r].asid = pkAsid g.packet ∧ u.res[r].journal = a.journal
      ∧ u.res[r].spflag = BitVec.ofNat 64 (readLE m 0x30 8) ∧ u.res[r].jseq = BitVec.ofNat 64 (readLE m 0x40 8)
      ∧ u.res[r].phase = readLE m 0x58 8 % 2 ^ 32 ∧ u.res[r].mail = true ∧ u.res[r].sinks = a.sinks + n
      ∧ (v.memoriesWf → ∀ o < pkSize g.packet, readByte u.core.spad (at_.bank.toNat * 3072 + o) = readByte m (256 + o)))

/-- R331 to R336, R4, R25, R272, R289, R293, R310, R317, R370, R375: a gate command closes a quad, is refused for one in use, or cancels a queued wake; a
closing quad falls and loses its contents; wakes queue, are admitted up to four at a time, and complete; and the stack manager's writes set the
control registers. -/
def Sys2Proof.Spec.PowerSteps : Prop :=
  (∀ (q : Nat) (s : State), 1640 ≤ q → exec (.gate q) s = .next s ∧ exec (.wake q) s = .next s)
  ∧ (∀ (q : Nat) (s : State), q < 1640 → (qpwr s q).queued = true →
    ∃ u, exec (.gate q) s = .next u ∧ qpwr u q = { qpwr s q with queued := false } ∧ u.power.queue = s.power.queue.filter (fun e => decide (e.1 ≠ q)))
  ∧ (∀ (q : Nat) (s : State), q < 1640 → (qpwr s q).queued = false → (qpwr s q).state = .on → quadInUse s q = false →
    ∃ u, exec (.gate q) s = .next u ∧ qpwr u q = { qpwr s q with state := .closing } ∧ u.core = s.core)
  ∧ (∀ (q : Nat) (s : State), q < 1640 → (qpwr s q).queued = false → (qpwr s q).state = .on → quadInUse s q = true →
    ∃ u, exec (.gate q) s = .next u ∧ qpwr u q = { qpwr s q with err := true })
  ∧ (∀ (q : Nat) (s : State), q < 1640 → (qpwr s q).state = .gated → (qpwr s q).queued = false →
    ∃ u, exec (.wake q) s = .next u ∧ qpwr u q = { qpwr s q with queued := true } ∧ u.power.queue = s.power.queue ++ [(q, s.core.cycle)])
  ∧ (∀ (q : Nat) (s : State), closeWaits (logicalOf s q) s = true → exec (.gateFall q) s = .next s)
  ∧ (∀ (q : Nat) (s : State), q < 1640 → (qpwr s q).state = .closing → (qpwr s q).wakeKept = true → closeWaits (logicalOf s q) s = false →
    ∃ u, exec (.gateFall q) s = .next u ∧ (qpwr u q).state = .gated ∧ (qpwr u q).queued = true ∧ (qpwr u q).wakeKept = false)
  ∧ (∀ (q : Nat) (s : State), (qpwr s q).state = .closing → (qpwr s q).wakeKept = false → closeWaits (logicalOf s q) s = false →
    ∃ u, exec (.gateFall q) s = .next u ∧ qpwr u q = { qpwr s q with state := .gated }
      ∧ (isOwnQuad s q = true → u.quad.istore = [] ∧ u.quad.code = [] ∧ u.core.spad = [] ∧ (∀ r : ResIx, u.res[r].state = .free)
        ∧ (∀ i : SlotIx, u.streams[i].active = false)))
  ∧ (∀ (q : Nat) (c : Word) (s : State), nextWake s = some (q, c) → s.power.waking.length < 4 →
    ∃ u, exec .wakeAdmit s = .next u ∧ qpwr u q = { qpwr s q with queued := false, state := .waking }
      ∧ u.power.waking = s.power.waking ++ [q] ∧ u.power.queue = s.power.queue.filter (fun e => decide (e.1 ≠ q)))
  ∧ (∀ (q : Nat) (s : State), q ∈ s.power.waking → s.power.queue = [] →
    ∃ u, exec (.wakeComplete q) s = .next u ∧ qpwr u q = { qpwr s q with state := .on, bbnow := (qpwr s q).bb, queued := false } ∧ q ∉ u.power.waking
      ∧ (isOwnQuad s q = true → u.quad.istore = [] ∧ u.quad.code = [] ∧ u.quad.reload = true))
  ∧ (∀ (q p : Nat) (c : Word) (s : State), q ∈ s.power.waking → s.power.waking.length ≤ 4 → nextWake s = some (p, c) →
    ∃ u, exec (.wakeComplete q) s = .next u ∧ (qpwr u p).state = .waking ∧ p ∈ u.power.waking)
  ∧ (∀ (reg : ControlReg) (v : BitVec 128) (s : State), Table.wf 0 s.vault.roots = true → Table.wf 0 s.quad.access = true → Table.wf 0 s.mgr.quadMap = true →
    ∃ u, exec (.controlWrite reg v) s = .next u ∧ controlWritten reg v s u)

/-- R354 to R361: flits are accepted in order, answered and sent again; lanes fail, modules retrain or die and their traffic moves; packets of the fabric
are delivered in order, held, acknowledged and sent again; ports come and go; and TICK is corrected by at most one.
Where the rules leave a choice it is that of log entries 2, 9, 37 and 39. -/
def Obligations.LinkSteps : Prop :=
  (∀ (m : Fin 8) (num : BitVec 8) (flit : Flit) (s : State), works s m → num = s.link.modules[m].expected →
    ∃ u, exec (.flitReceive m true num flit) s = .next u ∧ u.link.modules[m].expected = s.link.modules[m].expected + 1
      ∧ u.link.modules[m].ackOut = some (s.link.modules[m].expected + 1) ∧ u.link.modules[m].nakOut = none
      ∧ (∀ y, flit.msgs = [y] → forHere s y → u.net.inbound = s.net.inbound ++ [trimmed y]))
  ∧ (∀ (m : Fin 8) (ok : Bool) (num : BitVec 8) (flit : Flit) (s : State), works s m → ok = false ∨ num ≠ s.link.modules[m].expected →
    exec (.flitReceive m ok num flit) s = .next (setModule m (if ok = true ∧ (s.link.modules[m].expected - num).toNat ≤ 64 then
      { s.link.modules[m] with ackOut := some s.link.modules[m].expected } else { s.link.modules[m] with nakOut := some s.link.modules[m].expected }) s))
  ∧ (∀ (m : Fin 8) (e : BitVec 8) (s : State), works s m →
    exec (.nakReceive m e) s = .next (setModule m { s.link.modules[m] with
      resent := (s.link.modules[m].retry.dropWhile (fun f => decide (f.1 ≠ e))).map Prod.fst } s))
  ∧ (∀ (m : Fin 8) (e : BitVec 8) (ok : Bool) (num : BitVec 8) (flit : Flit) (s : State), ¬ works s m →
    exec (.flitAck m e) s = .next s ∧ exec (.nakReceive m e) s = .next s ∧ exec (.flitReceive m ok num flit) s = .next s)
  ∧ (∀ (m : Fin 8) (e : BitVec 8) (s : State), works s m → s.link.modules[m].pendingTx = [] →
    ∃ u, exec (.flitAck m e) s = .next u
      ∧ u.link.modules[m].retry = s.link.modules[m].retry.dropWhile (fun f => decide (1 ≤ (e - f.1).toNat ∧ (e - f.1).toNat ≤ 64)))
  ∧ (∀ (m : Fin 8) (repaired : Bool) (s : State), s.link.modules[m].dead = false →
    exec (.laneFailure m repaired) s = .next (setModule m { s.link.modules[m] with training := true, narrow := s.link.modules[m].narrow || !repaired } s))
  ∧ (∀ (m : Fin 8) (s : State), works s m → s.link.modules[m].retry.filter (fun f => decide (f.1 = s.link.modules[m].far)) = [] → crossNext m s = s)
  ∧ (∀ (m : Fin 8) (f : BitVec 8 × Flit) (s : State), works s m → s.link.modules[m].retry.filter (fun f => decide (f.1 = s.link.modules[m].far)) = [f] →
    crossNext m s = f.2.msgs.foldl (fun s y => beyond y s) (setModule m { s.link.modules[m] with far := f.1 + 1 } s))
  ∧ (∀ (m : Fin 8) (s : State), s.link.modules[m].training = true → s.link.modules[m].pendingTx = [] →
    exec (.retrainEnd m) s = .next (setModule m { s.link.modules[m] with training := false, resent := s.link.modules[m].retry.map Prod.fst } s))
  ∧ (∀ (m : Fin 8) (full : Bool) (s : State),
    (s.link.modules[m].dead = false →
      exec (.moduleRetrain m full) s = .next (setModule m { s.link.modules[m] with training := true, dead := false, narrow := !full, told := none } s))
    ∧ (s.link.modules[m].dead = true → s.link.modules[m].retry = [] →
      exec (.moduleRetrain m full) s = .next (setModule m { s.link.modules[m] with
        training := true, dead := false, narrow := !full, told := none, credit := ⟨32, 32, 32⟩, owed := ⟨0, 0, 0⟩ } s)))
  ∧ (∀ (m : Fin 8) (s : State), s.link.modules[m].retry ≠ [] →
    exec (.moduleDead m none) s = .next (setModule m { s.link.modules[m] with dead := true, training := false, told := some s.link.modules[m].expected } s))
  ∧ (∀ (m : Fin 8) (s : State), s.link.modules[m].retry = [] →
    ∃ u, exec (.moduleDead m none) s = .next u ∧ u.link.modules[m].dead = true ∧ u.link.modules[m].retry = []
      ∧ u.link.modules[m].told = some s.link.modules[m].expected)
  ∧ (∀ (m : Fin 8) (e : BitVec 8) (s : State), ∃ u, exec (.moduleDead m (some e)) s = .next u ∧ u.link.modules[m].dead = true ∧ u.link.modules[m].retry = [])
  ∧ (∀ (m : Fin 8) (s : State), s.link.modules[m].dead = true → s.link.modules[m].retry ≠ [] →
    ∃ u, exec (.sidebandTimeout m) s = .next u
      ∧ (let doomed (y : Msg) : Bool := s.link.modules[m].kept.any (fun z => decide (z.src = y.src ∧ z.asid = y.asid ∧ z.gen = y.gen))
        (6, BitVec.ofNat 64 (((s.link.modules[m].fresh s.link.modules[m].retry).flatMap (fun f => f.2.msgs)).length
          + (s.link.modules[m].pendingTx.filter doomed).length)) ∈ u.mgr.notices)
      ∧ ((∀ y ∈ s.link.modules[m].kept, y.src ≠ s.address) → u.link.modules[m].retry = [])
      ∧ (∀ (r : ResIx) (y : Msg), y ∈ s.link.modules[m].kept → senderOf s y = some r → s.res[r].killed = false → killedOrDue s u r))
  ∧ (∀ (flow : Nat) (num : BitVec 32) (y : Msg) (s : State), num = (flowOf s flow).next → (flowOf s flow).held = [] →
    ∃ u, exec (.fabricPacket flow num y) s = .next u ∧ (flowOf u flow).next = num + 1 ∧ (flowOf u flow).ackOut = some (num + 1)
      ∧ (forHere s y → u.net.inbound = s.net.inbound ++ [trimmed y]))
  ∧ (∀ (flow : Nat) (num : BitVec 32) (y : Msg) (s : State), 1 ≤ (num - (flowOf s flow).next).toNat → (num - (flowOf s flow).next).toNat ≤ 1023 →
    (∀ e ∈ (flowOf s flow).held, e.1 ≠ num) → heldPackets s < 16384 →
    exec (.fabricPacket flow num y) s = .next (setFlow flow { flowOf s flow with held := (flowOf s flow).held ++ [(num, y)] } s))
  ∧ (∀ (flow : Nat) (num : BitVec 32) (y : Msg) (s : State), 1024 ≤ (num - (flowOf s flow).next).toNat →
    exec (.fabricPacket flow num y) s = .next (setFlow flow (if 2 ^ 31 ≤ (num - (flowOf s flow).next).toNat then
      { flowOf s flow with ackOut := some (flowOf s flow).next } else { flowOf s flow with nakOut := some (flowOf s flow).next }) s))
  ∧ (∀ (flow : Nat) (num : BitVec 32) (s : State), ∃ u, exec (.fabricAck flow num) s = .next u
      ∧ (flowOf u flow).kept = (flowOf s flow).kept.filter (fun e => decide ((e.1 - num).toNat < 2 ^ 31)) ∧ u.core = s.core
      ∧ u.net.mesh = s.net.mesh ++ ((flowOf s flow).kept.filter (fun e => !decide ((e.1 - num).toNat < 2 ^ 31))).map Prod.snd)
  ∧ (∀ (flow : Nat) (s : State), (flowOf s flow).held ≠ [] →
    exec (.gapTimeout flow) s = .next (setFlow flow { flowOf s flow with nakOut := some (flowOf s flow).next } s))
  ∧ (∀ (flow : Nat) (num : BitVec 32) (i : Instr) (s : State), i = .fabricNak flow num ∨ i = .resendTimeout flow num →
    (∀ e, (flowOf s flow).kept.find? (fun e => decide (e.1 = num)) = some e →
      ∃ u, exec i s = .next u ∧ (flowOf u flow).kept = (flowOf s flow).kept ∧ packetSent flow num e.2 s u)
    ∧ ((flowOf s flow).kept.find? (fun e => decide (e.1 = num)) = none → exec i s = .next s))
  ∧ (∀ (link : Nat) (dead : Bool) (s : State) (p : Fin 8) (path : List Nat), (p, path) ∈ s.link.fabric →
    (path ∈ livePaths (fabricLink link dead s) p ↔ ∀ k ∈ path, (k = link → dead = false) ∧ (k ≠ link → k ∉ s.link.fabricDead)))
  ∧ (∀ (port : Fin 8) (s : State),
    exec (.linkDead port) s = .next { s with link := { s.link with portDead := vset s.link.portDead port true } }
    ∧ exec (.linkReturn port) s = .next { s with link := { s.link with portDead := vset s.link.portDead port false } })
  ∧ (∀ (tick : Word) (synced : Bool) (s : State), ∃ u, exec (.timingPacket tick synced) s = .next u
      ∧ (u.mgr.synced = true ↔ synced = true ∧ u.mgr.tick.toNat ≤ tick.toNat + 2 ∧ tick.toNat ≤ u.mgr.tick.toNat + 2)
      ∧ (s.mgr.synced = true → u.mgr.synced = false → (12, 0) ∈ u.mgr.notices)
      ∧ u.mgr.tick = (if s.mgr.tick.toNat < tick.toNat ∧ s.mgr.corrected.toNat + 1000 ≤ s.mgr.tick.toNat then s.mgr.tick + 1 else s.mgr.tick)
      ∧ u.core = s.core)

/-- R363 to R369: a mailbox command with a reserved bit is refused; ring, completion ring, windows and DMA windows are configured; BAR 2 accesses go on
piece by piece in their order, wait or are refused; BAR 0 is read and written as its registers say.
Where the rules leave a choice it is that of log entries 30, 31 and 51. -/
def Obligations.HostSteps : Prop :=
  (∀ (i : Instr) irq masks body d (s : State), mailRule i = some (irq, masks, body) → mailServed s → reservedWord masks body = some d →
    ∃ u, exec i s = .next u ∧ mailAnswered irq 0xFF d 0 s u ∧ u.core = s.core ∧ u.mgr = s.mgr)
  ∧ (∀ (irq : Bool) (body : List Word) (k : Fin 24) (s : State), mailServed s → bodyGood [0x0FFF0F07, 2 ^ 48 - 1] body →
    4 ≤ bits (bodyWord body 0) 8 4 → bits (bodyWord body 0) 8 4 ≤ 12 → bodyWord body 1 % 128 = 0 → k.val = bits (bodyWord body 0) 0 3 →
    s.mgr.rings[k].ci = s.mgr.rings[k].pi →
    ∃ u, exec (.ringcfg irq body) s = .next u ∧ mailAnswered irq 0 0 0 s u
      ∧ u.mgr.rings[k] = ⟨true, BitVec.ofNat 48 (bodyWord body 1), BitVec.ofNat 4 (bits (bodyWord body 0) 8 4),
        BitVec.ofNat 12 (bits (bodyWord body 0) 16 12), 0, 0, 0, s.mgr.rings[k].doorbell⟩)
  ∧ (∀ (irq : Bool) (body : List Word) (s : State), mailServed s → bodyGood [2 ^ 64 - 1, 15] body → 4 ≤ bodyWord body 1 → bodyWord body 1 ≤ 12 →
    bodyWord body 0 % 4096 = 0 → s.host.cpi = s.host.cci → s.mgr.hostEntries = [] →
    ∃ u, exec (.cringcfg irq body) s = .next u ∧ mailAnswered irq 0 0 0 s u ∧ u.host.cringSet = true ∧ u.host.cringBase = BitVec.ofNat 64 (bodyWord body 0)
      ∧ u.host.cringK = BitVec.ofNat 4 (bodyWord body 1) ∧ u.host.cpi = 0 ∧ u.host.cci = 0)
  ∧ (∀ (irq : Bool) (body : List Word) (s : State), mailServed s → bodyGood [255, 2 ^ 64 - 1] body → bodyWord body 1 % 2 ^ 28 = 0 →
    bits (bodyWord body 1) 60 1 = 0 → Table.wf 0 s.host.windows = true →
    ∃ u, exec (.wincfg irq body) s = .next u ∧ mailAnswered irq 0 0 0 s u
      ∧ ∀ off, windowOf u off = if off / 2 ^ 28 = bodyWord body 0 then BitVec.ofNat 64 (bodyWord body 1) else windowOf s off)
  ∧ (∀ (irq : Bool) (body : List Word) (k : Fin 16) (s : State), mailServed s →
    bodyGood [15, 0xEFFF000000000000, 2 ^ 64 - 1, 2 ^ 64 - 1] body → k.val = bodyWord body 0 % 16 → bodyWord body 2 % 4096 = 0 → bodyWord body 3 % 4096 = 0 →
    bodyWord body 3 ≠ 0 → bodyWord body 3 ≤ 2 ^ 48 → dmaBusy s.host.dma[k] s = false →
    ∃ u, exec (.dmawcfg irq body) s = .next u ∧ mailAnswered irq 0 0 0 s u
      ∧ u.host.dma[k] = ⟨BitVec.ofNat 64 (bodyWord body 1), BitVec.ofNat 64 (bodyWord body 2), BitVec.ofNat 64 (bodyWord body 3)⟩)
  ∧ (∀ (command : Word) (body : List Word) (s : State),
    mailServed s ∨ (s.mgr.boot = .rom ∧ sel command 0 16 = 6 ∧ mailOpen s = false) → sel command 16 47 ≠ 0 ∨ sel command 0 16 = 0 ∨ 8 < sel command 0 16 →
    ∃ u, exec (.badcmd command body) s = .next u ∧ mailAnswered (decide (sel command 63 1 = 1)) 0xFF 0xFF 0 s u)
  ∧ (∀ (i : Instr) (a : HostAccess) (s : State), hostArrival i s a → a.inWindow = false →
    ∃ u, exec i s = .next u ∧ hostRefused a s u ∧ u.host.pending = s.host.pending)
  ∧ (∀ (i : Instr) (a : HostAccess) (s : State), hostArrival i s a → a.inWindow = true →
    let b : HostAccess := { a with id := s.net.nextId }
    let v : State := { s with host := { s.host with pending := s.host.pending ++ [b] }, net := { s.net with nextId := s.net.nextId + 1 } }
    (hostFree s.host.pending a = false ∨ hostPiece b v = .wait ∨ hostPiece b v = .fault → exec i s = .next v)
    ∧ (∀ t, hostFree s.host.pending a = true → hostPiece b v = .queued t → exec i s = .next ((waited v t).getD v))
    ∧ (hostFree s.host.pending a = true → hostPiece b v = .refused →
      ∃ u, exec i s = .next u ∧ hostRefused a s u ∧ u.host.pending = s.host.pending)
    ∧ (∀ c t, hostFree s.host.pending a = true → hostPiece b v = .done c t →
      ∃ u, exec i s = .next u ∧ u.vault.mem = t.vault.mem ∧ u.core = t.core
        ∧ (c.len ≤ c.done → u = endHost c (setPending s.host.pending.length none (leaveQueue (.host c.id) t)) ∧ (c.data = none → u.host.readData = some c.got))
        ∧ (c.done < c.len → u = setPending s.host.pending.length (some c) (leaveQueue (.host c.id) t))))
  ∧ (∀ (a : HostAccess) (w : Word) (s t u v : State), a.data = none → a.piece ≠ 0 → a.done = 0 → a.denied s = false →
    translateStack a.asid (pageOf a.va) s = (.ok w, t) → permits w true false = true →
    let p := requestPlace t a.asid (pageOf a.va) w (a.va % 2 ^ 18)
    hostRight t p.vault a.asid 30 = true → vaultGated t p.vault = false → reachBeat (.host a.id) p t = (true, u) → beatRead p.addr u = (0, v) →
    hostPiece a s = .done { a with done := a.piece, got := a.got ++ readList v.vault.mem p.addr a.piece } v)
  ∧ (∀ (a : HostAccess) (bs : List Byte) (w : Word) (d : Nat) (s t u v : State), a.data = some bs → a.piece ≠ 0 → a.done = 0 → a.denied s = false →
    translateStack a.asid (pageOf a.va) s = (.ok w, t) → permits w false true = true →
    let p := requestPlace t a.asid (pageOf a.va) w (a.va % 2 ^ 18)
    hostRight t p.vault a.asid 29 = true → vaultGated t p.vault = false → epochStale t a.asid w = false → reachBeat (.host a.id) p t = (true, u) →
    storeColumn a.asid a.va p (bs.take a.piece) u = some (d, v) →
    hostPiece a s = .done { a with done := a.piece } (if d = 0 then v else notify 10 (BitVec.ofNat 64 a.va) v))
  ∧ (∀ (pre post : List HostAccess) (a : HostAccess) (s : State), s.host.pending = pre ++ a :: post → (∀ b ∈ pre, hostFaults b s = false) →
    hostFaults a s = true → ∃ u, exec .hostMapTimeout s = .next u ∧ hostRefused a s u ∧ u.host.pending = pre ++ post)
  ∧ (∀ s : State, (∀ b ∈ s.host.pending, hostFaults b s = false) → exec .hostMapTimeout s = .next s)
  ∧ (∀ (off : BitVec 20) (n : Nat) (data : Word) (relaxed : Bool) (index : BitVec 8) (base : BitVec 9) (room : Bool) (file : List Byte) (s : State),
    bar0Good off n = false → (elsewhere (.bar0Read off n) s).host.readData = none ∧ elsewhere (.bar0Write off n data relaxed index base room file) s = s)
  ∧ (∀ (pi : Word) (relaxed : Bool) (index : BitVec 8) (base : BitVec 9) (room : Bool) (file : List Byte) (s : State), ∀ r : Fin 8,
    exec (.ringNotify r (pi.setWidth 32) relaxed) s = .next (elsewhere (.bar0Write (BitVec.ofNat 20 (0x1000 + 0x40 * r.val)) 8 pi relaxed index base room file) s))
  ∧ (∀ s : State, (elsewhere (.bar0Read 0 8) s).host.readData = some (leBytes 8 (s.core.pkg.toNat + packageBoot s * 2 ^ 20) ))
  ∧ (∀ (k : Fin 4) (relaxed : Bool) (index : BitVec 8) (base : BitVec 9) (room : Bool) (file : List Byte) (w e : Word) (s : State),
    s.mgr.boot = .ready → mailOpenAt k s = false → (s.host.mailboxes[k]).body = [(1, w), (2, e)] → w.toNat < 256 → e.toNat % 2 ^ 28 = 0 →
    bits e.toNat 60 1 = 0 → Table.wf 0 s.host.windows = true →
    let u := elsewhere (.bar0Write (BitVec.ofNat 20 (0x8000 + 0x1000 * k.val)) 8 3 relaxed index base room file) s
    (u.host.mailboxes[k]).status = mailStatus 0 0 0 ∧ ∀ off, windowOf u off = if off / 2 ^ 28 = w.toNat then e else windowOf s off)
  ∧ (∀ (cci : BitVec 32) (s : State), ∃ u, exec (.cciWrite cci) s = .next u ∧ u.host.cci = cci ∧ u.core = s.core
      ∧ (s.mgr.hostEntries = [] → u.host = { s.host with cci := cci }))

/-- R402 to R413: at power-up the ROM runs with every quad GATED; firmware that passes its checks brings the package up, other firmware fails; an image
that passes its checks enters the table, is forwarded from quad to quad, and is dropped when no gang uses it. -/
def Sys2Proof.Spec.BootSteps : Prop :=
  (∀ s : State, ∃ u, exec .powerUp s = .next u ∧ u.mgr.boot = .rom ∧ (∀ q, (qpwr u q).state = .gated) ∧ u.core.spad = [] ∧ u.quad.istore = []
    ∧ u.vault.mem = s.vault.mem ∧ (∀ i : SlotIx, u.streams[i].active = false) ∧ (∀ r : ResIx, u.res[r] = Residency.free) ∧ u.mgr.images = [])
  ∧ (∀ (irq : Bool) (file : List Byte) (s : State), s.mgr.boot = .rom → s.host.firmware = none →
    ∃ u, exec (.fwload irq file) s = .next u
      ∧ (file.length = firmwareLength s.host.mailAt s → u.mgr.boot = .fwcheck ∧ u.host.firmware = some ⟨s.host.mailAt, irq, some file⟩)
      ∧ (file.length ≠ firmwareLength s.host.mailAt s → u.mgr.boot = .rom ∧ u.host.firmware = some ⟨s.host.mailAt, irq, none⟩))
  ∧ (∀ (k : Fin 4) (irq : Bool) (file : List Byte) (s : State), s.mgr.boot = .fwcheck → s.host.firmware = some ⟨k, irq, some file⟩ →
    let good := fileFault firmwareCounts file = none ∧ firmwarePlain file = true
    let failed (d : Nat) (u : State) : Prop :=
      u.mgr.boot = .failed ∧ mailboxAnswered k irq 2 d 0 s u ∧ (u.host.mailboxes[k]).response = [BitVec.ofNat 64 (2 + d * 2 ^ 8)]
    ∃ u, tryFirmwareCheck s = some u ∧ u.host.firmware = none
      ∧ (good → signatureFault file = none → u.mgr.boot = .bringup ∧ mailboxAnswered k irq 0 0 0 s u)
      ∧ (∀ d, good → signatureFault file = some d → failed d u) ∧ (¬ good → failed 0 u))
  ∧ (∀ (irq : Bool) (body : List Word) (index : BitVec 8) (base : BitVec 9) (f : List Byte) (d : Nat) (s t : State), mailServed s →
    bodyGood [0xFFF, 2 ^ 48 - 1, 2 ^ 64 - 1] body → imageRead body s = .done 0 d f t → fileFault imageCounts f = none → t.mgr.images = [] →
    let x := imageOfFile f s.host.mailAt irq index base t.ownStack t.ownQuad
    (regionFree t base.toNat (regionLength x.roles x.placement t.ownStack t.ownQuad) = true →
      ∃ u, exec (.imgload irq body index base true) s = .next u
        ∧ (signatureFault f = none → ∃ i, u.mgr.images = [i] ∧ i.index = index ∧ i.base = base ∧ i.roles = x.roles ∧ i.placement = x.placement
          ∧ (i.loaded = true → mailboxAnswered s.host.mailAt irq 0 0 index.toNat t u)))
    ∧ (signatureFault f = none → ∃ u, exec (.imgload irq body index base false) s = .next u ∧ mailboxAnswered s.host.mailAt irq 3 0 0 t u ∧ u.mgr.images = [])
    ∧ (∀ k, signatureFault f = some k →
      ∃ u, exec (.imgload irq body index base true) s = .next u ∧ mailboxAnswered s.host.mailAt irq 2 k 0 t u ∧ u.mgr.images = []))
  ∧ (∀ (irq : Bool) (body : List Word) (index : BitVec 8) (base : BitVec 9) (room : Bool) (f : List Byte) (d : Nat) (s t : State), mailServed s →
    bodyGood [0xFFF, 2 ^ 48 - 1, 2 ^ 64 - 1] body → imageRead body s = .done 0 d f t → fileFault imageCounts f = none → signatureFault f = none →
    let x := imageOfFile f s.host.mailAt irq index base t.ownStack t.ownQuad
    ((∀ k : BitVec 8, ∃ i ∈ t.mgr.images, i.index = k) →
      ∃ u, exec (.imgload irq body index base room) s = .next u ∧ mailboxAnswered s.host.mailAt irq 4 0 0 t u ∧ u.mgr.images = t.mgr.images)
    ∧ ((∀ i ∈ t.mgr.images, i.index ≠ index) → (∀ b : BitVec 9, regionFree t b.toNat (regionLength x.roles x.placement t.ownStack t.ownQuad) = false) →
      ∃ u, exec (.imgload irq body index base room) s = .next u ∧ mailboxAnswered s.host.mailAt irq 3 0 0 t u ∧ u.mgr.images = t.mgr.images))
  ∧ (∀ (irq : Bool) (body : List Word) (index : BitVec 8) (base : BitVec 9) (room : Bool) (f : List Byte) (d k : Nat) (s t : State), mailServed s →
    bodyGood [0xFFF, 2 ^ 48 - 1, 2 ^ 64 - 1] body → imageRead body s = .done 0 d f t → fileFault imageCounts f = some k →
    ∃ u, exec (.imgload irq body index base room) s = .next u ∧ mailboxAnswered s.host.mailAt irq 1 k 0 t u ∧ u.mgr.images = t.mgr.images)
  ∧ (∀ (irq : Bool) (body : List Word) (index : BitVec 8) (base : BitVec 9) (room : Bool) (s t : State), mailServed s →
    bodyGood [0xFFF, 2 ^ 48 - 1, 2 ^ 64 - 1] body →
    (∃ st d bs, imageRead body s = .done st d bs t ∧ st ≠ 0) ∨ (∃ why va, imageRead body s = .fault why va t) →
    ∃ u, exec (.imgload irq body index base room) s = .next u ∧ mailboxAnswered s.host.mailAt irq 5 0 0 t u ∧ u.mgr.images = t.mgr.images)
  ∧ (∀ (irq : Bool) (body : List Word) (index : BitVec 8) (base : BitVec 9) (room : Bool) (s : State), mailServed s →
    bodyGood [0xFFF, 2 ^ 48 - 1, 2 ^ 64 - 1] body → imageRead body s = .wait →
    ∃ u, exec (.imgload irq body index base room) s = .next u ∧ u.host.loads = s.host.loads ++ [⟨s.host.mailAt, irq, body, index, base, room⟩]
      ∧ mailOpenAt s.host.mailAt u = true ∧ u.vault = s.vault)
  ∧ (∀ (source target : BitVec 11) (i : Image) (s : State), s.mgr.images = [i] → i.loaded = false → i.holding.contains source = true →
    ((i.tree.filter (fun e => decide (e.1 = source))).flatMap Prod.snd).find? (fun q => !i.holding.contains q) = some target →
    ∃ u j, exec (.imageForward source target) s = .next u ∧ u.mgr.images = [j] ∧ j.holding = i.holding ++ [target]
      ∧ (j.loaded = true ↔ ∀ q ∈ treeQuads i.tree, q ∈ i.holding ++ [target]))
  ∧ (∀ (irq : Bool) (body : List Word) (s : State), mailServed s → bodyGood [0xFF] body → (∀ g ∈ s.mgr.gangs, pkt g.packet 2 56 8 ≠ bodyWord body 0) →
    ∃ u, exec (.imgdrop irq body) s = .next u ∧ mailAnswered irq 0 0 0 s u ∧ ∀ i ∈ u.mgr.images, i.index.toNat ≠ bodyWord body 0)
  ∧ (∀ (irq : Bool) (body : List Word) (g : Gang) (s : State), mailServed s → bodyGood [0xFF] body → g ∈ s.mgr.gangs → pkt g.packet 2 56 8 = bodyWord body 0 →
    ∃ u, exec (.imgdrop irq body) s = .next u ∧ mailAnswered irq 6 0 0 s u ∧ u.mgr.images = s.mgr.images)

/-- The device steps of power gating, the control registers, boot and images.
Where the rules leave a choice it is that of log entries 4, 9, 32 and 33. -/
def Obligations.PowerAndBootSteps : Prop := PowerSteps ∧ BootSteps

/-- R73 to R82: decode of encode is the instruction, whatever bytes follow it: for every encoded instruction whose fields are within their limits, the
bytes of its word decode to it and leave the rest. -/
def Obligations.DecodeOfEncode : Prop :=
  ∀ (i : Instr) (rest : List Byte), i.isEvent = false → i.wellFormed = true →
    decodeBytes (wordBytes (i.len / 2) (encode i) ++ rest) = .ok (i, rest)

/-- R83: encode of decode is the word: what the decoder accepts is well-formed and encoded, and its word has no bit that the instruction does not
account for. -/
def Obligations.EncodeOfDecode : Prop :=
  ∀ (w : Nat) (i : Instr), decodeWord w = .ok i → i.isEvent = false ∧ i.wellFormed = true ∧ encode i = w % 2 ^ (8 * i.len)

/-- Words written out from the spec's tables decode to the instructions they stand for, and are those instructions' encodings. -/
def Obligations.SpecWords : Prop := ∀ e ∈ specWords, decodeTableWord e.1 e.2.1 = some e.2.2 ∧ encode e.2.2 = e.2.1

/-- R33, R72, R83: what a fetch gives: code bytes that hold an instruction's word give the instruction; the end of the region and a data
tag trap; a word that is no instruction is illegal. -/
def Obligations.Fetches : Prop :=
  (∀ (s : State) (a : Nat) (i : Instr), i.isEvent = false → i.wellFormed = true → codeHolds s a i.len (encode i) → fetchAt a s = .instr i)
  ∧ (∀ (s : State) (a w n : Nat), n = (if w % 2 = 0 then 2 else 4) → w < 2 ^ (8 * n) → codeHolds s a n w → (∀ i, decodeWord w ≠ .ok i) →
    fetchAt a s = .illegal (BitVec.ofNat 32 w))
  ∧ (∀ (s : State) (a : Nat), s.rs.regionEnd ≤ a → fetchAt a s = .trap 0x04 (BitVec.ofNat 64 a))
  ∧ (∀ (s : State) (a : Nat), a < s.rs.regionEnd → fetchLength s a = 4 → s.rs.regionEnd ≤ a + 2 → fetchAt a s = .trap 0x04 (BitVec.ofNat 64 (a + 2)))
  ∧ (∀ (s : State) (a : Nat), a + fetchLength s a ≤ s.rs.regionEnd → codeAt s a = false → fetchAt a s = .trap 0x02 (BitVec.ofNat 64 a))
  ∧ (∀ (s : State) (a : Nat), a + 4 ≤ s.rs.regionEnd → codeAt s a = true → fetchLength s a = 4 → codeAt s (a + 2) = false →
    fetchAt a s = .trap 0x02 (BitVec.ofNat 64 (a + 2)))

/-- A step runs the instruction that stands at the program counter (R11, R33, R72, R83, R162, R298): the stream that issues enters a trap that waited, or
executes what it fetches, and then time passes; a fetch that fails takes its trap, a word that is no instruction takes ILLOP, a stream that owes WDOG
takes it unless a transfer of its save area is in progress, and a stream that would only wait does not issue.
Where the rules leave a choice it is that of log entry 3. -/
def Obligations.StepRunsTheInstruction : Prop :=
  (∀ (s t : State) (k : SlotIx) (i : Instr), issues s k t → fetches (issuing t k) k → i.isEvent = false →
    i.wellFormed = true → codeHolds (issuing t k) (issuing t k).st.pc.toNat i.len (encode i) →
    step s = andThen (exec i (issuing t k)) (afterIssue t k))
  ∧ (∀ (s t : State) (k : SlotIx) (cause : Nat) (info : Word), issues s k t → fetches (issuing t k) k →
    fetchAt (issuing t k).st.pc.toNat (issuing t k) = .trap cause info →
    step s = andThen (trap cause info (issuing t k)) (afterIssue t k))
  ∧ (∀ (s t : State) (k : SlotIx) (w : BitVec 32), issues s k t → fetches (issuing t k) k →
    fetchAt (issuing t k).st.pc.toNat (issuing t k) = .illegal w →
    step s = andThen (exec (.illop w) (issuing t k)) (afterIssue t k))
  ∧ (∀ (s t : State) (k : SlotIx), issues s k t → (issuing t k).st.due = none → owesWdog (issuing t k) k = true → (issuing t k).st.area = none →
    step s = andThen (exec (.wdog k) (issuing t k)) (afterIssue t k))
  ∧ (∀ (s t : State) (k : SlotIx) (cause : Nat) (epc info : Word), issues s k t → (issuing t k).st.due = some (cause, epc, info) →
    (issuing t k).sliceBusy = false →
    step s = .next (afterIssue t k (takeTrap cause epc info (issuing t k))))
  ∧ (∀ (s t : State) (k : SlotIx), issueAs k s = .next t → t.streams[k].stalled = true → pickSlot s ≠ some k)
  ∧ (∀ (s t : State) (k : SlotIx), (afterIssue s k t).streams[k].pc = t.streams[k].pc ∧ (afterIssue s k t).vault.mem = t.vault.mem
    ∧ (afterIssue s k t).quad = t.quad ∧ (afterIssue s k t).turn = true
    ∧ ∃ n, 1 ≤ n ∧ (afterIssue s k t).core = { t.core with cycle := t.core.cycle + BitVec.ofNat 64 n })

/-- The device's steps: the head of the schedule runs, a step of the device, an issue or what happens elsewhere; an encoded instruction there is the
model's only fault; a step of the device that is enabled runs when it is the device's turn or no stream can issue, and time passes where nothing can
move (log entries 3 and 9). -/
def Obligations.StepRunsTheDevice : Prop :=
  (∀ (s : State) (i : Instr) (rest : List Move), s.schedule = .device i :: rest → i.isEvent = true →
    step s = andThen (exec i { s with schedule := rest }) afterDevice)
  ∧ (∀ (s : State) (i : Instr) (rest : List Move), s.schedule = .device i :: rest → i.isEvent = false → step s = .fault .notADeviceStep)
  ∧ (∀ (s : State) (a : Elsewhere) (rest : List Move), s.schedule = .elsewhere a :: rest →
    step s = .next (afterDevice (elsewhere a { s with schedule := rest })))
  ∧ (∀ (s : State) (rest : List Move), s.schedule = .issue :: rest → pickSlot { s with schedule := rest } = none →
    step s = .next (idleCycle { s with schedule := rest }))
  ∧ (∀ (s t : State), s.schedule = [] → firstEnabled urgentAttempts s = some t → step s = .next (afterDevice t))
  ∧ (∀ (s t : State), s.schedule = [] → firstEnabled urgentAttempts s = none → s.turn = true ∨ pickSlot s = none → firstEnabled attempts s = some t →
    step s = .next (afterDevice t))
  ∧ (∀ s : State, s.schedule = [] → firstEnabled urgentAttempts s = none → firstEnabled attempts s = none → pickSlot s = none →
    step s = .next (idleCycle s))
  ∧ (∀ s : State, (idleCycle s).vault.mem = s.vault.mem ∧ (idleCycle s).quad = s.quad ∧ (idleCycle s).net = s.net
    ∧ ∃ n, 1 ≤ n ∧ (idleCycle s).core = { s.core with cycle := s.core.cycle + BitVec.ofNat 64 n })

/-- What the spec gives at power-up (R4, R23, R24, R25, R33, R254, R293, R331, R340, R413): the boot starts, every quad is GATED, every row closed, AGELIM is
64, OCC 16, CAP 8 and GUARDCFG 0, no stream runs, and every trap level is legal. -/
def Sys2Proof.Spec.ResetValues : Prop :=
  State.reset.mgr.boot = .reset ∧ (∀ q : Nat, (qpwr State.reset q).state = .gated)
  ∧ (∀ b : BankIx, State.reset.vault.banks[b].openRow = none ∧ State.reset.vault.banks[b].spares = 0)
  ∧ State.reset.core.agelim = 64 ∧ State.reset.mgr.occ = 16 ∧ (∀ k : Fin 30, State.reset.power.regions[k].cap = 8) ∧ guardcfg State.reset.core = 0
  ∧ (∀ i : SlotIx, State.reset.streams[i].active = false) ∧ (∀ r : ResIx, State.reset.res[r].state = .free)
  ∧ State.reset.levelsLegal

/-- The byte memories of the machine right after reset are in canonical form, and list nothing. -/
def Sys2Proof.Spec.ResetMemories : Prop := State.reset.memoriesWf ∧ State.reset.copiesWf ∧ State.reset.vault.mem = [] ∧ State.reset.core.spad = []

/-- The machine right after reset.
Where the rules leave a choice it is that of log entries 5 and 6. -/
def Obligations.ResetState : Prop := ResetValues ∧ ResetMemories

/-- Every step keeps every byte memory in canonical form: equal contents stay equal data.
Where the rules leave a choice it is that of log entry 6. -/
def Obligations.StepsKeepMemories : Prop := ∀ s t : State, s.memoriesWf → s.copiesWf → step s = .next t → t.memoriesWf ∧ t.copiesWf

/-- R303, R220: every step keeps every stream at a trap level that exists, 0, 1 or 2: no trap raises a level above 2, and no return lowers one below
0. -/
def Obligations.StepsKeepLevels : Prop := ∀ s t : State, s.levelsLegal → step s = .next t → t.levelsLegal

/-- Every step of a machine in whose schedule every device move is a device step goes on: no instruction and no device step ends in a fault or a refusal, in any
state.
Where the rules leave a choice it is that of log entry 3. -/
def Obligations.StepsGoOn : Prop := ∀ s : State, s.scheduleOfSteps → goesOn (step s)
end

