-- ==== Sys2Proof/Laws/Memory.lean ====
section
/-! SUPPORT. Laws of tables and memories: reading after writing, and the canonical form that every memory operation keeps. -/

namespace Sys2Proof.Machine

variable {α : Type} [DecidableEq α]

/-- What the form says of a table's head: the entry is not the default, and every later key is larger. -/
theorem Table.wf_cons (d : α) (k : Nat) (v : α) (t : Table α) :
    Table.wf d ((k, v) :: t) = true ↔ v ≠ d ∧ (∀ e ∈ t, k < e.1) ∧ Table.wf d t = true := by
  induction t generalizing k v with
  | nil => simp [Table.wf]
  | cons e rest ih =>
    obtain ⟨k', v'⟩ := e
    rw [show Table.wf d ((k, v) :: (k', v') :: rest) = (decide (v ≠ d) && decide (k < k') && Table.wf d ((k', v') :: rest)) from rfl]
    simp only [Bool.and_eq_true, decide_eq_true_eq, List.mem_cons, forall_eq_or_imp]
    constructor
    · rintro ⟨⟨h1, h2⟩, h3⟩
      refine ⟨h1, ⟨h2, fun e he => ?_⟩, h3⟩
      exact Nat.lt_trans h2 (((ih k' v').mp h3).2.1 e he)
    · rintro ⟨h1, ⟨h2, -⟩, h3⟩
      exact ⟨⟨h1, h2⟩, h3⟩

omit [DecidableEq α] in
theorem Table.get_below (d : α) (t : Table α) (a : Nat) (h : ∀ e ∈ t, a < e.1) : Table.get d t a = d := by
  cases t with
  | nil => rfl
  | cons e rest =>
    obtain ⟨k, v⟩ := e
    have hk : a < k := h (k, v) (by simp)
    simp [Table.get, hk, Nat.ne_of_lt hk]

theorem Table.get_put_self (d : α) (t : Table α) (a : Nat) (v : α) (h : Table.wf d t = true) : Table.get d (Table.put d t a v) a = v := by
  induction t with
  | nil => by_cases hv : v = d <;> simp [Table.put, Table.get, hv]
  | cons e rest ih =>
    obtain ⟨k, w⟩ := e
    obtain ⟨-, hlt, hr⟩ := (Table.wf_cons d k w rest).mp h
    unfold Table.put
    split
    · split
      · next h1 h2 => simp [Table.get, h1, Nat.ne_of_lt h1, h2]
      · simp [Table.get]
    · split
      · next h1 h2 =>
        split
        · next h3 => rw [h3]; exact Table.get_below d rest a (fun e he => h2 ▸ hlt e he)
        · simp [Table.get]
      · next h1 h2 => simp [Table.get, h1, h2, ih hr]

theorem Table.get_put_ne (d : α) (t : Table α) (a b : Nat) (v : α) (h : Table.wf d t = true) (hab : b ≠ a) :
    Table.get d (Table.put d t a v) b = Table.get d t b := by
  induction t with
  | nil => by_cases hv : v = d <;> simp [Table.put, Table.get, hv, hab]
  | cons e rest ih =>
    obtain ⟨k, w⟩ := e
    obtain ⟨-, hlt, hr⟩ := (Table.wf_cons d k w rest).mp h
    unfold Table.put
    split
    · split
      · rfl
      · next h1 h2 =>
        by_cases hb : b < a
        · simp [Table.get, hab, hb, Nat.lt_trans hb h1, Nat.ne_of_lt (Nat.lt_trans hb h1)]
        · simp [Table.get, hab, hb]
    · split
      · next h1 h2 =>
        subst h2
        split
        · by_cases hb : b < a
          · have : ∀ e ∈ rest, b < e.1 := fun e he => Nat.lt_trans hb (hlt e he)
            simp [Table.get, hab, hb, Table.get_below d rest b this]
          · simp [Table.get, hab, hb]
        · simp [Table.get, hab]
      · simp [Table.get, ih hr]

theorem Table.mem_put (d : α) (t : Table α) (a : Nat) (v : α) (e : Nat × α) (h : e ∈ Table.put d t a v) : e ∈ t ∨ e = (a, v) := by
  induction t with
  | nil =>
    unfold Table.put at h
    split at h <;> simp_all
  | cons f rest ih =>
    obtain ⟨k, w⟩ := f
    unfold Table.put at h
    split at h
    · split at h
      · simp_all
      · simp_all; tauto
    · split at h
      · split at h
        · exact .inl (List.mem_cons_of_mem _ h)
        · rcases List.mem_cons.mp h with h | h
          · exact .inr h
          · exact .inl (List.mem_cons_of_mem _ h)
      · rcases List.mem_cons.mp h with h | h
        · exact .inl (h ▸ List.mem_cons_self)
        · rcases ih h with h | h
          · exact .inl (List.mem_cons_of_mem _ h)
          · exact .inr h

theorem Table.wf_put (d : α) (t : Table α) (a : Nat) (v : α) (h : Table.wf d t = true) : Table.wf d (Table.put d t a v) = true := by
  induction t with
  | nil =>
    unfold Table.put
    split <;> simp_all [Table.wf]
  | cons e rest ih =>
    obtain ⟨k, w⟩ := e
    obtain ⟨hw, hlt, hr⟩ := (Table.wf_cons d k w rest).mp h
    unfold Table.put
    split
    · next h1 =>
      split
      · exact h
      · next h2 =>
        refine (Table.wf_cons d a v _).mpr ⟨h2, fun e he => ?_, h⟩
        rcases List.mem_cons.mp he with he | he
        · rw [he]; exact h1
        · exact Nat.lt_trans h1 (hlt e he)
    · split
      · next h1 h2 =>
        subst h2
        split
        · exact hr
        · next h3 => exact (Table.wf_cons d a v rest).mpr ⟨h3, hlt, hr⟩
      · next h1 h2 =>
        refine (Table.wf_cons d k w _).mpr ⟨hw, fun e he => ?_, ih hr⟩
        rcases Table.mem_put d rest a v e he with he | he
        · exact hlt e he
        · rw [he]; simp only; omega

theorem Table.wf_filter (d : α) (t : Table α) (p : Nat × α → Bool) (h : Table.wf d t = true) : Table.wf d (t.filter p) = true := by
  induction t with
  | nil => rfl
  | cons e rest ih =>
    obtain ⟨k, w⟩ := e
    obtain ⟨hw, hlt, hr⟩ := (Table.wf_cons d k w rest).mp h
    rw [List.filter_cons]
    split
    · exact (Table.wf_cons d k w _).mpr ⟨hw, fun e he => hlt e (List.mem_filter.mp he).1, ih hr⟩
    · exact ih hr

/-! ## Byte memories -/

theorem Memory.wf_nil : Memory.wf [] = true := rfl

theorem Memory.wf_writeByte (m : Mem) (a : Nat) (b : Byte) (h : Memory.wf m = true) : Memory.wf (writeByte m a b) = true :=
  Table.wf_put 0 m a b h

theorem Memory.wf_writeLE (m : Mem) (a n v : Nat) (h : Memory.wf m = true) : Memory.wf (writeLE m a n v) = true := by
  induction n generalizing m a v with
  | zero => exact h
  | succ n ih => exact ih _ _ _ (Memory.wf_writeByte m a _ h)

theorem Memory.wf_writeList (m : Mem) (a : Nat) (bs : List Byte) (h : Memory.wf m = true) : Memory.wf (writeList m a bs) = true := by
  induction bs generalizing m a with
  | nil => exact h
  | cons b bs ih => exact ih _ _ (Memory.wf_writeByte m a b h)

theorem Memory.wf_clearRange (m : Mem) (lo hi : Nat) (h : Memory.wf m = true) : Memory.wf (clearRange m lo hi) = true :=
  Table.wf_filter 0 m _ h

theorem readByte_writeByte (m : Mem) (a : Nat) (b : Byte) (h : Memory.wf m = true) : readByte (writeByte m a b) a = b :=
  Table.get_put_self 0 m a b h

theorem readByte_writeByte_ne (m : Mem) (a c : Nat) (b : Byte) (h : Memory.wf m = true) (hc : c ≠ a) :
    readByte (writeByte m a b) c = readByte m c :=
  Table.get_put_ne 0 m a c b h hc

theorem readByte_writeLE_ne (m : Mem) (a n v c : Nat) (h : Memory.wf m = true) (hc : c < a ∨ a + n ≤ c) :
    readByte (writeLE m a n v) c = readByte m c := by
  induction n generalizing m a v with
  | zero => rfl
  | succ n ih =>
    rw [show writeLE m a (n + 1) v = writeLE (writeByte m a (BitVec.ofNat 8 v)) (a + 1) n (v / 2 ^ 8) from rfl,
      ih _ _ _ (Memory.wf_writeByte m a _ h) (by omega), readByte_writeByte_ne m a c _ h (by omega)]

theorem readByte_writeList_ne (m : Mem) (a c : Nat) (bs : List Byte) (h : Memory.wf m = true) (hc : c < a ∨ a + bs.length ≤ c) :
    readByte (writeList m a bs) c = readByte m c := by
  induction bs generalizing m a with
  | nil => rfl
  | cons b bs ih =>
    simp only [List.length_cons] at hc
    rw [show writeList m a (b :: bs) = writeList (writeByte m a b) (a + 1) bs from rfl,
      ih _ _ (Memory.wf_writeByte m a b h) (by omega), readByte_writeByte_ne m a c b h (by omega)]

theorem readLE_writeLE (m : Mem) (a n v : Nat) (h : Memory.wf m = true) : readLE (writeLE m a n v) a n = v % 2 ^ (8 * n) := by
  induction n generalizing m a v with
  | zero => simp [readLE, Nat.mod_one]
  | succ n ih =>
    rw [show writeLE m a (n + 1) v = writeLE (writeByte m a (BitVec.ofNat 8 v)) (a + 1) n (v / 2 ^ 8) from rfl]
    unfold readLE
    rw [ih _ _ _ (Memory.wf_writeByte m a _ h), readByte_writeLE_ne _ _ _ _ _ (Memory.wf_writeByte m a _ h) (by omega),
      readByte_writeByte m a _ h, BitVec.toNat_ofNat, Nat.mul_add, Nat.pow_add, Nat.mul_comm (2 ^ (8 * n)) (2 ^ (8 * 1)), Nat.mod_mul]

end Sys2Proof.Machine
end

