-- ==== Sys2Proof/Laws/State.lean ====
section
/-! SUPPORT. What each field of the state reads after each named update. -/

namespace Sys2Proof.Machine

@[simp] theorem State.setSt_schedule (s : State) (t : Stream) : (s.setSt t).schedule = s.schedule := rfl
@[simp] theorem State.setSt_turn (s : State) (t : Stream) : (s.setSt t).turn = s.turn := rfl
@[simp] theorem State.setSt_cur (s : State) (t : Stream) : (s.setSt t).cur = s.cur := rfl
@[simp] theorem State.setSt_free (s : State) (t : Stream) : (s.setSt t).free = s.free := rfl
@[simp] theorem State.setSt_res (s : State) (t : Stream) : (s.setSt t).res = s.res := rfl
@[simp] theorem State.setSt_core (s : State) (t : Stream) : (s.setSt t).core = s.core := rfl
@[simp] theorem State.setSt_quad (s : State) (t : Stream) : (s.setSt t).quad = s.quad := rfl
@[simp] theorem State.setSt_vault (s : State) (t : Stream) : (s.setSt t).vault = s.vault := rfl
@[simp] theorem State.setSt_net (s : State) (t : Stream) : (s.setSt t).net = s.net := rfl
@[simp] theorem State.setSt_mgr (s : State) (t : Stream) : (s.setSt t).mgr = s.mgr := rfl
@[simp] theorem State.setSt_power (s : State) (t : Stream) : (s.setSt t).power = s.power := rfl
@[simp] theorem State.setSt_link (s : State) (t : Stream) : (s.setSt t).link = s.link := rfl
@[simp] theorem State.setSt_host (s : State) (t : Stream) : (s.setSt t).host = s.host := rfl
@[simp] theorem State.setSt_resil (s : State) (t : Stream) : (s.setSt t).resil = s.resil := rfl
@[simp] theorem State.setSt_streams (s : State) (t : Stream) : (s.setSt t).streams = vset s.streams s.cur t := rfl

@[simp] theorem State.setRes_schedule (s : State) (r : ResIx) (x : Residency) : (s.setRes r x).schedule = s.schedule := rfl
@[simp] theorem State.setRes_turn (s : State) (r : ResIx) (x : Residency) : (s.setRes r x).turn = s.turn := rfl
@[simp] theorem State.setRes_cur (s : State) (r : ResIx) (x : Residency) : (s.setRes r x).cur = s.cur := rfl
@[simp] theorem State.setRes_free (s : State) (r : ResIx) (x : Residency) : (s.setRes r x).free = s.free := rfl
@[simp] theorem State.setRes_streams (s : State) (r : ResIx) (x : Residency) : (s.setRes r x).streams = s.streams := rfl
@[simp] theorem State.setRes_core (s : State) (r : ResIx) (x : Residency) : (s.setRes r x).core = s.core := rfl
@[simp] theorem State.setRes_quad (s : State) (r : ResIx) (x : Residency) : (s.setRes r x).quad = s.quad := rfl
@[simp] theorem State.setRes_vault (s : State) (r : ResIx) (x : Residency) : (s.setRes r x).vault = s.vault := rfl
@[simp] theorem State.setRes_net (s : State) (r : ResIx) (x : Residency) : (s.setRes r x).net = s.net := rfl
@[simp] theorem State.setRes_mgr (s : State) (r : ResIx) (x : Residency) : (s.setRes r x).mgr = s.mgr := rfl
@[simp] theorem State.setRes_power (s : State) (r : ResIx) (x : Residency) : (s.setRes r x).power = s.power := rfl
@[simp] theorem State.setRes_link (s : State) (r : ResIx) (x : Residency) : (s.setRes r x).link = s.link := rfl
@[simp] theorem State.setRes_host (s : State) (r : ResIx) (x : Residency) : (s.setRes r x).host = s.host := rfl
@[simp] theorem State.setRes_resil (s : State) (r : ResIx) (x : Residency) : (s.setRes r x).resil = s.resil := rfl
@[simp] theorem State.setRes_res (s : State) (r : ResIx) (x : Residency) : (s.setRes r x).res = vset s.res r x := rfl

@[simp] theorem State.setRs_schedule (s : State) (x : Residency) : (s.setRs x).schedule = s.schedule := rfl
@[simp] theorem State.setRs_turn (s : State) (x : Residency) : (s.setRs x).turn = s.turn := rfl
@[simp] theorem State.setRs_cur (s : State) (x : Residency) : (s.setRs x).cur = s.cur := rfl
@[simp] theorem State.setRs_free (s : State) (x : Residency) : (s.setRs x).free = s.free := rfl
@[simp] theorem State.setRs_streams (s : State) (x : Residency) : (s.setRs x).streams = s.streams := rfl
@[simp] theorem State.setRs_core (s : State) (x : Residency) : (s.setRs x).core = s.core := rfl
@[simp] theorem State.setRs_quad (s : State) (x : Residency) : (s.setRs x).quad = s.quad := rfl
@[simp] theorem State.setRs_vault (s : State) (x : Residency) : (s.setRs x).vault = s.vault := rfl
@[simp] theorem State.setRs_net (s : State) (x : Residency) : (s.setRs x).net = s.net := rfl
@[simp] theorem State.setRs_mgr (s : State) (x : Residency) : (s.setRs x).mgr = s.mgr := rfl
@[simp] theorem State.setRs_power (s : State) (x : Residency) : (s.setRs x).power = s.power := rfl
@[simp] theorem State.setRs_link (s : State) (x : Residency) : (s.setRs x).link = s.link := rfl
@[simp] theorem State.setRs_host (s : State) (x : Residency) : (s.setRs x).host = s.host := rfl
@[simp] theorem State.setRs_resil (s : State) (x : Residency) : (s.setRs x).resil = s.resil := rfl
@[simp] theorem State.setRs_res (s : State) (x : Residency) : (s.setRs x).res = vset s.res s.ri x := rfl

@[simp] theorem State.setTask_schedule (s : State) (k : Task) : (s.setTask k).schedule = s.schedule := rfl
@[simp] theorem State.setTask_turn (s : State) (k : Task) : (s.setTask k).turn = s.turn := rfl
@[simp] theorem State.setTask_cur (s : State) (k : Task) : (s.setTask k).cur = s.cur := rfl
@[simp] theorem State.setTask_free (s : State) (k : Task) : (s.setTask k).free = s.free := rfl
@[simp] theorem State.setTask_streams (s : State) (k : Task) : (s.setTask k).streams = s.streams := rfl
@[simp] theorem State.setTask_core (s : State) (k : Task) : (s.setTask k).core = s.core := rfl
@[simp] theorem State.setTask_quad (s : State) (k : Task) : (s.setTask k).quad = s.quad := rfl
@[simp] theorem State.setTask_vault (s : State) (k : Task) : (s.setTask k).vault = s.vault := rfl
@[simp] theorem State.setTask_net (s : State) (k : Task) : (s.setTask k).net = s.net := rfl
@[simp] theorem State.setTask_mgr (s : State) (k : Task) : (s.setTask k).mgr = s.mgr := rfl
@[simp] theorem State.setTask_power (s : State) (k : Task) : (s.setTask k).power = s.power := rfl
@[simp] theorem State.setTask_link (s : State) (k : Task) : (s.setTask k).link = s.link := rfl
@[simp] theorem State.setTask_host (s : State) (k : Task) : (s.setTask k).host = s.host := rfl
@[simp] theorem State.setTask_resil (s : State) (k : Task) : (s.setTask k).resil = s.resil := rfl

@[simp] theorem State.nextFree_schedule (s : State) : (s.nextFree).schedule = s.schedule := rfl
@[simp] theorem State.nextFree_turn (s : State) : (s.nextFree).turn = s.turn := rfl
@[simp] theorem State.nextFree_cur (s : State) : (s.nextFree).cur = s.cur := rfl
@[simp] theorem State.nextFree_streams (s : State) : (s.nextFree).streams = s.streams := rfl
@[simp] theorem State.nextFree_res (s : State) : (s.nextFree).res = s.res := rfl
@[simp] theorem State.nextFree_core (s : State) : (s.nextFree).core = s.core := rfl
@[simp] theorem State.nextFree_quad (s : State) : (s.nextFree).quad = s.quad := rfl
@[simp] theorem State.nextFree_vault (s : State) : (s.nextFree).vault = s.vault := rfl
@[simp] theorem State.nextFree_net (s : State) : (s.nextFree).net = s.net := rfl
@[simp] theorem State.nextFree_mgr (s : State) : (s.nextFree).mgr = s.mgr := rfl
@[simp] theorem State.nextFree_power (s : State) : (s.nextFree).power = s.power := rfl
@[simp] theorem State.nextFree_link (s : State) : (s.nextFree).link = s.link := rfl
@[simp] theorem State.nextFree_host (s : State) : (s.nextFree).host = s.host := rfl
@[simp] theorem State.nextFree_resil (s : State) : (s.nextFree).resil = s.resil := rfl
@[simp] theorem State.nextFree_free (s : State) : (s.nextFree).free = s.free + 1 := rfl

@[simp] theorem State.bump_schedule (s : State) : (s.bump).schedule = s.schedule := rfl
@[simp] theorem State.bump_turn (s : State) : (s.bump).turn = s.turn := rfl
@[simp] theorem State.bump_cur (s : State) : (s.bump).cur = s.cur := rfl
@[simp] theorem State.bump_free (s : State) : (s.bump).free = s.free := rfl
@[simp] theorem State.bump_streams (s : State) : (s.bump).streams = s.streams := rfl
@[simp] theorem State.bump_res (s : State) : (s.bump).res = s.res := rfl
@[simp] theorem State.bump_quad (s : State) : (s.bump).quad = s.quad := rfl
@[simp] theorem State.bump_vault (s : State) : (s.bump).vault = s.vault := rfl
@[simp] theorem State.bump_net (s : State) : (s.bump).net = s.net := rfl
@[simp] theorem State.bump_mgr (s : State) : (s.bump).mgr = s.mgr := rfl
@[simp] theorem State.bump_power (s : State) : (s.bump).power = s.power := rfl
@[simp] theorem State.bump_link (s : State) : (s.bump).link = s.link := rfl
@[simp] theorem State.bump_host (s : State) : (s.bump).host = s.host := rfl
@[simp] theorem State.bump_resil (s : State) : (s.bump).resil = s.resil := rfl

@[simp] theorem leaveQueue_schedule (who : Claimant) (s : State) : (leaveQueue who s).schedule = s.schedule := rfl
@[simp] theorem leaveQueue_turn (who : Claimant) (s : State) : (leaveQueue who s).turn = s.turn := rfl
@[simp] theorem leaveQueue_cur (who : Claimant) (s : State) : (leaveQueue who s).cur = s.cur := rfl
@[simp] theorem leaveQueue_free (who : Claimant) (s : State) : (leaveQueue who s).free = s.free := rfl
@[simp] theorem leaveQueue_streams (who : Claimant) (s : State) : (leaveQueue who s).streams = s.streams := rfl
@[simp] theorem leaveQueue_res (who : Claimant) (s : State) : (leaveQueue who s).res = s.res := rfl
@[simp] theorem leaveQueue_core (who : Claimant) (s : State) : (leaveQueue who s).core = s.core := rfl
@[simp] theorem leaveQueue_quad (who : Claimant) (s : State) : (leaveQueue who s).quad = s.quad := rfl
@[simp] theorem leaveQueue_net (who : Claimant) (s : State) : (leaveQueue who s).net = s.net := rfl
@[simp] theorem leaveQueue_mgr (who : Claimant) (s : State) : (leaveQueue who s).mgr = s.mgr := rfl
@[simp] theorem leaveQueue_power (who : Claimant) (s : State) : (leaveQueue who s).power = s.power := rfl
@[simp] theorem leaveQueue_link (who : Claimant) (s : State) : (leaveQueue who s).link = s.link := rfl
@[simp] theorem leaveQueue_host (who : Claimant) (s : State) : (leaveQueue who s).host = s.host := rfl
@[simp] theorem leaveQueue_resil (who : Claimant) (s : State) : (leaveQueue who s).resil = s.resil := rfl
@[simp] theorem leaveQueue_mem (who : Claimant) (s : State) : (leaveQueue who s).vault.mem = s.vault.mem := rfl
@[simp] theorem leaveQueue_banks (who : Claimant) (s : State) : (leaveQueue who s).vault.banks = s.vault.banks := rfl

@[simp] theorem setBank_schedule (b : BankIx) (x : Bank) (s : State) : (setBank b x s).schedule = s.schedule := rfl
@[simp] theorem setBank_turn (b : BankIx) (x : Bank) (s : State) : (setBank b x s).turn = s.turn := rfl
@[simp] theorem setBank_cur (b : BankIx) (x : Bank) (s : State) : (setBank b x s).cur = s.cur := rfl
@[simp] theorem setBank_free (b : BankIx) (x : Bank) (s : State) : (setBank b x s).free = s.free := rfl
@[simp] theorem setBank_streams (b : BankIx) (x : Bank) (s : State) : (setBank b x s).streams = s.streams := rfl
@[simp] theorem setBank_res (b : BankIx) (x : Bank) (s : State) : (setBank b x s).res = s.res := rfl
@[simp] theorem setBank_core (b : BankIx) (x : Bank) (s : State) : (setBank b x s).core = s.core := rfl
@[simp] theorem setBank_quad (b : BankIx) (x : Bank) (s : State) : (setBank b x s).quad = s.quad := rfl
@[simp] theorem setBank_net (b : BankIx) (x : Bank) (s : State) : (setBank b x s).net = s.net := rfl
@[simp] theorem setBank_mgr (b : BankIx) (x : Bank) (s : State) : (setBank b x s).mgr = s.mgr := rfl
@[simp] theorem setBank_power (b : BankIx) (x : Bank) (s : State) : (setBank b x s).power = s.power := rfl
@[simp] theorem setBank_link (b : BankIx) (x : Bank) (s : State) : (setBank b x s).link = s.link := rfl
@[simp] theorem setBank_host (b : BankIx) (x : Bank) (s : State) : (setBank b x s).host = s.host := rfl
@[simp] theorem setBank_resil (b : BankIx) (x : Bank) (s : State) : (setBank b x s).resil = s.resil := rfl
@[simp] theorem setBank_mem (b : BankIx) (x : Bank) (s : State) : (setBank b x s).vault.mem = s.vault.mem := rfl

@[simp] theorem vset_get {α : Type} {n : Nat} (v : Vector α n) (i : Fin n) (a : α) : (vset v i a)[i.val] = a := by simp [vset]

@[simp] theorem vset_get_ne {α : Type} {n : Nat} (v : Vector α n) (i j : Fin n) (a : α) (h : i ≠ j) : (vset v i a)[j.val] = v[j.val] := by
  have h' : i.val ≠ j.val := fun e => h (Fin.ext e)
  simp only [vset]
  exact Vector.getElem_set_ne _ _ h'

@[simp] theorem State.setSt_st (s : State) (t : Stream) : (s.setSt t).st = t := vset_get _ _ _

@[simp] theorem State.setRes_st (s : State) (r : ResIx) (x : Residency) : (s.setRes r x).st = s.st := rfl

@[simp] theorem State.setTask_st (s : State) (k : Task) : (s.setTask k).st = s.st := rfl

@[simp] theorem Stream.getX_zero (t : Stream) : t.getX 0 = 0 := by simp [Stream.getX]

@[simp] theorem Stream.putX_zero (t : Stream) (v : Word) : t.putX 0 v = t := by simp [Stream.putX]

theorem Stream.getX_putX (t : Stream) (r : Reg) (v : Word) (h : r ≠ 0) : (t.putX r v).getX r = v := by
  unfold Stream.getX Stream.putX
  rw [if_neg h, if_neg h]
  exact vset_get _ _ _

theorem Stream.getX_putX_ne (t : Stream) (r q : Reg) (v : Word) (h : r ≠ q) : (t.putX r v).getX q = t.getX q := by
  have h' : regIx r ≠ regIx q := fun e => h (BitVec.eq_of_toNat_eq (congrArg Fin.val e))
  unfold Stream.getX Stream.putX
  by_cases hr : r = 0
  · rw [if_pos hr]
  · rw [if_neg hr]
    split
    · rfl
    · exact vset_get_ne _ _ _ _ h'

@[simp] theorem Stream.getM_zero (t : Stream) : t.getM 0 = 0xFFFF := by simp [Stream.getM]

@[simp] theorem Stream.putM_zero (t : Stream) (v : BitVec 16) : t.putM 0 v = t := by simp [Stream.putM]

theorem Stream.getM_putM (t : Stream) (i : Fin 8) (v : BitVec 16) (h : i ≠ 0) : (t.putM i v).getM i = v := by
  unfold Stream.getM Stream.putM
  rw [if_neg h, if_neg h]
  exact vset_get _ _ _

@[simp] theorem Stream.putX_active (t : Stream) (r : Reg) (v : Word) : (t.putX r v).active = t.active := by
  unfold Stream.putX; split <;> rfl
@[simp] theorem Stream.putX_res (t : Stream) (r : Reg) (v : Word) : (t.putX r v).res = t.res := by
  unfold Stream.putX; split <;> rfl
@[simp] theorem Stream.putX_kind (t : Stream) (r : Reg) (v : Word) : (t.putX r v).kind = t.kind := by
  unfold Stream.putX; split <;> rfl
@[simp] theorem Stream.putX_pc (t : Stream) (r : Reg) (v : Word) : (t.putX r v).pc = t.pc := by
  unfold Stream.putX; split <;> rfl
@[simp] theorem Stream.putX_v (t : Stream) (r : Reg) (v : Word) : (t.putX r v).v = t.v := by
  unfold Stream.putX; split <;> rfl
@[simp] theorem Stream.putX_m (t : Stream) (r : Reg) (v : Word) : (t.putX r v).m = t.m := by
  unfold Stream.putX; split <;> rfl
@[simp] theorem Stream.putX_ox (t : Stream) (r : Reg) (v : Word) : (t.putX r v).ox = t.ox := by
  unfold Stream.putX; split <;> rfl
@[simp] theorem Stream.putX_qm (t : Stream) (r : Reg) (v : Word) : (t.putX r v).qm = t.qm := by
  unfold Stream.putX; split <;> rfl
@[simp] theorem Stream.putX_fmode (t : Stream) (r : Reg) (v : Word) : (t.putX r v).fmode = t.fmode := by
  unfold Stream.putX; split <;> rfl
@[simp] theorem Stream.putX_fflags (t : Stream) (r : Reg) (v : Word) : (t.putX r v).fflags = t.fflags := by
  unfold Stream.putX; split <;> rfl
@[simp] theorem Stream.putX_tlevel (t : Stream) (r : Reg) (v : Word) : (t.putX r v).tlevel = t.tlevel := by
  unfold Stream.putX; split <;> rfl
@[simp] theorem Stream.putX_tvec (t : Stream) (r : Reg) (v : Word) : (t.putX r v).tvec = t.tvec := by
  unfold Stream.putX; split <;> rfl
@[simp] theorem Stream.putX_tsave (t : Stream) (r : Reg) (v : Word) : (t.putX r v).tsave = t.tsave := by
  unfold Stream.putX; split <;> rfl
@[simp] theorem Stream.putX_tsavelen (t : Stream) (r : Reg) (v : Word) : (t.putX r v).tsavelen = t.tsavelen := by
  unfold Stream.putX; split <;> rfl
@[simp] theorem Stream.putX_traps (t : Stream) (r : Reg) (v : Word) : (t.putX r v).traps = t.traps := by
  unfold Stream.putX; split <;> rfl
@[simp] theorem Stream.putX_xbank (t : Stream) (r : Reg) (v : Word) : (t.putX r v).xbank = t.xbank := by
  unfold Stream.putX; split <;> rfl
@[simp] theorem Stream.putX_loops (t : Stream) (r : Reg) (v : Word) : (t.putX r v).loops = t.loops := by
  unfold Stream.putX; split <;> rfl
@[simp] theorem Stream.putX_loopBank (t : Stream) (r : Reg) (v : Word) : (t.putX r v).loopBank = t.loopBank := by
  unfold Stream.putX; split <;> rfl
@[simp] theorem Stream.putX_tileBad (t : Stream) (r : Reg) (v : Word) : (t.putX r v).tileBad = t.tileBad := by
  unfold Stream.putX; split <;> rfl
@[simp] theorem Stream.putX_wait (t : Stream) (r : Reg) (v : Word) : (t.putX r v).wait = t.wait := by
  unfold Stream.putX; split <;> rfl
@[simp] theorem Stream.putX_stalled (t : Stream) (r : Reg) (v : Word) : (t.putX r v).stalled = t.stalled := by
  unfold Stream.putX; split <;> rfl

end Sys2Proof.Machine
end

