-- ==== Sys2Proof/Laws/Ops.lean ====
section
/-! SUPPORT. One lemma per shared operation that says everything it can do: what an operand read can give, how an instruction can end, and what
keeps the memories canonical. Proofs about an instruction cite these and do not unfold the operation. -/

namespace Sys2Proof.Machine

/-! ## Reading operands (R19 to R22) -/

/-- Everything that reading a scalar operand can give: no load into it is in flight, and it is the register, or the oldest entry of a queue that
has one, which is popped. -/
theorem popX_cases {r : Reg} {s t : State} {x : Word} (h : popX r s = some (x, t)) :
    s.inFlight r = false ∧ ((s.xQueue r = none ∧ x = s.st.getX r ∧ t = s)
      ∨ ∃ q k rest, s.xQueue r = some q ∧ s.task = some k ∧ k.sq[q] = x :: rest ∧ t = s.setTask { k with sq := vset k.sq q rest }) := by
  unfold popX at h
  split at h
  · cases h
  · rename_i hf
    refine ⟨by simpa using hf, ?_⟩
    split at h
    · rename_i hq
      simp only [Option.some.injEq, Prod.mk.injEq] at h
      exact .inl ⟨hq, h.1.symm, h.2.symm⟩
    · rename_i q hq
      split at h
      · cases h
      · rename_i k hk
        split at h
        · cases h
        · rename_i v rest hs
          simp only [Option.some.injEq, Prod.mk.injEq] at h
          obtain ⟨rfl, rfl⟩ := h
          exact .inr ⟨q, k, rest, hq, hk, hs, rfl⟩

/-- Everything that reading a vector operand can give. -/
theorem popV_cases {r : Reg} {s t : State} {x : VWord} (h : popV r s = some (x, t)) :
    (s.vQueue r = none ∧ x = s.st.v[regIx r] ∧ t = s)
      ∨ ∃ q k rest, s.vQueue r = some q ∧ s.task = some k ∧ k.vq[q] = x :: rest ∧ t = s.setTask { k with vq := vset k.vq q rest } := by
  unfold popV at h
  split at h
  · rename_i hq
    simp only [Option.some.injEq, Prod.mk.injEq] at h
    exact .inl ⟨hq, h.1.symm, h.2.symm⟩
  · rename_i q hq
    split at h
    · cases h
    · rename_i k hk
      split at h
      · cases h
      · rename_i v rest hs
        simp only [Option.some.injEq, Prod.mk.injEq] at h
        obtain ⟨rfl, rfl⟩ := h
        exact .inr ⟨q, k, rest, hq, hk, hs, rfl⟩

/-- Reading a scalar operand leaves the stream itself as it was. -/
theorem popX_st {r : Reg} {s t : State} {x : Word} (h : popX r s = some (x, t)) : t.st = s.st ∧ t.cur = s.cur := by
  obtain ⟨-, ⟨-, -, rfl⟩ | ⟨q, k, rest, -, -, -, rfl⟩⟩ := popX_cases h <;> exact ⟨rfl, rfl⟩

/-- Reading a vector operand leaves the stream itself as it was. -/
theorem popV_st {r : Reg} {s t : State} {x : VWord} (h : popV r s = some (x, t)) : t.st = s.st ∧ t.cur = s.cur := by
  obtain ⟨-, -, rfl⟩ | ⟨q, k, rest, -, -, -, rfl⟩ := popV_cases h <;> exact ⟨rfl, rfl⟩

/-- Reading a scalar operand leaves the core, its quad, the vaults and the rest of the device as they were. -/
theorem popX_device {r : Reg} {s t : State} {x : Word} (h : popX r s = some (x, t)) :
    t.core = s.core ∧ t.quad = s.quad ∧ t.vault = s.vault ∧ t.net = s.net ∧ t.mgr = s.mgr ∧ t.streams = s.streams := by
  obtain ⟨-, ⟨-, -, rfl⟩ | ⟨q, k, rest, -, -, -, rfl⟩⟩ := popX_cases h <;> exact ⟨rfl, rfl, rfl, rfl, rfl, rfl⟩

/-- Reading a vector operand leaves them as they were. -/
theorem popV_device {r : Reg} {s t : State} {x : VWord} (h : popV r s = some (x, t)) :
    t.core = s.core ∧ t.quad = s.quad ∧ t.vault = s.vault ∧ t.net = s.net ∧ t.mgr = s.mgr ∧ t.streams = s.streams := by
  obtain ⟨-, -, rfl⟩ | ⟨q, k, rest, -, -, -, rfl⟩ := popV_cases h <;> exact ⟨rfl, rfl, rfl, rfl, rfl, rfl⟩

/-- What an operand form answers: a stall, or what the rest of the instruction answers for a value it read. -/
theorem withX_cases {P : Res → Prop} {r : Reg} {s0 s : State} {k : Word → State → Res} (h1 : P (stall s0))
    (h2 : ∀ x t, popX r s = some (x, t) → P (k x t)) : P (withX r s0 s k) := by
  unfold withX
  split
  · exact h1
  · rename_i x t e; exact h2 x t e

theorem withV_cases {P : Res → Prop} {r : Reg} {s0 s : State} {k : VWord → State → Res} (h1 : P (stall s0))
    (h2 : ∀ x t, popV r s = some (x, t) → P (k x t)) : P (withV r s0 s k) := by
  unfold withV
  split
  · exact h1
  · rename_i x t e; exact h2 x t e

theorem withRoomX_cases {P : Res → Prop} {r : Reg} {s0 s : State} {k : Res} (h1 : P (stall s0)) (h2 : roomX r s = true → P k) :
    P (withRoomX r s0 s k) := by
  unfold withRoomX
  split
  · exact h2 ‹_›
  · exact h1

theorem withRoomV_cases {P : Res → Prop} {r : Reg} {s0 s : State} {k : Res} (h1 : P (stall s0)) (h2 : roomV r s = true → P k) :
    P (withRoomV r s0 s k) := by
  unfold withRoomV
  split
  · exact h2 ‹_›
  · exact h1

/-! ## Writing destinations -/

/-- Everything that writing a scalar destination can do. -/
theorem writeX_cases (r : Reg) (v : Word) (s : State) : (s.xQueue r = none ∧ writeX r v s = s.setSt (s.st.putX r v))
    ∨ (∃ q, s.xQueue r = some q ∧ ((s.task = none ∧ writeX r v s = s)
      ∨ ∃ k, s.task = some k ∧ writeX r v s = s.setTask { k with sq := vset k.sq q (k.sq[q] ++ [v]) })) := by
  unfold writeX
  cases hq : s.xQueue r with
  | none => exact .inl ⟨rfl, rfl⟩
  | some q =>
    refine .inr ⟨q, rfl, ?_⟩
    cases hk : s.task with
    | none => exact .inl ⟨rfl, rfl⟩
    | some k => exact .inr ⟨k, rfl, rfl⟩

/-- Everything that writing a vector destination can do. -/
theorem writeV_cases (r : Reg) (v : VWord) (s : State) :
    (s.vQueue r = none ∧ writeV r v s = s.setSt { s.st with v := vset s.st.v (regIx r) v })
    ∨ (∃ q, s.vQueue r = some q ∧ ((s.task = none ∧ writeV r v s = s)
      ∨ ∃ k, s.task = some k ∧ writeV r v s = s.setTask { k with vq := vset k.vq q (k.vq[q] ++ [v]) })) := by
  unfold writeV
  cases hq : s.vQueue r with
  | none => exact .inl ⟨rfl, rfl⟩
  | some q =>
    refine .inr ⟨q, rfl, ?_⟩
    cases hk : s.task with
    | none => exact .inl ⟨rfl, rfl⟩
    | some k => exact .inr ⟨k, rfl, rfl⟩

/-- Writing a scalar destination leaves the program counter, the loops, the core, the quad and the vaults as they were. -/
theorem writeX_frame (r : Reg) (v : Word) (s : State) :
    (writeX r v s).st.pc = s.st.pc ∧ (writeX r v s).st.loops = s.st.loops ∧ (writeX r v s).cur = s.cur ∧ (writeX r v s).core = s.core
      ∧ (writeX r v s).quad = s.quad ∧ (writeX r v s).vault = s.vault := by
  obtain ⟨-, e⟩ | ⟨q, -, ⟨-, e⟩ | ⟨k, -, e⟩⟩ := writeX_cases r v s
  · rw [e]
    refine ⟨?_, ?_, rfl, rfl, rfl, rfl⟩ <;> (unfold Stream.putX; split <;> simp)
  · rw [e]; exact ⟨rfl, rfl, rfl, rfl, rfl, rfl⟩
  · rw [e]; exact ⟨rfl, rfl, rfl, rfl, rfl, rfl⟩

theorem writeV_frame (r : Reg) (v : VWord) (s : State) :
    (writeV r v s).st.pc = s.st.pc ∧ (writeV r v s).st.loops = s.st.loops ∧ (writeV r v s).cur = s.cur ∧ (writeV r v s).core = s.core
      ∧ (writeV r v s).quad = s.quad ∧ (writeV r v s).vault = s.vault := by
  obtain ⟨-, e⟩ | ⟨q, -, ⟨-, e⟩ | ⟨k, -, e⟩⟩ := writeV_cases r v s
  · rw [e]
    refine ⟨?_, ?_, rfl, rfl, rfl, rfl⟩ <;> simp
  · rw [e]; exact ⟨rfl, rfl, rfl, rfl, rfl, rfl⟩
  · rw [e]; exact ⟨rfl, rfl, rfl, rfl, rfl, rfl⟩

/-! ## How an instruction ends (R72, R103 to R106, R301) -/

/-- A stall answers the state with the slot marked. -/
theorem stall_eq (s : State) : stall s = .next (s.setSt { s.st with stalled := true }) := rfl

/-- A trap is kept while slice work of the stream is in progress, and entered otherwise. -/
theorem raise_cases {P : Res → Prop} {cause : Nat} {epc info : Word} {s : State}
    (h1 : s.sliceBusy = true → P (.next (s.setSt { s.st with due := some (cause, epc, info), stalled := false })))
    (h2 : s.sliceBusy = false → P (.next (takeTrap cause epc info s))) : P (raise cause epc info s) := by
  unfold raise
  cases hb : s.sliceBusy with
  | true => exact h1 hb
  | false => exact h2 hb

theorem trap_cases {P : Res → Prop} {cause : Nat} {info : Word} {s : State}
    (h1 : s.sliceBusy = true → P (.next (s.setSt { s.st with due := some (cause, s.st.pc, info), stalled := false })))
    (h2 : s.sliceBusy = false → P (.next (takeTrap cause s.st.pc info s))) : P (trap cause info s) := raise_cases h1 h2

/-- An instruction that completes goes on behind itself, or raises the trap of a straddled loop end. -/
theorem retire_cases {P : Res → Prop} {i : Instr} {s : State}
    (h : ∀ ls pc, fallThrough s.st.pc i.len s.st.loops = (ls, pc, false) →
      P (.next (s.setSt { s.st with pc := pc, loops := ls, wait := 0, stalled := false })))
    (h' : ∀ ls pc, fallThrough s.st.pc i.len s.st.loops = (ls, pc, true) →
      P (raise 0x01 pc (BitVec.ofNat 64 (encode i)) (s.setSt { s.st with pc := pc, loops := ls, wait := 0, stalled := false }))) :
    P (retire i s) := by
  unfold retire
  rcases e : fallThrough s.st.pc i.len s.st.loops with ⟨ls, pc, b⟩
  cases b
  · simpa only [e] using h ls pc e
  · simpa only [e] using h' ls pc e

/-- Outside loops an instruction goes on behind itself. -/
theorem retire_noLoops {i : Instr} {s : State} (h : s.st.loops = []) :
    retire i s = .next (s.setSt { s.st with pc := s.st.pc + BitVec.ofNat 64 i.len, loops := [], wait := 0, stalled := false }) := by
  unfold retire
  simp [h, fallThrough]

theorem stall_goesOn (s : State) : goesOn (stall s) := ⟨_, rfl⟩

theorem raise_goesOn (cause : Nat) (epc info : Word) (s : State) : goesOn (raise cause epc info s) :=
  raise_cases (fun _ => ⟨_, rfl⟩) (fun _ => ⟨_, rfl⟩)

theorem trap_goesOn (cause : Nat) (info : Word) (s : State) : goesOn (trap cause info s) := raise_goesOn _ _ _ _

theorem retire_goesOn (i : Instr) (s : State) : goesOn (retire i s) := retire_cases (fun _ _ _ => ⟨_, rfl⟩) (fun _ _ _ => raise_goesOn _ _ _ _)

theorem jumpTo_goesOn (t : Word) (s : State) : goesOn (jumpTo t s) := ⟨_, rfl⟩

theorem finishX_goesOn (i : Instr) (r : Reg) (v : Word) (s : State) : goesOn (finishX i r v s) := retire_goesOn _ _

theorem finishV_goesOn (i : Instr) (r : Reg) (v : VWord) (s : State) : goesOn (finishV i r v s) := retire_goesOn _ _

theorem binary_goesOn (i : Instr) (a b c : Reg) (f : Word → Word → Word) (s : State) : goesOn (binary i a b c f s) :=
  withX_cases (stall_goesOn _) fun _ _ _ => withX_cases (stall_goesOn _) fun _ _ _ => withRoomX_cases (stall_goesOn _) fun _ => finishX_goesOn _ _ _ _

theorem unary_goesOn (i : Instr) (a b : Reg) (f : Word → Word) (s : State) : goesOn (unary i a b f s) :=
  withX_cases (stall_goesOn _) fun _ _ _ => withRoomX_cases (stall_goesOn _) fun _ => finishX_goesOn _ _ _ _

/-! ## Local accesses (R120) -/

/-- Everything that the checks of a local access can answer. -/
theorem localAccess_cases {P : Res → Prop} {s0 s : State} {read write : Bool} {offs : List Int} {k : State → Res} (h1 : P (stall s0))
    (h2 : ∀ info, rlockInfo s.core.locks write s.coreInQuad.toNat s.rs.spbase.toNat (inOffsets s.rs.spsize.toNat offs) = some info →
      P (trap 0x15 info s0))
    (h3 : ∀ g info, localRace s write (inOffsets s.rs.spsize.toNat offs) = some g → P (trap 0x14 info (s0.setRs { s0.rs with raceinfo := info })))
    (h4 : ∀ o, read = true → badByte s.core.spadBad s.rs.spbase.toNat (inOffsets s.rs.spsize.toNat offs) = some o →
      P (trap 0x1D (BitVec.ofNat 64 (0x10000 + o)) s0))
    (h5 : fenceHolds s = false → P (k (recordLocal write (inOffsets s.rs.spsize.toNat offs) (commitFlag write false 0 (outOffsets s.rs.spsize.toNat offs) s)))) :
    P (localAccess s0 read write offs s k) := by
  unfold localAccess
  split
  · exact h1
  · rename_i hf
    dsimp only
    split
    · rename_i info e; exact h2 info e
    · split
      · rename_i g e; exact h3 g _ e
      · split
        · rename_i o e
          cases read
          · cases e
          · exact h4 o rfl e
        · exact h5 (by simpa using hf)

theorem localAccess_goesOn {s0 s : State} {read write : Bool} {offs : List Int} {k : State → Res} (h : ∀ t, goesOn (k t)) :
    goesOn (localAccess s0 read write offs s k) :=
  localAccess_cases (stall_goesOn _) (fun _ _ => trap_goesOn _ _ _) (fun _ _ _ => trap_goesOn _ _ _) (fun _ _ _ => trap_goesOn _ _ _) (fun _ => h _)

theorem ite_goesOn {c : Prop} [Decidable c] {a b : Res} (h1 : goesOn a) (h2 : goesOn b) : goesOn (if c then a else b) := by
  split
  · exact h1
  · exact h2

theorem loadX_goesOn (i : Instr) (a : Reg) (off : Int) (n : Nat) (signed : Bool) (s0 s : State) : goesOn (loadX i a off n signed s0 s) :=
  withRoomX_cases (stall_goesOn _) fun _ => localAccess_goesOn fun _ => ite_goesOn (retire_goesOn _ _) (finishX_goesOn _ _ _ _)

theorem storeX_goesOn (i : Instr) (off : Int) (n v : Nat) (s0 s : State) : goesOn (storeX i off n v s0 s) :=
  localAccess_goesOn fun _ => ite_goesOn (retire_goesOn _ _) (retire_goesOn _ _)

/-! ## Canonical memories -/

/-- The memories are those of another state. -/
theorem State.memoriesWf_of {s t : State} (h : s.memoriesWf) (h1 : t.core.spad = s.core.spad) (h2 : t.core.xbuf = s.core.xbuf)
    (h3 : t.core.ybuf = s.core.ybuf) (h4 : t.quad.istore = s.quad.istore) (h5 : t.vault.mem = s.vault.mem) : t.memoriesWf := by
  unfold State.memoriesWf at *
  rw [h1, h2, h3, h4, h5]
  exact h

theorem State.memoriesWf_setSt {s : State} (t : Stream) (h : s.memoriesWf) : (s.setSt t).memoriesWf := h
theorem State.memoriesWf_setRes {s : State} (r : ResIx) (x : Residency) (h : s.memoriesWf) : (s.setRes r x).memoriesWf := h
theorem State.memoriesWf_setRs {s : State} (x : Residency) (h : s.memoriesWf) : (s.setRs x).memoriesWf := h
theorem State.memoriesWf_setTask {s : State} (k : Task) (h : s.memoriesWf) : (s.setTask k).memoriesWf := h

theorem popX_memoriesWf {r : Reg} {s t : State} {x : Word} (h : popX r s = some (x, t)) (hs : s.memoriesWf) : t.memoriesWf := by
  obtain ⟨h1, h2, h3, -⟩ := popX_device h
  exact State.memoriesWf_of hs (by rw [h1]) (by rw [h1]) (by rw [h1]) (by rw [h2]) (by rw [h3])

theorem popV_memoriesWf {r : Reg} {s t : State} {x : VWord} (h : popV r s = some (x, t)) (hs : s.memoriesWf) : t.memoriesWf := by
  obtain ⟨h1, h2, h3, -⟩ := popV_device h
  exact State.memoriesWf_of hs (by rw [h1]) (by rw [h1]) (by rw [h1]) (by rw [h2]) (by rw [h3])

theorem writeX_memoriesWf (r : Reg) (v : Word) {s : State} (hs : s.memoriesWf) : (writeX r v s).memoriesWf := by
  obtain ⟨-, -, -, h1, h2, h3⟩ := writeX_frame r v s
  exact State.memoriesWf_of hs (by rw [h1]) (by rw [h1]) (by rw [h1]) (by rw [h2]) (by rw [h3])

theorem writeV_memoriesWf (r : Reg) (v : VWord) {s : State} (hs : s.memoriesWf) : (writeV r v s).memoriesWf := by
  obtain ⟨-, -, -, h1, h2, h3⟩ := writeV_frame r v s
  exact State.memoriesWf_of hs (by rw [h1]) (by rw [h1]) (by rw [h1]) (by rw [h2]) (by rw [h3])

theorem setRecWord_memoriesWf (r : ResIx) (off v : Nat) {s : State} (hs : s.memoriesWf) : (setRecWord s r off v).memoriesWf :=
  ⟨Memory.wf_writeLE _ _ _ _ hs.1, hs.2⟩

theorem setRecBit_memoriesWf (r : ResIx) (off bit : Nat) (b : Bool) {s : State} (hs : s.memoriesWf) : (setRecBit s r off bit b).memoriesWf :=
  setRecWord_memoriesWf r off _ hs

theorem enqueueReady_memoriesWf (r : ResIx) (off : Nat) {s : State} (hs : s.memoriesWf) : (enqueueReady r off s).memoriesWf := by
  unfold enqueueReady
  dsimp only
  split
  · exact hs
  · refine State.memoriesWf_setRes _ _ (setRecWord_memoriesWf _ _ _ ?_)
    split
    · exact hs
    · exact setRecWord_memoriesWf _ _ _ hs

theorem readyRecord_memoriesWf (r : ResIx) (off : Nat) {s : State} (hs : s.memoriesWf) : (readyRecord r off s).memoriesWf := by
  unfold readyRecord
  dsimp only
  split
  · exact setRecBit_memoriesWf _ _ _ _ hs
  · exact enqueueReady_memoriesWf _ _ (setRecBit_memoriesWf _ _ _ _ hs)

theorem decRecord_memoriesWf (r : ResIx) (off k : Nat) {s : State} (hs : s.memoriesWf) : (decRecord r off k s).memoriesWf := by
  unfold decRecord
  dsimp only
  split
  · exact hs
  · split
    · exact readyRecord_memoriesWf _ _ (setRecBit_memoriesWf _ _ _ _ (setRecWord_memoriesWf _ _ _ hs))
    · exact setRecWord_memoriesWf _ _ _ hs

/-! ## What a trap and its parts do to the memories (R302 to R308) -/

/-- No byte memory of the machine differs between two states. -/
structure SameMemories (s t : State) : Prop where
  spad : t.core.spad = s.core.spad
  xbuf : t.core.xbuf = s.core.xbuf
  ybuf : t.core.ybuf = s.core.ybuf
  istore : t.quad.istore = s.quad.istore
  vault : t.vault.mem = s.vault.mem

theorem SameMemories.rfl (s : State) : SameMemories s s := ⟨Eq.refl _, Eq.refl _, Eq.refl _, Eq.refl _, Eq.refl _⟩

theorem SameMemories.trans {s t u : State} (h : SameMemories s t) (g : SameMemories t u) : SameMemories s u :=
  ⟨g.spad.trans h.spad, g.xbuf.trans h.xbuf, g.ybuf.trans h.ybuf, g.istore.trans h.istore, g.vault.trans h.vault⟩

theorem SameMemories.memoriesWf {s t : State} (h : SameMemories s t) (hs : s.memoriesWf) : t.memoriesWf :=
  State.memoriesWf_of hs h.spad h.xbuf h.ybuf h.istore h.vault

theorem SameMemories.foldl {α : Type} (f : State → α → State) (hf : ∀ s a, SameMemories s (f s a)) (l : List α) (s : State) :
    SameMemories s (l.foldl f s) := by
  induction l generalizing s with
  | nil => exact .rfl _
  | cons a l ih => exact (hf s a).trans (ih _)

/-- Replacing a receive queue changes no other field of the core. -/
theorem Core.setRx_memories (c : Core) (vn : Nat) (q : List RxEntry) :
    (c.setRx vn q).spad = c.spad ∧ (c.setRx vn q).xbuf = c.xbuf ∧ (c.setRx vn q).ybuf = c.ybuf := by
  unfold Core.setRx
  split
  · exact ⟨rfl, rfl, rfl⟩
  · split <;> exact ⟨rfl, rfl, rfl⟩

theorem setRx_same (s : State) (vn : Nat) (q : List RxEntry) : SameMemories s { s with core := s.core.setRx vn q } :=
  have h := Core.setRx_memories s.core vn q
  ⟨h.1, h.2.1, h.2.2, rfl, rfl⟩

theorem freeSinks_same (r : ResIx) (n : Nat) (s : State) : SameMemories s (freeSinks r n s) := ⟨rfl, rfl, rfl, rfl, rfl⟩

theorem deadLetter_same (why : Nat) (m : Msg) (s : State) : SameMemories s (deadLetter why m s) := ⟨rfl, rfl, rfl, rfl, rfl⟩

/-- Writing bytes one after the other keeps a memory canonical. -/
theorem foldl_writeByte_wf {α : Type} (f : Mem → α → Nat) (g : Mem → α → Byte) (l : List α) {m : Mem} (h : Memory.wf m = true) :
    Memory.wf (l.foldl (fun m a => writeByte m (f m a) (g m a)) m) = true := by
  induction l generalizing m with
  | nil => exact h
  | cons a l ih => exact ih (Memory.wf_writeByte _ _ _ h)

theorem orFlags_memoriesWf (f : BitVec 5) {s : State} (hs : s.memoriesWf) : (orFlags f s).memoriesWf := State.memoriesWf_setSt _ hs

/-- A bank access of a vector access keeps every memory canonical: a load changes none, a store the scratchpad alone. -/
theorem vecPiece_memoriesWf (q : VecRun) (p : List VecCell) {s : State} (hs : s.memoriesWf) : (vecPiece q p s).2.memoriesWf := by
  unfold vecPiece
  extract_lets base put
  split
  · exact hs
  · exact ⟨foldl_writeByte_wf _ _ p hs.1, hs.2⟩

theorem vecEnd_memoriesWf (q : VecRun) {s : State} (hs : s.memoriesWf) : (vecEnd q s).memoriesWf := by
  unfold vecEnd
  cases q.dest with
  | none => exact orFlags_memoriesWf q.flags (s := { s with core := { s.core with vecRun := none }, cur := q.slot }) hs
  | some d =>
    exact writeV_memoriesWf d.reg _ (orFlags_memoriesWf _ (s := { s with core := { s.core with vecRun := none }, cur := q.slot }) hs)

theorem vecStep_memoriesWf {s : State} (hs : s.memoriesWf) : (vecStep s).memoriesWf := by
  unfold vecStep
  split
  · exact hs
  · rename_i q _
    split
    · exact vecEnd_memoriesWf q hs
    · rename_i p ps _
      dsimp only
      split
      · exact vecEnd_memoriesWf _ (vecPiece_memoriesWf q p hs)
      · exact vecPiece_memoriesWf q p hs

/-- Finishing the vector access in progress keeps every memory canonical. -/
theorem finishVec_memoriesWf {s : State} (hs : s.memoriesWf) : (finishVec s).memoriesWf := by
  unfold finishVec
  split
  · exact hs
  · rename_i q e
    clear e
    generalize List.range _ = l
    induction l generalizing s with
    | nil => exact hs
    | cons a l ih => exact ih (vecStep_memoriesWf hs)

theorem stopStreams_memoriesWf (r : ResIx) {s : State} (hs : s.memoriesWf) : (stopStreams r s).memoriesWf := by
  unfold stopStreams
  dsimp only
  split
  · exact finishVec_memoriesWf hs
  · exact hs

theorem discardWork_same (r : ResIx) (s : State) : SameMemories s (discardWork r s) := ⟨rfl, rfl, rfl, rfl, rfl⟩

theorem logAbort_same (e : Word × Word × Word × Word) (s : State) : SameMemories s (logAbort e s) := by
  unfold logAbort
  split <;> exact ⟨rfl, rfl, rfl, rfl, rfl⟩

theorem removeTrigger_same (r : ResIx) (m : Msg) (s : State) : SameMemories s (removeTrigger r m s) := by
  unfold removeTrigger
  dsimp only
  split
  · exact (setRx_same _ _ _).trans (freeSinks_same _ _ _)
  · exact setRx_same _ _ _

theorem returnTrigger_same (r : ResIx) (m : Msg) (s : State) : SameMemories s (returnTrigger r m s) := setRx_same _ _ _

theorem dropWaiting_same (r : ResIx) (vn : Nat) (s : State) : SameMemories s (dropWaiting r vn s) := by
  unfold dropWaiting
  dsimp only
  split
  · exact ((setRx_same _ _ _).trans (SameMemories.foldl _ (fun s (e : RxEntry) => deadLetter_same 7 e.m s) _ _)).trans (freeSinks_same _ _ _)
  · exact (setRx_same _ _ _).trans (SameMemories.foldl _ (fun s (e : RxEntry) => deadLetter_same 7 e.m s) _ _)

/-- Removing a trigger that is a message, and no other, changes no memory. -/
theorem endTrigger_same (tr : Option Trigger) (r : ResIx) (s : State) :
    SameMemories s (match tr with
      | some (.message m) => removeTrigger r m s
      | _ => s) := by
  cases tr with
  | none => exact .rfl _
  | some x => cases x with
    | message m => exact removeTrigger_same r m s
    | _ => exact .rfl _

/-- The kill itself keeps every memory canonical. -/
theorem killNow_memoriesWf (r : ResIx) (slot : Option SlotIx) (reason cause : Nat) (epc info : Word) {s : State} (hs : s.memoriesWf) :
    (killNow r slot reason cause epc info s).memoriesWf := by
  unfold killNow
  extract_lets report trigger s1 s2 s3 g
  have h1 : s1.memoriesWf := (discardWork_same r _).memoriesWf (stopStreams_memoriesWf r hs)
  have h2 : s2.memoriesWf := (endTrigger_same trigger r s1).memoriesWf h1
  have h3 : s3.memoriesWf := (((dropWaiting_same r 0 s2).trans (dropWaiting_same r 1 _)).trans (dropWaiting_same r 2 _)).memoriesWf h2
  clear_value s3
  exact h3

/-- Everything that a kill can do (R162, R308): it is kept while slice work is in progress, and is carried out otherwise. -/
theorem killResidency_cases {P : State → Prop} {r : ResIx} {slot : Option SlotIx} {reason cause : Nat} {epc info : Word} {s : State}
    (h1 : s.workOf r = true → ∀ k, P (s.setRes r { s.res[r] with killDue := some k }))
    (h2 : s.workOf r = false → P (killNow r slot reason cause epc info s)) : P (killResidency r slot reason cause epc info s) := by
  unfold killResidency
  cases hb : s.workOf r with
  | true => exact h1 hb _
  | false => exact h2 hb

/-- A kill keeps every memory canonical. -/
theorem killResidency_memoriesWf (r : ResIx) (slot : Option SlotIx) (reason cause : Nat) (epc info : Word) {s : State} (hs : s.memoriesWf) :
    (killResidency r slot reason cause epc info s).memoriesWf :=
  killResidency_cases (P := State.memoriesWf) (fun _ _ => State.memoriesWf_setRes _ _ hs) (fun _ => killNow_memoriesWf _ _ _ _ _ _ hs)

/-- An abort keeps every memory canonical: where the trigger was a record, the record is readied again. -/
theorem abortActivation_memoriesWf (r : ResIx) (keep : Bool) (reason cause : Nat) (epc info : Word) {s : State} (hs : s.memoriesWf) :
    (abortActivation r keep reason cause epc info s).memoriesWf := by
  unfold abortActivation
  extract_lets x count trigger entry s1 _ s2 s3 _ s4
  have h2 : s2.memoriesWf := State.memoriesWf_setRes _ _ ((logAbort_same entry s).memoriesWf hs)
  have h3 : s3.memoriesWf := (discardWork_same r _).memoriesWf (stopStreams_memoriesWf r h2)
  have h4 : s4.memoriesWf := State.memoriesWf_setRes _ _ h3
  clear_value trigger
  split
  · exact killResidency_memoriesWf _ _ _ _ _ _ h2
  · match trigger with
    | none => exact h4
    | some (.message m) =>
      cases keep
      · exact (removeTrigger_same _ _ _).memoriesWf h4
      · exact (returnTrigger_same _ _ _).memoriesWf h4
    | some (.record off) =>
      cases keep
      · exact h4
      · exact readyRecord_memoriesWf _ _ h4
    | some .launch => exact State.memoriesWf_setRes _ _ (show (s4.bump).memoriesWf from h4)

theorem setMateRes_same (s : State) (k : Fin 4) (m : MateRes) : SameMemories s (setMateRes s k m) := ⟨rfl, rfl, rfl, rfl, rfl⟩

theorem deliverLoad_same (e : Remote) (v : Nat) (s : State) : SameMemories s (deliverLoad e v s) := by
  unfold deliverLoad
  dsimp only
  split
  · split <;> exact ⟨rfl, rfl, rfl, rfl, rfl⟩
  · split <;> exact ⟨rfl, rfl, rfl, rfl, rfl⟩

theorem ownWr_memoriesWf (r : ResIx) (n : Nat) : ∀ (off v : Nat) {s : State}, s.memoriesWf → (ownWr r off n v s).memoriesWf := by
  induction n with
  | zero => intro off v s h; exact h
  | succ n ih =>
    intro off v s h
    refine ih _ _ ?_
    split
    · exact ⟨Memory.wf_writeByte _ _ _ h.1, h.2⟩
    · exact h

theorem ownStore_memoriesWf (r : ResIx) (off n v : Nat) {s : State} (hs : s.memoriesWf) : (ownStore r off n v s).memoriesWf :=
  ownWr_memoriesWf r n off v hs

/-- A pending access keeps every memory canonical: it writes this core's scratchpad or a quad-mate's reservation. -/
theorem targetWr_memoriesWf (e : Remote) (off n v : Nat) {s : State} (hs : s.memoriesWf) : (targetWr e off n v s).memoriesWf := by
  unfold targetWr
  split
  · exact ownStore_memoriesWf _ _ _ _ hs
  · split
    · exact hs
    · exact (setMateRes_same _ _ _).memoriesWf hs

theorem performRemote_memoriesWf (i : Nat) {s : State} (hs : s.memoriesWf) : (performRemote i s).memoriesWf := by
  unfold performRemote
  split
  · exact hs
  · rename_i e _
    extract_lets off k v s1 s2
    have h1 : s1.memoriesWf := by
      simp only [s1]
      split
      · exact targetWr_memoriesWf _ _ _ _ hs
      · exact hs
    clear_value s1
    split
    · exact h1
    · split
      · exact h1
      · exact (deliverLoad_same e v _).memoriesWf h1

theorem performFirst_memoriesWf (p : Remote → Bool) {s : State} (hs : s.memoriesWf) : (performFirst p s).memoriesWf := by
  unfold performFirst
  split
  · exact hs
  · exact performRemote_memoriesWf _ hs

theorem performAll_memoriesWf (p : Remote → Bool) {s : State} (hs : s.memoriesWf) : (performAll p s).memoriesWf := by
  unfold performAll
  generalize List.range _ = l
  induction l generalizing s with
  | nil => exact hs
  | cons a l ih => exact ih (performFirst_memoriesWf p hs)

theorem drainRemote_memoriesWf {s : State} (hs : s.memoriesWf) : (drainRemote s).memoriesWf :=
  finishVec_memoriesWf (performAll_memoriesWf _ hs)

theorem finishHalves_memoriesWf {s : State} (hs : s.memoriesWf) : (finishHalves s).memoriesWf := finishVec_memoriesWf (performAll_memoriesWf _ hs)

/-- Everything that a trap can do (R303): a kill at level 2, an abort where the cause has no handler, or the entry into the handler. -/
theorem takeTrap_cases {P : State → Prop} {cause : Nat} {epc info : Word} {s : State}
    (h1 : 2 ≤ (drainRemote s).st.tlevel.toNat →
      P (killResidency (drainRemote s).st.res (some (drainRemote s).cur) 1 cause epc info (drainRemote s)))
    (h2 : (drainRemote s).st.tlevel.toNat < 2 → vectorOf (drainRemote s) cause = none →
      P (abortActivation (drainRemote s).st.res true (if cause = 0x1D then 2 else 1) cause epc info (drainRemote s)))
    (h3 : ∀ h, (drainRemote s).st.tlevel.toNat < 2 → vectorOf (drainRemote s) cause = some h → ∀ t : Stream, t.pc = h → t.loops = [] →
      t.tlevel = (drainRemote s).st.tlevel + 1 → P ((drainRemote s).setSt t)) : P (takeTrap cause epc info s) := by
  unfold takeTrap
  dsimp only
  split
  · exact h1 ‹_›
  · rename_i hl
    split
    · exact h2 (by omega) ‹_›
    · rename_i h e
      exact h3 h (by omega) e _ rfl rfl rfl

theorem takeTrap_memoriesWf (cause : Nat) (epc info : Word) {s : State} (hs : s.memoriesWf) : (takeTrap cause epc info s).memoriesWf :=
  have hd := drainRemote_memoriesWf hs
  takeTrap_cases (P := State.memoriesWf) (fun _ => killResidency_memoriesWf _ _ _ _ _ _ hd) (fun _ _ => abortActivation_memoriesWf _ _ _ _ _ _ hd)
    (fun _ _ _ t _ _ _ => State.memoriesWf_setSt t hd)

/-- What an answer's next state keeps, if it is one. -/
def keepsMemories (o : Res) : Prop := ∀ t, o = .next t → t.memoriesWf

theorem keepsMemories_next {s : State} (h : s.memoriesWf) : keepsMemories (.next s) := fun t e => by cases e; exact h

theorem stall_keeps {s : State} (h : s.memoriesWf) : keepsMemories (stall s) := keepsMemories_next h

theorem raise_keeps (cause : Nat) (epc info : Word) {s : State} (h : s.memoriesWf) : keepsMemories (raise cause epc info s) :=
  raise_cases (fun _ => keepsMemories_next (State.memoriesWf_setSt _ h)) (fun _ => keepsMemories_next (takeTrap_memoriesWf _ _ _ h))

theorem trap_keeps (cause : Nat) (info : Word) {s : State} (h : s.memoriesWf) : keepsMemories (trap cause info s) := raise_keeps _ _ _ h

theorem retire_keeps (i : Instr) {s : State} (h : s.memoriesWf) : keepsMemories (retire i s) :=
  retire_cases (fun _ _ _ => keepsMemories_next (State.memoriesWf_setSt _ h))
    (fun _ _ _ => raise_keeps _ _ _ (State.memoriesWf_setSt _ h))

theorem jumpTo_keeps (t : Word) {s : State} (h : s.memoriesWf) : keepsMemories (jumpTo t s) := keepsMemories_next (State.memoriesWf_setSt _ h)

theorem finishX_keeps (i : Instr) (r : Reg) (v : Word) {s : State} (h : s.memoriesWf) : keepsMemories (finishX i r v s) :=
  retire_keeps i (writeX_memoriesWf r v h)

theorem finishV_keeps (i : Instr) (r : Reg) (v : VWord) {s : State} (h : s.memoriesWf) : keepsMemories (finishV i r v s) :=
  retire_keeps i (writeV_memoriesWf r v h)

theorem binary_keeps (i : Instr) (a b c : Reg) (f : Word → Word → Word) {s : State} (h : s.memoriesWf) : keepsMemories (binary i a b c f s) :=
  withX_cases (stall_keeps h) fun _ _ e1 => withX_cases (stall_keeps h) fun _ _ e2 => withRoomX_cases (stall_keeps h) fun _ =>
    finishX_keeps _ _ _ (popX_memoriesWf e2 (popX_memoriesWf e1 h))

theorem unary_keeps (i : Instr) (a b : Reg) (f : Word → Word) {s : State} (h : s.memoriesWf) : keepsMemories (unary i a b f s) :=
  withX_cases (stall_keeps h) fun _ _ e1 => withRoomX_cases (stall_keeps h) fun _ => finishX_keeps _ _ _ (popX_memoriesWf e1 h)

/-! ## The banks' queues (R257, R259) -/

/-- A step that only waited is kept as it is, or not at all. -/
theorem waited_cases (s t : State) : waited s t = none ∨ waited s t = some t := by
  unfold waited
  split
  · exact .inl rfl
  · exact .inr rfl

/-- Joining the queue of a bank changes the vaults' queues alone. -/
theorem joinQueue_eq (who : Claimant) (p : Place) (s : State) :
    joinQueue who p s = { s with vault := { s.vault with beats := (joinQueue who p s).vault.beats } } := rfl

/-- Everything that a beat which comes to its bank changes: the queues, and what its bank is asked for. -/
theorem reachBeat_eq (who : Claimant) (p : Place) (s : State) :
    (reachBeat who p s).2 = { s with vault := { s.vault with beats := (reachBeat who p s).2.vault.beats, banks := (reachBeat who p s).2.vault.banks } } := by
  unfold reachBeat
  rw [joinQueue_eq]
  dsimp only
  split
  · rfl
  · split
    · rfl
    · split <;> rfl

/-- A beat moves only when it is the oldest at its bank. -/
theorem reachBeat_first {who : Claimant} {p : Place} {s : State} (h : (reachBeat who p s).1 = true) :
    (joinQueue who p s).vault.beats.find? (fun b => decide (b.vault = p.vault) && decide (b.bank = p.bankIx)) = some ⟨p.vault, p.bankIx, who⟩ := by
  unfold reachBeat at h
  dsimp only at h
  split at h
  · cases h
  · rename_i h'
    simp only [not_or] at h'
    exact Decidable.not_not.mp h'.1

theorem spadPut_memoriesWf (off : Int) (b : Byte) {s : State} (h : s.memoriesWf) : (spadPut s off b).memoriesWf := by
  unfold spadPut
  split
  · exact ⟨Memory.wf_writeByte _ _ _ h.1, h.2⟩
  · exact h

theorem spadWr_memoriesWf (n : Nat) : ∀ (off : Int) (v : Nat) {s : State}, s.memoriesWf → (spadWr s off n v).memoriesWf := by
  induction n with
  | zero => intro off v s h; exact h
  | succ n ih => intro off v s h; exact ih _ _ (spadPut_memoriesWf _ _ h)

end Sys2Proof.Machine
end

