-- ==== Sys2Proof/Laws/PerInstr.lean ====
section
/-! SUPPORT. Statements made for each instruction: its word fits its length, and bit 0 of the word tells the length (R72). -/

namespace Sys2Proof.Laws.WordFits

/-- The word of an encoded instruction has as many bits as its length gives it, and is even exactly when it is a 16-bit word (R72). -/
def Statement (i : Instr) : Prop := i.isEvent = false → encode i < 2 ^ (8 * i.len) ∧ (encode i % 2 = 0 ↔ i.len = 2)

/-- An odd word below 2^32 has the shape of a 32-bit instruction. -/
theorem long {w : Nat} (h : w < 2 ^ 32 ∧ w % 2 = 1) : w < 2 ^ (8 * 4) ∧ (w % 2 = 0 ↔ 4 = 2) := by omega

/-- An even word below 2^16 has the shape of a 16-bit instruction. -/
theorem short {w : Nat} (h : w < 2 ^ 16 ∧ w % 2 = 0) : w < 2 ^ (8 * 2) ∧ (w % 2 = 0 ↔ 2 = 2) := by omega

theorem accLow_lt (n : AccNum) : accLow n < 32 := by
  have := n.isLt
  simp only [accLow]
  omega

theorem accHigh_lt (n : AccNum) : accHigh n < 2 := by
  have := n.isLt
  simp only [accHigh]
  omega

theorem wordA7B12C17_fits (base : Nat) (a : Reg) (b : Reg) (c : Reg) (h : base + 0x3fff80 < 2 ^ 32) :
    wordA7B12C17 base a b c < 2 ^ 32 ∧ wordA7B12C17 base a b c % 2 = base % 2 := by
  have := a.isLt
  have := b.isLt
  have := c.isLt
  simp only [wordA7B12C17]
  omega

theorem wordA7B12_fits (base : Nat) (a : Reg) (b : Reg) (h : base + 0x1ff80 < 2 ^ 32) :
    wordA7B12 base a b < 2 ^ 32 ∧ wordA7B12 base a b % 2 = base % 2 := by
  have := a.isLt
  have := b.isLt
  simp only [wordA7B12]
  omega

theorem wordA7B12I17w15_fits (base : Nat) (a : Reg) (b : Reg) (i : BitVec 15) (h : base + 0xffffff80 < 2 ^ 32) :
    wordA7B12I17w15 base a b i < 2 ^ 32 ∧ wordA7B12I17w15 base a b i % 2 = base % 2 := by
  have := a.isLt
  have := b.isLt
  have := i.isLt
  simp only [wordA7B12I17w15]
  omega

theorem wordA7N17w6B12_fits (base : Nat) (a : Reg) (n : BitVec 6) (b : Reg) (h : base + 0x7fff80 < 2 ^ 32) :
    wordA7N17w6B12 base a n b < 2 ^ 32 ∧ wordA7N17w6B12 base a n b % 2 = base % 2 := by
  have := a.isLt
  have := n.isLt
  have := b.isLt
  simp only [wordA7N17w6B12]
  omega

theorem wordA7I12w20_fits (base : Nat) (a : Reg) (i : BitVec 20) (h : base + 0xffffff80 < 2 ^ 32) :
    wordA7I12w20 base a i < 2 ^ 32 ∧ wordA7I12w20 base a i % 2 = base % 2 := by
  have := a.isLt
  have := i.isLt
  simp only [wordA7I12w20]
  omega

theorem wordA7B12O20w12_fits (base : Nat) (a : Reg) (b : Reg) (o : BitVec 12) (h : base + 0xfff1ff80 < 2 ^ 32) :
    wordA7B12O20w12 base a b o < 2 ^ 32 ∧ wordA7B12O20w12 base a b o % 2 = base % 2 := by
  have := a.isLt
  have := b.isLt
  have := o.isLt
  simp only [wordA7B12O20w12]
  omega

theorem wordA7O12w20_fits (base : Nat) (a : Reg) (o : BitVec 20) (h : base + 0xffffff80 < 2 ^ 32) :
    wordA7O12w20 base a o < 2 ^ 32 ∧ wordA7O12w20 base a o % 2 = base % 2 := by
  have := a.isLt
  have := o.isLt
  simp only [wordA7O12w20]
  omega

theorem wordA7L12w10_fits (base : Nat) (a : Reg) (L : BitVec 10) (h : base + 0x3fff80 < 2 ^ 32) :
    wordA7L12w10 base a L < 2 ^ 32 ∧ wordA7L12w10 base a L % 2 = base % 2 := by
  have := a.isLt
  have := L.isLt
  simp only [wordA7L12w10]
  omega

theorem wordN22w10L12w10_fits (base : Nat) (n : BitVec 10) (L : BitVec 10) (h : base + 0xfffff000 < 2 ^ 32) :
    wordN22w10L12w10 base n L < 2 ^ 32 ∧ wordN22w10L12w10 base n L % 2 = base % 2 := by
  have := n.isLt
  have := L.isLt
  simp only [wordN22w10L12w10]
  omega

theorem wordA7B12C17T28w4M22w3_fits (base : Nat) (a : Reg) (b : Reg) (c : Reg) (t : BitVec 4) (m : MaskField) (h : base + 0xf1ffff80 < 2 ^ 32) :
    wordA7B12C17T28w4M22w3 base a b c t m < 2 ^ 32 ∧ wordA7B12C17T28w4M22w3 base a b c t m % 2 = base % 2 := by
  have := a.isLt
  have := b.isLt
  have := c.isLt
  have := t.isLt
  have := m.isLt
  simp only [wordA7B12C17T28w4M22w3]
  omega

theorem wordA7B12C17W25w2M22w3_fits (base : Nat) (a : Reg) (b : Reg) (c : Reg) (w : BitVec 2) (m : MaskField) (h : base + 0x7ffff80 < 2 ^ 32) :
    wordA7B12C17W25w2M22w3 base a b c w m < 2 ^ 32 ∧ wordA7B12C17W25w2M22w3 base a b c w m % 2 = base % 2 := by
  have := a.isLt
  have := b.isLt
  have := c.isLt
  have := w.isLt
  have := m.isLt
  simp only [wordA7B12C17W25w2M22w3]
  omega

theorem wordA7B12W25w2M22w3_fits (base : Nat) (a : Reg) (b : Reg) (w : BitVec 2) (m : MaskField) (h : base + 0x7c1ff80 < 2 ^ 32) :
    wordA7B12W25w2M22w3 base a b w m < 2 ^ 32 ∧ wordA7B12W25w2M22w3 base a b w m % 2 = base % 2 := by
  have := a.isLt
  have := b.isLt
  have := w.isLt
  have := m.isLt
  simp only [wordA7B12W25w2M22w3]
  omega

theorem wordA7B12C17M22w3_fits (base : Nat) (a : Reg) (b : Reg) (c : Reg) (m : MaskField) (h : base + 0x1ffff80 < 2 ^ 32) :
    wordA7B12C17M22w3 base a b c m < 2 ^ 32 ∧ wordA7B12C17M22w3 base a b c m % 2 = base % 2 := by
  have := a.isLt
  have := b.isLt
  have := c.isLt
  have := m.isLt
  simp only [wordA7B12C17M22w3]
  omega

theorem wordA7B12K17W25w2M22w3_fits (base : Nat) (a : Reg) (b : Reg) (k : BitVec 5) (w : BitVec 2) (m : MaskField) (h : base + 0x7ffff80 < 2 ^ 32) :
    wordA7B12K17W25w2M22w3 base a b k w m < 2 ^ 32 ∧ wordA7B12K17W25w2M22w3 base a b k w m % 2 = base % 2 := by
  have := a.isLt
  have := b.isLt
  have := k.isLt
  have := w.isLt
  have := m.isLt
  simp only [wordA7B12K17W25w2M22w3]
  omega

theorem wordA7B12M22w3_fits (base : Nat) (a : Reg) (b : Reg) (m : MaskField) (h : base + 0x1c1ff80 < 2 ^ 32) :
    wordA7B12M22w3 base a b m < 2 ^ 32 ∧ wordA7B12M22w3 base a b m % 2 = base % 2 := by
  have := a.isLt
  have := b.isLt
  have := m.isLt
  simp only [wordA7B12M22w3]
  omega

theorem wordA7B12C17W26w2M22w3_fits (base : Nat) (a : Reg) (b : Reg) (c : Reg) (w : BitVec 2) (m : MaskField) (h : base + 0xdffff80 < 2 ^ 32) :
    wordA7B12C17W26w2M22w3 base a b c w m < 2 ^ 32 ∧ wordA7B12C17W26w2M22w3 base a b c w m % 2 = base % 2 := by
  have := a.isLt
  have := b.isLt
  have := c.isLt
  have := w.isLt
  have := m.isLt
  simp only [wordA7B12C17W26w2M22w3]
  omega

theorem wordA7B12W26w2M22w3_fits (base : Nat) (a : Reg) (b : Reg) (w : BitVec 2) (m : MaskField) (h : base + 0xdc1ff80 < 2 ^ 32) :
    wordA7B12W26w2M22w3 base a b w m < 2 ^ 32 ∧ wordA7B12W26w2M22w3 base a b w m % 2 = base % 2 := by
  have := a.isLt
  have := b.isLt
  have := w.isLt
  have := m.isLt
  simp only [wordA7B12W26w2M22w3]
  omega

theorem wordA7B12C17W26w2_fits (base : Nat) (a : Reg) (b : Reg) (c : Reg) (w : BitVec 2) (h : base + 0xc3fff80 < 2 ^ 32) :
    wordA7B12C17W26w2 base a b c w < 2 ^ 32 ∧ wordA7B12C17W26w2 base a b c w % 2 = base % 2 := by
  have := a.isLt
  have := b.isLt
  have := c.isLt
  have := w.isLt
  simp only [wordA7B12C17W26w2]
  omega

theorem wordA7D17w4S22w4B12_fits (base : Nat) (a : Reg) (d : BitVec 4) (s : BitVec 4) (b : Reg) (h : base + 0x3dfff80 < 2 ^ 32) :
    wordA7D17w4S22w4B12 base a d s b < 2 ^ 32 ∧ wordA7D17w4S22w4B12 base a d s b % 2 = base % 2 := by
  have := a.isLt
  have := d.isLt
  have := s.isLt
  have := b.isLt
  simp only [wordA7D17w4S22w4B12]
  omega

theorem wordB12_fits (base : Nat) (b : Reg) (h : base + 0x1f000 < 2 ^ 32) :
    wordB12 base b < 2 ^ 32 ∧ wordB12 base b % 2 = base % 2 := by
  have := b.isLt
  simp only [wordB12]
  omega

theorem wordJ22w1_fits (base : Nat) (j : BitVec 1) (h : base + 0x400000 < 2 ^ 32) :
    wordJ22w1 base j < 2 ^ 32 ∧ wordJ22w1 base j % 2 = base % 2 := by
  have := j.isLt
  simp only [wordJ22w1]
  omega

theorem wordN24w1K17_fits (base : Nat) (n : AccNum) (k : BitVec 5) (h : base + 0x13e0f80 < 2 ^ 32) :
    wordN24w1K17 base n k < 2 ^ 32 ∧ wordN24w1K17 base n k % 2 = base % 2 := by
  have := accLow_lt n
  have := accHigh_lt n
  have := k.isLt
  simp only [wordN24w1K17]
  omega

theorem wordN24w1B12_fits (base : Nat) (n : AccNum) (b : Reg) (h : base + 0x101ff80 < 2 ^ 32) :
    wordN24w1B12 base n b < 2 ^ 32 ∧ wordN24w1B12 base n b % 2 = base % 2 := by
  have := accLow_lt n
  have := accHigh_lt n
  have := b.isLt
  simp only [wordN24w1B12]
  omega

theorem wordD7N24w1B12X22w1_fits (base : Nat) (d : Reg) (n : AccNum) (b : Reg) (x : BitVec 1) (h : base + 0x17fff80 < 2 ^ 32) :
    wordD7N24w1B12X22w1 base d n b x < 2 ^ 32 ∧ wordD7N24w1B12X22w1 base d n b x % 2 = base % 2 := by
  have := d.isLt
  have := accLow_lt n
  have := accHigh_lt n
  have := b.isLt
  have := x.isLt
  simp only [wordD7N24w1B12X22w1]
  omega

theorem wordA7N24w1B12_fits (base : Nat) (a : Reg) (n : AccNum) (b : Reg) (h : base + 0x13fff80 < 2 ^ 32) :
    wordA7N24w1B12 base a n b < 2 ^ 32 ∧ wordA7N24w1B12 base a n b % 2 = base % 2 := by
  have := a.isLt
  have := accLow_lt n
  have := accHigh_lt n
  have := b.isLt
  simp only [wordA7N24w1B12]
  omega

theorem wordD24w1S23w1_fits (base : Nat) (d : AccNum) (s : AccNum) (h : base + 0x1be0f80 < 2 ^ 32) :
    wordD24w1S23w1 base d s < 2 ^ 32 ∧ wordD24w1S23w1 base d s % 2 = base % 2 := by
  have := accLow_lt d
  have := accHigh_lt d
  have := accLow_lt s
  have := accHigh_lt s
  simp only [wordD24w1S23w1]
  omega

theorem wordB12C17_fits (base : Nat) (b : Reg) (c : Reg) (h : base + 0x3ff000 < 2 ^ 32) :
    wordB12C17 base b c < 2 ^ 32 ∧ wordB12C17 base b c % 2 = base % 2 := by
  have := b.isLt
  have := c.isLt
  simp only [wordB12C17]
  omega

theorem wordA7_fits (base : Nat) (a : Reg) (h : base + 0xf80 < 2 ^ 32) :
    wordA7 base a < 2 ^ 32 ∧ wordA7 base a % 2 = base % 2 := by
  have := a.isLt
  simp only [wordA7]
  omega

theorem wordA7B12C17V22w2R24w1_fits (base : Nat) (a : Reg) (b : Reg) (c : Reg) (v : BitVec 2) (r : BitVec 1) (h : base + 0x1ffff80 < 2 ^ 32) :
    wordA7B12C17V22w2R24w1 base a b c v r < 2 ^ 32 ∧ wordA7B12C17V22w2R24w1 base a b c v r % 2 = base % 2 := by
  have := a.isLt
  have := b.isLt
  have := c.isLt
  have := v.isLt
  have := r.isLt
  simp only [wordA7B12C17V22w2R24w1]
  omega

theorem wordA7B12V22w2R24w1_fits (base : Nat) (a : Reg) (b : Reg) (v : BitVec 2) (r : BitVec 1) (h : base + 0x1c1ff80 < 2 ^ 32) :
    wordA7B12V22w2R24w1 base a b v r < 2 ^ 32 ∧ wordA7B12V22w2R24w1 base a b v r % 2 = base % 2 := by
  have := a.isLt
  have := b.isLt
  have := v.isLt
  have := r.isLt
  simp only [wordA7B12V22w2R24w1]
  omega

theorem wordA7B12V22w2_fits (base : Nat) (a : Reg) (b : Reg) (v : BitVec 2) (h : base + 0xc1ff80 < 2 ^ 32) :
    wordA7B12V22w2 base a b v < 2 ^ 32 ∧ wordA7B12V22w2 base a b v % 2 = base % 2 := by
  have := a.isLt
  have := b.isLt
  have := v.isLt
  simp only [wordA7B12V22w2]
  omega

theorem wordA7B12R24w1_fits (base : Nat) (a : Reg) (b : Reg) (r : BitVec 1) (h : base + 0x101ff80 < 2 ^ 32) :
    wordA7B12R24w1 base a b r < 2 ^ 32 ∧ wordA7B12R24w1 base a b r % 2 = base % 2 := by
  have := a.isLt
  have := b.isLt
  have := r.isLt
  simp only [wordA7B12R24w1]
  omega

theorem wordB12C17R24w1_fits (base : Nat) (b : Reg) (c : Reg) (r : BitVec 1) (h : base + 0x13ff000 < 2 ^ 32) :
    wordB12C17R24w1 base b c r < 2 ^ 32 ∧ wordB12C17R24w1 base b c r % 2 = base % 2 := by
  have := b.isLt
  have := c.isLt
  have := r.isLt
  simp only [wordB12C17R24w1]
  omega

theorem wordA7B12C17R24w1_fits (base : Nat) (a : Reg) (b : Reg) (c : Reg) (r : BitVec 1) (h : base + 0x13fff80 < 2 ^ 32) :
    wordA7B12C17R24w1 base a b c r < 2 ^ 32 ∧ wordA7B12C17R24w1 base a b c r % 2 = base % 2 := by
  have := a.isLt
  have := b.isLt
  have := c.isLt
  have := r.isLt
  simp only [wordA7B12C17R24w1]
  omega

theorem wordB12K22w3_fits (base : Nat) (b : Reg) (k : BitVec 3) (h : base + 0x1c1f000 < 2 ^ 32) :
    wordB12K22w3 base b k < 2 ^ 32 ∧ wordB12K22w3 base b k % 2 = base % 2 := by
  have := b.isLt
  have := k.isLt
  simp only [wordB12K22w3]
  omega

theorem wordS22w3_fits (base : Nat) (s : BitVec 3) (h : base + 0x1c00000 < 2 ^ 32) :
    wordS22w3 base s < 2 ^ 32 ∧ wordS22w3 base s % 2 = base % 2 := by
  have := s.isLt
  simp only [wordS22w3]
  omega

theorem wordS22w3B12C17_fits (base : Nat) (s : BitVec 3) (b : Reg) (c : Reg) (h : base + 0x1fff000 < 2 ^ 32) :
    wordS22w3B12C17 base s b c < 2 ^ 32 ∧ wordS22w3B12C17 base s b c % 2 = base % 2 := by
  have := s.isLt
  have := b.isLt
  have := c.isLt
  simp only [wordS22w3B12C17]
  omega

theorem wordS22w3B12_fits (base : Nat) (s : BitVec 3) (b : Reg) (h : base + 0x1c1f000 < 2 ^ 32) :
    wordS22w3B12 base s b < 2 ^ 32 ∧ wordS22w3B12 base s b % 2 = base % 2 := by
  have := s.isLt
  have := b.isLt
  simp only [wordS22w3B12]
  omega

theorem wordA7N17w12_fits (base : Nat) (a : Reg) (n : BitVec 12) (h : base + 0x1ffe0f80 < 2 ^ 32) :
    wordA7N17w12 base a n < 2 ^ 32 ∧ wordA7N17w12 base a n % 2 = base % 2 := by
  have := a.isLt
  have := n.isLt
  simp only [wordA7N17w12]
  omega

theorem wordA7N17w12B12_fits (base : Nat) (a : Reg) (n : BitVec 12) (b : Reg) (h : base + 0x1fffff80 < 2 ^ 32) :
    wordA7N17w12B12 base a n b < 2 ^ 32 ∧ wordA7N17w12B12 base a n b % 2 = base % 2 := by
  have := a.isLt
  have := n.isLt
  have := b.isLt
  simp only [wordA7N17w12B12]
  omega

theorem wordK22w1_fits (base : Nat) (k : BitVec 1) (h : base + 0x400000 < 2 ^ 32) :
    wordK22w1 base k < 2 ^ 32 ∧ wordK22w1 base k % 2 = base % 2 := by
  have := k.isLt
  simp only [wordK22w1]
  omega

theorem wordC17w8_fits (base : Nat) (c : BitVec 8) (h : base + 0x1fe0000 < 2 ^ 32) :
    wordC17w8 base c < 2 ^ 32 ∧ wordC17w8 base c % 2 = base % 2 := by
  have := c.isLt
  simp only [wordC17w8]
  omega

theorem wordQ22w1_fits (base : Nat) (q : BitVec 1) (h : base + 0x400000 < 2 ^ 32) :
    wordQ22w1 base q < 2 ^ 32 ∧ wordQ22w1 base q % 2 = base % 2 := by
  have := q.isLt
  simp only [wordQ22w1]
  omega

theorem wordD5S10_fits (base : Nat) (d : Reg) (s : Reg) (h : base + 0x7fe0 < 2 ^ 16) :
    wordD5S10 base d s < 2 ^ 16 ∧ wordD5S10 base d s % 2 = base % 2 := by
  have := d.isLt
  have := s.isLt
  simp only [wordD5S10]
  omega

theorem wordD5I10w6_fits (base : Nat) (d : Reg) (i : BitVec 6) (h : base + 0xffe0 < 2 ^ 16) :
    wordD5I10w6 base d i < 2 ^ 16 ∧ wordD5I10w6 base d i % 2 = base % 2 := by
  have := d.isLt
  have := i.isLt
  simp only [wordD5I10w6]
  omega

theorem wordD5N10w6_fits (base : Nat) (d : Reg) (n : BitVec 6) (h : base + 0xffe0 < 2 ^ 16) :
    wordD5N10w6 base d n < 2 ^ 16 ∧ wordD5N10w6 base d n % 2 = base % 2 := by
  have := d.isLt
  have := n.isLt
  simp only [wordD5N10w6]
  omega

theorem wordD5K10w6_fits (base : Nat) (d : Reg) (k : BitVec 6) (h : base + 0xffe0 < 2 ^ 16) :
    wordD5K10w6 base d k < 2 ^ 16 ∧ wordD5K10w6 base d k % 2 = base % 2 := by
  have := d.isLt
  have := k.isLt
  simp only [wordD5K10w6]
  omega

theorem wordS5K10w6_fits (base : Nat) (s : Reg) (k : BitVec 6) (h : base + 0xffe0 < 2 ^ 16) :
    wordS5K10w6 base s k < 2 ^ 16 ∧ wordS5K10w6 base s k % 2 = base % 2 := by
  have := s.isLt
  have := k.isLt
  simp only [wordS5K10w6]
  omega

theorem wordS5w3O8w8_fits (base : Nat) (s : BitVec 3) (o : BitVec 8) (h : base + 0xffe0 < 2 ^ 16) :
    wordS5w3O8w8 base s o < 2 ^ 16 ∧ wordS5w3O8w8 base s o % 2 = base % 2 := by
  have := s.isLt
  have := o.isLt
  simp only [wordS5w3O8w8]
  omega

theorem wordO5w11_fits (base : Nat) (o : BitVec 11) (h : base + 0xffe0 < 2 ^ 16) :
    wordO5w11 base o < 2 ^ 16 ∧ wordO5w11 base o % 2 = base % 2 := by
  have := o.isLt
  simp only [wordO5w11]
  omega

theorem add (a : Reg) (b : Reg) (c : Reg) : Statement (.add a b c) := fun _ => long (wordA7B12C17_fits 0x1 a b c (by decide))
theorem sub (a : Reg) (b : Reg) (c : Reg) : Statement (.sub a b c) := fun _ => long (wordA7B12C17_fits 0x400001 a b c (by decide))
theorem and (a : Reg) (b : Reg) (c : Reg) : Statement (.and a b c) := fun _ => long (wordA7B12C17_fits 0x800001 a b c (by decide))
theorem or (a : Reg) (b : Reg) (c : Reg) : Statement (.or a b c) := fun _ => long (wordA7B12C17_fits 0xc00001 a b c (by decide))
theorem xor (a : Reg) (b : Reg) (c : Reg) : Statement (.xor a b c) := fun _ => long (wordA7B12C17_fits 0x1000001 a b c (by decide))
theorem sll (a : Reg) (b : Reg) (c : Reg) : Statement (.sll a b c) := fun _ => long (wordA7B12C17_fits 0x1400001 a b c (by decide))
theorem srl (a : Reg) (b : Reg) (c : Reg) : Statement (.srl a b c) := fun _ => long (wordA7B12C17_fits 0x1800001 a b c (by decide))
theorem sra (a : Reg) (b : Reg) (c : Reg) : Statement (.sra a b c) := fun _ => long (wordA7B12C17_fits 0x1c00001 a b c (by decide))
theorem slt (a : Reg) (b : Reg) (c : Reg) : Statement (.slt a b c) := fun _ => long (wordA7B12C17_fits 0x2000001 a b c (by decide))
theorem sltz (a : Reg) (b : Reg) (c : Reg) : Statement (.sltz a b c) := fun _ => long (wordA7B12C17_fits 0x2400001 a b c (by decide))
theorem min (a : Reg) (b : Reg) (c : Reg) : Statement (.min a b c) := fun _ => long (wordA7B12C17_fits 0x2800001 a b c (by decide))
theorem max (a : Reg) (b : Reg) (c : Reg) : Statement (.max a b c) := fun _ => long (wordA7B12C17_fits 0x2c00001 a b c (by decide))
theorem minz (a : Reg) (b : Reg) (c : Reg) : Statement (.minz a b c) := fun _ => long (wordA7B12C17_fits 0x3000001 a b c (by decide))
theorem maxz (a : Reg) (b : Reg) (c : Reg) : Statement (.maxz a b c) := fun _ => long (wordA7B12C17_fits 0x3400001 a b c (by decide))
theorem addw (a : Reg) (b : Reg) (c : Reg) : Statement (.addw a b c) := fun _ => long (wordA7B12C17_fits 0x3800001 a b c (by decide))
theorem subw (a : Reg) (b : Reg) (c : Reg) : Statement (.subw a b c) := fun _ => long (wordA7B12C17_fits 0x3c00001 a b c (by decide))
theorem sllw (a : Reg) (b : Reg) (c : Reg) : Statement (.sllw a b c) := fun _ => long (wordA7B12C17_fits 0x4000001 a b c (by decide))
theorem srlw (a : Reg) (b : Reg) (c : Reg) : Statement (.srlw a b c) := fun _ => long (wordA7B12C17_fits 0x4400001 a b c (by decide))
theorem sraw (a : Reg) (b : Reg) (c : Reg) : Statement (.sraw a b c) := fun _ => long (wordA7B12C17_fits 0x4800001 a b c (by decide))
theorem clz (a : Reg) (b : Reg) : Statement (.clz a b) := fun _ => long (wordA7B12_fits 0x4c00001 a b (by decide))
theorem ctz (a : Reg) (b : Reg) : Statement (.ctz a b) := fun _ => long (wordA7B12_fits 0x5000001 a b (by decide))
theorem cnt (a : Reg) (b : Reg) : Statement (.cnt a b) := fun _ => long (wordA7B12_fits 0x5400001 a b (by decide))
theorem andn (a : Reg) (b : Reg) (c : Reg) : Statement (.andn a b c) := fun _ => long (wordA7B12C17_fits 0x5800001 a b c (by decide))
theorem orn (a : Reg) (b : Reg) (c : Reg) : Statement (.orn a b c) := fun _ => long (wordA7B12C17_fits 0x5c00001 a b c (by decide))
theorem mul (a : Reg) (b : Reg) (c : Reg) : Statement (.mul a b c) := fun _ => long (wordA7B12C17_fits 0x3 a b c (by decide))
theorem mulh (a : Reg) (b : Reg) (c : Reg) : Statement (.mulh a b c) := fun _ => long (wordA7B12C17_fits 0x400003 a b c (by decide))
theorem mulhz (a : Reg) (b : Reg) (c : Reg) : Statement (.mulhz a b c) := fun _ => long (wordA7B12C17_fits 0x800003 a b c (by decide))
theorem mulw (a : Reg) (b : Reg) (c : Reg) : Statement (.mulw a b c) := fun _ => long (wordA7B12C17_fits 0xc00003 a b c (by decide))
theorem div (a : Reg) (b : Reg) (c : Reg) : Statement (.div a b c) := fun _ => long (wordA7B12C17_fits 0x1000003 a b c (by decide))
theorem divz (a : Reg) (b : Reg) (c : Reg) : Statement (.divz a b c) := fun _ => long (wordA7B12C17_fits 0x1400003 a b c (by decide))
theorem rem (a : Reg) (b : Reg) (c : Reg) : Statement (.rem a b c) := fun _ => long (wordA7B12C17_fits 0x1800003 a b c (by decide))
theorem remz (a : Reg) (b : Reg) (c : Reg) : Statement (.remz a b c) := fun _ => long (wordA7B12C17_fits 0x1c00003 a b c (by decide))
theorem divw (a : Reg) (b : Reg) (c : Reg) : Statement (.divw a b c) := fun _ => long (wordA7B12C17_fits 0x2000003 a b c (by decide))
theorem divzw (a : Reg) (b : Reg) (c : Reg) : Statement (.divzw a b c) := fun _ => long (wordA7B12C17_fits 0x2400003 a b c (by decide))
theorem remw (a : Reg) (b : Reg) (c : Reg) : Statement (.remw a b c) := fun _ => long (wordA7B12C17_fits 0x2800003 a b c (by decide))
theorem remzw (a : Reg) (b : Reg) (c : Reg) : Statement (.remzw a b c) := fun _ => long (wordA7B12C17_fits 0x2c00003 a b c (by decide))
theorem addi (a : Reg) (b : Reg) (i : BitVec 15) : Statement (.addi a b i) := fun _ => long (wordA7B12I17w15_fits 0x5 a b i (by decide))
theorem addiw (a : Reg) (b : Reg) (i : BitVec 15) : Statement (.addiw a b i) := fun _ => long (wordA7B12I17w15_fits 0x7 a b i (by decide))
theorem andi (a : Reg) (b : Reg) (i : BitVec 15) : Statement (.andi a b i) := fun _ => long (wordA7B12I17w15_fits 0x9 a b i (by decide))
theorem ori (a : Reg) (b : Reg) (i : BitVec 15) : Statement (.ori a b i) := fun _ => long (wordA7B12I17w15_fits 0xb a b i (by decide))
theorem xori (a : Reg) (b : Reg) (i : BitVec 15) : Statement (.xori a b i) := fun _ => long (wordA7B12I17w15_fits 0xd a b i (by decide))
theorem slti (a : Reg) (b : Reg) (i : BitVec 15) : Statement (.slti a b i) := fun _ => long (wordA7B12I17w15_fits 0xf a b i (by decide))
theorem sltiz (a : Reg) (b : Reg) (i : BitVec 15) : Statement (.sltiz a b i) := fun _ => long (wordA7B12I17w15_fits 0x11 a b i (by decide))
theorem slli (a : Reg) (n : BitVec 6) (b : Reg) : Statement (.slli a n b) := fun _ => long (wordA7N17w6B12_fits 0x13 a n b (by decide))
theorem srli (a : Reg) (n : BitVec 6) (b : Reg) : Statement (.srli a n b) := fun _ => long (wordA7N17w6B12_fits 0x20000013 a n b (by decide))
theorem srai (a : Reg) (n : BitVec 6) (b : Reg) : Statement (.srai a n b) := fun _ => long (wordA7N17w6B12_fits 0x40000013 a n b (by decide))
theorem slliw (a : Reg) (n : BitVec 6) (b : Reg) : Statement (.slliw a n b) := fun _ => long (wordA7N17w6B12_fits 0x60000013 a n b (by decide))
theorem srliw (a : Reg) (n : BitVec 6) (b : Reg) : Statement (.srliw a n b) := fun _ => long (wordA7N17w6B12_fits 0x80000013 a n b (by decide))
theorem sraiw (a : Reg) (n : BitVec 6) (b : Reg) : Statement (.sraiw a n b) := fun _ => long (wordA7N17w6B12_fits 0xa0000013 a n b (by decide))
theorem lui (a : Reg) (i : BitVec 20) : Statement (.lui a i) := fun _ => long (wordA7I12w20_fits 0x15 a i (by decide))
theorem auipc (a : Reg) (i : BitVec 20) : Statement (.auipc a i) := fun _ => long (wordA7I12w20_fits 0x17 a i (by decide))
theorem beq (a : Reg) (b : Reg) (o : BitVec 12) : Statement (.beq a b o) := fun _ => long (wordA7B12O20w12_fits 0x19 a b o (by decide))
theorem bne (a : Reg) (b : Reg) (o : BitVec 12) : Statement (.bne a b o) := fun _ => long (wordA7B12O20w12_fits 0x20019 a b o (by decide))
theorem blt (a : Reg) (b : Reg) (o : BitVec 12) : Statement (.blt a b o) := fun _ => long (wordA7B12O20w12_fits 0x40019 a b o (by decide))
theorem bge (a : Reg) (b : Reg) (o : BitVec 12) : Statement (.bge a b o) := fun _ => long (wordA7B12O20w12_fits 0x60019 a b o (by decide))
theorem blo (a : Reg) (b : Reg) (o : BitVec 12) : Statement (.blo a b o) := fun _ => long (wordA7B12O20w12_fits 0x80019 a b o (by decide))
theorem bhs (a : Reg) (b : Reg) (o : BitVec 12) : Statement (.bhs a b o) := fun _ => long (wordA7B12O20w12_fits 0xa0019 a b o (by decide))
theorem jal (a : Reg) (o : BitVec 20) : Statement (.jal a o) := fun _ => long (wordA7O12w20_fits 0x1b a o (by decide))
theorem jalr (a : Reg) (b : Reg) (i : BitVec 15) : Statement (.jalr a b i) := fun _ => long (wordA7B12I17w15_fits 0x1d a b i (by decide))
theorem loop (a : Reg) (L : BitVec 10) : Statement (.loop a L) := fun _ => long (wordA7L12w10_fits 0x1f a L (by decide))
theorem loopImm (n : BitVec 10) (L : BitVec 10) : Statement (.loopImm n L) := fun _ => long (wordN22w10L12w10_fits 0x1f n L (by decide))
theorem lit (a : Reg) (o : BitVec 20) : Statement (.lit a o) := fun _ => long (wordA7O12w20_fits 0x29 a o (by decide))
theorem lb (a : Reg) (b : Reg) (o : BitVec 12) : Statement (.lb a b o) := fun _ => long (wordA7B12O20w12_fits 0x21 a b o (by decide))
theorem lh (a : Reg) (b : Reg) (o : BitVec 12) : Statement (.lh a b o) := fun _ => long (wordA7B12O20w12_fits 0x20021 a b o (by decide))
theorem lw (a : Reg) (b : Reg) (o : BitVec 12) : Statement (.lw a b o) := fun _ => long (wordA7B12O20w12_fits 0x40021 a b o (by decide))
theorem ld (a : Reg) (b : Reg) (o : BitVec 12) : Statement (.ld a b o) := fun _ => long (wordA7B12O20w12_fits 0x60021 a b o (by decide))
theorem lbz (a : Reg) (b : Reg) (o : BitVec 12) : Statement (.lbz a b o) := fun _ => long (wordA7B12O20w12_fits 0x80021 a b o (by decide))
theorem lhz (a : Reg) (b : Reg) (o : BitVec 12) : Statement (.lhz a b o) := fun _ => long (wordA7B12O20w12_fits 0xa0021 a b o (by decide))
theorem lwz (a : Reg) (b : Reg) (o : BitVec 12) : Statement (.lwz a b o) := fun _ => long (wordA7B12O20w12_fits 0xc0021 a b o (by decide))
theorem sb (a : Reg) (b : Reg) (o : BitVec 12) : Statement (.sb a b o) := fun _ => long (wordA7B12O20w12_fits 0x23 a b o (by decide))
theorem sh (a : Reg) (b : Reg) (o : BitVec 12) : Statement (.sh a b o) := fun _ => long (wordA7B12O20w12_fits 0x20023 a b o (by decide))
theorem sw (a : Reg) (b : Reg) (o : BitVec 12) : Statement (.sw a b o) := fun _ => long (wordA7B12O20w12_fits 0x40023 a b o (by decide))
theorem sd (a : Reg) (b : Reg) (o : BitVec 12) : Statement (.sd a b o) := fun _ => long (wordA7B12O20w12_fits 0x60023 a b o (by decide))
theorem lqw (a : Reg) (b : Reg) (c : Reg) : Statement (.lqw a b c) := fun _ => long (wordA7B12C17_fits 0x25 a b c (by decide))
theorem lqd (a : Reg) (b : Reg) (c : Reg) : Statement (.lqd a b c) := fun _ => long (wordA7B12C17_fits 0x400025 a b c (by decide))
theorem sqw (a : Reg) (b : Reg) (c : Reg) : Statement (.sqw a b c) := fun _ => long (wordA7B12C17_fits 0x800025 a b c (by decide))
theorem sqd (a : Reg) (b : Reg) (c : Reg) : Statement (.sqd a b c) := fun _ => long (wordA7B12C17_fits 0xc00025 a b c (by decide))
theorem amoadd (a : Reg) (b : Reg) (c : Reg) : Statement (.amoadd a b c) := fun _ => long (wordA7B12C17_fits 0x80000027 a b c (by decide))
theorem amoaddw (a : Reg) (b : Reg) (c : Reg) : Statement (.amoaddw a b c) := fun _ => long (wordA7B12C17_fits 0x27 a b c (by decide))
theorem amoswap (a : Reg) (b : Reg) (c : Reg) : Statement (.amoswap a b c) := fun _ => long (wordA7B12C17_fits 0x80400027 a b c (by decide))
theorem amoswapw (a : Reg) (b : Reg) (c : Reg) : Statement (.amoswapw a b c) := fun _ => long (wordA7B12C17_fits 0x400027 a b c (by decide))
theorem amocas (a : Reg) (b : Reg) (c : Reg) : Statement (.amocas a b c) := fun _ => long (wordA7B12C17_fits 0x80800027 a b c (by decide))
theorem amocasw (a : Reg) (b : Reg) (c : Reg) : Statement (.amocasw a b c) := fun _ => long (wordA7B12C17_fits 0x800027 a b c (by decide))
theorem amoand (a : Reg) (b : Reg) (c : Reg) : Statement (.amoand a b c) := fun _ => long (wordA7B12C17_fits 0x80c00027 a b c (by decide))
theorem amoandw (a : Reg) (b : Reg) (c : Reg) : Statement (.amoandw a b c) := fun _ => long (wordA7B12C17_fits 0xc00027 a b c (by decide))
theorem amoor (a : Reg) (b : Reg) (c : Reg) : Statement (.amoor a b c) := fun _ => long (wordA7B12C17_fits 0x81000027 a b c (by decide))
theorem amoorw (a : Reg) (b : Reg) (c : Reg) : Statement (.amoorw a b c) := fun _ => long (wordA7B12C17_fits 0x1000027 a b c (by decide))
theorem amoxor (a : Reg) (b : Reg) (c : Reg) : Statement (.amoxor a b c) := fun _ => long (wordA7B12C17_fits 0x81400027 a b c (by decide))
theorem amoxorw (a : Reg) (b : Reg) (c : Reg) : Statement (.amoxorw a b c) := fun _ => long (wordA7B12C17_fits 0x1400027 a b c (by decide))
theorem amomin (a : Reg) (b : Reg) (c : Reg) : Statement (.amomin a b c) := fun _ => long (wordA7B12C17_fits 0x81800027 a b c (by decide))
theorem amominw (a : Reg) (b : Reg) (c : Reg) : Statement (.amominw a b c) := fun _ => long (wordA7B12C17_fits 0x1800027 a b c (by decide))
theorem amomax (a : Reg) (b : Reg) (c : Reg) : Statement (.amomax a b c) := fun _ => long (wordA7B12C17_fits 0x81c00027 a b c (by decide))
theorem amomaxw (a : Reg) (b : Reg) (c : Reg) : Statement (.amomaxw a b c) := fun _ => long (wordA7B12C17_fits 0x1c00027 a b c (by decide))
theorem amominz (a : Reg) (b : Reg) (c : Reg) : Statement (.amominz a b c) := fun _ => long (wordA7B12C17_fits 0x82000027 a b c (by decide))
theorem amominzw (a : Reg) (b : Reg) (c : Reg) : Statement (.amominzw a b c) := fun _ => long (wordA7B12C17_fits 0x2000027 a b c (by decide))
theorem amomaxz (a : Reg) (b : Reg) (c : Reg) : Statement (.amomaxz a b c) := fun _ => long (wordA7B12C17_fits 0x82400027 a b c (by decide))
theorem amomaxzw (a : Reg) (b : Reg) (c : Reg) : Statement (.amomaxzw a b c) := fun _ => long (wordA7B12C17_fits 0x2400027 a b c (by decide))
theorem vld (a : Reg) (b : Reg) (c : Reg) (t : BitVec 4) (m : MaskField) : Statement (.vld a b c t m) := fun _ => long (wordA7B12C17T28w4M22w3_fits 0x2b a b c t m (by decide))
theorem vlds (a : Reg) (b : Reg) (c : Reg) (t : BitVec 4) (m : MaskField) : Statement (.vlds a b c t m) := fun _ => long (wordA7B12C17T28w4M22w3_fits 0x200002b a b c t m (by decide))
theorem vldx (a : Reg) (b : Reg) (c : Reg) (t : BitVec 4) (m : MaskField) : Statement (.vldx a b c t m) := fun _ => long (wordA7B12C17T28w4M22w3_fits 0x400002b a b c t m (by decide))
theorem vst (a : Reg) (b : Reg) (c : Reg) (t : BitVec 4) (m : MaskField) : Statement (.vst a b c t m) := fun _ => long (wordA7B12C17T28w4M22w3_fits 0x2d a b c t m (by decide))
theorem vsts (a : Reg) (b : Reg) (c : Reg) (t : BitVec 4) (m : MaskField) : Statement (.vsts a b c t m) := fun _ => long (wordA7B12C17T28w4M22w3_fits 0x200002d a b c t m (by decide))
theorem vstx (a : Reg) (b : Reg) (c : Reg) (t : BitVec 4) (m : MaskField) : Statement (.vstx a b c t m) := fun _ => long (wordA7B12C17T28w4M22w3_fits 0x400002d a b c t m (by decide))
theorem vadd (a : Reg) (b : Reg) (c : Reg) (w : BitVec 2) (m : MaskField) : Statement (.vadd a b c w m) := fun _ => long (wordA7B12C17W25w2M22w3_fits 0x2f a b c w m (by decide))
theorem vsub (a : Reg) (b : Reg) (c : Reg) (w : BitVec 2) (m : MaskField) : Statement (.vsub a b c w m) := fun _ => long (wordA7B12C17W25w2M22w3_fits 0x800002f a b c w m (by decide))
theorem vmul (a : Reg) (b : Reg) (c : Reg) (w : BitVec 2) (m : MaskField) : Statement (.vmul a b c w m) := fun _ => long (wordA7B12C17W25w2M22w3_fits 0x1000002f a b c w m (by decide))
theorem vmulh (a : Reg) (b : Reg) (c : Reg) (w : BitVec 2) (m : MaskField) : Statement (.vmulh a b c w m) := fun _ => long (wordA7B12C17W25w2M22w3_fits 0x1800002f a b c w m (by decide))
theorem vand (a : Reg) (b : Reg) (c : Reg) (w : BitVec 2) (m : MaskField) : Statement (.vand a b c w m) := fun _ => long (wordA7B12C17W25w2M22w3_fits 0x2000002f a b c w m (by decide))
theorem vor (a : Reg) (b : Reg) (c : Reg) (w : BitVec 2) (m : MaskField) : Statement (.vor a b c w m) := fun _ => long (wordA7B12C17W25w2M22w3_fits 0x2800002f a b c w m (by decide))
theorem vxor (a : Reg) (b : Reg) (c : Reg) (w : BitVec 2) (m : MaskField) : Statement (.vxor a b c w m) := fun _ => long (wordA7B12C17W25w2M22w3_fits 0x3000002f a b c w m (by decide))
theorem vsll (a : Reg) (b : Reg) (c : Reg) (w : BitVec 2) (m : MaskField) : Statement (.vsll a b c w m) := fun _ => long (wordA7B12C17W25w2M22w3_fits 0x3800002f a b c w m (by decide))
theorem vsrl (a : Reg) (b : Reg) (c : Reg) (w : BitVec 2) (m : MaskField) : Statement (.vsrl a b c w m) := fun _ => long (wordA7B12C17W25w2M22w3_fits 0x4000002f a b c w m (by decide))
theorem vsra (a : Reg) (b : Reg) (c : Reg) (w : BitVec 2) (m : MaskField) : Statement (.vsra a b c w m) := fun _ => long (wordA7B12C17W25w2M22w3_fits 0x4800002f a b c w m (by decide))
theorem vmin (a : Reg) (b : Reg) (c : Reg) (w : BitVec 2) (m : MaskField) : Statement (.vmin a b c w m) := fun _ => long (wordA7B12C17W25w2M22w3_fits 0x5000002f a b c w m (by decide))
theorem vmax (a : Reg) (b : Reg) (c : Reg) (w : BitVec 2) (m : MaskField) : Statement (.vmax a b c w m) := fun _ => long (wordA7B12C17W25w2M22w3_fits 0x5800002f a b c w m (by decide))
theorem vminz (a : Reg) (b : Reg) (c : Reg) (w : BitVec 2) (m : MaskField) : Statement (.vminz a b c w m) := fun _ => long (wordA7B12C17W25w2M22w3_fits 0x6000002f a b c w m (by decide))
theorem vmaxz (a : Reg) (b : Reg) (c : Reg) (w : BitVec 2) (m : MaskField) : Statement (.vmaxz a b c w m) := fun _ => long (wordA7B12C17W25w2M22w3_fits 0x6800002f a b c w m (by decide))
theorem vabs (a : Reg) (b : Reg) (w : BitVec 2) (m : MaskField) : Statement (.vabs a b w m) := fun _ => long (wordA7B12W25w2M22w3_fits 0x7000002f a b w m (by decide))
theorem vceq (a : Reg) (b : Reg) (c : Reg) (w : BitVec 2) (m : MaskField) : Statement (.vceq a b c w m) := fun _ => long (wordA7B12C17W25w2M22w3_fits 0x7800002f a b c w m (by decide))
theorem vclt (a : Reg) (b : Reg) (c : Reg) (w : BitVec 2) (m : MaskField) : Statement (.vclt a b c w m) := fun _ => long (wordA7B12C17W25w2M22w3_fits 0x8000002f a b c w m (by decide))
theorem vclo (a : Reg) (b : Reg) (c : Reg) (w : BitVec 2) (m : MaskField) : Statement (.vclo a b c w m) := fun _ => long (wordA7B12C17W25w2M22w3_fits 0x8800002f a b c w m (by decide))
theorem vsel (a : Reg) (b : Reg) (c : Reg) (m : MaskField) : Statement (.vsel a b c m) := fun _ => long (wordA7B12C17M22w3_fits 0x9400002f a b c m (by decide))
theorem vsat (a : Reg) (b : Reg) (k : BitVec 5) (w : BitVec 2) (m : MaskField) : Statement (.vsat a b k w m) := fun _ => long (wordA7B12K17W25w2M22w3_fits 0x9800002f a b k w m (by decide))
theorem vfadd (a : Reg) (b : Reg) (c : Reg) (m : MaskField) : Statement (.vfadd a b c m) := fun _ => long (wordA7B12C17M22w3_fits 0x31 a b c m (by decide))
theorem vfsub (a : Reg) (b : Reg) (c : Reg) (m : MaskField) : Statement (.vfsub a b c m) := fun _ => long (wordA7B12C17M22w3_fits 0x2000031 a b c m (by decide))
theorem vfmul (a : Reg) (b : Reg) (c : Reg) (m : MaskField) : Statement (.vfmul a b c m) := fun _ => long (wordA7B12C17M22w3_fits 0x4000031 a b c m (by decide))
theorem vfma (a : Reg) (b : Reg) (c : Reg) (m : MaskField) : Statement (.vfma a b c m) := fun _ => long (wordA7B12C17M22w3_fits 0x6000031 a b c m (by decide))
theorem vfms (a : Reg) (b : Reg) (c : Reg) (m : MaskField) : Statement (.vfms a b c m) := fun _ => long (wordA7B12C17M22w3_fits 0x8000031 a b c m (by decide))
theorem vfmin (a : Reg) (b : Reg) (c : Reg) (m : MaskField) : Statement (.vfmin a b c m) := fun _ => long (wordA7B12C17M22w3_fits 0xa000031 a b c m (by decide))
theorem vfmax (a : Reg) (b : Reg) (c : Reg) (m : MaskField) : Statement (.vfmax a b c m) := fun _ => long (wordA7B12C17M22w3_fits 0xc000031 a b c m (by decide))
theorem vfabs (a : Reg) (b : Reg) (m : MaskField) : Statement (.vfabs a b m) := fun _ => long (wordA7B12M22w3_fits 0xe000031 a b m (by decide))
theorem vfneg (a : Reg) (b : Reg) (m : MaskField) : Statement (.vfneg a b m) := fun _ => long (wordA7B12M22w3_fits 0x10000031 a b m (by decide))
theorem vfceq (a : Reg) (b : Reg) (c : Reg) (m : MaskField) : Statement (.vfceq a b c m) := fun _ => long (wordA7B12C17M22w3_fits 0x12000031 a b c m (by decide))
theorem vfclt (a : Reg) (b : Reg) (c : Reg) (m : MaskField) : Statement (.vfclt a b c m) := fun _ => long (wordA7B12C17M22w3_fits 0x14000031 a b c m (by decide))
theorem vfcle (a : Reg) (b : Reg) (c : Reg) (m : MaskField) : Statement (.vfcle a b c m) := fun _ => long (wordA7B12C17M22w3_fits 0x16000031 a b c m (by decide))
theorem vfrcp (a : Reg) (b : Reg) (m : MaskField) : Statement (.vfrcp a b m) := fun _ => long (wordA7B12M22w3_fits 0x18000031 a b m (by decide))
theorem vfrsq (a : Reg) (b : Reg) (m : MaskField) : Statement (.vfrsq a b m) := fun _ => long (wordA7B12M22w3_fits 0x1a000031 a b m (by decide))
theorem vfexp (a : Reg) (b : Reg) (m : MaskField) : Statement (.vfexp a b m) := fun _ => long (wordA7B12M22w3_fits 0x1c000031 a b m (by decide))
theorem vshuf (a : Reg) (b : Reg) (c : Reg) (w : BitVec 2) (m : MaskField) : Statement (.vshuf a b c w m) := fun _ => long (wordA7B12C17W26w2M22w3_fits 0x33 a b c w m (by decide))
theorem vbcast (a : Reg) (b : Reg) (w : BitVec 2) (m : MaskField) : Statement (.vbcast a b w m) := fun _ => long (wordA7B12W26w2M22w3_fits 0x10000033 a b w m (by decide))
theorem vmvx (a : Reg) (b : Reg) (c : Reg) (w : BitVec 2) : Statement (.vmvx a b c w) := fun _ => long (wordA7B12C17W26w2_fits 0x20000033 a b c w (by decide))
theorem vslide (a : Reg) (b : Reg) (c : Reg) (w : BitVec 2) (m : MaskField) : Statement (.vslide a b c w m) := fun _ => long (wordA7B12C17W26w2M22w3_fits 0x30000033 a b c w m (by decide))
theorem vzip (a : Reg) (b : Reg) (c : Reg) (w : BitVec 2) (m : MaskField) : Statement (.vzip a b c w m) := fun _ => long (wordA7B12C17W26w2M22w3_fits 0x40000033 a b c w m (by decide))
theorem vuzp (a : Reg) (b : Reg) (c : Reg) (w : BitVec 2) (m : MaskField) : Statement (.vuzp a b c w m) := fun _ => long (wordA7B12C17W26w2M22w3_fits 0x50000033 a b c w m (by decide))
theorem vreds (a : Reg) (b : Reg) (w : BitVec 2) (m : MaskField) : Statement (.vreds a b w m) := fun _ => long (wordA7B12W26w2M22w3_fits 0x60000033 a b w m (by decide))
theorem vredm (a : Reg) (b : Reg) (w : BitVec 2) (m : MaskField) : Statement (.vredm a b w m) := fun _ => long (wordA7B12W26w2M22w3_fits 0x70000033 a b w m (by decide))
theorem vfreds (a : Reg) (b : Reg) (m : MaskField) : Statement (.vfreds a b m) := fun _ => long (wordA7B12M22w3_fits 0x88000033 a b m (by decide))
theorem vfredm (a : Reg) (b : Reg) (m : MaskField) : Statement (.vfredm a b m) := fun _ => long (wordA7B12M22w3_fits 0x98000033 a b m (by decide))
theorem vcvt (a : Reg) (d : BitVec 4) (s : BitVec 4) (b : Reg) : Statement (.vcvt a d s b) := fun _ => long (wordA7D17w4S22w4B12_fits 0xa0000033 a d s b (by decide))
theorem mand (a : Reg) (b : Reg) (c : Reg) : Statement (.mand a b c) := fun _ => long (wordA7B12C17_fits 0x35 a b c (by decide))
theorem mor (a : Reg) (b : Reg) (c : Reg) : Statement (.mor a b c) := fun _ => long (wordA7B12C17_fits 0x2000035 a b c (by decide))
theorem mxor (a : Reg) (b : Reg) (c : Reg) : Statement (.mxor a b c) := fun _ => long (wordA7B12C17_fits 0x4000035 a b c (by decide))
theorem mnot (a : Reg) (b : Reg) : Statement (.mnot a b) := fun _ => long (wordA7B12_fits 0x6000035 a b (by decide))
theorem mpop (a : Reg) (b : Reg) : Statement (.mpop a b) := fun _ => long (wordA7B12_fits 0x8000035 a b (by decide))
theorem mset (a : Reg) (b : Reg) : Statement (.mset a b) := fun _ => long (wordA7B12_fits 0xa000035 a b (by decide))
theorem guard (b : Reg) : Statement (.guard b) := fun _ => long (wordB12_fits 0x37 b (by decide))
theorem join (j : BitVec 1) : Statement (.join j) := fun _ => long (wordJ22w1_fits 0x2000037 j (by decide))
theorem qjoin : Statement (.qjoin) := fun _ => long (by decide)
theorem qleave : Statement (.qleave) := fun _ => long (by decide)
theorem accz (n : AccNum) (k : BitVec 5) : Statement (.accz n k) := fun _ => long (wordN24w1K17_fits 0x8000037 n k (by decide))
theorem packx (b : Reg) : Statement (.packx b) := fun _ => long (wordB12_fits 0x39 b (by decide))
theorem packy (b : Reg) : Statement (.packy b) := fun _ => long (wordB12_fits 0x2000039 b (by decide))
theorem packxf (b : Reg) : Statement (.packxf b) := fun _ => long (wordB12_fits 0x4000039 b (by decide))
theorem packyf (b : Reg) : Statement (.packyf b) := fun _ => long (wordB12_fits 0x6000039 b (by decide))
theorem packk (b : Reg) : Statement (.packk b) := fun _ => long (wordB12_fits 0x8000039 b (by decide))
theorem muls (n : AccNum) (b : Reg) : Statement (.muls n b) := fun _ => long (wordN24w1B12_fits 0x3b n b (by decide))
theorem mulj (n : AccNum) (b : Reg) : Statement (.mulj n b) := fun _ => long (wordN24w1B12_fits 0x200003b n b (by decide))
theorem mmar (b : Reg) : Statement (.mmar b) := fun _ => long (wordB12_fits 0x400003b b (by decide))
theorem extr (d : Reg) (n : AccNum) (b : Reg) (x : BitVec 1) : Statement (.extr d n b x) := fun _ => long (wordD7N24w1B12X22w1_fits 0x3d d n b x (by decide))
theorem extrf (d : Reg) (n : AccNum) (b : Reg) (x : BitVec 1) : Statement (.extrf d n b x) := fun _ => long (wordD7N24w1B12X22w1_fits 0x200003d d n b x (by decide))
theorem accrd (a : Reg) (n : AccNum) (b : Reg) : Statement (.accrd a n b) := fun _ => long (wordA7N24w1B12_fits 0x400003d a n b (by decide))
theorem accwr (a : Reg) (n : AccNum) (b : Reg) : Statement (.accwr a n b) := fun _ => long (wordA7N24w1B12_fits 0x600003d a n b (by decide))
theorem accmv (d : AccNum) (s : AccNum) : Statement (.accmv d s) := fun _ => long (wordD24w1S23w1_fits 0x800003d d s (by decide))
theorem tld (a : Reg) (b : Reg) : Statement (.tld a b) := fun _ => long (wordA7B12_fits 0x3f a b (by decide))
theorem tst (a : Reg) (b : Reg) : Statement (.tst a b) := fun _ => long (wordA7B12_fits 0x200003f a b (by decide))
theorem tlds (a : Reg) (b : Reg) : Statement (.tlds a b) := fun _ => long (wordA7B12_fits 0x400003f a b (by decide))
theorem act (b : Reg) (c : Reg) : Statement (.act b c) := fun _ => long (wordB12C17_fits 0x41 b c (by decide))
theorem pre (b : Reg) (c : Reg) : Statement (.pre b c) := fun _ => long (wordB12C17_fits 0x2000041 b c (by decide))
theorem rowq (a : Reg) (b : Reg) : Statement (.rowq a b) := fun _ => long (wordA7B12_fits 0x4000041 a b (by decide))
theorem twait (a : Reg) (b : Reg) : Statement (.twait a b) := fun _ => long (wordA7B12_fits 0x43 a b (by decide))
theorem tchk (a : Reg) (b : Reg) : Statement (.tchk a b) := fun _ => long (wordA7B12_fits 0x2000043 a b (by decide))
theorem cpy (a : Reg) : Statement (.cpy a) := fun _ => long (wordA7_fits 0x45 a (by decide))
theorem cpygo : Statement (.cpygo) := fun _ => long (by decide)
theorem cpyq (a : Reg) : Statement (.cpyq a) := fun _ => long (wordA7_fits 0x4000045 a (by decide))
theorem send (a : Reg) (b : Reg) (c : Reg) (v : BitVec 2) (r : BitVec 1) : Statement (.send a b c v r) := fun _ => long (wordA7B12C17V22w2R24w1_fits 0x47 a b c v r (by decide))
theorem sendl (a : Reg) (b : Reg) (v : BitVec 2) (r : BitVec 1) : Statement (.sendl a b v r) := fun _ => long (wordA7B12V22w2R24w1_fits 0x2000047 a b v r (by decide))
theorem reply (b : Reg) (c : Reg) : Statement (.reply b c) := fun _ => long (wordB12C17_fits 0x4400047 b c (by decide))
theorem msgx (a : Reg) (b : Reg) (v : BitVec 2) : Statement (.msgx a b v) := fun _ => long (wordA7B12V22w2_fits 0x6000047 a b v (by decide))
theorem vread (a : Reg) (b : Reg) (r : BitVec 1) : Statement (.vread a b r) := fun _ => long (wordA7B12R24w1_fits 0x49 a b r (by decide))
theorem vwrite (b : Reg) (c : Reg) (r : BitVec 1) : Statement (.vwrite b c r) := fun _ => long (wordB12C17R24w1_fits 0x2000049 b c r (by decide))
theorem vamo (a : Reg) (b : Reg) (c : Reg) (r : BitVec 1) : Statement (.vamo a b c r) := fun _ => long (wordA7B12C17R24w1_fits 0x4000049 a b c r (by decide))
theorem tnew (b : Reg) (c : Reg) : Statement (.tnew b c) := fun _ => long (wordB12C17_fits 0x4b b c (by decide))
theorem tdec (b : Reg) (k : BitVec 3) : Statement (.tdec b k) := fun _ => long (wordB12K22w3_fits 0x200004b b k (by decide))
theorem tarm (b : Reg) : Statement (.tarm b) := fun _ => long (wordB12_fits 0x400004b b (by decide))
theorem fence (s : BitVec 3) : Statement (.fence s) := fun _ => long (wordS22w3_fits 0x4d s (by decide))
theorem signal (s : BitVec 3) (b : Reg) (c : Reg) : Statement (.signal s b c) := fun _ => long (wordS22w3B12C17_fits 0x200004d s b c (by decide))
theorem bar (s : BitVec 3) (b : Reg) : Statement (.bar s b) := fun _ => long (wordS22w3B12_fits 0x400004d s b (by decide))
theorem oxl (a : Reg) (b : Reg) : Statement (.oxl a b) := fun _ => long (wordA7B12_fits 0x4f a b (by decide))
theorem oxs (a : Reg) (b : Reg) : Statement (.oxs a b) := fun _ => long (wordA7B12_fits 0x200004f a b (by decide))
theorem oxc (a : Reg) (b : Reg) (c : Reg) : Statement (.oxc a b c) := fun _ => long (wordA7B12C17_fits 0x400004f a b c (by decide))
theorem srd (a : Reg) (n : BitVec 12) : Statement (.srd a n) := fun _ => long (wordA7N17w12_fits 0x51 a n (by decide))
theorem swr (a : Reg) (n : BitVec 12) (b : Reg) : Statement (.swr a n b) := fun _ => long (wordA7N17w12B12_fits 0x20000051 a n b (by decide))
theorem sset (a : Reg) (n : BitVec 12) (b : Reg) : Statement (.sset a n b) := fun _ => long (wordA7N17w12B12_fits 0x40000051 a n b (by decide))
theorem sclr (a : Reg) (n : BitVec 12) (b : Reg) : Statement (.sclr a n b) := fun _ => long (wordA7N17w12B12_fits 0x60000051 a n b (by decide))
theorem tret : Statement (.tret) := fun _ => long (by decide)
theorem tabort (k : BitVec 1) : Statement (.tabort k) := fun _ => long (wordK22w1_fits 0x2000053 k (by decide))
theorem tspill : Statement (.tspill) := fun _ => long (by decide)
theorem tfill : Statement (.tfill) := fun _ => long (by decide)
theorem brk (c : BitVec 8) : Statement (.brk c) := fun _ => long (wordC17w8_fits 0x8000053 c (by decide))
theorem svc (c : BitVec 8) : Statement (.svc c) := fun _ => long (wordC17w8_fits 0xa000053 c (by decide))
theorem endStream : Statement (.endStream) := fun _ => long (by decide)
theorem nop : Statement (.nop) := fun _ => long (by decide)
theorem qmap (q : BitVec 1) : Statement (.qmap q) := fun _ => long (wordQ22w1_fits 0x4000055 q (by decide))
theorem jrec (a : Reg) (b : Reg) : Statement (.jrec a b) := fun _ => long (wordA7B12_fits 0x57 a b (by decide))
theorem jseal (a : Reg) : Statement (.jseal a) := fun _ => long (wordA7_fits 0x2000057 a (by decide))
theorem emit (b : Reg) (c : Reg) : Statement (.emit b c) := fun _ => long (wordB12C17_fits 0x4000057 b c (by decide))
theorem rngb (a : Reg) (b : Reg) : Statement (.rngb a b) := fun _ => long (wordA7B12_fits 0x59 a b (by decide))
theorem cMv (d : Reg) (s : Reg) : Statement (.cMv d s) := fun _ => short (wordD5S10_fits 0x2 d s (by decide))
theorem cAddi (d : Reg) (i : BitVec 6) : Statement (.cAddi d i) := fun _ => short (wordD5I10w6_fits 0x4 d i (by decide))
theorem cLi (d : Reg) (i : BitVec 6) : Statement (.cLi d i) := fun _ => short (wordD5I10w6_fits 0x6 d i (by decide))
theorem cAdd (d : Reg) (s : Reg) : Statement (.cAdd d s) := fun _ => short (wordD5S10_fits 0x8 d s (by decide))
theorem cSub (d : Reg) (s : Reg) : Statement (.cSub d s) := fun _ => short (wordD5S10_fits 0xa d s (by decide))
theorem cAnd (d : Reg) (s : Reg) : Statement (.cAnd d s) := fun _ => short (wordD5S10_fits 0xc d s (by decide))
theorem cSlli (d : Reg) (n : BitVec 6) : Statement (.cSlli d n) := fun _ => short (wordD5N10w6_fits 0xe d n (by decide))
theorem cSrli (d : Reg) (n : BitVec 6) : Statement (.cSrli d n) := fun _ => short (wordD5N10w6_fits 0x10 d n (by decide))
theorem cLw (d : Reg) (k : BitVec 6) : Statement (.cLw d k) := fun _ => short (wordD5K10w6_fits 0x12 d k (by decide))
theorem cSw (s : Reg) (k : BitVec 6) : Statement (.cSw s k) := fun _ => short (wordS5K10w6_fits 0x14 s k (by decide))
theorem cBeq (s : BitVec 3) (o : BitVec 8) : Statement (.cBeq s o) := fun _ => short (wordS5w3O8w8_fits 0x16 s o (by decide))
theorem cBne (s : BitVec 3) (o : BitVec 8) : Statement (.cBne s o) := fun _ => short (wordS5w3O8w8_fits 0x18 s o (by decide))
theorem cJ (o : BitVec 11) : Statement (.cJ o) := fun _ => short (wordO5w11_fits 0x1a o (by decide))
theorem cEnd : Statement (.cEnd) := fun _ => short (by decide)
theorem cNop : Statement (.cNop) := fun _ => short (by decide)
theorem illop (w : BitVec 32) : Statement (.illop w) := nofun
theorem wdog (slot : SlotIx) : Statement (.wdog slot) := nofun
theorem kill (r : ResIx) : Statement (.kill r) := nofun
theorem residencyRelease (r : ResIx) : Statement (.residencyRelease r) := nofun
theorem reservationClearEnd (r : ResIx) : Statement (.reservationClearEnd r) := nofun
theorem overflowChainMove (r : ResIx) : Statement (.overflowChainMove r) := nofun
theorem dispatch : Statement (.dispatch) := nofun
theorem quadRemotePerform (i : Nat) : Statement (.quadRemotePerform i) := nofun
theorem quadUnitMerge : Statement (.quadUnitMerge) := nofun
theorem mcfg : Statement (.mcfg) := nofun
theorem mpack : Statement (.mpack) := nofun
theorem mmarCommand : Statement (.mmarCommand) := nofun
theorem mzero : Statement (.mzero) := nofun
theorem mextr : Statement (.mextr) := nofun
theorem mstat : Statement (.mstat) := nofun
theorem illcmd : Statement (.illcmd) := nofun
theorem slewGrant : Statement (.slewGrant) := nofun
theorem slewLevelStep : Statement (.slewLevelStep) := nofun
theorem sliceWorkEnd : Statement (.sliceWorkEnd) := nofun
theorem rslewWrite (cap : Fin 30 × BitVec 4) : Statement (.rslewWrite cap) := nofun
theorem tileOpStart : Statement (.tileOpStart) := nofun
theorem vaultBeat : Statement (.vaultBeat) := nofun
theorem tileOpComplete : Statement (.tileOpComplete) := nofun
theorem pageMapResume (mapped : Bool) : Statement (.pageMapResume mapped) := nofun
theorem actAtHead : Statement (.actAtHead) := nofun
theorem preAtHead : Statement (.preAtHead) := nofun
theorem activationEnd (b : BankIx) : Statement (.activationEnd b) := nofun
theorem prechargeEnd (b : BankIx) : Statement (.prechargeEnd b) := nofun
theorem refresh (b : BankIx) : Statement (.refresh b) := nofun
theorem refreshEnd (b : BankIx) : Statement (.refreshEnd b) := nofun
theorem rowRepair (b : BankIx) (row : BitVec 10) : Statement (.rowRepair b row) := nofun
theorem tempSample (temps : List Nat) : Statement (.tempSample temps) := nofun
theorem copy (r : ResIx) : Statement (.copy r) := nofun
theorem restripe (r : ResIx) : Statement (.restripe r) := nofun
theorem fill (r : ResIx) : Statement (.fill r) := nofun
theorem hostrd (r : ResIx) (bytes : List Byte) : Statement (.hostrd r bytes) := nofun
theorem hostwr (r : ResIx) : Statement (.hostwr r) := nofun
theorem drain (r : ResIx) : Statement (.drain r) := nofun
theorem badCopyCommand (r : ResIx) : Statement (.badCopyCommand r) := nofun
theorem copyCompletion (r : ResIx) : Statement (.copyCompletion r) := nofun
theorem chunkMove (r : ResIx) : Statement (.chunkMove r) := nofun
theorem restripeSwitch (r : ResIx) : Statement (.restripeSwitch r) := nofun
theorem translationWalk (asid : Asid) (vpn : Vpn) : Statement (.translationWalk asid vpn) := nofun
theorem tableEntryChange (level : Fin 3) (asid : Asid) (vpn : Vpn) (word : Word) : Statement (.tableEntryChange level asid vpn word) := nofun
theorem dirtyLogMerge (quad : BitVec 13) : Statement (.dirtyLogMerge quad) := nofun
theorem harvest (asid : Asid) : Statement (.harvest asid) := nofun
theorem messageEnqueue (m : Option Msg) : Statement (.messageEnqueue m) := nofun
theorem messageDepart : Statement (.messageDepart) := nofun
theorem signalDecrement : Statement (.signalDecrement) := nofun
theorem signalAck (ctx : Asid × BitVec 4) : Statement (.signalAck ctx) := nofun
theorem scopeMissBounce : Statement (.scopeMissBounce) := nofun
theorem barrierArrival (gang : BitVec 16) (scope : BitVec 3) (core : BitVec 32) : Statement (.barrierArrival gang scope core) := nofun
theorem agentVread (m : Option Msg) : Statement (.agentVread m) := nofun
theorem agentVwrite (m : Option Msg) : Statement (.agentVwrite m) := nofun
theorem agentVamo (m : Option Msg) : Statement (.agentVamo m) := nofun
theorem vfaddc (m : Option Msg) : Statement (.vfaddc m) := nofun
theorem vfence (m : Option Msg) : Statement (.vfence m) := nofun
theorem agentCompletion : Statement (.agentCompletion) := nofun
theorem gangEnd (gang : BitVec 16) : Statement (.gangEnd gang) := nofun
theorem batchShip (r : ResIx) : Statement (.batchShip r) := nofun
theorem batchStore (jid : BitVec 16) (jgrp : BitVec 16) (pgen : BitVec 8) (slots : List JSlot) : Statement (.batchStore jid jgrp pgen slots) := nofun
theorem journalAck (r : ResIx) (pgen : BitVec 8) (num : Word) : Statement (.journalAck r pgen num) := nofun
theorem snapTruncation (r : ResIx) : Statement (.snapTruncation r) := nofun
theorem egressRelease (r : ResIx) : Statement (.egressRelease r) := nofun
theorem heartbeat (r : ResIx) : Statement (.heartbeat r) := nofun
theorem peerLost (r : ResIx) : Statement (.peerLost r) := nofun
theorem bindingFreeze (r : ResIx) : Statement (.bindingFreeze r) := nofun
theorem windowShip (r : ResIx) (ppkg : BitVec 17) (pstk : BitVec 2) : Statement (.windowShip r ppkg pstk) := nofun
theorem windowAck (r : ResIx) (pgen : BitVec 8) : Statement (.windowAck r pgen) := nofun
theorem replay (r : ResIx) (jid : BitVec 16) (fresh : BitVec 16) (digest : Word) (weights : Word) : Statement (.replay r jid fresh digest weights) := nofun
theorem snapcfg (irq : Bool) (body : List Word) : Statement (.snapcfg irq body) := nofun
theorem snapshotCut (asid : Asid) : Statement (.snapshotCut asid) := nofun
theorem pageCopy (asid : Asid) (vpn : Vpn) : Statement (.pageCopy asid vpn) := nofun
theorem shingleDrain : Statement (.shingleDrain) := nofun
theorem shingleAck (i : Nat) (accepted : Bool) : Statement (.shingleAck i accepted) := nofun
theorem drainWalk (asid : Asid) (vpn : Vpn) : Statement (.drainWalk asid vpn) := nofun
theorem snapshotSeal (asid : Asid) : Statement (.snapshotSeal asid) := nofun
theorem scanVisit (q : BitVec 11) : Statement (.scanVisit q) := nofun
theorem scanEnd (q : BitVec 11) (pass : Bool) : Statement (.scanEnd q pass) := nofun
theorem spareRemap (q : BitVec 11) (spare : Nat) : Statement (.spareRemap q spare) := nofun
theorem ringNotify (ring : Fin 8) (pi : BitVec 32) (relaxed : Bool) : Statement (.ringNotify ring pi relaxed) := nofun
theorem placeAndStart (ring : Fin 24) (p : Option Placement) : Statement (.placeAndStart ring p) := nofun
theorem placeOnly (ring : Fin 24) (p : Option Placement) : Statement (.placeOnly ring p) := nofun
theorem start (ring : Fin 24) : Statement (.start ring) := nofun
theorem cancel (ring : Fin 24) : Statement (.cancel ring) := nofun
theorem sealReread (ring : Fin 24) : Statement (.sealReread ring) := nofun
theorem launchForward (packet : BitVec 1024) (n : BitVec 17 × BitVec 32) (p : Option Placement) : Statement (.launchForward packet n p) := nofun
theorem readyReport (gang : BitVec 16) (pkg : BitVec 17) (status : BitVec 8) : Statement (.readyReport gang pkg status) := nofun
theorem commit (gang : BitVec 16) : Statement (.commit gang) := nofun
theorem launchAbort (gang : BitVec 16) : Statement (.launchAbort gang) := nofun
theorem selfAbort (gang : BitVec 16) : Statement (.selfAbort gang) := nofun
theorem armedStart (r : ResIx) : Statement (.armedStart r) := nofun
theorem launchReconsider (p : Option Placement) : Statement (.launchReconsider p) := nofun
theorem saveStart (r : ResIx) (va : Word) (len : Word) : Statement (.saveStart r va len) := nofun
theorem saveUnitAck (r : ResIx) : Statement (.saveUnitAck r) := nofun
theorem saveFault (r : ResIx) : Statement (.saveFault r) := nofun
theorem saveResume (r : ResIx) : Statement (.saveResume r) := nofun
theorem saveAbandon (r : ResIx) : Statement (.saveAbandon r) := nofun
theorem restore (r : ResIx) (va : Word) (p : Placement) : Statement (.restore r va p) := nofun
theorem gate (quad : Nat) : Statement (.gate quad) := nofun
theorem wake (quad : Nat) : Statement (.wake quad) := nofun
theorem gateFall (quad : Nat) : Statement (.gateFall quad) := nofun
theorem wakeAdmit : Statement (.wakeAdmit) := nofun
theorem wakeComplete (quad : Nat) : Statement (.wakeComplete quad) := nofun
theorem controlWrite (reg : ControlReg) (value : BitVec 128) : Statement (.controlWrite reg value) := nofun
theorem flitReceive (m : Fin 8) (crcOk : Bool) (num : BitVec 8) (flit : Flit) : Statement (.flitReceive m crcOk num flit) := nofun
theorem nakReceive (m : Fin 8) (e : BitVec 8) : Statement (.nakReceive m e) := nofun
theorem flitAck (m : Fin 8) (e : BitVec 8) : Statement (.flitAck m e) := nofun
theorem laneFailure (m : Fin 8) (repaired : Bool) : Statement (.laneFailure m repaired) := nofun
theorem retrainEnd (m : Fin 8) : Statement (.retrainEnd m) := nofun
theorem moduleDead (m : Fin 8) (e : Option (BitVec 8)) : Statement (.moduleDead m e) := nofun
theorem sidebandTimeout (m : Fin 8) : Statement (.sidebandTimeout m) := nofun
theorem fabricPacket (flow : Nat) (num : BitVec 32) (msg : Msg) : Statement (.fabricPacket flow num msg) := nofun
theorem fabricAck (flow : Nat) (num : BitVec 32) : Statement (.fabricAck flow num) := nofun
theorem gapTimeout (flow : Nat) : Statement (.gapTimeout flow) := nofun
theorem resendTimeout (flow : Nat) (num : BitVec 32) : Statement (.resendTimeout flow num) := nofun
theorem linkDead (port : Fin 8) : Statement (.linkDead port) := nofun
theorem linkReturn (port : Fin 8) : Statement (.linkReturn port) := nofun
theorem timingPacket (tick : Word) (synced : Bool) : Statement (.timingPacket tick synced) := nofun
theorem hostRead (off : BitVec 36) (len : BitVec 13) : Statement (.hostRead off len) := nofun
theorem hostWrite (off : BitVec 36) (bytes : List Byte) (relaxed : Bool) : Statement (.hostWrite off bytes relaxed) := nofun
theorem cciWrite (cci : BitVec 32) : Statement (.cciWrite cci) := nofun
theorem ringcfg (irq : Bool) (body : List Word) : Statement (.ringcfg irq body) := nofun
theorem cringcfg (irq : Bool) (body : List Word) : Statement (.cringcfg irq body) := nofun
theorem wincfg (irq : Bool) (body : List Word) : Statement (.wincfg irq body) := nofun
theorem dmawcfg (irq : Bool) (body : List Word) : Statement (.dmawcfg irq body) := nofun
theorem badcmd (command : Word) (body : List Word) : Statement (.badcmd command body) := nofun
theorem fwload (irq : Bool) (file : List Byte) : Statement (.fwload irq file) := nofun
theorem imgload (irq : Bool) (body : List Word) (index : BitVec 8) (base : BitVec 9) (room : Bool) : Statement (.imgload irq body index base room) := nofun
theorem imgdrop (irq : Bool) (body : List Word) : Statement (.imgdrop irq body) := nofun
theorem imageForward (source : BitVec 11) (target : BitVec 11) : Statement (.imageForward source target) := nofun
theorem powerUp : Statement (.powerUp) := nofun
theorem readyDeadline (gang : BitVec 16) : Statement (.readyDeadline gang) := nofun
theorem hostMapTimeout : Statement (.hostMapTimeout) := nofun
theorem fabricNak (flow : Nat) (num : BitVec 32) : Statement (.fabricNak flow num) := nofun
theorem moduleRetrain (m : Fin 8) (full : Bool) : Statement (.moduleRetrain m full) := nofun
theorem controllerFailure (vault : BitVec 15) : Statement (.controllerFailure vault) := nofun

end Sys2Proof.Laws.WordFits
end

