-- ==== Sys2Proof/Tests/Slice0.lean ====
section
/-! SUPPORT. Tests: field limits, words of the spec, single steps, and for the obligations states and operands that meet their hypotheses. -/

namespace Sys2Proof.Tests

set_option Elab.async false

open Sys2Proof Sys2Proof.Machine Sys2Proof.Spec

/-! ## States -/

/-- A stream at its first instruction in a RUNNING residency of all scratchpad banks and accumulators; everything else as after reset. -/
def base : State := State.reset.withFetchWord 32 0

/-- The same with values in x1, x2 and x3. -/
def withX (a b c : Word) : State := writeX 3 c (writeX 2 b (writeX 1 a base))

/-- The same with a value in ox1. -/
def withOx (d : BitVec 128) (s : State) : State := writeOx 1 d s

/-- The same at another place of the program, inside loop levels. -/
def inLoops (pc : Word) (ls : List Loop) (s : State) : State := s.setSt { s.st with pc := pc, loops := ls }

/-- The same with other core fields. -/
def inCore (f : Core → Core) (s : State) : State := { s with core := f s.core }

/-- The same with another residency. -/
def inRes (f : Residency → Residency) (s : State) : State := s.setRs (f s.rs)

/-- A state without locks, races, uncorrectable words or a FENCE lets every local access through. -/
theorem localGoes_of {read write : Bool} {offs : List Int} {s : State} (h1 : fenceHolds s = false) (h2 : s.core.locks = Vector.replicate 8 none)
    (h3 : s.rs.quadMapped = false) (h4 : s.core.spadBad = []) : LocalGoes read write offs s where
  fence := h1
  locks := by simp [lockMeets, h2]
  races := by simp [h3]
  sound := by simp [h4]

/-- Whether an answer is a next state. -/
def goes (o : Res) : Bool := match o with
  | .next _ => true
  | _ => false

theorem goesOn_of {o : Res} (h : goes o = true) : goesOn o := by
  cases o with
  | next s => exact ⟨s, rfl⟩
  | _ => cases h

/-! ## Scalar and control statements -/

theorem wit_AluResults : (∃ f, aluResult (.sub 1 2 3) = some (1, 2, 3, f)) ∧ reads2 1 2 3 (withX 9 0 1) 0 1 (withX 9 0 1) ∧ fits 4 (withX 9 0 1) :=
  ⟨⟨_, rfl⟩, ⟨_, rfl, rfl, rfl⟩, rfl⟩

theorem wit_OneSourceResults : (∃ f, oneSourceResult (.slliw 1 31 2) = some (1, 2, f)) ∧ (Instr.slliw 1 31 2).wellFormed = true
    ∧ reads1 1 2 (withX 0 1 0) 1 (withX 0 1 0) ∧ fits 4 (withX 0 1 0) := ⟨⟨_, rfl⟩, rfl, ⟨rfl, rfl⟩, rfl⟩

theorem wit_DivideResults : (∃ f, divResult (.div 1 2 3) = some (1, 2, 3, false, f))
    ∧ reads2 1 2 3 (withX 0 0x8000000000000000 0xFFFFFFFFFFFFFFFF) 0x8000000000000000 0xFFFFFFFFFFFFFFFF (withX 0 0x8000000000000000 0xFFFFFFFFFFFFFFFF)
    ∧ testedDivisor false 0xFFFFFFFFFFFFFFFF ≠ 0 ∧ fits 4 (withX 0 0x8000000000000000 0xFFFFFFFFFFFFFFFF) :=
  ⟨⟨_, rfl⟩, ⟨_, rfl, rfl, rfl⟩, by decide, rfl⟩

theorem wit_DivideByZeroTraps : (∃ f, divResult (.divw 1 2 3) = some (1, 2, 3, true, f)) ∧ reads2 1 2 3 (withX 9 5 0x100000000) 5 0x100000000 (withX 9 5 0x100000000)
    ∧ testedDivisor true 0x100000000 = 0 ∧ (withX 9 5 0x100000000).sliceBusy = false :=
  ⟨⟨_, rfl⟩, ⟨_, rfl, rfl, rfl⟩, by decide, rfl⟩

theorem wit_MultiplyMembers : reads2 1 2 3 (withX 0 0x8000000000000000 0xFFFFFFFFFFFFFFFF) 0x8000000000000000 0xFFFFFFFFFFFFFFFF
    (withX 0 0x8000000000000000 0xFFFFFFFFFFFFFFFF) ∧ fits (Instr.mulh 1 2 3).len (withX 0 0x8000000000000000 0xFFFFFFFFFFFFFFFF) := ⟨⟨_, rfl, rfl, rfl⟩, rfl⟩

theorem wit_UpperImmediates : roomX 9 base = true ∧ fits 4 base := ⟨rfl, rfl⟩

theorem wit_Branches_taken : (∃ o p, branchRule (.bge 1 2 0x800) = some (1, 2, o, p) ∧ p 5 5) ∧ popX 2 (withX 5 5 0) = some (5, withX 5 5 0)
    ∧ popX 1 (withX 5 5 0) = some (5, withX 5 5 0) := ⟨⟨_, _, rfl, by decide⟩, rfl, rfl⟩

theorem wit_Branches_notTaken : (∃ o p, branchRule (.cBeq 1 5) = some (0, 9, o, p) ∧ ¬ p 0 7) ∧ popX 9 (writeX 9 7 base) = some (7, writeX 9 7 base)
    ∧ popX 0 (writeX 9 7 base) = some (0, writeX 9 7 base) ∧ fits 2 (writeX 9 7 base) := ⟨⟨_, _, rfl, by decide⟩, rfl, rfl, rfl⟩

theorem wit_Jumps_even : reads1 1 2 (withX 0 0x40 0) 0x40 (withX 0 0x40 0) ∧ ((0x40 : Word) + (0 : BitVec 15).signExtend 64).getLsbD 0 = false := ⟨⟨rfl, rfl⟩, by decide⟩

theorem wit_Jumps_odd : reads1 1 2 (withX 0 0x40 0) 0x40 (withX 0 0x40 0) ∧ ((0x40 : Word) + (1 : BitVec 15).signExtend 64).getLsbD 0 = true
    ∧ (withX 0 0x40 0).sliceBusy = false := ⟨⟨rfl, rfl⟩, by decide, rfl⟩

theorem wit_Loops_first : popX 1 (withX 3 0 0) = some (3, withX 3 0 0) ∧ (3 : Word) ≠ 0 ∧ (withX 3 0 0).st.loops = [] := ⟨rfl, by decide, rfl⟩

/-- A nested LOOP whose body of six halfwords ends with the enclosing one, and one whose body would end two bytes behind it. -/
theorem wit_Loops_second : (∃ lv, (inLoops 4 [⟨0, 20, 2⟩] base).st.loops = [lv] ∧ ((4 : Word) + 4 + BitVec.ofNat 64 (2 * 6)).toNat ≤ lv.stop.toNat)
    ∧ (∃ lv, (inLoops 4 [⟨0, 20, 2⟩] base).st.loops = [lv] ∧ lv.stop.toNat < ((4 : Word) + 4 + BitVec.ofNat 64 (2 * 7)).toNat)
    ∧ (inLoops 4 [⟨0, 20, 2⟩] base).sliceBusy = false := ⟨⟨_, rfl, by decide⟩, ⟨_, rfl, by decide⟩, rfl⟩

theorem wit_Loops_third : 2 ≤ (inLoops 4 [⟨0, 20, 2⟩, ⟨0, 40, 2⟩] base).st.loops.length ∧ (inLoops 4 [⟨0, 20, 2⟩, ⟨0, 40, 2⟩] base).sliceBusy = false := ⟨by decide, rfl⟩

theorem wit_Loops_zero : (0 : Word) = BitVec.ofNat 64 (0 : BitVec 10).toNat ∧ base.st.loops = [] := ⟨rfl, rfl⟩

/-- At the level's end 20: an instruction of 4 bytes at 18 straddles it, one at 14 stays inside, one at 16 ends there. -/
theorem wit_LoopEnds : ((18 : Word).toNat < (20 : Word).toNat ∧ (20 : Word).toNat < (18 : Word).toNat + 4)
    ∧ (¬ ((14 : Word).toNat < (20 : Word).toNat ∧ (20 : Word).toNat < (14 : Word).toNat + 4) ∧ (14 : Word) + BitVec.ofNat 64 4 ≠ 20)
    ∧ (¬ ((16 : Word).toNat < (20 : Word).toNat ∧ (20 : Word).toNat < (16 : Word).toNat + 4) ∧ (16 : Word) + BitVec.ofNat 64 4 = 20)
    ∧ 1 < (2 : Word).toNat ∧ (1 : Word).toNat ≤ 1 ∧ ¬ fits 4 (inLoops 18 [⟨0, 20, 2⟩] base) := by unfold fits; decide

/-- The last doubleword of the image region, and the first that does not lie in it. -/
theorem wit_Literals : (let t := (inLoops 32752 [] base).st.pc + (4 : BitVec 20).signExtend 64 * 2
      t.toNat + 8 ≤ base.rs.regionEnd ∧ roomX 1 (inLoops 32752 [] base) = true ∧ (inLoops 32752 [] base).quad.istoreBad = [] ∧ fits 4 (inLoops 32752 [] base))
    ∧ base.rs.regionEnd < ((inLoops 32752 [] base).st.pc + (5 : BitVec 20).signExtend 64 * 2).toNat + 8 ∧ (inLoops 32752 [] base).sliceBusy = false := by
  unfold fits; decide

theorem wit_ScalarFrames : scalarDest (.lui 1 5) = some 1 ∧ fits 4 base ∧ goesOn (exec (.lui 1 5) base) := ⟨rfl, rfl, ⟨_, rfl⟩⟩

theorem wit_RegisterFiles : (31 : Reg) ≠ 0 ∧ (1 : Reg) ≠ 31 ∧ (7 : Fin 8) ≠ 0 ∧ (1 : Fin 8) ≠ 7 := by decide

/-- A state whose stream names the queues, with entries in sq3 and vq1. -/
def queued : State := match base.task with
  | some k => (base.setTask { k with sq := #v[[], [], [], [5, 6]], vq := #v[[], [7]] }).setSt { base.st with qm := true }
  | none => base

theorem wit_ScalarQueues : (∃ k, queued.task = some k ∧ k.sq[(3 : Fin 4)] = [5, 6] ∧ k.sq[(0 : Fin 4)] = []) ∧ scalarQueue 31 = some 3 ∧ scalarQueue 28 = some 0
    ∧ queued.st.qm = true ∧ queued.core.remote = [] ∧ base.st.qm = false ∧ base.task.isSome = true ∧ base.core.remote = [] :=
  ⟨⟨_, rfl, rfl, rfl⟩, rfl, rfl, rfl, rfl, rfl, rfl, rfl⟩

theorem wit_VectorQueues : (∃ k, queued.task = some k ∧ k.vq[(1 : Fin 2)] = [7] ∧ k.vq[(0 : Fin 2)] = []) ∧ vectorQueue 31 = some 1 ∧ vectorQueue 30 = some 0
    ∧ queued.st.qm = true ∧ base.st.qm = false := ⟨⟨_, rfl, rfl, rfl⟩, rfl, rfl, rfl, rfl⟩

/-! ## Local memory -/

/-- The last bytes of a reservation of 49,152 bytes: two lie in it, two do not. -/
theorem wit_LoadResults : (∃ f, loads (.lw 1 2 2) 1 49150 4 f (withX 0 49148 0) (withX 0 49148 0)) ∧ (withX 0 49148 0).memoriesWf :=
  ⟨⟨_, 2, 2, 49148, rfl, rfl, rfl, by decide, localGoes_of rfl rfl rfl rfl, rfl⟩, ⟨rfl, rfl, rfl, rfl, rfl⟩⟩

theorem wit_ReadBytes : inside base (49150 + 1) ∧ ¬ inside base (49150 + 2) := by unfold inside; decide

theorem wit_StoreResults : stores (.sw 1 2 2) 49150 4 0x12345678 (withX 0x12345678 49148 0) (withX 0x12345678 49148 0) ∧ (withX 0x12345678 49148 0).memoriesWf :=
  ⟨⟨1, 2, 2, 49148, 0x12345678, _, rfl, rfl, rfl, rfl, by decide, localGoes_of rfl rfl rfl rfl, rfl⟩, ⟨rfl, rfl, rfl, rfl, rfl⟩⟩

theorem wit_AtomicResults : (∃ f, atomics (.amocasw 1 2 3) 1 8 4 5 0 f (withX 0 11 5) (withX 0 11 5)) ∧ (withX 0 11 5).memoriesWf :=
  ⟨⟨_, 2, 3, true, 11, 5, 0, _, _, rfl, rfl, rfl, rfl, rfl, by decide, by decide, by decide, localGoes_of rfl rfl rfl rfl, rfl⟩, ⟨rfl, rfl, rfl, rfl, rfl⟩⟩

/-- The same instructions in those states go on: the premises of the frames. -/
theorem wit_LocalFrames : goes (exec (.lw 1 2 2) (withX 0 49148 0)) = true ∧ goes (exec (.sw 1 2 2) (withX 0x12345678 49148 0)) = true
    ∧ goes (exec (.amocasw 1 2 3) (withX 0 11 5)) = true := by decide +kernel

/-- An access at the reservation's end, whose lowest offset out of range is 49,152. -/
theorem wit_RangeFlag : (49152 : Int) ∈ byteRange 49150 4 ∧ ¬ inside base 49152 ∧ (∀ p ∈ byteRange 49150 4, ¬ inside base p → (49152 : Int) ≤ p)
    ∧ base.rs.spflag.getLsbD 63 = false ∧ (∀ o ∈ byteRange 49148 4, inside base o) := by unfold inside; decide

/-- A residency that is quad-mapped. -/
def quadMapped : State := inRes (fun r => { r with quadMapped := true }) (withX 7 0x100 1)

theorem wit_GranuleRecords : quadMapped.rs.quadMapped = true ∧ (∃ o ∈ byteRange 255 4, inside quadMapped o ∧ o.toNat / 256 = 1)
    ∧ (∀ o ∈ byteRange 255 4, inside quadMapped o → o.toNat / 256 ≠ 2) ∧ base.rs.quadMapped = false := by unfold inside; decide

/-- A state with a lock of mode RD over the bytes 0x20 to 0x3F and 0x100 to 0x17F in entry 2. -/
def locked : State := inCore (fun c => { c with locks := c.locks.set 2 (some ⟨.spad, [(0x20, 0x40), (0x100, 0x180)], false, 0, none⟩) }) (withX 7 0xFE 0)

theorem lockMeets_iff {ls : Vector (Option Lock) 8} {w : Bool} {p : Nat} : lockMeets ls w p ↔
    ∃ k : Fin 8, ls[k].any (fun l => decide (l.space = .spad ∧ (l.wr = true ∨ w = true)) && l.ranges.any (fun r => decide (r.1 ≤ p ∧ p < r.2))) = true := by
  simp [lockMeets, Option.any_eq_true, and_assoc]

theorem wit_RangeLocks : (∃ a b d x w s1, storeRule (.sw 1 2 0) = some (a, b, d, 4) ∧ popX b locked = some (x, s1) ∧ popX a s1 = some (w, locked)
      ∧ (0xFE : Int) = ((x + d.signExtend 64).toNat : Int))
    ∧ fenceHolds locked = false ∧ locked.sliceBusy = false ∧ ((0x100 : Nat) : Int) ∈ byteRange 0xFE 4 ∧ inside locked ((0x100 : Nat) : Int)
    ∧ (∃ l, locked.core.locks[(2 : Fin 8)] = some l ∧ l.space = .spad ∧ (l.wr = true ∨ true = true)
      ∧ ∃ r ∈ l.ranges, r.1 ≤ physical locked ((0x100 : Nat) : Int) ∧ physical locked ((0x100 : Nat) : Int) < r.2)
    ∧ (∀ j < (2 : Fin 8), locked.core.locks[j] = none)
    ∧ (∀ o ∈ byteRange 0xFE 4, o < 0x100 → ¬ lockMeets locked.core.locks true (physical locked o)) := by
  refine ⟨⟨1, 2, 0, 0xFE, 7, _, rfl, rfl, rfl, by decide⟩, rfl, rfl, by decide, by unfold inside; decide, ⟨_, rfl, rfl, by decide, (0x100, 0x180), by decide, by decide, by decide⟩, by decide, ?_⟩
  simp only [lockMeets_iff]
  decide

theorem wit_QuadAccesses_own : (∃ f, quadRule (.lqd 1 2 3) = some (1, 2, 3, 8, some f)) ∧ popX 2 (withX 0 49148 4) = some (49148, withX 0 49148 4)
    ∧ popX 3 (withX 0 49148 4) = some (4, withX 0 49148 4) ∧ roomX 1 (withX 0 49148 4) = true ∧ fits 4 (withX 0 49148 4)
    ∧ (4 : Word).setWidth 2 = (withX 0 49148 4).coreInQuad ∧ LocalGoes true false (byteRange 49148 8) (withX 0 49148 4) :=
  ⟨⟨_, rfl⟩, rfl, rfl, rfl, rfl, rfl, localGoes_of rfl rfl rfl rfl⟩

/-- Reservations of a gang on the quad-mates, and the residency that is mapped to one of them. -/
def mated : State := { quadMapped with quad := { quadMapped.quad with mates := Vector.replicate 4 ⟨[⟨0, 7, 0, 0x100, [], [], [], false, true, false⟩], Vector.replicate 8 none, false, .idle, 0, false⟩ } }

theorem remoteGoes_of {k : Fin 4} {w : Bool} {offs : List Int} {s : State} (h1 : fenceHolds s = false) (h2 : s.quad.mates[k].locks = Vector.replicate 8 none)
    (h3 : ∀ m, mateRes s k s.rs.gang = some m → m.granules = [] ∧ m.bad = []) : RemoteGoes k w offs s where
  fence := h1
  locks := by
    simp only [Fin.getElem_fin] at h2
    intro m hm o _ _ _; simp [lockMeets_iff, h2]
  races := by intro m hm o _ _ _; simp [raceMeets, (h3 m hm).1, Table.get, Granule.none]
  sound := by intro _ m hm o _ _ _; simp [(h3 m hm).2]

theorem wit_QuadAccesses_mate : quadRule (.sqw 1 2 3) = some (1, 2, 3, 4, none) ∧ popX 2 mated = some (0x100, mated) ∧ popX 3 mated = some (1, mated)
    ∧ popX 1 mated = some (7, mated) ∧ mated.memoriesWf ∧ fits 4 mated ∧ (1 : Word).setWidth 2 ≠ mated.coreInQuad ∧ (1 : Fin 4).val = (1 : Word).toNat % 4
    ∧ RemoteGoes 1 true (byteRange 0xFE 4) mated ∧ mated.rs.quadMapped = true ∧ base.rs.quadMapped = false :=
  ⟨rfl, rfl, rfl, rfl, ⟨rfl, rfl, rfl, rfl, rfl⟩, rfl, by decide +kernel, rfl, remoteGoes_of rfl rfl (by intro m h; cases h; exact ⟨rfl, rfl⟩), rfl, rfl⟩

/-- The accesses that span two banks: the doubleword at 0xBFC, of which four bytes lie in each. -/
theorem wit_TwoBanks : (∃ f, loads (.ld 1 2 0) 1 0xBFC 8 f (withX 5 0xBFC 4) (withX 5 0xBFC 4)) ∧ crosses 0xBFC 8 (withX 5 0xBFC 4)
    ∧ stores (.sd 1 2 0) 0xBFC 8 5 (withX 5 0xBFC 4) (withX 5 0xBFC 4) ∧ ¬ crosses 0xBF8 8 (withX 5 0xBFC 4)
    ∧ popX 2 (withX 5 0xBFC 4) = some (0xBFC, withX 5 0xBFC 4) ∧ popX 3 (withX 5 0xBFC 4) = some (4, withX 5 0xBFC 4) ∧ roomX 1 (withX 5 0xBFC 4) = true
    ∧ (4 : Word).setWidth 2 = (withX 5 0xBFC 4).coreInQuad :=
  ⟨⟨_, 2, 0, 0xBFC, rfl, rfl, rfl, by decide, localGoes_of rfl rfl rfl rfl, rfl⟩, by unfold crosses nextBank; decide,
    ⟨1, 2, 0, 0xBFC, 5, _, rfl, rfl, rfl, rfl, by decide, localGoes_of rfl rfl rfl rfl, rfl⟩, by unfold crosses nextBank; decide, rfl, rfl, rfl, rfl⟩

theorem wit_OperandExtensions : popX 2 (withX 0 15 0) = some (15, withX 0 15 0) ∧ fits 4 (withX 0 15 0)
    ∧ LocalGoes true false (byteRange ((16 * ((15 : Word).toNat / 16) : Nat) : Int) 16) (withX 0 15 0)
    ∧ LocalGoes false true (byteRange ((16 * ((15 : Word).toNat / 16) : Nat) : Int) 16) (withX 0 15 0) ∧ (withX 0 15 0).memoriesWf
    ∧ (Instr.oxc 7 2 9).wellFormed = true := ⟨rfl, rfl, localGoes_of rfl rfl rfl rfl, localGoes_of rfl rfl rfl rfl, ⟨rfl, rfl, rfl, rfl, rfl⟩, rfl⟩

/-! ## Vectors -/

/-- The same with values in v1 and v2, and m1 with its lowest and highest bits set. -/
def withV (a b : VWord) : State := writeM 1 0x8001 (writeV 2 b (writeV 1 a base))

theorem wit_VectorResults : (∃ f, laneRule2 (.vmulh 3 1 2 3 1) = some (3, 1, 2, 64, 1, f)) ∧ (∃ f, laneRule1 (.vsat 3 1 7 0 1) = some (3, 1, 8, 1, f))
    ∧ (Instr.vsat 3 1 7 0 1).wellFormed = true ∧ popV 1 (withV 5 6) = some (5, withV 5 6) ∧ popV 2 (withV 5 6) = some (6, withV 5 6) ∧ roomV 3 (withV 5 6) = true
    ∧ fits 4 (withV 5 6) := ⟨⟨_, rfl⟩, ⟨_, rfl⟩, rfl, rfl, rfl, rfl, rfl⟩

/-- At width 8 the group of mask bit 15 is the elements 60 to 63; bit 1 of m1 is clear. -/
theorem wit_VectorCompares : (∃ p, compareRule (.vclt 3 1 2 0 1) = some (3, 1, 2, 8, 1, p)) ∧ popV 1 (withV 5 6) = some (5, withV 5 6)
    ∧ popV 2 (withV 5 6) = some (6, withV 5 6) ∧ fits 4 (withV 5 6) ∧ roomV 3 (withV 5 6) = true
    ∧ (inGroup 8 15 63 ∧ laneOn ((withV 5 6).mask 1) 8 63) ∧ ¬ (laneOn ((withV 5 6).mask 1) 8 4 ∨ laneOn ((withV 5 6).mask 1) 8 7) :=
  ⟨⟨_, rfl⟩, rfl, rfl, rfl, rfl, by unfold inGroup laneOn; decide, by unfold laneOn; decide⟩

theorem wit_VectorMoves : (∃ f, moveRule2 (.vuzp 3 1 2 1 0) = some (3, 1, 2, 16, 0, f)) ∧ popV 1 (withV 5 6) = some (5, withV 5 6) ∧ popV 2 (withV 5 6) = some (6, withV 5 6)
    ∧ popX 1 (withX 15 0 0) = some (15, withX 15 0 0) ∧ popV 1 (withX 15 0 0) = some (0, withX 15 0 0) ∧ roomV 3 (withX 15 0 0) = true ∧ roomX 3 (withX 15 0 0) = true
    ∧ fits 4 (withX 15 0 0) ∧ roomV 3 (withV 5 6) = true ∧ fits 4 (withV 5 6) := ⟨⟨_, rfl⟩, rfl, rfl, rfl, rfl, rfl, rfl, rfl, rfl, rfl⟩

theorem wit_IntegerReductions : popV 1 (withV 5 6) = some (5, withV 5 6) ∧ roomV 3 (withV 5 6) = true ∧ fits 4 (withV 5 6) := ⟨rfl, rfl, rfl⟩

theorem wit_MaskResults : (∃ f, maskRule (.mand 0 1 2) = some (0, f)) ∧ popX 1 (withX 0x1FFFF 0 0) = some (0x1FFFF, withX 0x1FFFF 0 0) ∧ roomX 3 base = true ∧ fits 4 base :=
  ⟨⟨_, rfl⟩, rfl, rfl, rfl⟩

theorem wit_FloatResults : (∃ f, floatRule (.vfma 3 1 2 1) = some (3, [1, 2, 3], 1, f)) ∧ readsV [1, 2, 3] (withV 5 6) [5, 6, 0] (withV 5 6) ∧ roomV 3 (withV 5 6) = true
    ∧ fits 4 (withV 5 6) ∧ (∃ f, floatCompareRule (.vfclt 3 1 2 1) = some (3, 1, 2, 1, f)) :=
  ⟨⟨_, rfl⟩, ⟨_, rfl, _, rfl, _, rfl, rfl⟩, rfl, rfl, ⟨_, rfl⟩⟩

theorem wit_FloatSpecialCases : (fp32Val 0x7F800001).isNan = true ∧ 0x7F800001 < 2 ^ 32 ∧ (fp32Val 0xFFFFFFFF).isNan = true ∧ fp32Val 1 = .num false 1 (-149)
    ∧ fp32Val 0x80000001 = .num true 1 (-149) := by decide +kernel

/-- The greatest and the least number of FP32, and the number 1: their sum rounds, and 1 + 1 is exact. -/
theorem wit_FloatSpecialCases_finite : finite32 0x7F7FFFFF ∧ finite32 1 ∧ finite32 0x3F800000 ∧ fp32Val 0x3F800000 = .num false 0x800000 (-23)
    ∧ fadd32 .rne 0x3F800000 0x3F800000 = (0x40000000, 0) := by
  refine ⟨⟨by decide, _, _, _, rfl⟩, ⟨by decide, _, _, _, rfl⟩, ⟨by decide, _, _, _, rfl⟩, ?_⟩; decide +kernel

theorem wit_FloatReductionsAndConversions : popV 1 (withV 5 6) = some (5, withV 5 6) ∧ roomV 3 (withV 5 6) = true ∧ fits 4 (withV 5 6)
    ∧ (11 : BitVec 4) ≠ 12 ∧ (Instr.vcvt 3 11 1 1).wellFormed = true ∧ (withV 5 6).sliceBusy = false
    ∧ ((withV 5 6).st.ox[7].toNat % 16 ≠ 12 ∨ (withV 5 6).st.ox[7].toNat / 16 % 8 = 0) := by
  refine ⟨rfl, rfl, rfl, ?_⟩; decide +kernel

/-- A unit-stride access whose bytes lie in two banks, and one whose last element lies out of range; no half bytes among them. -/
theorem wit_VectorPieces : (vecShape base 0 3040 .unit).ebits ≠ 0 ∧ 3072 < base.rs.spsize.toNat ∧ (3072 : Int) ∈ (vecShape base 0 3040 .unit).offs 0xFFFF
    ∧ ((vecShape base 0 3040 .unit).pieces 0xFFFF base.rs.spsize.toNat (fun _ => 0)).length = 2
    ∧ ((vecShape base 0 49088 (.stride 7)).pieces 3 base.rs.spsize.toNat (fun _ => 0)).length = 2 := by decide +kernel

theorem wit_VectorAddresses : (0 : Nat) < 512 / 32 ∧ (127 : Nat) < 512 / 4 := by decide +kernel

theorem wit_VectorLoads : vectorLoad (.vld 3 2 0 0 1) 3 0 1 49088 .unit (withX 0 49088 0) (withX 0 49088 0) ∧ (Instr.vld 3 2 0 0 1).wellFormed = true ∧ roomV 3 (withX 0 49088 0) = true ∧ fits 4 (withX 0 49088 0)
    ∧ vecFormatFault (withX 0 49088 0) (vecShape (withX 0 49088 0) 0 49088 .unit) ((withX 0 49088 0).mask 1) = none
    ∧ LocalGoes true false ((vecShape (withX 0 49088 0) 0 49088 .unit).offs ((withX 0 49088 0).mask 1)) (withX 0 49088 0) :=
  ⟨.inl ⟨2, 0, 49088, rfl, rfl, by decide +kernel, rfl⟩, rfl, rfl, rfl, by decide +kernel, localGoes_of rfl rfl rfl rfl⟩

theorem wit_VectorStores : vectorStore (.vsts 1 2 3 6 1) 1 6 1 49088 (.stride 7) 0 (withX 0 49088 7) (withX 0 49088 7) ∧ (Instr.vsts 1 2 3 6 1).wellFormed = true ∧ fits 4 (withX 0 49088 7) ∧ (withX 0 49088 7).memoriesWf
    ∧ vecFormatFault (withX 0 49088 7) (vecShape (withX 0 49088 7) 6 49088 (.stride 7)) ((withX 0 49088 7).mask 1) = none
    ∧ LocalGoes (decide ((vecShape (withX 0 49088 7) 6 49088 (.stride 7)).ebits = 4)) true ((vecShape (withX 0 49088 7) 6 49088 (.stride 7)).offs ((withX 0 49088 7).mask 1)) (withX 0 49088 7) :=
  ⟨.inr (.inl ⟨2, 3, 49088, 7, _, _, rfl, rfl, rfl, rfl, by decide +kernel, by decide +kernel⟩), rfl, rfl, ⟨rfl, rfl, rfl, rfl, rfl⟩, by decide +kernel, localGoes_of rfl rfl rfl rfl⟩

theorem wit_VectorFrames : goes (exec (.vreds 3 1 2 1) (withV 5 6)) = true ∧ goes (exec (.vfreds 3 1 1) (withV 5 6)) = true ∧ goes (exec (.mset 3 1) (withV 5 6)) = true
    ∧ goes (exec (.vfceq 3 1 2 1) (withV 5 6)) = true ∧ goes (exec (.mpop 3 1) (withV 5 6)) = true ∧ fits 4 (withV 5 6) := by unfold fits; decide +kernel

/-! ## Wide multiplier -/

/-- A core whose digits are 24 bits wide, with windows of 8 bits (the 8-bit settings of R69). -/
def guarded (jm : BitVec 2) : State := inCore (fun c => { c with sq := 6, wx := 8, wy := 8, jm := jm, xbuf := [(2, 5)], ybuf := [(0, 7)] }) (withX 1 1 3)

theorem wit_MultiplierConfiguration : popX 1 (guarded 0) = some (1, guarded 0) ∧ multGoes [] (guarded 0) ∧ fits 4 (guarded 0) ∧ (guarded 0).core.jm ≠ 2
    ∧ multGoes ((List.range ((31 : BitVec 5).toNat + 1)).map (fun i => (32 : AccNum).toNat + i)) (guarded 0)
    ∧ multGoes [] (inCore (fun c => { c with slew := { c.slew with quadUnit := true } }) (guarded 2)) ∧ (guarded 2).core.jm = 2 := by
  refine ⟨rfl, ?_⟩; unfold multGoes fits; decide +kernel

/-- The quad-mates of a state hold multiplier residencies of the same gang; with or without their claims to join. -/
def mates (claims : Bool) : State := { guarded 0 with quad := { (guarded 0).quad with
  mates := Vector.replicate 4 ⟨[⟨0, 7, 0, 0x100, [], [], [], false, true, false⟩], Vector.replicate 8 none, claims, .idle, 0, false⟩ } }

theorem wit_MultiplierConfiguration_quad : (∀ k : Fin 4, k.val ≠ (mates true).coreInQuad.toNat → mateMultiplies (mates true) k (mates true).rs.gang = true)
    ∧ (∀ k : Fin 4, k.val ≠ (mates true).coreInQuad.toNat → (mates true).quad.mates[k].claim = true)
    ∧ (∃ k : Fin 4, k.val ≠ (mates false).coreInQuad.toNat ∧ (mates false).quad.mates[k].claim = false) ∧ multGoes [] (mates true) ∧ fits 4 (mates true) := by
  unfold multGoes fits; decide +kernel

theorem wit_MultiplierGrant : (inRes (fun r => { r with accs := 0 }) base).rs.accs = 0 ∧ (inRes (fun r => { r with accs := 0 }) base).sliceBusy = false
    ∧ fenceHolds (inRes (fun r => { r with accs := 0 }) base) = false ∧ packRule (.packk 1) = some (1, .k) := ⟨rfl, rfl, rfl, rfl⟩

/-- PACKX of one column of INT8 bytes from scratchpad offset 0 to entry 0. -/
theorem wit_PackResults : (let s := withOx (1 + 2 ^ 10 + 2 ^ 48 + 2 ^ 56) (guarded 0); let d := s.oxv 1; let p := packDesc .x d
    packRule (.packx 1) = some (1, .x) ∧ multGoes [] s ∧ fits 4 s ∧ tileFault s.core .x d = none ∧ packConfigGood s.core .x = true
    ∧ packAccepts .x (bits p.fmt.toNat 0 4) = true ∧ windowGood s.core.wx.toNat (bits p.fmt.toNat 0 4) = true ∧ p.spad = true
    ∧ (∀ k : Fin 8, s.core.locks[k] = none)) := by
  refine ⟨rfl, ?_⟩; unfold multGoes fits; decide +kernel

/-- The same of the other packs: PACKY and PACKYF to row 0, PACKXF to entry 0, each of one column from the scratchpad; PACKX from its own buffer; and
PACKK of one digit from the scratchpad to entry 0 (under JM 1). -/
theorem wit_PackResults_forms : (∀ e ∈ [(Instr.packy 1, PackFn.y, 1 + 2 ^ 10 + 2 ^ 48 + 2 ^ 56), (.packxf 1, .xf, 11 + 2 ^ 10 + 2 ^ 48 + 2 ^ 56),
      (.packyf 1, .yf, 11 + 2 ^ 10 + 2 ^ 48 + 2 ^ 56), (.packx 1, .x, 1 + 2 ^ 48 + 2 ^ 56), (.packk 1, .k, 1 + 2 ^ 10 + 2 ^ 32)],
    let s := withOx (BitVec.ofNat 128 e.2.2) (guarded (if e.2.1 = .k then 1 else 0)); let d := s.oxv 1; let p := packDesc e.2.1 d
    packRule e.1 = some (1, e.2.1) ∧ (if e.2.1 = .k then groupFault s.core d else tileFault s.core e.2.1 d) = none ∧ packConfigGood s.core e.2.1 = true
    ∧ packAccepts e.2.1 (bits p.fmt.toNat 0 4) = true ∧ windowGood (if p.toY then s.core.wy.toNat else s.core.wx.toNat) (bits p.fmt.toNat 0 4) = true
    ∧ p.spad = (e.2.2 / 2 ^ 10 % 2 == 1) ∧ (∀ o ∈ packBytes p, o < bufSize p.toY → o / 8 ∉ bufBad s.core p.toY)) := by
  decide +kernel

/-- The sources of the packs: an integer format and a floating one, for a tile pack and for PACKK. -/
theorem wit_PackElements : packAccepts .x 1 = true ∧ formatInt 1 = true ∧ packAccepts .yf 11 = true ∧ formatInt 11 = false ∧ packAccepts .k 11 = true := by decide +kernel

/-- A list of three digits for two entries' worth of digits, in tables that are in order. -/
theorem wit_PackStores : Table.wf Side.zero base.core.xside = true ∧ Table.wf Side.zero base.core.yside = true ∧ sqGood (guarded 1).core = true
    ∧ ([⟨5, .pos, 0⟩] : List Packed).length ≤ entryDigits (guarded 1).core ∧ ([⟨5, .pos, 0⟩, ⟨-3, .neg, 0⟩] : List Packed).length ≤ rowDigits (guarded 1).core := by
  decide +kernel

theorem wit_PackResults_put : Memory.wf base.core.ybuf = true ∧ (63 : Nat) < 64 ∧ (62 : Nat) ≠ 63 ∧ Memory.wf base.core.xbuf = true ∧ (4095 : Nat) ≠ 0 := by decide +kernel

/-- MULS of entry 1 by row 0 into accumulator 63: the sixth factor of R69's 8-bit settings. -/
theorem wit_MultiplyResults : multiplyRule (.muls 63 1) = some (false, 63, 1) ∧ popX 1 (guarded 0) = some (1, guarded 0) ∧ multGoes [63] (guarded 0) ∧ fits 4 (guarded 0)
    ∧ (1 : Word).toNat % 4096 < entryCount (guarded 0).core ∧ guardGood (guarded 0).core = true ∧ (guarded 0).core.jm ≠ 2 ∧ (guarded 0).core.wx.toNat ≤ entryWidth (guarded 0).core
    ∧ (∀ k : Fin 8, (guarded 0).core.locks[k] = none) ∧ (accOf (guarded 0).core 63).poison = false ∧ (accOf (guarded 0).core 63).count = 0
    ∧ 8 + 8 + ceilLog2 (0 + 1) + 1 ≤ digitWidth (guarded 0).core ∧ operandBad (guarded 0).core 1 0 = false := by
  refine ⟨rfl, rfl, ?_⟩; unfold multGoes fits; decide +kernel

/-- MULJ under JM 1 with one digit to an entry. -/
theorem wit_MultiplyResults_joined : multiplyRule (.mulj 31 1) = some (true, 31, 1) ∧ popX 1 (guarded 1) = some (1, guarded 1) ∧ multGoes [31] (guarded 1)
    ∧ entryDigits (guarded 1).core = 1 ∧ oneScale (entrySides (guarded 1).core true 1) = true ∧ oneScale (rowSides (guarded 1).core 0) = true
    ∧ 1 < entryCount (guarded 1).core ∧ guardGood (guarded 1).core = true ∧ operandBad (guarded 1).core 1 0 = false := by
  refine ⟨rfl, rfl, ?_⟩; unfold multGoes; decide +kernel

/-- MMAR of two rows and one k-step into two accumulators. -/
theorem wit_MacroMultiply : (let s := withOx (0x102 * 2 ^ 24) (guarded 0); let c := s.core; let d := s.oxv 1; let ns := mmarAccs c.jm (d.toNat / 2 ^ 40 % 32) (d.toNat / 2 ^ 24 % 128)
    multGoes ns s ∧ fits 4 s ∧ ns.length = 2 ∧ mmarFault c d = none ∧ guardGood c = true ∧ c.jm ≠ 2 ∧ c.wx.toNat ≤ entryWidth c
    ∧ (∀ q : Fin 8, c.locks[q] = none) ∧ poisoned c ns = none ∧ (∀ e ∈ ns.zipIdx, mmarMismatch c e.1 (0 + e.2 * 1) 0 1 = none) ∧ countFault c 1 ns = none
    ∧ (∀ i < 1, ∀ row < 2, operandBad c (0 + row * 1 + i) (0 + i) = false)) := by
  unfold multGoes fits; decide +kernel

/-- R70's example: the digits −3, 5 and −1 of width 16 fit. -/
theorem wit_DigitsExact : ∀ q ∈ [(-3 : Int), 5, -32768, 32767], -(2 ^ (16 - 1)) ≤ q ∧ q < 2 ^ (16 - 1) := by decide +kernel

/-- Two rows of two digits whose sums are the least and the greatest of their width. -/
theorem wit_RowBroadcastExact : (∀ e ∈ [((2 : Int), [(-60 : Int), 60]), (1, [-8, 7])], e.2.length = 2)
    ∧ (∀ j < 2, -(2 ^ (8 - 1)) ≤ (([((2 : Int), [(-60 : Int), 60]), (1, [-8, 7])]).map (fun e => e.1 * e.2.getD j 0)).sum
      ∧ (([((2 : Int), [(-60 : Int), 60]), (1, [-8, 7])]).map (fun e => e.1 * e.2.getD j 0)).sum < 2 ^ (8 - 1)) := by decide +kernel

theorem wit_AccumulatorMoves : popX 1 (guarded 0) = some (1, guarded 0) ∧ popX 3 (guarded 0) = some (3, guarded 0) ∧ multGoes [63] (guarded 0) ∧ multGoes [0, 63] (guarded 0)
    ∧ fits 4 (guarded 0) ∧ 1 ≤ (guarded 0).core.sq.toNat ∧ (guarded 0).core.sq.toNat ≤ 18 ∧ (accOf (guarded 0).core 63).poison = false ∧ roomX 4 (guarded 0) = true
    ∧ roomV 4 (guarded 0) = true := by
  refine ⟨rfl, rfl, ?_⟩; unfold multGoes fits; decide +kernel

/-- A poisoned accumulator 63. -/
def poisonedAt63 : State := inCore (fun c => { c with accs := vset c.accs 63 { c.accs[(63 : Fin 64)] with poison := true } }) (guarded 0)

theorem wit_AccumulatorMoves_poisoned : popX 1 poisonedAt63 = some (1, poisonedAt63) ∧ multGoes [63] poisonedAt63 ∧ multGoes [0, 63] poisonedAt63
    ∧ (accOf poisonedAt63.core 63).poison = true ∧ roomX 4 poisonedAt63 = true ∧ roomV 4 poisonedAt63 = true ∧ 1 ≤ poisonedAt63.core.sq.toNat
    ∧ poisonedAt63.core.sq.toNat ≤ 18 := by
  refine ⟨rfl, ?_⟩; unfold multGoes; decide +kernel

theorem wit_MultiplierFrames : goes (exec (.muls 0 1) (guarded 0)) = true ∧ goes (exec (.extr 4 63 1 1) (guarded 0)) = true ∧ goes (exec (.accrd 4 63 1) (guarded 0)) = true ∧ fits 4 (guarded 0)
    ∧ (guarded 0).st.active = true := by unfold fits; decide +kernel

/-! ## Engines, messages, system registers, traps -/

theorem wit_EngineIssue : tileRule (.tst 1 1) = some (1, 1, .tst) ∧ roomX 1 base = true ∧ fenceHolds base = false ∧ base.core.engQ.length < 16
    ∧ freeLock base.core.locks = some 0 ∧ fits 4 base ∧ rowRule (.act 2 3) = some (2, 3, .act) ∧ popX 2 (withX 1 0x40 16) = some (0x40, withX 1 0x40 16)
    ∧ popX 3 (withX 1 0x40 16) = some (16, withX 1 0x40 16) ∧ fenceHolds (withX 1 0x40 16) = false ∧ fits 4 (withX 1 0x40 16) :=
  ⟨rfl, rfl, rfl, by decide +kernel, rfl, rfl, rfl, rfl, rfl, rfl, rfl⟩

/-- A tile operation of slot 0 with tag 3, not started. -/
def tileOp (kind : EngKind) (desc : BitVec 128) : EngOp := ⟨kind, 0, 0, desc, 0, 0, 3, none, false, 0, none, 0, [], true, false, 0⟩

/-- The same with that operation open, tag 2 completed and tag 3 the last issued. -/
def tiles (tag : Word) : State := inRes (fun r => { r with lastTag := 3, completed := 2, statuses := [(2, 0x20006)] })
  (inCore (fun c => { c with engQ := [tileOp .tld 0] }) (withX 0 tag 0))

/-- A completed tag, an open one, and one that lies just above the last issued. -/
theorem wit_TileStatus : (∀ g : Word, popX 2 (tiles g) = some (g, tiles g) ∧ roomX 1 (tiles g) = true ∧ fits 4 (tiles g)) ∧ tileStatus (tiles 2) 2 = some 0x20006
    ∧ tileStatus (tiles 3) 3 = none ∧ (tiles 4).rs.lastTag.toNat < (4 : Word).toNat % 2 ^ 32 ∧ (0x100000000 : Word).toNat % 2 ^ 32 = 0
    ∧ (∀ e ∈ (withX 0 0x100000000 0).core.engQ, e.slot ≠ (withX 0 0x100000000 0).cur) := by
  refine ⟨fun _ => ⟨rfl, rfl, rfl⟩, ?_⟩; decide +kernel

/-- A VAULT page of layer 0, bank 0, row 0 of the core's own vault, which may be read and written. -/
def pageWord : Word := 0x8060001400000000

/-- A state in which that page is translated and the quad grants every right on it. -/
def translated (s : State) : State := { s with
  vault := { s.vault with ctrlBuf := [⟨0, 0, pageWord, none⟩], stackBuf := [⟨0, 0, pageWord, none⟩] }
  quad := { s.quad with access := [(0, 0xFF800000)] } }

theorem wit_RowQueries : popX 2 (translated (withX 0 0x800 0)) = some (0x800, translated (withX 0 0x800 0)) ∧ roomX 1 (translated (withX 0 0x800 0)) = true
    ∧ fits 4 (translated (withX 0 0x800 0)) ∧ bufFind base.vault.ctrlBuf base.rs.asid (pageOf 0x800) = none
    ∧ (∃ e, bufFind (translated base).vault.ctrlBuf base.rs.asid (pageOf 0x800) = some e ∧ pageIsLocal (translated base) e.word = true ∧ (translated base).vault.banks[(place e.word (0x800 % 2 ^ 18)).bankIx].busy = .idle) :=
  ⟨rfl, rfl, rfl, rfl, ⟨_, rfl, by decide +kernel⟩⟩

theorem wit_CopyInstructions : roomX 1 base = true ∧ fenceHolds base = false ∧ fits 4 base ∧ (oxRecord base).toNat / 2 ^ 16 % 2 ^ 16 % 64 = 0
    ∧ (oxRecord base).toNat / 2 ^ 16 % 2 ^ 16 + 63 < base.rs.spsize.toNat ∧ 5 ≤ freeLocks base.core.locks
    ∧ LocalGoes false true (byteRange ((oxRecord base).toNat / 2 ^ 16 % 2 ^ 16) 64) base
    ∧ (oxRecord (writeOx 0 (32 * 2 ^ 16) base)).toNat / 2 ^ 16 % 2 ^ 16 % 64 ≠ 0
    ∧ base.rs.spsize.toNat ≤ (oxRecord (writeOx 0 (49152 * 2 ^ 16) base)).toNat / 2 ^ 16 % 2 ^ 16 + 63 :=
  ⟨rfl, rfl, rfl, by decide +kernel, by decide +kernel, by decide +kernel, localGoes_of rfl rfl rfl rfl, by decide +kernel, by decide +kernel⟩

/-- A send buffer of n messages. -/
def sending (n : Nat) : State := match base.task with
  | some k => (withX 0 0 0).setTask { k with sendBuf := List.replicate n (.fence 0) ++ List.replicate n (.bar 0 0) }
  | none => base

theorem wit_Sends : (∃ m, sendRule (.reply 2 3) (withX 0 5 0) (withX 0 5 0) m) ∧ (∃ m, sendRule (.signal 2 2 3) (withX 0 5 0) (withX 0 5 0) m)
    ∧ (∃ m, sendRule (.vamo 1 2 3 1) (withX 0 5 0) (withX 0 5 0) m ∧ m.rq = 1) ∧ fits 4 (withX 0 5 0) ∧ sendRoom 1 1 (withX 0 5 0)
    ∧ (∃ m, sendRule (.vread 1 2 0) (sending 16) (sending 16) m) ∧ (sending 16).sliceBusy = false ∧ 16 < sendCount (sending 16) + 1
    ∧ sendCount (sending 15) = 15 := by
  refine ⟨⟨_, .inr (.inl ⟨2, 3, 5, 0, _, rfl, rfl, rfl, rfl⟩)⟩, ⟨_, .inr (.inr (.inr (.inr (.inr ⟨2, 2, 3, 5, 0, _, rfl, rfl, rfl, rfl⟩))))⟩,
    ⟨_, .inr (.inr (.inr (.inr (.inl ⟨1, 2, 3, 1, 5, 0, 0, _, _, rfl, rfl, rfl, rfl, rfl⟩)))), rfl⟩, rfl, by unfold sendRoom; decide +kernel,
    ⟨_, .inr (.inr (.inl ⟨1, 2, 0, 0, 0, _, rfl, rfl, rfl, rfl⟩))⟩, rfl, by decide +kernel, by decide +kernel⟩

/-- SENDL of 1,024 bytes, sixteen messages. -/
theorem wit_Sends_long : (let s := withOx (1024 * 2 ^ 16) (withX 7 0 0); let d := s.oxv 1
    popX 1 s = some (7, s) ∧ fits 4 s ∧ d.toNat / 2 ^ 16 % 2 ^ 11 = 1024 ∧ d.toNat / 2 ^ 27 % 2 ^ 5 = 0 ∧ d.toNat / 2 ^ 56 = 0 ∧ sendRoom ((1024 + 63) / 64) 0 s
    ∧ LocalGoes true false (byteRange ((d.toNat % 2 ^ 16 : Nat) : Int) 1024) s) :=
  ⟨rfl, rfl, by decide +kernel, by decide +kernel, by decide +kernel, by unfold sendRoom; decide +kernel, localGoes_of rfl rfl rfl rfl⟩

theorem wit_MessageFields : (63 : Nat) < 64 ∧ sameScope 0 base.address base.address = true ∧ sameScope 0 base.address 4 = false := by decide +kernel

/-- A message that starts an activation. -/
def message : Msg := newMsg base 0 0 false 1 2 3 8 0x55

/-- The same, whose task a message has triggered. -/
def triggered (x : Word) : State := match base.task with
  | some k => (withX 0 x 0).setTask { k with trigger := .message message }
  | none => base

theorem wit_MessageQueriesAndBarriers : popX 2 (triggered 0x17) = some (0x17, triggered 0x17) ∧ (triggered 0x17).trigger = some message ∧ roomX 1 (triggered 0x17) = true
    ∧ fits 4 (triggered 0x17) ∧ (0x17 : Word).toNat % 256 = 0x10 + 7 ∧ (triggered 0).trigger = some message ∧ base.trigger = none ∧ sendRoom 1 0 base
    ∧ sendCount base = 0 ∧ 0 < sendCount (sending 1) ∧ base.rs.arrivals = [] ∧ base.sliceBusy = false
    ∧ (∃ e ∈ (inRes (fun r => { r with arrivals := [(2, 5)] }) base).rs.arrivals, e.1 = 2) := by
  refine ⟨rfl, rfl, ?_⟩; unfold sendRoom fits; decide +kernel

/-- A residency whose image has three tasks, and a record at offset 64. -/
def recorded (word : Nat) : State := inRes (fun r => { r with role := { r.role with tasks := List.replicate 3 ⟨0, 0, 0, 2, 0⟩ } })
  (inCore (fun c => { c with spad := writeList [] 64 (leBytes 8 word) }) (withOx (2 * 2 ^ 32 + 5) (withX 0 65 0)))

theorem wit_TaskRecords : popX 2 (recorded 3) = some (65, recorded 3) ∧ (recorded 3).memoriesWf ∧ fits 4 (recorded 3)
    ∧ LocalGoes true true (byteRange (64 * ((65 : Word).toNat / 64) : Nat) 64) (recorded 3)
    ∧ ((recorded 3).oxv 1).toNat / 2 ^ 32 % 2 ^ 16 < (recorded 3).rs.role.tasks.length ∧ ((recorded 3).oxv 1).toNat / 2 ^ 48 % 2 ^ 16 = 0
    ∧ 64 + 64 ≤ (recorded 3).rs.spsize.toNat ∧ recordField (recorded 3) 64 0 / 2 ^ 48 % 2 = 0 ∧ recordField (recorded 3) 64 0 % 2 ^ 32 ≠ 0
    ∧ recordField (recorded 0) 64 0 % 2 ^ 32 = 0 ∧ recordField (recorded 0) 64 0 / 2 ^ 49 % 2 = 0 ∧ recordField (recorded (2 ^ 48 + 2)) 64 0 / 2 ^ 48 % 2 = 1 ∧ 0 < recordField (recorded (2 ^ 48 + 2)) 64 0 % 2 ^ 32
    ∧ recordField (recorded (2 ^ 48 + 2)) 64 0 % 2 ^ 32 ≤ (1 : BitVec 3).toNat + 1 ∧ (recorded 0).core.readyQ.length < 16 ∧ (recorded 0).rs.ovHead = none
    ∧ (49152 : Nat) < 64 * ((49152 : Word).toNat / 64) + 64 := by
  refine ⟨rfl, ⟨rfl, rfl, rfl, rfl, rfl⟩, rfl, localGoes_of rfl rfl rfl rfl, ?_⟩; decide +kernel

theorem wit_SystemRegisters : (∀ n ∈ [0x000, 0x001, 0x002, 0x003, 0x004, 0x010, 0x011, 0x012, 0x013, 0x030, 0x038, 0x039, 0x040, 0x041, 0x049, 0x04A, 0x04B, 0x020, 0x02F, 0x050, 0x051, 0x060, 0x061, 0x070, 0x071, 0x080, 0x090, 0x091],
      (systemValue (withX 0 (2 ^ 63) 0) n).isSome = true) ∧ popX 2 (withX 0 (2 ^ 63) 0) = some (2 ^ 63, withX 0 (2 ^ 63) 0) ∧ (2 ^ 63 : Word).getLsbD 63 = true
    ∧ roomX 1 (withX 0 (2 ^ 63) 0) = true ∧ (withX 0 (2 ^ 63) 0).core.slew.work = [] ∧ (withX 0 (2 ^ 63) 0).core.jm ≠ 2 ∧ fits 4 (withX 0 (2 ^ 63) 0)
    ∧ (∀ n ∈ [0x005, 0x031, 0x092, 0xFFF], systemValue base n = none) ∧ (withX 0 (2 ^ 63) 0).core.portQ = [] ∧ base.sliceBusy = false := by
  refine ⟨by decide +kernel, rfl, ?_⟩; unfold fits; decide +kernel

/-- A vector table at the first 64 bytes of the region whose cause c has its handler at 0x80, and a stream at level l. -/
def vectored (c : Nat) (l : BitVec 2) : State :=
  { base.setSt { base.st with tvec := 0x8000, tlevel := l, tsavelen := 512 } with quad := { base.quad with istore := writeList [] (2 * c) (leBytes 2 0x8040) } }

theorem wit_TrapVectors : (vectored 31 0).st.tvec.getLsbD 15 = true ∧ 64 * ((vectored 31 0).st.tvec.toNat / 64 % 512) + 64 ≤ (vectored 31 0).rs.regionEnd
    ∧ readLE (vectored 31 0).quad.istore ((vectored 31 0).rs.istoreAddr (0 + 2 * 31)) 2 / 2 ^ 15 % 2 = 1 ∧ base.st.tvec.getLsbD 15 = false
    ∧ readLE (vectored 31 0).quad.istore ((vectored 31 0).rs.istoreAddr (0 + 2 * 30)) 2 / 2 ^ 15 % 2 = 0 := by decide +kernel

theorem wit_TrapEntry : atRest (vectored 1 1) ∧ (vectored 1 1).st.tlevel.toNat = (1 : Fin 2).val ∧ vectorOf (vectored 1 1) 1 = some 0x80 := by unfold atRest settled; decide +kernel

theorem wit_TrapWithoutHandler : atRest (vectored 1 2) ∧ 2 ≤ (vectored 1 2).st.tlevel.toNat ∧ atRest base ∧ vectorOf base 31 = none ∧ base.st.tlevel.toNat < 2
    ∧ base.mgr.abortLog.length < 1024 ∧ base.workOf base.ri = false
    ∧ (inCore (fun c => { c with slew := { c.slew with work := [⟨1, some 0, none, some 0⟩] } }) (vectored 1 2)).workOf (vectored 1 2).ri = true
    ∧ atRest (inCore (fun c => { c with slew := { c.slew with work := [⟨1, some 0, none, some 0⟩] } }) (vectored 1 2)) := by unfold atRest settled; decide +kernel

theorem wit_TrapReturn : (vectored 1 1).st.tlevel ≠ 0 ∧ atRest (vectored 1 1) ∧ base.st.tlevel = 0 ∧ base.sliceBusy = false
    ∧ (vectored 1 1).st.tlevel.toNat = (0 : Fin 2).val + 1 ∧ (vectored 1 1).st.loopBank[(0 : Fin 2)] = [] ∧ (vectored 1 2).st.tlevel.toNat = (1 : Fin 2).val + 1
    ∧ (vectored 1 1).st.tlevel.toNat < 2 ∧ vectorOf (vectored 1 1) 1 = some 0x80 ∧ (vectored 1 1).st.loops = [] := by unfold atRest settled; decide +kernel

theorem wit_TrapInstructions : base.sliceBusy = false ∧ base.rs.abortCount < 15 := by decide +kernel

/-- A stream at level 1 whose save area is page 0, translated to a page of the core's own vault that may be read and written. -/
def saving (len : Word) : State := translated ((vectored 1 1).setSt { (vectored 1 1).st with tsavelen := len })

theorem wit_SaveArea_restore : (vectored 1 1).st.tlevel = (vectored 2 1).st.tlevel ∧ (vectored 2 1).st.traps[trapBank (vectored 2 1).st].cause.toNat < 256
    ∧ (vectored 2 1).st.traps[trapBank (vectored 2 1).st].epc &&& 0x7FFE = (vectored 2 1).st.traps[trapBank (vectored 2 1).st].epc
    ∧ (vectored 2 1).st.traps[trapBank (vectored 2 1).st].msg &&& 0xFFFFFFFFFFFFFF00 = (vectored 2 1).st.traps[trapBank (vectored 2 1).st].msg := by decide +kernel

theorem wit_SaveArea_bound : (saving 511).st.tlevel ≠ 0 ∧ settled (saving 511) ∧ (saving 511).st.tsavelen.toNat < 512 * (saving 511).st.tlevel.toNat ∧ (saving 511).sliceBusy = false := by
  unfold settled; decide +kernel

/-- The bytes that TSPILL puts there. -/
def savedBytes : List Byte := (saveWords (saving 512)).flatMap (fun d => leBytes 8 d.toNat)

theorem wit_SaveArea_starts : (saving 512).st.tlevel ≠ 0 ∧ settled (saving 512) ∧ (saving 512).st.area = none ∧ 512 * (saving 512).st.tlevel.toNat ≤ (saving 512).st.tsavelen.toNat
    ∧ (saving 512).rs.asid = 0 ∧ saveArea (saving 512).st = 0 ∧ permits pageWord false true = true ∧ permits pageWord true false = true := by unfold settled; decide +kernel

theorem wit_SaveArea_translated : translateStack 0 (pageOf 0) (saving 512) = (.ok pageWord, saving 512) := rfl

/-- A TSPILL or TFILL after some columns. -/
def inArea (a : Area) : State := (saving 512).setSt { (saving 512).st with area := some a }

/-- The same with the first row of the page open in its bank. -/
def rowOpen (s : State) : State :=
  let i := (place pageWord 0).bankIx
  { s with vault := { s.vault with banks := vset s.vault.banks i { s.vault.banks[i] with openRow := some (place pageWord 0).row } } }

theorem wit_SaveArea_column : (trySpillColumn 0 (inArea ⟨true, 0, pageWord, savedBytes, 31⟩)).isSome = true
    ∧ (trySpillColumn 0 (rowOpen (inArea ⟨false, 0, pageWord, [], 0⟩))).any (fun u => u.st.area.any (fun a => a.bytes.length == 16 && a.done == 1)) = true := by decide +kernel

theorem wit_SaveArea_done : (inArea ⟨false, 0, pageWord, savedBytes, 32⟩).st.tlevel ≠ 0 ∧ settled (inArea ⟨false, 0, pageWord, savedBytes, 32⟩)
    ∧ (BitVec.ofNat 64 (bytesLE ((savedBytes.drop (8 * 63)).take 8)) : Word) = 1 ∧ (BitVec.ofNat 64 (bytesLE ((([] : List Byte).drop (8 * 63)).take 8)) : Word) ≠ 1
    ∧ fits 4 (inArea ⟨false, 0, pageWord, savedBytes, 32⟩) ∧ (inArea ⟨false, 0, pageWord, [], 32⟩).sliceBusy = false := by unfold settled fits; decide +kernel

theorem wit_StreamEnd : endWaits base = false ∧ ¬ earlyEnd base ∧ lastStream base ∧ base.rs.task.isSome = true ∧ fits 4 base ∧ fits 2 base := by
  unfold lastStream fits earlyEnd gangMarked; decide +kernel

/-- A quad-mapped residency that has crossed the quad, whose last stream ends. -/
theorem wit_StreamEnd_early : endWaits (inRes (fun r => { r with quadRemote := true }) quadMapped) = false
    ∧ earlyEnd (inRes (fun r => { r with quadRemote := true }) quadMapped) := by
  unfold earlyEnd gangMarked; decide +kernel

/-- A stream that is not the last of its task. -/
theorem wit_StreamEnd_notLast : (let s : State := { base with streams := base.streams.set 1 { base.st with kind := .E } }
    endWaits s = false ∧ ¬ earlyEnd s ∧ ¬ lastStream s) := by unfold lastStream earlyEnd gangMarked; decide +kernel

/-- Descriptors of JREC with a body of 64 bytes, and of EMIT with 64 bytes and a dependency on record 0, with n records staged. -/
def journaled (n : Nat) (d : BitVec 128) : State := inRes (fun r => { r with jseq := BitVec.ofNat 64 n, journal := { r.journal with unsealed := [⟨0, 0, 0, 16, 0⟩] } }) (withOx d base)

theorem wit_JournalInstructions : (let s := journaled 255 (4 * 2 ^ 16 + 16); let d := s.oxv 1
    roomX 2 s = true ∧ fits 4 s ∧ d.toNat % 2 ^ 16 % 16 = 0 ∧ 16 * (d.toNat / 2 ^ 16 % 2 ^ 8) = 64 ∧ d.toNat / 2 ^ 24 % 2 ^ 8 = 0 ∧ d.toNat / 2 ^ 64 = 0
    ∧ s.rs.jseq.toNat - s.rs.journal.covered.toNat < 256 ∧ s.rs.journal.unsealed = [] ++ [⟨0, 0, 0, 16, 0⟩] ∧ base.rs.journal.unsealed = []
    ∧ 256 ≤ (journaled 256 0).rs.jseq.toNat - (journaled 256 0).rs.journal.covered.toNat) := by unfold fits; decide +kernel

theorem wit_JournalInstructions_emit : (let s := journaled 1 (64 * 2 ^ 120); let d := s.oxv 1
    popV 3 s = some (0, s) ∧ fits 4 s ∧ d.toNat / 2 ^ 120 % 2 ^ 7 ≤ 64 ∧ (d.toNat / 2 ^ 127 = 1 ∨ d.toNat % 2 ^ 64 < s.rs.jseq.toNat) ∧ sendRoom 1 0 s ∧ roomV 3 s = true) :=
  ⟨rfl, rfl, by decide +kernel, by decide +kernel, by unfold sendRoom; decide +kernel, rfl⟩

theorem wit_SystemFrames : fits 4 base ∧ base.st.active = true ∧ base.memoriesWf ∧ goes (exec (.cpyq 1) base) = true ∧ goes (exec .cpygo base) = true ∧ goes (exec (.tnew 2 1) (recorded 3)) = true
    ∧ popX 2 (recorded 3) = some (65, recorded 3) ∧ goes (exec (.tarm 2) (recorded 0)) = true ∧ goes (exec (.cpy 1) base) = true :=
  ⟨rfl, rfl, ⟨rfl, rfl, rfl, rfl, rfl⟩, by decide +kernel, by decide +kernel, by decide +kernel, rfl, by decide +kernel, by decide +kernel⟩

/-! ## Device steps of the core -/

/-- A stream that owes a WDOG for an expiry of its BUDGET. -/
def owing : State := match (vectored 0x1C 1).task with
  | some k => (vectored 0x1C 1).setTask { k with owed := 1, budget := 0, expiries := 1 }
  | none => base

theorem wit_CoreSteps_wdog : owing.streams[(0 : SlotIx)].active = true
    ∧ (owing.task.any fun k => k.owed.getLsbD 0 && decide (k.expiries < 3) && decide (k.graces ≠ k.expiries) && decide (k.owed &&& 14 = 0) && decide (k.owedAgain = 0)) = true
    ∧ ({ owing with cur := 0 } : State).sliceBusy = false ∧ atRest { owing with cur := 0 } ∧ owing.streams[(0 : SlotIx)].due = none ∧ owing.streams[(0 : SlotIx)].area = none ∧ owing.streams[(0 : SlotIx)].tlevel.toNat = (1 : Fin 2).val
    ∧ vectorOf { owing with cur := 0 } 0x1C = some 0x80 := by unfold atRest settled; decide +kernel

/-- The same at its third expiry, and with a SIMD operation in the slice pair. -/
def thirdTime (work : List SliceWork) : State := match (vectored 0x1C 1).task with
  | some k => inCore (fun c => { c with slew := { c.slew with work := work } })
      ((vectored 0x1C 1).setTask { k with owed := 1, budget := 0, expiries := 2, graces := 2 })
  | none => base

theorem wit_CoreSteps_kill : (thirdTime []).streams[(0 : SlotIx)].active = true ∧ ((thirdTime []).task.any fun k => k.budget == 0 && k.graces == 2 && k.expiries == 2) = true
    ∧ (thirdTime []).workOf (thirdTime []).streams[(0 : SlotIx)].res = false ∧ (thirdTime [⟨1, some 0, none, some 0⟩]).workOf 0 = true
    ∧ (thirdTime [⟨1, some 0, none, some 0⟩]).res[(0 : ResIx)].state ≠ .free ∧ (thirdTime [⟨1, some 0, none, some 0⟩]).res[(0 : ResIx)].killed = false := by decide +kernel

/-- A residency with no task. -/
def resting : State := { inRes (fun r => { r with task := none }) base with streams := Vector.replicate 4 Stream.idle }

theorem wit_CoreSteps : base.sliceBusy = false ∧ base.res[(0 : ResIx)].state ≠ .free ∧ base.res[(0 : ResIx)].killed = false ∧ releasable resting 0 = true
    ∧ (inRes (fun r => { r with clearing := true, launchHeld := true }) resting).res[(0 : ResIx)].clearing = true
    ∧ (inRes (fun r => { r with ovHead := some 64 }) resting).res[(0 : ResIx)].ovHead = some 64 ∧ resting.inScan = false ∧ resting.core.readyQ.length < 16 := by decide +kernel

/-- A load of 8 bytes from quad-mate 1 that has issued, with the size of the reservation that it met. -/
def remoteLoad (size : Nat) : Remote := ⟨0, 0, 1, 0xF8, 8, false, 0, 5, false, 0, 0, false, false, 7, size, 0⟩

/-- A store of 8 bytes over two banks of the own scratchpad, after its first d bytes. -/
def spanningStore (d : Nat) : Remote := ⟨0, 0, 0, 0xBFC, 8, true, 5, 0, false, d, 0, false, false, 7, 49152, 0⟩

/-- The same with that load pending. -/
def remotely : State := inCore (fun c => { c with remote := [remoteLoad 0x100] }) mated

theorem wit_CoreSteps_remote : remotely.core.remote[0]? = some (remoteLoad 0x100) ∧ (∀ x ∈ remotely.core.remote.take 0, x.n = 0) ∧ lastBank (remoteLoad 0x100)
    ∧ ¬ lastBank (spanningStore 0) ∧ lastBank (spanningStore 4) ∧ base.memoriesWf ∧ base.copiesWf ∧ targetHolds base (spanningStore 4) (0xBFC + 7)
    ∧ ¬ targetHolds base { spanningStore 4 with size := 0xC00 } (0xBFC + 4) ∧ remotely.streams[(0 : SlotIx)].active = true
    ∧ remotely.streams[(0 : SlotIx)].res = 0 :=
  ⟨rfl, by simp, by unfold lastBank; decide +kernel, by unfold lastBank; decide +kernel, by unfold lastBank; decide +kernel, ⟨rfl, rfl, rfl, rfl, rfl⟩,
    by unfold State.copiesWf; decide +kernel, ⟨by decide, by decide +kernel⟩, fun h => absurd h.1 (by decide), rfl, rfl⟩

/-- A vector store of two bank accesses, and one of its last. -/
theorem wit_CoreSteps_vector : (inCore (fun c => { c with vecRun := some ⟨0, [[(3068, 0xFF, 5)], [(3072, 0xFF, 6)]], [], 0, none⟩ }) base).core.vecRun
      = some ⟨0, [[(3068, 0xFF, 5)], [(3072, 0xFF, 6)]], [], 0, none⟩
    ∧ 1 < ([[(3068, 0xFF, 5)], [(3072, 0xFF, 6)]] : List (List VecCell)).length ∧ ([[(3072, 0xFF, 6)]] : List (List VecCell)).length ≤ 1 :=
  ⟨rfl, by decide, by decide⟩

/-- A residency with an image of one task and one handler, a ready record and a waiting message. -/
def ready (launch : Bool) (records : List ReadyEntry) (mail : List RxEntry) : State :=
  inRes (fun r => { r with launchHeld := launch, launchReady := launch, role := { r.role with tasks := [⟨0, 0x40, 0, 2, 0⟩], handlers := [(2, ⟨0, 0x60, 0, 2, 0⟩)] } })
    (inCore (fun c => { c with readyQ := records, rxReq := mail }) resting)

theorem wit_Dispatch : (ready true [] []).quad.scanHold = false ∧ (ready true [] []).quadOn = true ∧ chosen (ready true [] []) = some (0, ⟨.launch, 0⟩)
    ∧ chosen (ready false [⟨0, 64, 3⟩] []) = some (0, ⟨.record 64, 3⟩) ∧ (ready false [] []).res[(0 : ResIx)].role.tasks[recWord (ready false [] []) 0 64 / 2 ^ 32 % 2 ^ 16]? = some ⟨0, 0x40, 0, 2, 0⟩
    ∧ chosen (ready false [] [⟨message, 0, false, 4, 0⟩]) = some (0, ⟨.message message, 4⟩) := by decide +kernel

theorem wit_Dispatch_armed : (let s := inRes (fun r => { r with state := .armed, startTick := 5 }) { resting with mgr := { resting.mgr with tick := 5 } }
    s.res[(0 : ResIx)].state = .armed ∧ s.res[(0 : ResIx)].clearing = false ∧ s.res[(0 : ResIx)].killed = false ∧ s.res[(0 : ResIx)].task = none
    ∧ s.res[(0 : ResIx)].startTick.toNat ≤ s.mgr.tick.toNat ∧ s.quadOn = true ∧ s.quad.scanHold = false) := by decide +kernel

theorem wit_Dispatch_start : (0, Kind.A, (0x40 : BitVec 16)) ∈ taskStreams (ready true [] []).res[(0 : ResIx)] ⟨0, 0x40, 0, 2, 0⟩ := by decide +kernel

/-- A slew unit with an operation of one cycle present, in a region that made a grant of weight 2 in cycle 5. -/
def slewing (f : Slew → Slew) : State :=
  let s := inCore (fun c => { c with slew := f { c.slew with work := [⟨1, none, none, none⟩] } }) base
  { s with power := { s.power with regions := Vector.replicate 30 ⟨8, 0, [(5, 2)], []⟩ } }

theorem wit_SlewSteps : needsGrant (slewing id).core.slew = true ∧ (∀ e ∈ (slewing fun u => { u with clock := 9 }).power.regions[base.region].recent, e.1 + 4 ≤ 9)
    ∧ (slewing id).power.regions[base.region].waiting = [] ∧ windowSum ⟨8, 0, [(5, 2)], []⟩ 8 = 2 ∧ windowSum ⟨8, 0, [(5, 2)], []⟩ 9 = 0
    ∧ (slewing fun u => { u with mode := .work, t := 3 }).core.slew.t + 1 = stepLength (slewing fun u => { u with mode := .work, t := 3 }).core.slew
    ∧ 8 * 1 ≤ (slewing fun u => { u with mode := .work, acc := 4, level := 4 }).core.slew.acc + (slewing fun u => { u with mode := .work, acc := 4, level := 4 }).core.slew.level
    ∧ (∀ r : ResIx, base.res[r].killDue = none) ∧ base.quad.leaveDue = false
    ∧ (inCore (fun c => { c with jm := 2 }) base).core.slew.quadUnit = false ∧ (inCore (fun c => { c with jm := 2 }) base).core.slew.work = []
    ∧ (∀ k : Fin 4, (mates true).quad.mates[k].busy = false) ∧ (mates true).core.slew.mode = .idle := by decide +kernel

/-- A kill that waits for the operation, which ends in this cycle. -/
theorem wit_SlewSteps_kill : (inRes (fun r => { r with killDue := some ⟨some 0, 1, 0, 0, 0⟩ }) (slewing fun u => { u with mode := .work, acc := 4, level := 4 })).res[(0 : ResIx)].killDue ≠ none := by
  decide +kernel

/-- The TAG that the device gives the capability of address space 0 and quad 0 with all rights. -/
def tag : BitVec 32 := capabilityTag 0xE0000

/-- A command of the matrix port that shows that capability with a TAG. -/
def command (t : BitVec 32) (hidx : BitVec 8) : Msg := { newMsg base 0 0 true 1 hidx 3 64 0 with payload := BitVec.ofNat 512 (0xE0000 + t.toNat * 2 ^ 32) }

theorem cmdWord_command (t : BitVec 32) (h : BitVec 8) : cmdWord (command t h) 0 = 0xE0000 + t.toNat * 2 ^ 32 := by
  have := t.isLt
  simp only [cmdWord, msgPayload, command, bits, BitVec.toNat_ofNat]
  omega

/-- The low half of the capability. -/
theorem low_command (t : BitVec 32) (h : BitVec 8) : BitVec.ofNat 32 (cmdWord (command t h) 0) = 0xE0000 := by
  apply BitVec.eq_of_toNat_eq; rw [cmdWord_command, BitVec.toNat_ofNat]
  show (917504 + _ * 2 ^ 32) % 2 ^ 32 = 917504
  omega

theorem tag_command (t : BitVec 32) (h : BitVec 8) : BitVec.ofNat 32 (cmdWord (command t h) 0 / 2 ^ 32) = t := by
  have := t.isLt
  apply BitVec.eq_of_toNat_eq; rw [cmdWord_command, BitVec.toNat_ofNat]; omega

theorem bits_command (t : BitVec 32) (h : BitVec 8) (lo n : Nat) (hb : lo + n ≤ 32) : bits (cmdWord (command t h) 0) lo n = bits 0xE0000 lo n := by
  rw [cmdWord_command]; simp only [bits]
  have h1 : 0xE0000 + t.toNat * 2 ^ 32 = 0xE0000 + 2 ^ (lo + n) * (t.toNat * 2 ^ (32 - (lo + n))) := by
    rw [Nat.mul_left_comm, ← Nat.pow_add]; congr 3; omega
  rw [h1, Nat.pow_add, Nat.mul_assoc, Nat.add_mul_div_left _ _ (Nat.two_pow_pos lo), Nat.add_mul_mod_self_left]

/-- The command heads the port's queue, and the quad grants every right. -/
def ported (t : BitVec 32) (hidx : BitVec 8) : State := inCore (fun c => { c with portQ := [command t hidx] }) (translated base)

theorem portChecks_good (h : BitVec 8) (right : Option Nat) (hr : right = none ∨ right = some 0 ∨ right = some 1 ∨ right = some 2) :
    portChecks (ported tag h) (command tag h) right = .inr 0 := by
  have b0 : base.ownQuad = 0 ∧ base.ownStack = 0 ∧ base.ownVault = 0 := by decide +kernel
  have a0 : (ported tag h).ownVault = 0 ∧ (command tag h).src = 0 ∧ (ported tag h).ownStack = 0 ∧ (ported tag h).ownQuad = 0 :=
    ⟨(rfl : (ported tag h).ownVault = base.ownVault).trans b0.2.2, rfl, (rfl : (ported tag h).ownStack = base.ownStack).trans b0.2.1, (rfl : (ported tag h).ownQuad = base.ownQuad).trans b0.1⟩
  have a1 : accessAllows (ported tag h) 0 (BitVec.ofNat 12 (bits 0xE0000 20 12)) 27 0 = accessAllows (translated base) 0 0 27 0 := rfl
  have a2 : accessAllows (translated base) 0 0 27 0 = true := by decide +kernel
  have a3 : portResidency (ported tag h) (bits 0xE0000 20 12) = portResidency base 0 := rfl
  have a4 : portResidency base 0 = some 0 := by decide +kernel
  have a5 : ¬ (bits 0xE0000 15 2 ≠ 0 ∨ 12 ≤ bits 0xE0000 0 4 ∨ 0 < bits 0xE0000 4 11 ∨ bits 0xE0000 4 11 + 2 ^ bits 0xE0000 0 4 ≤ 0) := by decide +kernel
  unfold portChecks
  simp only [low_command, tag_command, bits_command tag h 20 12 (by omega), bits_command tag h 4 11 (by omega), bits_command tag h 0 4 (by omega),
    bits_command tag h 15 2 (by omega), a0, a1, a2, a3, a4, if_neg a5]
  rcases hr with rfl | rfl | rfl | rfl
  · rw [if_neg (by simp [tag])]; rfl
  all_goals rw [if_neg (by simp [tag])]; simp only [bits_command tag h 17 1 (by omega), bits_command tag h 18 1 (by omega), bits_command tag h 19 1 (by omega)]; rfl

theorem wit_MatrixPort : (ported tag 0xE4).core.portQ = [command tag 0xE4] ∧ (command tag 0xE4).rq = true ∧ (command tag 0xE4).hidx.toNat = 0xE4
    ∧ (ported tag 0xE4).inScan = false ∧ (ported tag 0xE4).quadOn = true ∧ portChecks (ported tag 0xE4) (command tag 0xE4) (some 2) = .inr 0
    ∧ portChecks (ported tag 0xE6) (command tag 0xE6) none = .inr 0 ∧ (ported tag 0xE6).core.portQ = [command tag 0xE6] :=
  ⟨rfl, rfl, rfl, rfl, rfl, portChecks_good _ _ (by simp), portChecks_good _ _ (by simp), rfl⟩

/-- A command that asks for no reply. -/
theorem wit_MatrixPort_dead : (inCore (fun c => { c with portQ := [{ command 0 0xE2 with rq := false }] }) base).core.portQ = { command 0 0xE2 with rq := false } :: []
    ∧ (inCore (fun c => { c with portQ := [{ command 0 0xE2 with rq := false }] }) base).inScan = false := ⟨rfl, rfl⟩

/-- MZERO of accumulators 32 to 63 is performed. -/
theorem wit_MatrixPort_run : (match runMzero { command 0 0xE3 with payload := (32 + 31 * 2 ^ 8) * 2 ^ 64 } 0 base with
    | .op (.ok _) _ => true
    | _ => false) = true := by decide +kernel

/-- MMAR of two rows and one k-step, as a command, leaves one operation of slice work. -/
theorem wit_MatrixPort_work : (match runMmar { command 0 0xE2 with payload := (0x102 * 2 ^ 24) * 2 ^ 64 } 0 (guarded 0) with
    | .op (.ok s) _ => decide (s.core.slew.work = [⟨1, none, none, some 0⟩])
    | _ => false) = true := by decide +kernel

/-- A command whose TAG is not the capability's is denied. -/
theorem wit_MatrixPort_denied (h : BitVec 8) : portChecks (ported (tag + 1) h) (command (tag + 1) h) (some 0) = .inl 1 := by
  unfold portChecks
  simp only [low_command, tag_command]
  rw [if_pos]
  simp [tag]

theorem wit_MatrixPort_mcfg : 24 ≤ (command 0 0xE0).len.toNat ∧ (∀ k, 2 ≤ k → k < 8 → msgPayload { command 0 0xE0 with payload := 6 * 2 ^ 64 } k = 0)
    ∧ base.res[(0 : ResIx)].accs ≠ 0 ∧ base.core.slew.work = [] ∧ base.core.jm ≠ 2 := by
  refine ⟨by decide +kernel, ?_, by decide +kernel, rfl, by decide +kernel⟩
  intro k h1 h2; interval_cases k <;> decide +kernel

/-- A TLD or TST of one beat between offset 0x18 of the XBUF and byte 0x40 of page 0, at work on its page. -/
def beating (kind : EngKind) : EngOp :=
  { tileOp kind (BitVec.ofNat 128 (0x40 + 0x18 * 2 ^ 48 + 1 * 2 ^ 64 + 1 * 2 ^ 80)) with started := true, pages := [(0, pageWord)] }

/-- The state with an operation at the head of the queue, its row open. -/
def heading (e : EngOp) : State := inCore (fun c => { c with engQ := [e] })
  { translated base with vault := { (translated base).vault with mem := [(0x44, 7)], banks := vset base.vault.banks 0 { Bank.closed with openRow := some 0 } } }

theorem wit_TileSteps_start : (let e := tileOp .tld (BitVec.ofNat 128 (1 * 2 ^ 64 + 1 * 2 ^ 80)); engHead (heading e) e [] ∧ e.isTile = true ∧ e.started = false
      ∧ tileBadBit e.kind (decide ((heading e).res[e.res].accs ≠ 0)) e.desc = none ∧ (heading e).quadOn = true ∧ opWaits (heading e) e = false
      ∧ ({ heading e with power := { (heading e).power with quads := [] } } : State).quadOn = false)
    ∧ tileBadBit (tileOp .tld 0).kind true (tileOp .tld 0).desc = some 64 := by unfold engHead; decide +kernel

theorem wit_TileSteps_load : (let e := beating .tld; engHead (heading e) e [] ∧ (heading e).memoriesWf ∧ beatGoes (heading e) e pageWord ∧ e.kind ≠ .tst
    ∧ beatAllowed (heading e) e ∧ ¬ beatAllowed { heading e with quad := { (heading e).quad with access := [] } } e ∧ columnGood (heading e) (beatPlace e pageWord).addr ∧ (beatPlace e pageWord).addr = 0x40 ∧ beatLocal e.desc e.beats = 0x18) := by
  refine ⟨rfl, ⟨rfl, rfl, rfl, rfl, rfl⟩, ?_, by decide, ?_, ?_, ?_, ?_⟩
  · unfold beatGoes; decide +kernel
  · unfold beatAllowed; decide +kernel
  · unfold beatAllowed; decide +kernel
  · unfold columnGood; decide +kernel
  · decide +kernel

theorem wit_TileSteps_store : (let e := beating .tst; engHead (heading e) e [] ∧ (heading e).memoriesWf ∧ beatGoes (heading e) e pageWord ∧ e.kind = .tst
    ∧ beatAllowed (heading e) e ∧ columnGood (heading e) (beatPlace e pageWord).addr ∧ (beatPlace e pageWord).addr % 16 = 0
    ∧ tileRead (heading e) (heading e).res[e.res] (tdSpace e.desc) (beatLocal e.desc e.beats) = some (List.replicate 16 0)
    ∧ logFull (heading e).res[e.res].asid (pageOf (beatVa e.desc e.beats)) (beatPlace e pageWord).vault (heading e) = false) := by
  refine ⟨rfl, ⟨rfl, rfl, rfl, rfl, rfl⟩, ?_, rfl, ?_, ?_, ?_⟩
  · unfold beatGoes; decide +kernel
  · unfold beatAllowed; decide +kernel
  · unfold columnGood; decide +kernel
  · decide +kernel

/-- An operation that has moved its one beat, one that has ended, and one that waits at a fault. -/
theorem wit_TileSteps_end : tileBeats (beating .tld).desc ≤ ({ beating .tld with beats := 1 } : EngOp).beats
    ∧ ({ beating .tld with ended := some (6, 3) } : EngOp).ended = some (6, 3) ∧ ({ beating .tld with faultWhy := 2 } : EngOp).faultWhy ≠ 0
    ∧ (∀ e : EngOp, engHead (heading e) e []) := ⟨by decide +kernel, rfl, by decide, fun _ => rfl⟩

/-- An ACT of the 16 bytes at 0x40 of page 0. -/
def rowOp (kind : EngKind) : EngOp := { tileOp kind 0 with va := 0x40, len := 16 }

/-- The own vault with another bank 0. -/
def inBank (f : Bank → Bank) (s : State) : State := { s with vault := { s.vault with banks := vset s.vault.banks 0 (f s.vault.banks[(0 : BankIx)]) } }

theorem wit_BankSteps : (let e := rowOp .act; engHead (heading e) e [] ∧ e.kind = .act ∧ e.len.toNat ≤ 16 ∧ 0 < e.len.toNat ∧ e.va.toNat % 16 = 0 ∧ e.va.toNat + 16 ≤ 2 ^ 48
      ∧ bufFind (heading e).vault.ctrlBuf (heading e).res[e.res].asid (pageOf e.va.toNat) = some ⟨0, 0, pageWord, none⟩ ∧ sel pageWord 60 1 = 0
      ∧ pageIsLocal (heading e) pageWord = true) ∧ (rowOp .pre).kind = .pre ∧ (heading (rowOp .act)).core.acts = []
    ∧ (rowRange true (0 : ResIx) 0x40 16 (heading (rowOp .act))).isSome = true
    ∧ (inBank (fun b => { b with busy := .repairing 5, refreshDue := true }) base).vault.banks[(0 : BankIx)].busy = .repairing 5
    ∧ (inBank (fun b => { b with busy := .refreshRepair 5 }) base).vault.banks[(0 : BankIx)].busy = .refreshRepair 5
    ∧ quietBank (inBank (fun b => { b with busy := .activating 1023 }) base).vault.banks[(0 : BankIx)]
    ∧ (inBank (fun b => { b with busy := .activating 1023 }) base).vault.banks[(0 : BankIx)].busy = .activating 1023
    ∧ quietBank (inBank (fun b => { b with busy := .precharging }) base).vault.banks[(0 : BankIx)]
    ∧ base.quadOn = true ∧ base.vault.banks[(15 : BankIx)].busy = .idle ∧ base.vault.banks[(15 : BankIx)].refreshDue = false
    ∧ quietBank (inBank (fun b => { b with busy := .refreshing }) base).vault.banks[(0 : BankIx)] := by unfold engHead quietBank; decide +kernel

theorem wit_BankSteps_refresh : (let s := inBank (fun b => { b with refreshDue := true }) base
      s.vault.banks[(0 : BankIx)].busy = .idle ∧ s.vault.banks[(0 : BankIx)].refreshDue = true)
    ∧ (let s := inBank (fun b => { b with busy := .refreshing, corrections := [(1023, 4)], spares := 15 }) base
      s.vault.banks[(0 : BankIx)].busy = .refreshing ∧ s.vault.banks[(0 : BankIx)].refreshDue = false ∧ s.vault.banks[(0 : BankIx)].repairDue = some 1023) := by decide +kernel

theorem wit_BankSteps_repair : (let s := inBank (fun b => { b with busy := .repairing 1023, corrections := [(1023, 4)], spares := 15 }) base
      s.vault.banks[(0 : BankIx)].busy = .repairing (1023 : BitVec 10).toNat ∧ Table.wf 0 s.vault.banks[(0 : BankIx)].corrections = true)
    ∧ (let s := inBank (fun b => { b with corrections := [(1023, 4)], spares := 16 }) base
      4 ≤ Table.get 0 s.vault.banks[(0 : BankIx)].corrections (1023 : BitVec 10).toNat ∧ 16 ≤ s.vault.banks[(0 : BankIx)].spares
      ∧ s.vault.banks[(0 : BankIx)].full = false ∧ s.vault.banks[(0 : BankIx)].busy ≠ .repairing (1023 : BitVec 10).toNat) := by decide +kernel

theorem wit_BankSteps_hot : (let e := beating .tld; let temps := [20, 105, 106]; engHead (heading e) e [] ∧ e.kind = .tld ∧ e.started = true ∧ e.ended = none
    ∧ e.beats < tileBeats e.desc ∧ temps[(2 : Fin 8).val]? = some 106 ∧ (105 : Nat) < 106 ∧ (heading e).vault.throttled[(2 : Fin 8)] = false
    ∧ (∀ j : Fin 8, j.val < (2 : Fin 8).val → (heading e).vault.throttled[j] = true ∨ ∀ x, temps[j.val]? = some x → x ≤ 105)) := by
  refine ⟨rfl, rfl, rfl, rfl, by decide +kernel, rfl, by decide, rfl, fun j h => .inr ?_⟩
  match j, h with
  | ⟨0, _⟩, _ => simp
  | ⟨1, _⟩, _ => simp

/-! ## Translation and copies -/

/-- The word of table number n in the table page of bank 0, row 128. -/
def tableWord (n : Nat) : Word := BitVec.ofNat 64 (0x8060001480800000 + n * 2 ^ 18)

/-- Page 0 is mapped by the tables of address space 0 and their mirrors, and no buffer holds it. -/
def tabled (s : State) : State := { s with vault := { s.vault with
  roots := [(0, tableWord 0)]
  mem := [(0x40000, tableWord 1), (0x42000, tableWord 2), (0x44000, pageWord), (0x40000 + 2 ^ 39, tableWord 1), (0x42000 + 2 ^ 39, tableWord 2),
    (0x44000 + 2 ^ 39, pageWord)].foldl (fun m e => writeLE m e.1 8 e.2.toNat) s.vault.mem } }

theorem wit_TranslationSteps_walk : bufFind (tabled base).vault.ctrlBuf 0 (0 : Vpn).toNat = none ∧ bufFind (tabled base).vault.stackBuf 0 (0 : Vpn).toNat = none
    ∧ (walk 0 (0 : Vpn).toNat (tabled base)).1 = .ok pageWord := ⟨rfl, rfl, by decide +kernel⟩

theorem wit_TranslationSteps_change : (tabled base).memoriesWf ∧ (tabled base).resil.snapshots = []
    ∧ (∀ e ∈ [(2, 0x44000), (0, 0x40000)], (levelEntry e.1 0 (0 : Vpn).toNat (tabled base)).any (fun q =>
      decide (q.1.addr = e.2 ∧ q.2.addr = e.2 + 2 ^ 39) && !copyHeld (tabled base) q.1 && !copyHeld (tabled base) q.2) = true)
    ∧ zeroFilled (tabled base) 0 (BitVec.ofNat 64 (readLE (tabled base).vault.mem 0x44000 8)) 0x8060001A00000000 = [0x8060001A00000000]
    ∧ zeroFilled (tabled base) 0 (BitVec.ofNat 64 (readLE (tabled base).vault.mem 0x44000 8)) pageWord = []
    ∧ busGood (tabled base) 0x44000 ∧ busGood (tabled base) (0x44000 + 2 ^ 39)
    ∧ mapsAnew (BitVec.ofNat 64 (readLE (tabled base).vault.mem 0x44000 8)) 0x8060001A00000000 = true
    ∧ mapsAnew (BitVec.ofNat 64 (readLE (tabled base).vault.mem 0x44000 8)) pageWord = false
    ∧ (∀ i < 2 ^ sel (0x8060001A00000000 : Word) 44 3, vaultGated (tabled base) (pwVault 0x8060001A00000000 i) = false) :=
  ⟨⟨rfl, by decide +kernel, rfl, rfl, rfl⟩, rfl, by decide +kernel, by decide +kernel, by decide +kernel, by unfold busGood; decide +kernel, by unfold busGood; decide +kernel,
    by decide +kernel, by decide +kernel, by decide +kernel⟩

/-- A log of the own quad with one entry; and the same when the quad is gated, its table's vault with it, so that the merge waits. -/
def logged (on : Bool) : State :=
  let s := { tabled base with quad := { base.quad with dirtyLog := [(0, 0, 0, false)] } }
  if on then s else setQpwr (physQuad s 0) { qpwr s (physQuad s 0) with state := .gated } s

/-- A log of one entry in an address space whose root is not valid: no page is mapped, and nothing holds the harvest. -/
def unrooted : State := { logged true with vault := { (logged true).vault with roots := [] } }

theorem logGoes_of {s : State} (h : s.quad.dirtyLog = [(0, 0, 0, false)]) (h0 : leafHeld 0 0 s = none) : ∀ quad, logGoes s quad := by
  intro quad e he _
  rw [h, List.mem_singleton] at he
  subst he
  exact h0

theorem wit_TranslationSteps_merge : (∀ quad, logGoes (logged true) quad) ∧ ¬ logGoes (logged false) 0 := by
  refine ⟨logGoes_of rfl (by decide +kernel), fun h => ?_⟩
  have := h (0, 0, 0, false) (List.mem_singleton.mpr rfl) rfl
  revert this
  decide +kernel

/-- A log of the own quad with 128 entries of that page. -/
theorem wit_TranslationSteps_full : (let s : State := { logged true with quad := { (logged true).quad with dirtyLog := List.replicate 128 (0, 0, 0, false) } }
    (∀ quad, logGoes s quad) ∧ readable s ∧ 128 ≤ (logOf s 0).length ∧ (logOf (logged true) 0).length < 128) := by
  have h : leafHeld 0 0 { logged true with quad := { (logged true).quad with dirtyLog := List.replicate 128 (0, 0, 0, false) } } = none := by decide +kernel
  refine ⟨fun quad e he _ => ?_, ⟨rfl, rfl, rfl⟩, by decide +kernel, by decide +kernel⟩
  rw [(List.mem_replicate.mp he).2]
  exact h

theorem wit_TranslationSteps_harvest : readable unrooted ∧ (∀ quad, logGoes unrooted quad) ∧ (∀ vpn ∈ mappedPages unrooted 0, leafHeld 0 vpn unrooted = none) :=
  ⟨⟨rfl, rfl, rfl⟩, logGoes_of rfl (by decide +kernel), by decide +kernel⟩

/-- A record at offset 64 of the reservation, handed over with CSEQ 1, in a state in which the quad grants every right. -/
def copying (rec : Nat) (s : State) : State := inRes (fun r => { r with handedOver := [(64, 1)] })
  (inCore (fun c => { c with spad := writeLE (writeLE c.spad 64 64 rec) 0x1000 2 0xBBAA }) (translated s))

theorem wit_CopySteps_bad : (∀ rec : BitVec 512, crCmd rec = 6 → copyEvent (crCmd rec) 0 (.badCopyCommand 0))
    ∧ copyStarts (copying 6 base) 0 64 6 ∧ copyBadBit (decide ((copying 6 base).res[(0 : ResIx)].accs ≠ 0)) 6 = some 0
    ∧ copyBadBit (decide ((copying 6 base).res[(0 : ResIx)].accs ≠ 0)) (BitVec.ofNat 512 (3 + 2 ^ 488)) = some 488 := by
  refine ⟨fun rec h => by simp [copyEvent, h], ?_⟩; unfold copyStarts; decide +kernel

theorem wit_CopySteps_denied : copyStarts (copying 3 base) 0 64 3 ∧ copyGood (copying 3 base) 0 3 ∧ copyEvent (crCmd 3) 0 (.hostrd 0 [])
    ∧ hostAllowed 0 62 3 (copying 3 base) = false := by
  refine ⟨by unfold copyStarts; decide +kernel, by unfold copyGood; decide +kernel, ?_, by decide +kernel⟩
  exact .inr (.inr (.inr (.inl ⟨by decide +kernel, rfl⟩)))

/-- FILL of the last 20 bytes of the reservation and of four bytes behind it. -/
def fillRecord : Nat := 2 + 24 * 2 ^ 64 + (49152 - 20) * 2 ^ 192 + 1 * 2 ^ 240 + 0x0807060504030201 * 2 ^ 256

theorem wit_CopySteps_fill : (let cr := BitVec.ofNat 512 fillRecord; copyStarts (copying fillRecord base) 0 64 cr ∧ copyGood (copying fillRecord base) 0 cr
    ∧ copyGoes (copying fillRecord base) 0 cr (CopyRun.fresh 64) ∧ (copying fillRecord base).memoriesWf ∧ crCmd cr = 2 ∧ crDsp cr = 1 ∧ crLen cr = 24) := by
  have h1 : copyStarts (copying fillRecord base) 0 64 (BitVec.ofNat 512 fillRecord) := by unfold copyStarts; decide +kernel
  have h2 : copyGood (copying fillRecord base) 0 (BitVec.ofNat 512 fillRecord) := by unfold copyGood; decide +kernel
  exact ⟨h1, h2, ⟨by decide +kernel, ⟨64, .inl ⟨h1, h2, rfl⟩⟩, by decide +kernel⟩, ⟨by decide +kernel, rfl, rfl, rfl, rfl⟩, by decide +kernel, by decide +kernel, by decide +kernel⟩

/-- COPY of 32 bytes at 0x1000 to the bytes right behind them. -/
def copyRecord : Nat := 32 * 2 ^ 64 + 0x1000 * 2 ^ 128 + 1 * 2 ^ 176 + 0x1020 * 2 ^ 192 + 1 * 2 ^ 240

theorem wit_CopySteps_copy : (let cr := BitVec.ofNat 512 copyRecord; let s := copying copyRecord base; copyGoes s 0 cr (CopyRun.fresh 64)
    ∧ crCmd cr = 0 ∧ crSsp cr = 1 ∧ crDsp cr = 1 ∧ crConverts cr = false ∧ s.core.spadBad = []) := by
  refine ⟨⟨by decide +kernel, ⟨64, .inl ⟨by unfold copyStarts; decide +kernel, by unfold copyGood; decide +kernel, rfl⟩⟩, by decide +kernel⟩, ?_⟩; decide +kernel

/-- The same with a run of the record. -/
def copyAt (c : CopyRun) (s : State) : State := { s with quad := { s.quad with copyRun := vset s.quad.copyRun 0 (some c) } }

/-- The second unit of that COPY has been read, and its bytes are still to be written. -/
theorem wit_CopySteps_copied : (let cr := BitVec.ofNat 512 copyRecord; let c : CopyRun := ⟨64, false, 0, 0, 16, 0, [], some [5, 6], 0, 0, 0, false, false, none⟩
    let s := copyAt c (copying copyRecord base); copyGoes s 0 cr c ∧ s.memoriesWf ∧ c.out = some [5, 6]) :=
  ⟨⟨by decide +kernel, ⟨64, .inr ⟨by decide +kernel, rfl, rfl, rfl⟩⟩, by decide +kernel⟩, ⟨by decide +kernel, rfl, rfl, rfl, rfl⟩, rfl⟩

/-- A FILL of no bytes. -/
theorem wit_CopySteps_none : (let cr := BitVec.ofNat 512 (fillRecord - 24 * 2 ^ 64); let s := copying (fillRecord - 24 * 2 ^ 64) base
    copyStarts s 0 64 cr ∧ copyGood s 0 cr ∧ copyEvent (crCmd cr) 0 (.fill 0) ∧ crLen cr = 0 ∧ crCmd cr = 2) := by
  refine ⟨by unfold copyStarts; decide +kernel, by unfold copyGood; decide +kernel, .inr (.inr (.inl ⟨by decide +kernel, rfl⟩)), ?_⟩; decide +kernel

/-- A DMA window of address space 0 over the first 4,096 host bytes, for reads and writes. -/
def hosted (s : State) : State := { s with host := { s.host with dma := vset s.host.dma 0 ⟨BitVec.ofNat 64 (2 ^ 63 + 2 ^ 62 + 2 ^ 61), 0, 4096⟩ } }

/-- HOSTRD of host bytes 4,064 to 4,095 to 0x1020, and HOSTWR of 0x1000 there. -/
def hostRecord (cmd : Nat) : Nat :=
  cmd + 32 * 2 ^ 64 + (if cmd = 4 then 0x1000 * 2 ^ 128 + 1 * 2 ^ 176 else 0x1020 * 2 ^ 192 + 1 * 2 ^ 240) + 4064 * 2 ^ 256

theorem wit_CopySteps_host : (let cr := BitVec.ofNat 512 (hostRecord 3); let s := copying (hostRecord 3) (hosted base); copyGoes s 0 cr (CopyRun.fresh 64)
      ∧ s.memoriesWf ∧ crCmd cr = 3 ∧ crDsp cr = 1 ∧ hostAllowed 0 62 cr s = true ∧ crLen cr ≤ (List.replicate 32 (5 : Byte)).length)
    ∧ (let cr := BitVec.ofNat 512 (hostRecord 4); let s := copying (hostRecord 4) (hosted base); copyGoes s 0 cr (CopyRun.fresh 64)
      ∧ crCmd cr = 4 ∧ crSsp cr = 1 ∧ hostAllowed 0 61 cr s = true ∧ s.core.spadBad = []) := by
  refine ⟨⟨⟨by decide +kernel, ⟨64, .inl ⟨by unfold copyStarts; decide +kernel, by unfold copyGood; decide +kernel, rfl⟩⟩, by decide +kernel⟩, ⟨by decide +kernel, rfl, rfl, rfl, rfl⟩, ?_⟩,
    ⟨by decide +kernel, ⟨64, .inl ⟨by unfold copyStarts; decide +kernel, by unfold copyGood; decide +kernel, rfl⟩⟩, by decide +kernel⟩, ?_⟩ <;> decide +kernel

/-- The host's bytes have come, and the second unit of them is still to be written. -/
theorem wit_CopySteps_hostrd : (let cr := BitVec.ofNat 512 (hostRecord 3); let c : CopyRun := ⟨64, false, 0, 0, 16, 0, [], some (List.replicate 16 5), 0, 0, 0, false, false, none⟩
    let s := copyAt c (copying (hostRecord 3) (hosted base)); copyGoes s 0 cr c ∧ s.memoriesWf ∧ c.out = some (List.replicate 16 5)) :=
  ⟨⟨by decide +kernel, ⟨64, .inr ⟨by decide +kernel, rfl, rfl, rfl⟩⟩, by decide +kernel⟩, ⟨by decide +kernel, rfl, rfl, rfl, rfl⟩, rfl⟩

theorem wit_CopySteps_drain : copyStarts (copying 5 base) 0 64 5 ∧ copyGood (copying 5 base) 0 5 ∧ crCmd 5 = 5 := by
  refine ⟨by unfold copyStarts; decide +kernel, by unfold copyGood; decide +kernel, by decide +kernel⟩

theorem wit_CopySteps_completion (wrote : Bool) : (let c : CopyRun := ⟨64, true, 6, 3, 16, 0, [], none, 0, 0, 0, false, wrote, none⟩; let s := copyAt c (copying 5 base)
    s.res[(0 : ResIx)].handedOver = (64, 1) :: [] ∧ s.quad.copyRun[(0 : ResIx)] = some c ∧ c.ended = true ∧ c.off = 64 ∧ s.memoriesWf
    ∧ c.decr = none ∧ hasTurn 0 s = true ∧ crFld (readRecord s 0 64) 4 1 = 0) :=
  ⟨rfl, rfl, rfl, rfl, ⟨by revert wrote; decide +kernel, rfl, rfl, rfl, rfl⟩, rfl, by revert wrote; decide +kernel, by revert wrote; decide +kernel⟩

/-- The record that it decrements comes next; and of two chains that can go on, the one that was not served last has the turn. -/
theorem wit_CopySteps_turn : (let c : CopyRun := ⟨64, true, 6, 3, 16, 0, [], none, 0, 0, 0, false, true, some 128⟩; let s := copyAt c (copying 5 base)
    s.quad.copyRun[(0 : ResIx)] = some c ∧ c.decr = some 128 ∧ hasTurn 0 s = true)
    ∧ (let c : CopyRun := ⟨64, true, 6, 3, 16, 0, [], none, 0, 0, 0, false, false, none⟩; let s := copyAt c (copying 5 base)
      hasTurn 1 s = false ∧ copyStep 1 (.copyCompletion 1)) := by
  refine ⟨⟨rfl, rfl, by decide +kernel⟩, by decide +kernel, ?_⟩
  exact .inr (.inr (.inr (.inr rfl)))

/-- RESTRIPE of page 0 to row 512 of bank 1. -/
def restripeRecord : Nat := 1 + 2 ^ 18 * 2 ^ 64 + 0x8060001A00000000 * 2 ^ 256

theorem wit_RestripeSteps : (let cr := BitVec.ofNat 512 restripeRecord; let s := copying restripeRecord (tabled base)
    copyStarts s 0 64 cr ∧ copyGood s 0 cr ∧ crCmd cr = 1 ∧ engineRight s s.res[(0 : ResIx)].asid 26 = true
    ∧ (translateStack s.res[(0 : ResIx)].asid (pageOf (crSrc cr)) s).1 = .ok pageWord ∧ sel pageWord 60 1 = 0
    ∧ epochStale (translateStack s.res[(0 : ResIx)].asid (pageOf (crSrc cr)) s).2 s.res[(0 : ResIx)].asid pageWord = false
    ∧ leafHeld s.res[(0 : ResIx)].asid (pageOf (crSrc cr)) (translateStack s.res[(0 : ResIx)].asid (pageOf (crSrc cr)) s).2 = none) := by
  refine ⟨by unfold copyStarts; decide +kernel, by unfold copyGood; decide +kernel, ?_⟩; decide +kernel

/-- The same with k chunks of page 0 moved. -/
def moving (k : Nat) : State := copyAt ⟨64, false, 0, 0, 0, 0, [], none, 0, k, 0, true, false, none⟩ (copying restripeRecord (tabled base))

/-- The rows of the page's last column open in the old bank and in the new one. -/
def lastRows (s : State) : State :=
  let open_ (w : Word) (s : State) : State := let p := place w 0x3FFF0
    { s with vault := { s.vault with banks := vset s.vault.banks p.bankIx { s.vault.banks[p.bankIx] with openRow := some p.row } } }
  open_ pageWord (open_ 0x8060001A00000000 s)

theorem wit_RestripeSteps_chunk : (let cr := BitVec.ofNat 512 restripeRecord; let c : CopyRun := ⟨64, false, 0, 0, 0, 0, [], none, 0, 16383, 0, true, false, none⟩; let s := lastRows (moving 16383)
    restriping s 0 64 cr c ∧ leafWord s s.res[(0 : ResIx)].asid c.page = pageWord
    ∧ moveChunk (leafWord s s.res[(0 : ResIx)].asid c.page) (BitVec.ofNat 64 (crArg0 cr)) = 16
    ∧ pageInUse s s.res[(0 : ResIx)].asid c.page = false ∧ requestInUse s s.res[(0 : ResIx)].asid c.page 0x3FFF0 0x40000 = false
    ∧ leafHeld s.res[(0 : ResIx)].asid c.page s = none ∧ vaultGated s (place pageWord (16383 * 16)).vault = false
    ∧ vaultGated s (place (BitVec.ofNat 64 (crArg0 cr)) (16383 * 16)).vault = false
    ∧ (moveColumn s.res[(0 : ResIx)].asid c.page pageWord 0x8060001A00000000 0x3FFF0 s).any (fun e => e.1 == 0) = true) := by unfold restriping; decide +kernel

theorem wit_RestripeSteps_switch : (let cr := BitVec.ofNat 512 restripeRecord; let c : CopyRun := ⟨64, false, 0, 0, 0, 0, [], none, 0, 16384, 0, true, false, none⟩; let s := moving 16384
    restriping s 0 64 cr c ∧ 2 ^ 18 ≤ c.chunk * moveChunk (leafWord s s.res[(0 : ResIx)].asid c.page) (BitVec.ofNat 64 (crArg0 cr))
    ∧ crArg1 cr ≤ s.mgr.tick.toNat ∧ leafHeld s.res[(0 : ResIx)].asid c.page s = none) := by unfold restriping; decide +kernel

/-! ## Agents and the network -/

/-- A request of this core for an agent: index, address, d1 and the bytes behind it. -/
def request (h : BitVec 8) (va d1 data : Nat) : Msg := { newMsg base 0 0 true 7 h 3 64 0 with payload := BitVec.ofNat 512 (va + d1 * 2 ^ 64 + data * 2 ^ 128) }

/-- A job of this core's vault. -/
def job (m : Msg) (own : Bool) : AgentJob := ⟨m, own, 0, 1, 0, 0, 0, 0, none, 0, [], []⟩

/-- The same, taken up, with the column at 0x40 to move. -/
def moved (j : AgentJob) (n : Nat) : AgentJob := { j with served := n, span := n, word := some pageWord, left := [0x40] }

/-- The request waits alone at its agent, and its row is open; three bytes of page 0 stand at 0x40. -/
def asked (j : AgentJob) : State := let s := rowOpen (translated base)
  { s with net := { s.net with agentQ := [j] }, vault := { s.vault with mem := [(0x40, 0x10), (0x41, 0x20), (0x47, 0x30)] } }

theorem wit_AgentSteps_accept : ∀ m ∈ [request 0xF0 0x40 16 0, request 0xF1 0x4F 1 0xAB, request 0xF2 0x47 16 5, request 0xF3 0x47 0x3F800000 0, request 0xF4 0x40 0 0],
    agentTurn (asked (job m true)) 0 (job m true) ∧ (∃ t, agentAccepts (asked (job m true)) 0 (job m true) pageWord t) ∧ agentEvent 0xF0 (.agentVread none)
    ∧ behindSource 0 (job m true) (asked (job m true)) (fun _ => true) = false := by
  intro m hm
  refine ⟨?_, ⟨(agentTranslates (asked (job m true)) (job m true)).2, ?_⟩, .inl ⟨rfl, rfl⟩, ?_⟩
  · unfold agentTurn; revert m; decide +kernel
  · unfold agentAccepts; revert m; decide +kernel
  · revert m; decide +kernel

theorem wit_AgentSteps_columns : ∀ e ∈ [(request 0xF0 0x40 16 0, 16), (request 0xF1 0x4F 1 0xAB, 1), (request 0xF2 0x47 16 5, 8), (request 0xF3 0x47 0x3F800000 0, 8)],
    let j := moved (job e.1 true) e.2
    agentTurn (asked j) 0 j ∧ columnGoes (asked j) j pageWord 0x40 [] ∧ logFull j.m.asid (pageOf (reqAddr j.m)) (columnAt (asked j) j pageWord 0x40).2.vault (asked j) = false
    ∧ 0x40 ≤ reqAddr j.m % 2 ^ 18 ∧ columnSpan j 0x40 = e.2 ∧ j.m.rq = true := by
  unfold agentTurn columnGoes columnGood; decide +kernel

theorem asked_wf (j : AgentJob) : (asked j).memoriesWf := ⟨rfl, rfl, rfl, rfl, rfl⟩

/-- The page may not be written. -/
theorem wit_AgentSteps_denied : (let j := job (request 0xF1 0x40 1 0) false; let w := setField pageWord 54 1 0
    let s := { asked j with vault := { (asked j).vault with stackBuf := [⟨0, 0, w, none⟩], ctrlBuf := [⟨0, 0, w, none⟩] } }
    agentTurn s 0 j ∧ agentEvent j.m.hidx (.agentVwrite none) ∧ j.word = none ∧ behindSource 0 j s (fun x => x.word.isNone) = false ∧ badRequest j.m = false
    ∧ (agentTranslates s j).1 = .ok w ∧ permits w (reqNeeds j.m).1 (reqNeeds j.m).2 = false) := by
  refine ⟨by unfold agentTurn; decide +kernel, .inr (.inl ⟨rfl, rfl⟩), by decide +kernel⟩

/-- A VREAD of 57 bytes. -/
theorem wit_AgentSteps_bad : (let j := job (request 0xF0 0x40 57 0) true
    agentTurn (asked j) 0 j ∧ behindSource 0 j (asked j) (fun x => x.word.isNone) = false ∧ badRequest j.m = true) := by
  unfold agentTurn; decide +kernel

/-- A completion of a whole request, and one of a VWRITE without RQ of 20 bytes of which 8 were served. -/
theorem wit_AgentSteps_completion : (let j := moved (job (request 0xF0 0x40 16 0) true) 16; hasRest j.m j.status j.served = false)
    ∧ (let m := { request 0xF1 0x40 20 0 with rq := false }; let j := moved (job m true) 8
      let s := { translated base with net := { base.net with flying := [⟨m, 0, 0, 0, 0⟩], completions := [j] } }
      hasRest j.m j.status j.served = true ∧ s.net.flying.find? (fun f => decide (f.m = j.m)) = some ⟨m, 0, 0, 0, 0⟩ ∧ j.m.scope.toNat < 5
      ∧ j.m.dest.toNat / 2 ^ 15 = s.core.pkg.toNat ∧ 0 / 2 ^ 13 = s.ownStack
      ∧ (let c := continuation j.m j.served
         let s1 := landed j.m { s with net := { s.net with completions := [] } }
         (routeVault (trimmed c) { s1 with net := { s1.net with flying := s1.net.flying ++ [⟨c, 0, 0, flightDest c s1, flightWord c s1⟩] } }).1 = some 0)) := by
  decide +kernel

theorem wit_NetworkSteps_enqueue : noMail (ready false [] []) ∧ receives (ready false [] []) 0 message ∧ message.dest = (ready false [] []).address := by
  unfold noMail receives; decide +kernel

/-- A message for a generation that nobody has. -/
theorem wit_NetworkSteps_dead : (let m := { message with gen := 5 }; noMail base ∧ m.scope.toNat < 5 ∧ m.hidx.toNat < 0xE0 ∧ base.quadOn = true ∧ m.rq = false
    ∧ (∀ k : ResIx, base.res[k].takes m = false) ∧ base.net.switchedOut = []) := by unfold noMail; decide +kernel

/-- The interface with released entries of residency 0. -/
def releasing (es : List BufEntry) : State := { base with net := { base.net with outbound := es.map (fun e => ⟨0, 0, 7, e, 0⟩) } }

/-- A SIGNAL of this core to the record at offset 64. -/
def signal : Msg := { newMsg base 0 0 true 1 0 0 8 64 with sg := true }

theorem wit_NetworkSteps_depart : leavesAt (releasing [.msg message]) 0 ⟨0, 0, 7, .msg message, 0⟩ ∧ message.sg = false ∧ forHere (releasing [.msg message]) message
    ∧ leavesAt (releasing [.msg signal]) 0 ⟨0, 0, 7, .msg signal, 0⟩ ∧ signal.sg = true ∧ forHere (releasing [.msg signal]) signal
    ∧ sameScope signal.scope.toNat signal.src signal.dest = true ∧ contextAt (releasing [.msg signal]) signal.asid signal.gen = some 0
    ∧ leavesAt (releasing [.bar 1 0x40, .fence 4]) 1 ⟨0, 0, 7, .fence 4, 0⟩ = False := by
  refine ⟨?_, rfl, ?_, ?_, rfl, ?_, by decide +kernel, by decide +kernel, eq_false ?_⟩ <;> first | (unfold forHere; decide +kernel) | (unfold leavesAt; decide +kernel)

/-- A vault request of this core, on its way to the agent of its own vault. -/
theorem wit_NetworkSteps_request : (let m := request 0xF1 0x40 1 5; let s := { releasing [.msg m] with vault := (translated base).vault, quad := (translated base).quad }
    leavesAt s 0 ⟨0, 0, 7, .msg m, 0⟩ ∧ m.sg = false ∧ m.vn ≠ 1 ∧ toAgent m = true ∧ m.scope.toNat < 5 ∧ m.dest.toNat / 2 ^ 15 = s.core.pkg.toNat ∧ 0 / 2 ^ 13 = s.ownStack
    ∧ (routeVault (trimmed m) { s with net := { s.net with outbound := [], flying := [⟨m, 0, 7, flightDest m s, flightWord m s⟩] } }).1 = some 0) := by
  unfold leavesAt; decide +kernel

theorem wit_NetworkSteps_bounce : (let m := { signal with dest := 4 }; leavesAt (releasing [.msg m]) 0 ⟨0, 0, 7, .msg m, 0⟩ ∧ m.sg = true
      ∧ sameScope m.scope.toNat m.src m.dest = false) ∧ leavesAt (releasing [.fence 4]) 0 ⟨0, 0, 7, .fence 4, 0⟩ ∧ signal.src = base.address := by
  unfold leavesAt; decide +kernel

/-- Two entries of one send buffer, of which the second waits; a fence point and a SIGNAL that wait for a VWRITE on its way; and a state in which nothing may leave. -/
theorem wit_NetworkSteps_waits : (let s := { releasing [.fence 4, .msg signal] with net := { (releasing [.fence 4, .msg signal]).net with flying := [⟨request 0xF1 0x40 1 5, 0, 7, 0, 0⟩] } }
    s.net.outbound[1]? = some ⟨0, 0, 7, .msg signal, 0⟩ ∧ s.net.outbound[0]? = some ⟨0, 0, 7, .fence 4, 0⟩ ∧ s.net.leaving = []
    ∧ (∃ f ∈ s.net.flying, f.buf = 7 ∧ pendingAt s 4 f = true) ∧ writesDone s ⟨0, 0, 7, .msg signal, 0⟩ signal.scope = false
    ∧ mayLeave s 0 ⟨0, 0, 7, .fence 4, 0⟩ = false ∧ mayLeave s 1 ⟨0, 0, 7, .msg signal, 0⟩ = false) := by decide +kernel

/-- The state in which that SIGNAL has arrived at a record whose count is 2, and its sender awaits the acknowledgement. -/
def signalled : State := inRes (fun r => { r with sinks := 1, pendingSignals := 1 })
  (inCore (fun c => { c with spad := writeLE c.spad 64 8 2 }) { base with net := { base.net with signals := [signal] } })

theorem wit_NetworkSteps_signal : signalled.net.signals = [signal] ∧ (List.finRange 4).find? (fun k => signalled.res[k].takes signal) = some 0
    ∧ signalled.res[(0 : ResIx)].killed = false ∧ signalled.res[(0 : ResIx)].state ≠ .saving ∧ signalled.inScan = false
    ∧ bits signal.payload.toNat 0 16 / 64 * 64 = 64 ∧ 64 + 64 ≤ signalled.res[(0 : ResIx)].spsize.toNat ∧ 2 ≤ recWord signalled 0 64 % 2 ^ 32
    ∧ signal.rq = true ∧ signal.src = signalled.address ∧ 0 < signalled.res[(0 : ResIx)].pendingSignals
    ∧ contextAt signalled signal.asid signal.gen = some 0 := by decide +kernel

/-- The same while the residency is being saved. -/
theorem wit_NetworkSteps_ack : (let s := inRes (fun r => { r with state := .saving }) signalled; contextAt s 0 0 = some 0 ∧ 0 < s.res[(0 : ResIx)].pendingSignals
    ∧ s.res[(0 : ResIx)].state = .saving) ∧ contextAt signalled 0 0 = some 0 := by decide +kernel

theorem signalled_wf : signalled.memoriesWf := by refine ⟨?_, ?_, ?_, ?_, ?_⟩ <;> decide +kernel

/-- A started gang 0 of this core and core 1, whose launch asks for an end message and a completion entry. -/
def ganged (holders : List (BitVec 32)) (s : State) : State := { s with mgr := { s.mgr with
  gangs := [⟨0, 0, BitVec.ofNat 1024 (0xC00000 * 2 ^ 384), true, false, none, none, 0, [], true, [0, 1], holders, 0⟩] } }

theorem wit_NetworkSteps_barrier : (let s := ganged [0, 1] (releasing [.bar 1 0x40]); (0 = s.address ∧ ownArrival s 0 1 = some (0, 0x40)) ∧ barrierMembers s 0 1 0 = [0, 1]
      ∧ arrivedAt s 0 1 1 = none)
    ∧ (let s := { ganged [0, 1] base with net := { base.net with arrivals := [(0, 1, 0, 0x40)] } }; (1 ≠ s.address ∧ arrivedAt s 0 1 1 = none)
      ∧ barrierMembers s 0 1 1 = [0, 1] ∧ arrivedAt s 0 1 0 ≠ none) := by decide +kernel

theorem wit_NetworkSteps_end : (let s := ganged [] (inRes (fun r => { r with state := .free }) base); (gangOf s 0).isSome = true
    ∧ (∀ g, gangOf s 0 = some g → g.started = true ∧ g.holders = [] ∧ g.forwarded = none ∧ pkt g.packet 6 23 1 = 1 ∧ pkt g.packet 6 22 1 = 1) ∧ residencyOf s 0 = none
    ∧ s.net.switchedOut = [] ∧ s.host.cringSet = false ∧ (∀ g, gangOf (ganged [1] base) 0 = some g → g.holders ≠ [])
    ∧ residencyOf (ganged [] base) 0 ≠ none) := by
  refine ⟨rfl, ?_, by decide +kernel, rfl, rfl, ?_, by decide +kernel⟩
  · intro g hg; cases hg; decide +kernel
  · intro g hg; cases hg; decide +kernel

/-! ## The journal -/

/-- A BOUND binding with JID 3 and PGEN 2 whose window lies at the start of page 0. -/
def bound (f : Journal → Journal) (s : State) : State := inRes (fun r => { r with journal := f { r.journal with state := .bound, jid := 3, pgen := 2, lnw := 0 } }) s

/-- A record of kind k with number n. -/
def slot (k n : Nat) : JSlot := ⟨BitVec.ofNat 64 n, 9, 3, 64, BitVec.ofNat 512 k⟩

/-- A batch of one record, sealed before a scan that the quad has passed. -/
def sealed (bs : BindingState) : State := { bound (fun j => { j with state := bs, batches := [⟨[slot 2 5], 6⟩] }) (translated base) with
  resil := { base.resil with passTick := [(0, 7)] } }

theorem wit_JournalSteps_ship : (bound (fun j => { j with unshipped := [[slot 2 5]] }) base).res[(0 : ResIx)].journal.state = .bound
    ∧ (bound (fun j => { j with unshipped := [[slot 2 5]] }) base).res[(0 : ResIx)].journal.unshipped = [slot 2 5] :: [] := ⟨rfl, rfl⟩

/-- Writing the batch to the window answers status 0. -/
def written (o : Served) : Bool := match o with
  | .done 0 _ _ _ => true
  | _ => false

theorem written_iff {o : Served} (h : written o = true) : ∃ d bs t, o = .done 0 d bs t := by
  cases o with
  | done st d bs t => cases st with
    | zero => exact ⟨d, bs, t, rfl⟩
    | succ n => cases h
  | _ => cases h

theorem wit_JournalSteps_write : (let s := sealed .bound; let j := s.res[(0 : ResIx)].journal; j.unshipped = [] ∧ j.faulted = false
    ∧ shippable s j = some (⟨[slot 2 5], 6⟩, []) ∧ j.window.length + 1 ≤ 2 ^ (8 + j.lnw.toNat)
    ∧ written (writeSlots s.res[(0 : ResIx)].asid j (j.windowPos + j.window.length) [{ slot 2 5 with jid := j.jid }] s) = true)
    ∧ (sealed .changing).res[(0 : ResIx)].journal.state ≠ .bound := by decide +kernel

theorem wit_JournalSteps_store : [slot 2 5].getLast? = some (slot 2 5) ∧ slotKind (slot 2 5) = 2 ∧ base.resil.partnerWindows = [] := by decide +kernel

theorem wit_JournalSteps_ack : (let j := (bound (fun j => { j with shipped := some 5, applied := some 4, covered := 5 }) base).res[(0 : ResIx)].journal
    ackCounts j 2 5 = true ∧ ackCounts j 1 5 = false ∧ ackCounts j 2 4 = false ∧ ackCounts j 2 6 = false) := by decide +kernel

theorem wit_JournalSteps_release : (let s := bound (fun j => { j with covered := 5, gate := [.emit message false 4] }) base
    s.res[(0 : ResIx)].journal.gate = .emit message false 4 :: [] ∧ gateOpen s.res[(0 : ResIx)].journal false 4 = true
    ∧ gateOpen s.res[(0 : ResIx)].journal false 5 = false ∧ forHere s message) := by unfold forHere; decide +kernel

theorem wit_JournalSteps_peer : (let s := inCore (fun c => { c with cycle := 27000 }) (bound id base); s.res[(0 : ResIx)].journal.state = .bound
    ∧ s.res[(0 : ResIx)].journal.peerLost = false ∧ 27000 ≤ s.core.cycle.toNat - s.res[(0 : ResIx)].journal.lastHeard.toNat
    ∧ s.res[(0 : ResIx)].journal.state ≠ .absent) := by decide +kernel

theorem wit_JournalSteps_window : (let s := bound (fun j => { j with state := .changing, windowOut := true }) base
    s.res[(0 : ResIx)].journal.state ≠ .bound ∧ s.res[(0 : ResIx)].journal.windowOut = true) := by decide +kernel

/-- The window of a lost package with an OPEN record of image digest 1 and weights 2. -/
def opened : JSlot := { slot 1 5 with body := BitVec.ofNat 512 (1 + 2 * 2 ^ 64 + 1 * 2 ^ 256) }

theorem wit_JournalSteps_replay : (let s := { translated base with resil := { base.resil with partnerWindows := [⟨8, 4, [opened], [opened]⟩] } }; let j := s.res[(0 : ResIx)].journal
    s.resil.partnerWindows.find? (fun w => decide (w.jid = 8)) = some ⟨8, 4, [opened], [opened]⟩ ∧ s.res[(0 : ResIx)].state ≠ .free ∧ j.state ≠ .bound
    ∧ j.windowOut = false ∧ j.window = [] ∧ (slotKind opened = 1 ∧ openAgrees 1 2 opened = true) ∧ 1 ≤ 2 ^ (8 + j.lnw.toNat)
    ∧ written (writeSlots s.res[(0 : ResIx)].asid j j.windowPos [opened] s) = true) := by decide +kernel

/-! ## Snapshots, scans, launches and saves -/

/-- A package that serves its mailbox. -/
def readied (s : State) : State := { s with mgr := { s.mgr with boot := .ready } }

theorem wit_SnapshotAndScanSteps_cfg : (let body : List Word := [0x700000001, 10000, 2]; mailServed (readied base) ∧ snapBad body = none
    ∧ (readied base).mgr.tick.toNat + 10000 ≤ bodyWord body 1 ∧ snapshotOf (readied base) (BitVec.ofNat 12 (bits (bodyWord body 0) 16 12)) = none)
    ∧ snapBad [0x700000001, 9999, 2] = none ∧ bodyWord [0x700000001, 9999, 2] 1 < (readied base).mgr.tick.toNat + 10000 := by unfold mailServed; decide +kernel

/-- A snapshot of address space 0 at tick 3. -/
def snapshot (cut : Bool) : Snapshot := ⟨0, 0, 7, 3, [2], 0, cut, 0, 0⟩

/-- It is in progress, at tick 3; page 0 lies in vault 1. -/
def snapping (x : Snapshot) : State := { tabled (readied base) with
  mgr := { (readied base).mgr with tick := 3 }
  resil := { base.resil with snapshots := [x] }
  vault := { (tabled (readied base)).vault with
    epochs := if x.cut then [(0, 1)] else []
    mem := writeLE (writeLE (tabled base).vault.mem 0x44000 8 (pageWord + 1).toNat) (0x44000 + 2 ^ 39) 8 (pageWord + 1).toNat } }

theorem wit_SnapshotAndScanSteps_cut : snapshotOf (snapping (snapshot false)) 0 = some (snapshot false) ∧ (snapshot false).cut = false
    ∧ (snapshot false).tick.toNat ≤ (snapping (snapshot false)).mgr.tick.toNat ∧ Table.wf 0 (snapping (snapshot false)).vault.epochs = true := by decide +kernel

/-- The same with page 0 in a copy table, of which col columns have been read. -/
def copyTable (col : Nat) : State := { snapping (snapshot true) with resil := { (snapping (snapshot true)).resil with copying := [⟨0, 0, 0, col, [], true⟩] } }

theorem wit_SnapshotAndScanSteps_copy : pageWaits (snapping (snapshot true)) 0 0 (snapshot true)
    ∧ (∀ col ∈ [16383, 16384], pageCopied (copyTable col) 0 0 (snapshot true) 0 ⟨0, 0, 0, col, [], true⟩ ∧ leafHeld 0 (0 : Vpn).toNat (copyTable col) = none)
    ∧ (let q := place (leafWord (copyTable 16383) 0 (0 : Vpn).toNat) (16 * 16383)
      vaultGated (copyTable 16383) q.vault = false ∧ (openColumn q (copyTable 16383)).isSome = true) := by
  unfold pageWaits pageCopied; decide +kernel

/-- A full shingle of page 3, sent to endpoint 2 or not. -/
def shingle (sent : Bool) : Shingle := ⟨0, 0, 3, 7, 3, 1, [(0, 1)], if sent then some 2 else none⟩

theorem wit_SnapshotAndScanSteps_shingles : (let s := { snapping (snapshot true) with resil := { base.resil with shingles := [shingle true, shingle false] } }
      s.resil.shingles = [shingle true] ++ shingle false :: [] ∧ (∀ y ∈ [shingle true], y.sent ≠ none) ∧ (shingle false).sent = none
      ∧ s.resil.shingles[0]? = some (shingle true)) ∧ (shingle true).sent = some 2
    ∧ snapshotOf (snapping (snapshot true)) (shingle true).asid = some (snapshot true) ∧ (snapshot true).failed = 0 := by
  refine ⟨⟨rfl, by simp [shingle], rfl, rfl⟩, rfl, by decide +kernel⟩

theorem wit_SnapshotAndScanSteps_seal : (let x := { snapshot true with failed := 2 }; snapshotOf (snapping x) 0 = some x ∧ mailOpenAt x.mail (snapping x) = false ∧ x.failed ≠ 0) := by
  decide +kernel

theorem wit_SnapshotAndScanSteps_scan : visitDue base 0 = true ∧ visitDue base 1 = false ∧ visitDue base 1600 = true ∧ visitDue base 1639 = false ∧ (0 : BitVec 11).toNat = base.ownQuad ∧ quadQuiet resting 0 = true
    ∧ quadQuiet { resting with resil := { resting.resil with busyQuads := [0] } } 0 = false
    ∧ visitDue resting 0 = true ∧ (let s := { base with resil := { base.resil with scanning := [(0, 9)] } }
      s.resil.scanning.find? (fun e => decide (e.1 = (0 : BitVec 11))) = some (0, 9) ∧ Table.wf 0 s.resil.passTick = true
      ∧ s.res[(0 : ResIx)].state ≠ .free ∧ s.res[(0 : ResIx)].killed = false) := by decide +kernel

/-- Quad 0 has been retired, and the spare 1,600 has passed a scan. -/
def retired : State := { base with resil := { base.resil with failedQuads := [0], passTick := [(1600, 3)] } }

theorem wit_SnapshotAndScanSteps_spare : spareFits 0 1600 retired = true ∧ spareFits 0 1601 retired = false ∧ (qpwr retired 1600).state ≠ .on
    ∧ (qpwr (setQpwr 1600 { qpwr retired 1600 with state := .on } retired) 1600).state = .on ∧ ((0 : BitVec 11), 1600) ∉ retired.resil.remapping
    ∧ spareFits 0 1600 { retired with resil := { retired.resil with remapping := [(0, 1600)] } } = true ∧ isQuad (physQuad retired (0 : BitVec 11).toNat) = true
    ∧ Table.wf 0 retired.mgr.quadMap = true
    ∧ (3 : BitVec 15).toNat / 2 ^ 13 = retired.ownStack ∧ BitVec.ofNat 11 ((3 : BitVec 15).toNat / 4) ∈ retired.resil.failedQuads
    ∧ (3 : BitVec 15) ∉ retired.resil.lostVaults := by
  decide +kernel

/-- A launch packet for cores 0 to 3 of package 0 (to package plast): gang 7, mode, image 1, one A stream, 3,072 bytes, BUDGET 1,000, TK and TICK, an
end message and a completion entry, sealed for ring position 0. -/
def packet (mode plast : Nat) (tick : Option Nat) : BitVec 1024 :=
  BitVec.ofNat 1024 (7 * 2 ^ 16 + mode * 2 ^ 14 + tick.isSome.toNat * 2 ^ 11 + (3 * 2 ^ 45 + 2 * 2 ^ 16 + 3072) * 2 ^ 64 + 1 * 2 ^ 56 * 2 ^ 128 + 1000 * 2 ^ 192
    + tick.getD 0 * 2 ^ 256 + plast * 2 ^ 47 * 2 ^ 320 + 0xC00000 * 2 ^ 384 + 55 * 2 ^ 512)

/-- The image of that packet, loaded in quad 0. -/
def image : Image := ⟨1, true, 0, false, [{ Role.empty with entry := some 0 }], [(0, 3, 0)], [], [0], 0, 1⟩

/-- The placement of the gang on this core. -/
def spot : Placement := ⟨0, 2, 1, 3, []⟩

/-- A package whose host ring 0 holds a record at its position 0, with nothing placed and the image loaded. -/
def launching (p : BitVec 1024) : State := { translated base with
  res := Vector.replicate 4 Residency.free
  streams := Vector.replicate 4 Stream.idle
  vault := { (translated base).vault with mem := writeLE [] 0 128 p.toNat }
  mgr := { base.mgr with boot := .ready, images := [image], rings := vset base.mgr.rings 0 ⟨true, 0, 4, 0, 1, 0, 0, none⟩ } }

/-- The state after the record has been read, and after its status has been written. -/
def readRing (s : State) : State := match nextRecord 0 s with
  | some (_, t) => t
  | none => s
def closed (st : Refused) (s : State) : State := (closeRecord 0 st (readRing s)).getD s

/-- Ring 0 takes the record, and its status can be written. -/
def taken (p : BitVec 1024) (st : Refused) (s : State) : Bool := match nextRecord 0 s with
  | some (q, t) => decide (q = p) && sealGood p t.mgr.rings[(0 : Fin 24)].ci && (closeRecord 0 st t).isSome
  | none => false

theorem takes_iff {p : BitVec 1024} {st : Refused} {s : State} (h : taken p st s = true) :
    takes 0 (pkMode p) p s (readRing s) ∧ closeRecord 0 st (readRing s) = some (closed st s) := by
  unfold taken at h
  cases hn : nextRecord 0 s with
  | none => rw [hn] at h; cases h
  | some e =>
    obtain ⟨q, t⟩ := e
    rw [hn] at h
    simp only [Bool.and_eq_true, decide_eq_true_eq] at h
    obtain ⟨⟨rfl, h2⟩, h3⟩ := h
    have e1 : readRing s = t := by simp [readRing, hn]
    obtain ⟨v, hv⟩ := Option.isSome_iff_exists.mp h3
    exact ⟨by rw [e1]; exact ⟨hn, h2, rfl⟩, by simp [closed, e1, hv]⟩

/-- A PLACE and START or PLACE record of this core's gang, with and without a placement here. -/
theorem wit_LaunchSteps_place : ∀ mode : Fin 2, (let p := packet mode.val 0 none; let s := launching p; taken p (0, 0) s = true ∧ pkMode p = mode.val
    ∧ ringRefusal 0 p (readRing s) = none ∧ placedHere (closed (0, 0) s) p spot image { Role.empty with entry := some 0 }
    ∧ inLaunchRange p (closed (0, 0) s).core.id.toNat = true) := by unfold placedHere; decide +kernel

/-- A record whose gang number is in use is refused with NOGANG. -/
theorem wit_LaunchSteps_refused : (let p := packet 0 0 none; let s := { launching p with mgr := { (launching p).mgr with gangs := [⟨7, 0, 0, true, false, none, none, 0, [], false, [], [], 0⟩] } }
    taken p (8, 0) s = true ∧ pkMode p = 0 ∧ ringRefusal 0 p (readRing s) = some (8, 0)
    ∧ devPut (readRing s).mgr.rings[(0 : Fin 24)].asid (recordVa (readRing s).mgr.rings[(0 : Fin 24)] + 56) (leBytes 8 (8 + 0 * 2 ^ 8)) (readRing s) ≠ none) := by
  decide +kernel

/-- The state of a package that holds a BOUND gang of a packet, with reports of other packages, at a time at which it is synchronised. -/
def holding (p : BitVec 1024) (forwarded : Option (BitVec 17)) (ready : List (BitVec 17 × BitVec 8)) (s : State) : State := { s with
  res := Vector.ofFn (fun (r : Fin 4) => if r = 0 then placedResidency s p spot 3 image { Role.empty with entry := some 0 } .bound else Residency.free)
  mgr := { s.mgr with synced := true, gangs := [⟨7, 3, p, false, false, forwarded, none, 0, ready, false, [0, 1, 2, 3], [0, 1, 2, 3], 2⟩] } }

theorem wit_LaunchSteps_start : ∀ mode : Fin 2, (let p := packet (2 + mode.val) 0 none; let st : Refused := (if mode = 0 then 0 else 10, 0)
    let s := holding (packet 1 0 none) none [] (launching p); taken p st s = true ∧ pkMode p = 2 + mode.val ∧ startRefusal (readRing s) p = none
    ∧ residencyOf (closed st s) (pkGang p) = some 0 ∧ (closed st s).res[(0 : ResIx)].state = .bound) := by decide +kernel

/-- A record sealed for another position. -/
theorem wit_LaunchSteps_reread : (let p := packet 0 0 none ||| 1 <<< 32; let s := launching p; nextRecord 0 s = some (p, readRing s)
    ∧ sealGood p (readRing s).mgr.rings[(0 : Fin 24)].ci = false ∧ (readRing s).mgr.rings[(0 : Fin 24)].rereads < 8) := by decide +kernel

/-- Ring notify: a PI that lies at most, and one that lies more than 2^k ahead of CI. -/
theorem wit_LaunchSteps_notify : (let s := launching 0; (∀ a ∈ s.host.pending, a.data = none ∨ a.relaxed = true) ∧ s.host.notifies = [] ∧ (0 : Fin 24).val = (0 : Fin 8).val ∧ s.mgr.rings[(0 : Fin 24)].bound = true
    ∧ ((16 : BitVec 32) - s.mgr.rings[(0 : Fin 24)].ci).toNat ≤ 2 ^ s.mgr.rings[(0 : Fin 24)].k.toNat
    ∧ ¬ ((17 : BitVec 32) - s.mgr.rings[(0 : Fin 24)].ci).toNat ≤ 2 ^ s.mgr.rings[(0 : Fin 24)].k.toNat) := by decide +kernel

/-- One that comes while an unrelaxed write is in progress, and a relaxed one. -/
theorem wit_LaunchSteps_notify_waits : (let s := { launching 0 with host := { (launching 0).host with pending := [⟨0, 1, some [5], false, 0, 0, [], 0⟩] } }
    ∃ a ∈ s.host.pending, a.data ≠ none ∧ a.relaxed = false) := ⟨_, List.mem_singleton.mpr rfl, by simp, rfl⟩

/-- A PLACE record for which no placement is admitted: its image is in no quad. -/
theorem wit_LaunchSteps_noPlace : (let p := packet 0 0 none; let s := { launching p with mgr := { (launching p).mgr with images := [{ image with holding := [] }] } }
    taken p (0, 0) s = true ∧ ringRefusal 0 p (readRing s) = none ∧ inLaunchRange p (closed (0, 0) s).core.id.toNat = true
    ∧ quadReady (closed (0, 0) s) p = false) := by decide +kernel

theorem admits_of_notReady {s : State} {p : BitVec 1024} (h : quadReady s p = false) (a : Placement) : admits s p a = false := by
  unfold admits
  simp [h]

/-- A packet that package 1 forwards. -/
theorem wit_LaunchSteps_forward : (let p := packet 0 0 none; let s := launching 0; sealGood p 1 = false ∧ sealGood p 0 = true ∧ pkMode p ≤ 1
    ∧ placeRefusal s p none = none ∧ pkTk p = false ∧ placedHere s p spot image { Role.empty with entry := some 0 }) := by unfold placedHere; decide +kernel

/-- A gang over packages 0 and 1 that starts at tick 20,000: before and after package 1 has reported, with READY or NOCORE; and at its deadlines. -/
theorem wit_LaunchSteps_gang : (let p := packet 0 1 (some 20000); let s (f : Option (BitVec 17)) (r : List (BitVec 17 × BitVec 8)) := holding p f r (launching 0)
    let g (f : Option (BitVec 17)) (r : List (BitVec 17 × BitVec 8)) : Gang := ⟨7, 3, p, false, false, f, none, 0, r, false, [0, 1, 2, 3], [0, 1, 2, 3], 2⟩
    awaits (s none []) 7 (g none []) ∧ inTime (s none []) p = true ∧ (g none []).ready = []
    ∧ awaits (s none [(0, 0), (1, 0)]) 7 (g none [(0, 0), (1, 0)]) ∧ allReady (s none [(0, 0), (1, 0)]) (g none [(0, 0), (1, 0)]) = true
    ∧ awaits (s (some 1) []) 7 (g (some 1) []) ∧ pkMode p = 0
    ∧ (firstRefusal (g none [(0, 0), (1, 5)])).isSome = true ∧ (g none [(0, 0), (1, 5)]).ready.length = (rangePackages (g none [(0, 0), (1, 5)])).length
    ∧ residencyOf (s none []) 7 = some 0 ∧ (s none []).res[(0 : ResIx)].state = .bound) := by
  unfold awaits; decide +kernel

/-- The same when the start tick is 2,000. -/
theorem wit_LaunchSteps_late : (let p := packet 0 1 (some 2000); let s := holding p none [] (launching 0)
    let g : Gang := ⟨7, 3, p, false, false, none, none, 0, [], false, [0, 1, 2, 3], [0, 1, 2, 3], 2⟩
    awaits s 7 g ∧ inTime s p = false ∧ allReady s g = false ∧ pkTick p ≤ s.mgr.tick.toNat + 2000) := by
  unfold awaits; decide +kernel

/-- A launch that waits, and its place. -/
theorem wit_LaunchSteps_waiting : (let w : Waiting := ⟨packet 0 0 none, none, 0, some 1, 0, []⟩; let s := { launching 0 with mgr := { (launching 0).mgr with waiting := [w] } }
    firstWaiting s = some w ∧ refusesReady s w.packet = false ∧ placedHere s w.packet spot image { Role.empty with entry := some 0 }) := by unfold placedHere; decide +kernel

/-- A residency of one bank whose work has stopped. -/
def drained (s : State) : State := inRes (fun r => { r with state := .draining, accs := 0, spsize := 3072, task := none })
  (inCore (fun c => { c with rxReq := [⟨message, 0, false, 1, 0⟩] }) { s with streams := Vector.replicate 4 Stream.idle })

theorem wit_SaveSteps_start : saveReady (drained base) 0 = true ∧ (drained base).res[(0 : ResIx)].journal.unsealed = []
    ∧ (drained base).res[(0 : ResIx)].jseq.toNat ≤ (drained base).res[(0 : ResIx)].journal.covered.toNat ∧ footprint (drained base).res[(0 : ResIx)] = 3328
    ∧ (drained base).res[(0 : ResIx)].journal.gate = [] ∧ (∀ m ∈ (drained base).net.signals, (drained base).res[(0 : ResIx)].takes m = false)
    ∧ (let s := inRes (fun r => { r with journal := { r.journal with unsealed := [slot 2 5] } }) (drained base)
      saveReady s 0 = true ∧ s.res[(0 : ResIx)].journal.unsealed ≠ []) := by decide +kernel

/-- The same while it is saved to page 0. -/
def beingSaved (p : Nat) : State := inRes (fun r => { r with state := .saving, saveProgress := p }) (drained (translated base))

/-- The state after the next unit has been written. -/
def unitAfter (s : State) : Option State :=
  match devWrite s.res[(0 : ResIx)].asid (s.res[(0 : ResIx)].saveVa.toNat + s.res[(0 : ResIx)].saveProgress) (unitBytes s 0) s ((unitBytes s 0).length + 1) with
  | .done _ _ _ t => some t
  | _ => none

/-- The last unit, of 1,280 bytes. -/
theorem wit_SaveSteps_unit : (let s := inCore (fun c => { c with rxReq := [] }) (beingSaved 2048); s.res[(0 : ResIx)].state = .saving ∧ s.res[(0 : ResIx)].saveFaulted = false ∧ s.res[(0 : ResIx)].killed = false ∧ s.core.spadBad = [] ∧ s.core.xBad = []
    ∧ s.core.yBad = [] ∧ (match unitAfter s with
      | some t => (devPut s.res[(0 : ResIx)].asid (s.res[(0 : ResIx)].saveVa.toNat + 8) (leBytes 8 3328) (touchQuad s.res[(0 : ResIx)].asid t.ownQuad t)).isSome
      | none => false) = true ∧ min (2048 + 2048) (footprint s.res[(0 : ResIx)]) = 3328) := by decide +kernel

/-- The last unit, whose first beat does not reach its bank well. -/
theorem wit_SaveSteps_parity : (let s := beingSaved 2048; let b := { s with vault := { s.vault with busBad := List.replicate 2 ((place pageWord 2048).addr / 16) } }
    (match devWrite b.res[(0 : ResIx)].asid (b.res[(0 : ResIx)].saveVa.toNat + b.res[(0 : ResIx)].saveProgress) (unitBytes b 0) b ((unitBytes b 0).length + 1) with
      | .done d _ _ t => decide (d ≠ 0 ∧ t.vault.busErrors ≠ b.vault.busErrors)
      | _ => false) = true) := by decide +kernel

/-- Without a table the unit faults. -/
theorem wit_SaveSteps_fault : (let s := inRes (fun r => { r with state := .saving }) (drained base); s.res[(0 : ResIx)].state = .saving ∧ s.res[(0 : ResIx)].saveFaulted = false
    ∧ (match devWrite s.res[(0 : ResIx)].asid (s.res[(0 : ResIx)].saveVa.toNat + s.res[(0 : ResIx)].saveProgress) (unitBytes s 0) s ((unitBytes s 0).length + 1) with
      | .fault why _ _ => decide (why = 1)
      | _ => false) = true) := by decide +kernel

/-- The last unit lands in page 1, and the word of the progress stands in page 0, which no table maps. -/
theorem wit_SaveSteps_progress : (let s := inRes (fun r => { r with saveVa := 0x3FF00 }) (beingSaved 2048)
    let s := { s with vault := { s.vault with stackBuf := [⟨0, 1, pageWord, none⟩], ctrlBuf := [] } }
    s.res[(0 : ResIx)].state = .saving ∧ s.res[(0 : ResIx)].saveFaulted = false ∧ s.res[(0 : ResIx)].killed = false ∧ s.core.spadBad = [] ∧ s.core.xBad = []
    ∧ s.core.yBad = [] ∧ (match unitAfter s with
      | some t => (match devWrite s.res[(0 : ResIx)].asid (s.res[(0 : ResIx)].saveVa.toNat + 8) (leBytes 8 3328) (touchQuad s.res[(0 : ResIx)].asid t.ownQuad t) 9 with
        | .fault why _ _ => decide (why = 1)
        | _ => false)
      | none => false) = true) := by decide +kernel

theorem wit_SaveSteps_abandon : (let s := inRes (fun r => { r with saveFaulted := true }) (beingSaved 0); s.res[(0 : ResIx)].state = .saving ∧ s.res[(0 : ResIx)].saveFaulted = true
    ∧ s.res[(0 : ResIx)].killed = false
    ∧ spilledReplies s.res[(0 : ResIx)].asid s.res[(0 : ResIx)].gen s = some 0 ∧ 0 - s.res[(0 : ResIx)].mailSinks ≤ s.sinksFree) := by decide +kernel

/-- A switched-out context of gang 7 whose save area at the start of page 0 has progress p of 3,328 bytes. -/
def savedOut (p : Nat) : State := let s := holding (packet 0 0 none) none [] (launching 0); { s with
  res := Vector.replicate 4 Residency.free
  net := { s.net with switchedOut := [⟨0, 3, 7, Journal.absent, 0, 0, [], [], false⟩] }
  vault := { s.vault with mem := writeLE (writeLE (writeLE (writeLE (writeLE [] 0 8 1) 8 8 p) 0x10 8 3328) 0x18 8 (7 * 2 ^ 48 + 0x3000 * 2 ^ 32 + 3072)) 0x100 8 0xABCD } }

/-- The context that its area names. -/
def contextOf (s : State) : Option (Away × Nat × Nat × Nat) := match savedContext 0 spot.gen s with
  | some (a, .ok h _ _) => some (a, readLE h 0 8, readLE h 8 8, readLE h 0x10 8)
  | _ => none

theorem wit_SaveSteps_refused : contextOf (savedOut 2048) = some (⟨0, 3, 7, Journal.absent, 0, 0, [], [], false⟩, 1, 2048, 3328) := by decide +kernel

/-- Without a table the area cannot be read. -/
theorem wit_SaveSteps_unread : (let s := { savedOut 2048 with vault := base.vault }; (match savedContext 0 spot.gen s with
    | some (_, .fault w) => decide ((15, w) ∉ s.mgr.notices)
    | _ => false) = true) := by decide +kernel

/-- The same area in page 0 of vault 1. -/
def savedFar : State := let s := savedOut 3328
  { s with vault := { s.vault with stackBuf := [⟨0, 0, pageWord + 1, none⟩], mem := s.vault.mem.map (fun e => (e.1 + 2 ^ 25, e.2)) } }

theorem areaDword_far (m : Mem) (i : Nat) (h : i < 416) : ∃ m', areaDword 0 0 i m [] savedFar = .ok m' [] savedFar := by
  have h1 : pageOf (0 + 8 * i) = 0 := by unfold pageOf; omega
  have h2 : translateStack 0 0 savedFar = (.ok (pageWord + 1), savedFar) := rfl
  have h3 : permits (pageWord + 1) true false = true := by decide +kernel
  have h4 : ∀ o, requestPlace savedFar 0 0 (pageWord + 1) o = place (pageWord + 1) o := fun _ => rfl
  have h5 : ∀ o, (place (pageWord + 1) o).vault = 1 := by
    intro o
    have hg : pwGeo (pageWord + 1) = 0 := by decide +kernel
    have hv : sel (pageWord + 1) 0 15 = 1 := by decide +kernel
    rw [place, if_pos hg, hv]
  have h6 : vaultGated savedFar 1 = false := by decide +kernel
  have h7 : savedFar.ownVault = 0 := by decide +kernel
  refine ⟨writeList m (8 * i) (readList savedFar.vault.mem (place (pageWord + 1) ((0 + 8 * i) % 2 ^ 18)).addr 8), ?_⟩
  unfold areaDword
  simp only [h1, h2, h3, h4, h5, h6, openColumn, h7]
  rfl

theorem areaBytes_far (n : Nat) (h : n ≤ 416) : ∃ m, areaBytes 0 0 (8 * n) savedFar = .ok m [] savedFar := by
  unfold areaBytes
  rw [Nat.mul_div_cancel_left _ (by omega)]
  induction n with
  | zero => exact ⟨_, rfl⟩
  | succ n ih =>
    obtain ⟨m, hm⟩ := ih (by omega)
    rw [List.range_succ, List.foldl_concat, hm]
    exact areaDword_far m n (by omega)

theorem wit_SaveSteps_restore : (let s := savedFar; let p := packet 0 0 none; contextOf s = some (⟨0, 3, 7, Journal.absent, 0, 0, [], [], false⟩, 1, 3328, 3328)
    ∧ (gangOf s 7).map Gang.packet = some p ∧ spot.res = 0 ∧ admits s p spot = true ∧ imageOf s p = some image
    ∧ image.roleOf s.core.id.toNat = some { Role.empty with entry := some 0 } ∧ pkAccs p = 0
    ∧ (∃ m, areaBytes 0 0 (256 + pkSize p) s = .ok m [] s) ∧ spilledReplies 0 3 s = some 0 ∧ (∀ x, s.core.readyQ.length + min 16 (x % 32) ≤ 16)) := by
  refine ⟨by decide +kernel, by decide +kernel, rfl, by decide +kernel, by decide +kernel, by decide +kernel, by decide +kernel, ?_, by decide +kernel, fun x => ?_⟩
  · rw [show 256 + pkSize (packet 0 0 none) = 8 * 416 by decide +kernel]
    exact areaBytes_far 416 (by omega)
  · have : savedFar.core.readyQ = [] := rfl
    rw [this, List.length_nil]
    omega

/-! ## Power, links, the host and boot -/

/-- QPWR of quad 0, with a queue of wakes and the quads that wake. -/
def powered (x : Qpwr) (queue : List (Nat × Word)) (waking : List Nat) : State := { resting with
  res := Vector.replicate 4 Residency.free
  power := { base.power with quads := [(0, x)], queue := queue, waking := waking } }

/-- Quad 0 is the logical quad 0. -/
theorem logicalOf_first (s : State) (h : physQuad s 0 = 0) : logicalOf s 0 = some 0 := by
  unfold logicalOf
  rw [show (1600 : Nat) = 1599 + 1 from rfl, List.range_succ_eq_map]
  simp [h]

theorem wit_PowerSteps_close : (let s := powered ⟨.closing, 0, 0, false, false, false⟩ [] []; closeWaits (logicalOf s 0) s = false)
    ∧ (let s := powered ⟨.closing, 0, 0, false, false, true⟩ [] []; (qpwr s 0).state = .closing ∧ (qpwr s 0).wakeKept = true ∧ closeWaits (logicalOf s 0) s = false)
    ∧ closeWaits (logicalOf (logged false) 0) (logged false) = true := by
  refine ⟨?_, ⟨by decide +kernel, by decide +kernel, ?_⟩, ?_⟩
  · intro s; rw [logicalOf_first s (by decide +kernel)]; decide +kernel
  · rw [logicalOf_first _ (by decide +kernel)]; decide +kernel
  · rw [logicalOf_first _ (by decide +kernel)]; decide +kernel

theorem wit_PowerSteps : (qpwr (powered ⟨.gated, 0, 0, false, true, false⟩ [(0, 1)] []) 0).queued = true
    ∧ (let s := powered ⟨.on, 0, 0, false, false, false⟩ [] []; (qpwr s 0).queued = false ∧ (qpwr s 0).state = .on ∧ isOwnQuad s 0 = true ∧ quadInUse s 0 = false)
    ∧ (qpwr base 0).queued = false ∧ (qpwr base 0).state = .on ∧ isOwnQuad base 0 = true ∧ quadInUse base 0 = true
    ∧ (qpwr base 5).state = .gated ∧ (qpwr base 5).queued = false
    ∧ (let s := powered ⟨.closing, 0, 0, false, false, false⟩ [] []; (qpwr s 0).state = .closing ∧ (qpwr s 0).wakeKept = false ∧ isOwnQuad s 0 = true)
    ∧ (powered ⟨.waking, 0, 0, false, false, false⟩ [] [0]).power.queue = []
    ∧ nextWake (powered ⟨.gated, 0, 0, false, true, false⟩ [(9, 2), (0, 2)] [1, 2, 3]) = some (0, 2)
    ∧ (powered ⟨.gated, 0, 0, false, true, false⟩ [(9, 2), (0, 2)] [1, 2, 3]).power.waking.length < 4
    ∧ (0 : Nat) ∈ (powered ⟨.waking, 0, 0, false, false, false⟩ [] [0]).power.waking
    ∧ (let s := powered ⟨.waking, 0, 0, false, false, false⟩ [(9, 2)] [0, 1, 2, 3]; 0 ∈ s.power.waking ∧ s.power.waking.length ≤ 4 ∧ nextWake s = some (9, 2))
    ∧ Table.wf 0 base.vault.roots = true ∧ Table.wf 0 base.quad.access = true ∧ Table.wf 0 base.mgr.quadMap = true := by decide +kernel

/-- The limits of the control registers' fields. -/
theorem wit_PowerSteps_control : 4 ≤ (4 : BitVec 4).toNat ∧ (12 : BitVec 4).toNat ≤ 12 ∧ fld 0x80 0 48 % 128 = 0 ∧ (∃ j : Fin 24, j.val = 8 + (15 : Fin 16).val)
    ∧ fld 0x80 0 2 = 0 ∧ fld (BitVec.ofNat 128 (2 ^ 126 + 7 * 2 ^ 60)) 126 2 = 1 ∧ fld (BitVec.ofNat 128 (2 ^ 126 + 7 * 2 ^ 60)) 60 4 < 8
    ∧ ({ base with mgr := { base.mgr with boot := .bringup } } : State).mgr.boot = .bringup ∧ bringUpGood base = false
    ∧ copyOwed base 0 3 (rootOf base 0) = false ∧ zeroFilled base 3 (rootOf base 0) 0 = []
    ∧ physQuad base 0 = 0 := by
  refine ⟨by decide, by decide, by decide +kernel, ⟨23, rfl⟩, ?_⟩; decide +kernel

/-- Every quad has failed its scan, the modules have trained and TICK is synchronised: bring-up has nothing left to do. -/
theorem wit_PowerSteps_bringUp : bringUpGood { base with
    link := { base.link with modules := Vector.replicate 8 { Module.reset with training := false } }
    mgr := { base.mgr with synced := true }
    resil := { base.resil with failedQuads := (List.range 1640).map (BitVec.ofNat 11) } } = true := by
  unfold bringUpGood
  rw [Bool.and_eq_true]
  refine ⟨by decide +kernel, List.all_eq_true.mpr fun q hq => ?_⟩
  have : BitVec.ofNat 11 q ∈ (List.range 1640).map (BitVec.ofNat 11) := List.mem_map_of_mem hq
  simp only [this, decide_true, Bool.true_or]

/-- Module 0 at work, with other fields. -/
def linked (f : Module → Module) : State := setModule 0 (f { Module.reset with training := false }) base

/-- A flow with packets. -/
def flowing (x : Flow) : State := setFlow 5 x base

theorem wit_LinkSteps : works (linked id) 0 ∧ (0 : BitVec 8) = (linked id).link.modules[(0 : Fin 8)].expected ∧ (255 : BitVec 8) ≠ (linked id).link.modules[(0 : Fin 8)].expected
    ∧ (linked id).link.modules[(0 : Fin 8)].pendingTx = [] ∧ (linked id).link.modules[(0 : Fin 8)].dead = false
    ∧ (linked fun x => { x with training := true }).link.modules[(0 : Fin 8)].training = true
    ∧ (linked fun x => { x with training := true }).link.modules[(0 : Fin 8)].pendingTx = []
    ∧ (let s := linked fun x => { x with dead := true, retry := [(0, ⟨[message], 0, 0, 0⟩)] }; s.link.modules[(0 : Fin 8)].dead = true ∧ s.link.modules[(0 : Fin 8)].retry ≠ []
      ∧ senderOf s message = some 0 ∧ s.link.modules[(0 : Fin 8)].kept = [message] ∧ s.res[(0 : ResIx)].killed = false ∧ ¬ works s 0)
    ∧ forHere base message := by unfold works forHere; decide +kernel

theorem wit_LinkSteps_fabric : (4 : BitVec 32) = (flowOf (flowing { Flow.fresh with next := 4 }) 5).next ∧ (flowOf (flowing { Flow.fresh with next := 4 }) 5).held = []
    ∧ 1 ≤ ((1027 : BitVec 32) - (flowOf (flowing { Flow.fresh with next := 4 }) 5).next).toNat ∧ ((1027 : BitVec 32) - (flowOf (flowing { Flow.fresh with next := 4 }) 5).next).toNat ≤ 1023
    ∧ heldPackets (flowing { Flow.fresh with next := 4 }) < 16384
    ∧ 1024 ≤ ((1028 : BitVec 32) - (flowOf (flowing { Flow.fresh with next := 4 }) 5).next).toNat
    ∧ 2 ^ 31 ≤ ((3 : BitVec 32) - (flowOf (flowing { Flow.fresh with next := 4 }) 5).next).toNat
    ∧ (flowOf (flowing { Flow.fresh with held := [(9, message)] }) 5).held ≠ []
    ∧ (flowOf (flowing { Flow.fresh with kept := [(9, message)] }) 5).kept.find? (fun e => decide (e.1 = 9)) = some (9, message) := by decide +kernel

/-- The ports of the stack dead, port 3 of another stack alone live, and a link of the fabric. -/
def ported3 : State := let s := flowing { Flow.fresh with kept := [(9, message)] }
  { s with link := { s.link with portDead := vset (Vector.replicate 8 true) 3 false, fabric := [(3, [7, 8]), (3, [9])] } }

/-- The other forms: a flit that the far receiver expects or does not, dead ports, a port of another stack, and paths over links of the fabric. -/
theorem wit_LinkSteps_paths : (let s := linked fun x => { x with far := 4, retry := [(4, ⟨[message], 0, 0, 0⟩)] }
      works s 0 ∧ s.link.modules[(0 : Fin 8)].retry.filter (fun f => decide (f.1 = s.link.modules[(0 : Fin 8)].far)) = [(4, ⟨[message], 0, 0, 0⟩)])
    ∧ (linked id).link.modules[(0 : Fin 8)].retry.filter (fun f => decide (f.1 = (linked id).link.modules[(0 : Fin 8)].far)) = []
    ∧ portLive ported3 (portAt ported3 0) = false ∧ portLive ported3 (portAt ported3 1) = false ∧ farPort ported3 = some 3
    ∧ (3, [7, 8]) ∈ ported3.link.fabric ∧ livePaths (fabricLink 7 true ported3) 3 = [[9]]
    ∧ (let s : State := { ported3 with link := { ported3.link with portDead := Vector.replicate 8 false } }
      portLive s (portAt s 0) = true ∧ livePaths s (portAt s 0) = [[]]) := by unfold works; decide +kernel

/-- A window over page 0 of address space 0, for reads and writes, in a package that serves its mailbox; three bytes stand at 0x40. -/
def windowed : State := { readied (rowOpen (translated base)) with
  vault := { (rowOpen (translated base)).vault with mem := [(0x40, 0x10), (0x41, 0x20), (0x4F, 0x30)] }
  host := { base.host with windows := [(0, 0xE000000000000000)] } }

/-- A read of 15 bytes at offset 0x41, and a write of three at 0x4E, as they arrive. -/
def hostReadAt : HostAccess := ⟨0x41, 15, none, false, 0xE000000000000000, 0, [], 0⟩
def hostWriteAt : HostAccess := ⟨0x4E, 3, some [1, 2, 3], false, 0xE000000000000000, 0, [], 0⟩

/-- The state in which an access has arrived. -/
def arrived (a : HostAccess) : State := { windowed with
  host := { windowed.host with pending := [{ a with id := windowed.net.nextId }] }
  net := { windowed.net with nextId := windowed.net.nextId + 1 } }

/-- The access after its next piece, and whether it waits for its page or is refused. -/
def piecesDone (a : HostAccess) (s : State) : Option (Nat × List Byte) := match hostPiece { a with id := windowed.net.nextId } s with
  | .done b _ => some (b.done, b.got)
  | _ => none

theorem wit_HostSteps_read : hostArrival (.hostRead 0x41 15) windowed hostReadAt ∧ hostReadAt.inWindow = true ∧ hostFree windowed.host.pending hostReadAt = true
    ∧ piecesDone hostReadAt (arrived hostReadAt) = some (15, [0x20, 0, 0, 0, 0, 0, 0, 0, 0, 0, 0, 0, 0, 0, 0x30]) := by
  refine ⟨.inl ⟨_, _, rfl, by decide +kernel⟩, by decide +kernel, by decide +kernel, by decide +kernel⟩

/-- The write crosses a column: its first piece is two bytes, and a read behind it waits; an offset of another window is refused. -/
theorem wit_HostSteps_write : hostArrival (.hostWrite 0x4E [1, 2, 3] false) windowed hostWriteAt ∧ hostWriteAt.inWindow = true
    ∧ piecesDone hostWriteAt (arrived hostWriteAt) = some (2, []) ∧ hostFree [hostWriteAt] hostReadAt = false
    ∧ hostFree [hostWriteAt] { hostWriteAt with relaxed := true } = true ∧ ({ hostReadAt with win := 0 } : HostAccess).inWindow = false := by
  refine ⟨.inr ⟨_, _, _, rfl, by decide +kernel⟩, by decide +kernel, by decide +kernel, by decide +kernel, by decide +kernel, by decide +kernel⟩

/-- The first piece of the read meets every condition of its statement. -/
theorem wit_HostSteps_piece : (let a := hostReadAt; let s := windowed; a.piece ≠ 0 ∧ a.denied s = false
    ∧ (match translateStack a.asid (pageOf a.va) s with
      | (.ok w, t) => permits w true false && hostRight t (requestPlace t a.asid (pageOf a.va) w (a.va % 2 ^ 18)).vault a.asid 30
        && !vaultGated t (requestPlace t a.asid (pageOf a.va) w (a.va % 2 ^ 18)).vault
        && (match reachBeat (.host a.id) (requestPlace t a.asid (pageOf a.va) w (a.va % 2 ^ 18)) t with
          | (false, _) => false
          | (true, u) => decide ((beatRead (requestPlace t a.asid (pageOf a.va) w (a.va % 2 ^ 18)).addr u).1 = 0))
      | _ => false) = true) := by decide +kernel

/-- So does that of the write; and with the row closed the read waits in its bank's queue. -/
theorem wit_HostSteps_store : (let a := hostWriteAt; let s := windowed; a.data = some [1, 2, 3] ∧ a.piece ≠ 0 ∧ a.denied s = false
    ∧ (match translateStack a.asid (pageOf a.va) s with
      | (.ok w, t) => let p := requestPlace t a.asid (pageOf a.va) w (a.va % 2 ^ 18)
        permits w false true && hostRight t p.vault a.asid 29 && !vaultGated t p.vault && !epochStale t a.asid w
        && (match reachBeat (.host a.id) p t with
          | (false, _) => false
          | (true, u) => (storeColumn a.asid a.va p ([1, 2, 3].take a.piece) u).isSome)
      | _ => false) = true)
    ∧ (let s := inBank (fun b => { b with openRow := none }) (arrived hostReadAt)
      (match hostPiece { hostReadAt with id := windowed.net.nextId } s with
        | .queued t => (waited s t).isSome
        | _ => false) = true) := by decide +kernel

/-- In a package without page tables the access waits for its page. -/
theorem wit_HostSteps_timeout : hostFaults hostReadAt (readied base) = true ∧ hostFaults { hostReadAt with len := 0 } (readied base) = false := by decide +kernel

/-- A mailbox whose body holds a WINCFG of window 255, and an access of BAR 0 that is none. -/
def mailed : State := { windowed with host := { windowed.host with mailboxes := vset windowed.host.mailboxes 2 ⟨0, [(1, 255), (2, 0xE000000010000000)], 0, []⟩ } }

theorem wit_HostSteps_bar0 : mailed.mgr.boot = .ready ∧ mailOpenAt 2 mailed = false ∧ (mailed.host.mailboxes[(2 : Fin 4)]).body = [(1, 255), (2, 0xE000000010000000)]
    ∧ (0xE000000010000000 : Word).toNat % 2 ^ 28 = 0 ∧ bits (0xE000000010000000 : Word).toNat 60 1 = 0 ∧ Table.wf 0 mailed.host.windows = true
    ∧ bar0Good 0x1004 8 = false ∧ bar0Good 0x2008 2 = false := by decide +kernel

/-- The command goes through BAR 0: window 255 is set, and the status reads DONE with V. -/
theorem test_mailbox_wincfg : (let s := elsewhere (.bar0Write 0xA000 8 3 false 0 0 true []) mailed
    windowOf s (255 * 2 ^ 28) = 0xE000000010000000 ∧ (elsewhere (.bar0Read 0xA400 8) s).host.readData = some [0, 0, 0, 0, 0, 0, 0, 0x80]) := by decide +kernel

/-- PKG_ID and the boot state: READY here alone is RESET for the package. -/
theorem test_bar0_boot : (elsewhere (.bar0Read 0 4) mailed).host.readData = some [0, 0, 0, 0]
    ∧ (elsewhere (.bar0Read 0 4) { mailed with host := { mailed.host with stackBoots := Vector.replicate 4 .ready } }).host.readData = some [0, 0, 0x40, 0] := by
  decide +kernel

/-- In the ROM a firmware load with a reserved bit is answered; a notify behind a write is kept. -/
theorem wit_HostSteps_held : (let s : State := { windowed with mgr := { windowed.mgr with boot := .rom } }
      s.mgr.boot = .rom ∧ sel (0x10006 : Word) 0 16 = 6 ∧ sel (0x10006 : Word) 16 47 ≠ 0 ∧ mailOpen s = false)
    ∧ (∃ a ∈ (arrived hostWriteAt).host.pending, a.data ≠ none ∧ a.relaxed = false) := by decide +kernel

theorem wit_HostSteps_mailbox : mailServed windowed ∧ (∃ irq masks body, mailRule (.wincfg true [256, 0]) = some (irq, masks, body) ∧ reservedWord masks body = some 0)
    ∧ (let body : List Word := [0x00050C07, 0x80]; bodyGood [0x0FFF0F07, 2 ^ 48 - 1] body ∧ 4 ≤ bits (bodyWord body 0) 8 4 ∧ bits (bodyWord body 0) 8 4 ≤ 12
      ∧ bodyWord body 1 % 128 = 0 ∧ (7 : Fin 24).val = bits (bodyWord body 0) 0 3 ∧ windowed.mgr.rings[(7 : Fin 24)].ci = windowed.mgr.rings[(7 : Fin 24)].pi)
    ∧ (let body : List Word := [0x1000, 4]; bodyGood [2 ^ 64 - 1, 15] body ∧ 4 ≤ bodyWord body 1 ∧ bodyWord body 1 ≤ 12 ∧ bodyWord body 0 % 4096 = 0
      ∧ windowed.host.cpi = windowed.host.cci ∧ windowed.mgr.hostEntries = [])
    ∧ (let body : List Word := [255, 0xE000000010000000]; bodyGood [255, 2 ^ 64 - 1] body ∧ bodyWord body 1 % 2 ^ 28 = 0 ∧ bits (bodyWord body 1) 60 1 = 0
      ∧ Table.wf 0 windowed.host.windows = true)
    ∧ (let body : List Word := [15, 0xE000000000000000, 0x1000, 0x1000]; bodyGood [15, 0xEFFF000000000000, 2 ^ 64 - 1, 2 ^ 64 - 1] body ∧ (15 : Fin 16).val = bodyWord body 0 % 16
      ∧ bodyWord body 2 % 4096 = 0 ∧ bodyWord body 3 % 4096 = 0 ∧ bodyWord body 3 ≠ 0 ∧ bodyWord body 3 ≤ 2 ^ 48 ∧ dmaBusy windowed.host.dma[(15 : Fin 16)] windowed = false)
    ∧ 8 < sel (9 : Word) 0 16 ∧ sel (BitVec.ofNat 64 (2 ^ 62)) 16 47 ≠ 0 ∧ sel (0x10000 : Word) 0 16 = 0 := by
  unfold mailServed bodyGood
  refine ⟨by decide +kernel, ⟨_, _, _, rfl, by decide +kernel⟩, by decide +kernel, by decide +kernel, by decide +kernel, ?_⟩; decide +kernel

/-- A firmware file: the header, the sections ROLE and SIGNATURE, and 64 bytes of code. -/
def firmware : List Byte := [0x4A, 0x4C, 0x4F, 0x31] ++ leBytes 2 1 ++ leBytes 2 2 ++ leBytes 4 7312 ++ List.replicate 52 0
  ++ (leBytes 8 1 ++ leBytes 4 96 ++ leBytes 4 1944) ++ (leBytes 8 6 ++ leBytes 4 2040 ++ leBytes 4 5272)
  ++ (List.replicate 16 0 ++ leBytes 4 64 ++ List.replicate 1924 0) ++ List.replicate 5272 0

/-- It passes the checks of its format; whether its signature holds is the device's (log entry 7), and the statement says both. An empty file fails. -/
theorem wit_BootSteps_firmware : fileFault firmwareCounts firmware = none ∧ firmwarePlain firmware = true ∧ fileFault firmwareCounts [] = some 0xFF
    ∧ ({ base with mgr := { base.mgr with boot := .rom } } : State).mgr.boot = .rom ∧ base.host.firmware = none
    ∧ firmware.length = firmwareLength 0 { base with host := { base.host with mailboxes := vset base.host.mailboxes 0 ⟨0, [(2, 7312)], 0, []⟩ } }
    ∧ ([] : List Byte).length ≠ firmwareLength 0 { base with host := { base.host with mailboxes := vset base.host.mailboxes 0 ⟨0, [(2, 7312)], 0, []⟩ } }
    ∧ (let s : State := { base with mgr := { base.mgr with boot := .fwcheck }, host := { base.host with firmware := some ⟨0, true, some firmware⟩ } }
      s.mgr.boot = .fwcheck ∧ s.host.firmware = some ⟨0, true, some firmware⟩) := by
  refine ⟨?_, ?_, ?_, ?_, ?_, ?_, ?_, rfl, rfl⟩ <;> decide +kernel

/-- An image file: role 0 on cores 0 to 3, and a tree from quad 0 to quad 1. -/
def imageFile : List Byte := [0x4A, 0x4C, 0x4F, 0x31] ++ leBytes 2 1 ++ leBytes 2 5 ++ leBytes 4 7392 ++ List.replicate 52 0
  ++ (leBytes 8 1 ++ leBytes 4 144 ++ leBytes 4 1944) ++ (leBytes 8 2 ++ leBytes 4 2088 ++ leBytes 4 8) ++ (leBytes 8 3 ++ leBytes 4 2096 ++ leBytes 4 8)
  ++ (leBytes 8 4 ++ leBytes 4 2104 ++ leBytes 4 16) ++ (leBytes 8 6 ++ leBytes 4 2120 ++ leBytes 4 5272)
  ++ (List.replicate 16 0 ++ leBytes 4 64 ++ List.replicate 1924 0) ++ leBytes 8 0 ++ leBytes 8 (3 * 2 ^ 15) ++ (leBytes 8 (1 * 2 ^ 11) ++ leBytes 8 1)
  ++ List.replicate 5272 0

/-- Its sections. -/
def imageSections : List Section := [⟨1, 0, 144, 1944⟩, ⟨2, 0, 2088, 8⟩, ⟨3, 0, 2096, 8⟩, ⟨4, 0, 2104, 16⟩, ⟨6, 0, 2120, 5272⟩]

theorem imageFile_table : sectionTable imageFile = imageSections := by decide +kernel

theorem imageFile_header : headerGood imageFile = true := by
  unfold headerGood
  rw [imageFile_table]
  decide +kernel

/-- Only quad 0 of stack 0 holds a role. -/
theorem rolesOfQuad_far (t q : Nat) (h : 1 ≤ q ∨ 1 ≤ t) : rolesOfQuad [(0, 3, 0)] t q = [] := by
  unfold rolesOfQuad
  have : ∀ c : Nat, 4 ≤ c → (decide ((0 : BitVec 15).toNat ≤ c) && decide (c ≤ (3 : BitVec 15).toNat)) = false := by
    intro c hc
    have h3 : (3 : BitVec 15).toNat = 3 := rfl
    simp only [h3, Bool.and_eq_false_iff, decide_eq_false_iff_not]
    omega
  simp only [List.find?_cons, List.find?_nil]
  rw [List.filterMap_eq_nil_iff.mpr]
  · rfl
  · intro c hc
    obtain ⟨k, _, rfl⟩ := List.mem_map.mp hc
    rw [this _ (by omega)]
    rfl

theorem imageFile_tree : treeGood [(0, 3, 0)] [(0, [1])] = true := by
  have : ((List.range 1600).all fun q => (List.range 4).all (fun t => (rolesOfQuad [(0, 3, 0)] t q).isEmpty) || (treeQuads [(0, [1])]).contains (BitVec.ofNat 11 q)) = true := by
    rw [List.all_eq_true]
    intro q _
    by_cases h : 1 ≤ q
    · have hr : ∀ t, rolesOfQuad [(0, 3, 0)] t q = [] := fun t => rolesOfQuad_far t q (.inl h)
      rw [Bool.or_eq_true, List.all_eq_true]
      exact .inl fun t _ => by rw [hr t]; rfl
    · obtain rfl : q = 0 := by omega
      decide +kernel
  unfold treeGood
  simp only [this, Bool.and_true]
  decide +kernel

theorem imageFile_sections : ∀ e ∈ [(0, ⟨1, 0, 144, 1944⟩), (1, ⟨2, 0, 2088, 8⟩), (2, ⟨3, 0, 2096, 8⟩), (4, (⟨6, 0, 2120, 5272⟩ : Section))],
    sectionGood imageFile imageSections e.1 e.2 = true := by decide +kernel

theorem imageFile_placement : placementOf imageFile ⟨3, 0, 2096, 8⟩ = [(0, 3, 0)] := by decide +kernel

theorem imageFile_targets : treeOf imageFile ⟨4, 0, 2104, 16⟩ = [(0, [1])] := by decide +kernel

theorem imageFile_section3 : sectionGood imageFile imageSections 3 ⟨4, 0, 2104, 16⟩ = true := by
  have h1 : sectionPlaced imageFile ⟨4, 0, 2104, 16⟩ = true := by decide +kernel
  have h2 : sectionOf imageSections 3 0 = some ⟨3, 0, 2096, 8⟩ := by decide +kernel
  unfold sectionGood
  rw [h1]
  have h3 : treePlain imageFile ⟨4, 0, 2104, 16⟩ = true := by decide +kernel
  simp only [h2, h3, imageFile_placement, imageFile_targets, imageFile_tree]
  decide

theorem fileFault_none (counts : List Section → Bool) (f : List Byte) (secs : List Section) (h1 : sectionTable f = secs) (h2 : headerGood f = true)
    (h3 : counts secs = true) (h4 : ∀ i (h : i < secs.length), sectionGood f secs i secs[i] = true) : fileFault counts f = none := by
  unfold fileFault
  simp only [h1, h2, h3, Bool.not_true, Bool.or_self, Bool.false_eq_true, if_false, List.find?_eq_none, List.mem_range]
  intro i hi
  rw [List.getElem?_eq_getElem hi]
  simp only [h4 i hi, Bool.not_true, Bool.false_eq_true, not_false_eq_true]

theorem wit_BootSteps_image : fileFault imageCounts imageFile = none := by
  refine fileFault_none _ _ _ imageFile_table imageFile_header (by decide +kernel) (fun i h => ?_)
  match i, h with
  | 0, _ => exact imageFile_sections (0, ⟨1, 0, 144, 1944⟩) (by simp)
  | 1, _ => exact imageFile_sections (1, ⟨2, 0, 2088, 8⟩) (by simp)
  | 2, _ => exact imageFile_sections (2, ⟨3, 0, 2096, 8⟩) (by simp)
  | 3, _ => exact imageFile_section3
  | 4, _ => exact imageFile_sections (4, ⟨6, 0, 2120, 5272⟩) (by simp)

/-- A read of a column of vaults without errors changes nothing. -/
theorem beatRead_good (a : Nat) (s : State) (h1 : s.resil.lostVaults = []) (h2 : s.vault.busBad = []) (h3 : s.vault.bad = []) (h4 : s.vault.flipped = []) :
    beatRead a s = (0, s) := by
  have e1 : lostVault a s = false := by simp [lostVault, h1]
  have e2 : busCheck a s = (false, s) := by simp [busCheck, h2]
  unfold beatRead readWords
  simp [e1, e2, correctWords, h3, h4]

/-- Page 0 lies in the vault 8,192 of another stack; the vaults hold the bytes m, and the image table some images. -/
def withFile (images : List Image) (m : Mem) : State := let w : Word := pageWord + 8192; { windowed with
  vault := { windowed.vault with ctrlBuf := [⟨0, 0, w, none⟩], stackBuf := [⟨0, 0, w, none⟩], mem := m }
  mgr := { windowed.mgr with images := images } }

/-- The bytes of that page, column by column. -/
def columns (m : Mem) (va n : Nat) : Nat → List Byte
  | 0 => []
  | fuel + 1 => if n = 0 then [] else
    readList m (place (pageWord + 8192) (va % 2 ^ 18)).addr (min n (16 - va % 16)) ++ columns m (va + min n (16 - va % 16)) (n - min n (16 - va % 16)) fuel

theorem place_far (o : Nat) : (place (pageWord + 8192) o).vault = 8192 := by
  unfold place
  rw [if_pos (by decide +kernel)]
  show sel (pageWord + 8192) 0 15 = 8192
  decide +kernel

/-- Reading that page changes nothing. -/
theorem devRead_withFile (images : List Image) (m : Mem) (fuel : Nat) : ∀ va n, va + n ≤ 2 ^ 18 →
    devRead 0 va n (openMail (withFile images m)) fuel = .done 0 0 (columns m va n fuel) (openMail (withFile images m)) := by
  induction fuel with
  | zero => intro va n _; rfl
  | succ fuel ih =>
    intro va n h
    by_cases hn : n = 0
    · subst hn; simp [devRead, columns]
    · have hp : pageOf va = 0 := by unfold pageOf; omega
      have e0 : (openMail (withFile images m)).ownStack = 0 := by rw [show (openMail (withFile images m)).ownStack = base.ownStack from rfl]; decide +kernel
      have e1 : translateStack 0 0 (openMail (withFile images m)) = (.ok (pageWord + 8192), openMail (withFile images m)) := by rfl
      have e2 : ∀ o, requestPlace (openMail (withFile images m)) 0 0 (pageWord + 8192) o = place (pageWord + 8192) o := by intro o; rfl
      have e3 : ∀ o, vaultGated (openMail (withFile images m)) (place (pageWord + 8192) o).vault = false := by intro o; rw [place_far]; unfold vaultGated; rw [e0]; rfl
      have e4 : ∀ o, openColumn (place (pageWord + 8192) o) (openMail (withFile images m)) = some (openMail (withFile images m)) := by
        intro o
        have h1 : vaultMoving (openMail (withFile images m)) 8192 = false := by
          unfold vaultMoving
          rw [show (openMail (withFile images m)).resil.remapping = [] from rfl]
          simp only [List.any_nil, Bool.and_false]
        have h2 : (openMail (withFile images m)).ownVault = 0 := by
          rw [show (openMail (withFile images m)).ownVault = base.ownVault from rfl]; decide +kernel
        unfold openColumn
        rw [place_far, h1, h2, show (openMail (withFile images m)).vault.beats = [] from rfl]
        simp
      have e5 : ∀ a, beatRead a (openMail (withFile images m)) = (0, openMail (withFile images m)) := fun a => beatRead_good a _ rfl rfl rfl rfl
      have e6 : permits (pageWord + 8192) true false = true := by decide
      have e7 : (openMail (withFile images m)).vault.mem = m := rfl
      have hk : va + min n (16 - va % 16) + (n - min n (16 - va % 16)) ≤ 2 ^ 18 := by omega
      unfold devRead columns
      simp only [hn, if_false, hp, e1, e2, e3, e4, e5, e6, e7, Bool.not_true, Bool.false_eq_true, ih _ _ hk]

/-- The file at the start of that page: its bytes that are not zero. -/
def fileMem : Mem := [(0, 74), (1, 76), (2, 79), (3, 49), (4, 1), (6, 5), (8, 224), (9, 28), (64, 1), (72, 144), (76, 152), (77, 7), (80, 2), (88, 40),
  (89, 8), (92, 8), (96, 3), (104, 48), (105, 8), (108, 8), (112, 4), (120, 56), (121, 8), (124, 16), (128, 6), (136, 72), (137, 8), (140, 152),
  (141, 20), (160, 64), (2097, 128), (2098, 1), (2105, 8), (2112, 1)].map (fun e => (2 ^ 38 + e.1, BitVec.ofNat 8 e.2))

/-- The place of a byte of that page. -/
theorem place_addr (o : Nat) (h : o < 2 ^ 18) : (place (pageWord + 8192) o).addr = 2 ^ 38 + o := by
  have e : place (pageWord + 8192) o = ⟨8192, 0, 0, o / 2 ^ 11, o / 16 % 128, o % 16⟩ := by
    unfold place
    rw [if_pos (by decide +kernel)]
    simp only [show sel (pageWord + 8192) 0 15 = 8192 by decide +kernel, show lowestBit (sel (pageWord + 8192) 36 8) 8 = 0 by decide +kernel,
      show lowestBit (sel (pageWord + 8192) 34 2) 2 = 0 by decide +kernel, show sel (pageWord + 8192) 24 10 = 0 by decide +kernel, Nat.zero_add]
  rw [e]
  simp only [Place.addr]
  omega

theorem readList_append (m : Mem) (a j k : Nat) : readList m a (j + k) = readList m a j ++ readList m (a + j) k := by
  induction j generalizing a with
  | zero => simp [readList]
  | succ j ih => rw [Nat.succ_add, readList, readList, ih, Nat.add_right_comm a 1 j]; rfl

theorem columns_eq (m : Mem) (fuel : Nat) : ∀ va n, n < fuel → va + n ≤ 2 ^ 18 → columns m va n fuel = readList m (2 ^ 38 + va) n := by
  induction fuel with
  | zero => intro va n h; omega
  | succ fuel ih =>
    intro va n h1 h2
    unfold columns
    by_cases hn : n = 0
    · subst hn; rfl
    · rw [if_neg hn, ih _ _ (by omega) (by omega)]
      have hm : va % 2 ^ 18 = va := by omega
      rw [hm, place_addr va (by omega), ← Nat.add_assoc, ← readList_append]
      congr 1
      omega

theorem readList_none (m : Mem) (n : Nat) : ∀ a, (∀ c ∈ m, c.1 < a ∨ a + n ≤ c.1) → readList m a n = List.replicate n 0 := by
  induction n with
  | zero => intro a _; rfl
  | succ n ih =>
    intro a h
    have e : readByte m a = 0 := by
      have : ∀ c ∈ m, c.1 ≠ a := fun c hc => by have := h c hc; omega
      clear h ih
      unfold readByte
      induction m with
      | nil => rfl
      | cons c m im =>
        rw [Table.get, if_neg (fun h => this c (by simp) h.symm), im (fun d hd => this d (by simp [hd])), ite_self]
    rw [readList, e, ih _ (fun c hc => by have := h c hc; omega)]
    rfl

/-- The file stands at the start of the page: an IMGLOAD of it reads it whole. -/
theorem imageFile_bytes : columns fileMem 0 7392 7393 = imageFile := by
  have h1 : readList fileMem (2 ^ 38 + 161) 1936 = List.replicate 1936 0 := readList_none _ _ _ (by decide +kernel)
  have h2 : readList fileMem (2 ^ 38 + 2113) 5279 = List.replicate 5279 0 := readList_none _ _ _ (by decide +kernel)
  rw [columns_eq _ _ _ _ (by omega) (by omega), show 7392 = 161 + (1936 + (16 + 5279)) from rfl, readList_append, readList_append, readList_append]
  simp only [Nat.add_assoc, Nat.add_zero, Nat.reduceAdd] at h1 h2 ⊢
  rw [h1, h2]
  exact eq_of_beq (show List.beq _ _ = true by decide +kernel)

/-- The IMGLOAD reads the file, whatever images the table holds. -/
theorem wit_BootSteps_read (images : List Image) (h : ∀ i ∈ images, i.loaded = true) : mailServed (withFile images fileMem) ∧ bodyGood [0xFFF, 2 ^ 48 - 1, 2 ^ 64 - 1] [0, 0, 7392]
    ∧ imageRead [0, 0, 7392] (withFile images fileMem) = .done 0 0 imageFile (openMail (withFile images fileMem)) := by
  have hopen : mailOpen (withFile images fileMem) = false := by
    unfold mailOpen mailOpenAt
    rw [show (withFile images fileMem).mgr.images = images from rfl, show (withFile images fileMem).host.loads = [] from rfl,
      show (withFile images fileMem).host.firmware = none from rfl]
    simp only [List.any_nil, Bool.or_false, Option.any_none, List.any_eq_false, Bool.and_eq_true, Bool.not_eq_true', not_and]
    intro i hi hl
    rw [h i hi] at hl
    exact absurd hl (by decide)
  refine ⟨⟨rfl, hopen⟩, by unfold bodyGood; decide +kernel, ?_⟩
  show devRead 0 0 7392 _ 7393 = _
  rw [devRead_withFile _ _ _ _ _ (by omega), imageFile_bytes]

/-- Its image, of a region of 64 bytes in the own quad. -/
theorem imageFile_region : regionLength (imageOfFile imageFile 0 false 1 0 0 0).roles (imageOfFile imageFile 0 false 1 0 0 0).placement 0 0 = 1 := by decide +kernel

/-- An image whose role fills the image store of quad 0. -/
def wholeImage : Image := { image with roles := [{ Role.empty with code := List.replicate 16384 (0, false) }] }

theorem wholeImage_region : regionLength wholeImage.roles wholeImage.placement 0 0 = 512 := by
  have : rolesOfQuad wholeImage.placement 0 0 = [0] := by decide +kernel
  unfold regionLength
  rw [this, show wholeImage.roles = [{ Role.empty with code := List.replicate 16384 (0, false) }] from rfl]
  simp only [List.foldl_cons, List.foldl_nil, List.getElem?_cons_zero, Option.map_some, Option.getD_some, List.length_replicate]
  rfl

/-- There is room in an empty table; none beside the whole image, under any base; and a table of 256 images is full. -/
theorem wit_BootSteps_imgload : regionFree (openMail (withFile [] fileMem)) 0 1 = true
    ∧ (∀ b : BitVec 9, regionFree (openMail (withFile [wholeImage] fileMem)) b.toNat 1 = false) ∧ wholeImage.index ≠ 2
    ∧ (∀ k : BitVec 8, ∃ i ∈ (openMail (withFile ((List.range 256).map fun n => { image with index := BitVec.ofNat 8 n }) fileMem)).mgr.images, i.index = k) := by
  refine ⟨by decide +kernel, fun b => ?_, by decide +kernel, fun k => ?_⟩
  · have e1 : (openMail (withFile [wholeImage] fileMem)).mgr.images = [wholeImage] := rfl
    have e2 : (openMail (withFile [wholeImage] fileMem)).ownStack = 0 := by
      rw [show (openMail (withFile [wholeImage] fileMem)).ownStack = base.ownStack from rfl]; decide +kernel
    have e3 : (openMail (withFile [wholeImage] fileMem)).ownQuad = 0 := by
      rw [show (openMail (withFile [wholeImage] fileMem)).ownQuad = base.ownQuad from rfl]; decide +kernel
    have e4 : wholeImage.base.toNat = 0 := rfl
    have := b.isLt
    unfold regionFree
    rw [e1, e2, e3]
    simp only [List.all_cons, List.all_nil, wholeImage_region, e4]
    simp only [Bool.and_true, Bool.and_eq_false_iff, Bool.or_eq_false_iff, decide_eq_false_iff_not]
    omega
  · refine ⟨{ image with index := k }, ?_, rfl⟩
    rw [show ∀ l, (openMail (withFile l fileMem)).mgr.images = l from fun _ => rfl]
    exact List.mem_map.mpr ⟨k.toNat, List.mem_range.mpr k.isLt, by rw [BitVec.ofNat_toNat, BitVec.setWidth_eq]⟩

/-- An empty file fails its checks; in a package without tables the read faults, and at a busy bank it waits. -/
theorem wit_BootSteps_unread : (let s := windowed; mailServed s ∧ bodyGood [0xFFF, 2 ^ 48 - 1, 2 ^ 64 - 1] [] ∧ imageRead [] s = .done 0 0 [] (openMail s))
    ∧ fileFault imageCounts [] = some 0xFF
    ∧ (match imageRead [0, 0, 64] (readied base) with
      | .fault why _ _ => decide (why = 1)
      | _ => false) = true
    ∧ (match imageRead [0, 0, 64] (inBank (fun b => { b with busy := .refreshing }) windowed) with
      | .wait => true
      | _ => false) = true := by
  refine ⟨⟨⟨rfl, rfl⟩, by unfold bodyGood; decide +kernel, rfl⟩, by decide +kernel, by decide +kernel, by decide +kernel⟩

/-- Quad 0 holds its roles and is to send them to quads 1 and 2; and an image that no gang, and one that a gang was placed with. -/
theorem wit_BootSteps_images : (let i : Image := { image with loaded := false, tree := [(0, [1, 2])] }; i.loaded = false ∧ i.holding.contains 0 = true
      ∧ ((i.tree.filter (fun e => decide (e.1 = (0 : BitVec 11)))).flatMap Prod.snd).find? (fun q => !i.holding.contains q) = some 1)
    ∧ reservedWord [0xFF] [1] = none ∧ mailServed (launching 0) ∧ (launching 0).mgr.gangs = []
    ∧ (let s := holding (packet 0 0 none) none [] (launching 0); mailServed s ∧ s.mgr.gangs.map (fun g => pkt g.packet 2 56 8) = [1]) := by
  unfold mailServed; decide +kernel

/-! ## Decoding, fetching and the step -/

theorem wit_DecodeOfEncode : (Instr.amocas 11 12 13).isEvent = false ∧ (Instr.amocas 11 12 13).wellFormed = true := ⟨rfl, rfl⟩

theorem wit_EncodeOfDecode : decodeWord 0b1_000000010_01101_01100_01011_010011_1 = .ok (.amocas 11 12 13) := by decide

/-- A state that runs add x1, x2, x3 next. -/
def adding : State := State.reset.withFetchWord 32 0b0000000000_00011_00010_00001_000000_1

theorem adding_word : encode (.add 1 2 3) = 0b0000000000_00011_00010_00001_000000_1 := by decide

/-- The same bytes at the end of a region, and with other tags. -/
def tagged (tags : List Nat) (units : BitVec 9) : State := inRes (fun r => { r with ilen := units })
  { adding with quad := { adding.quad with istore := writeLE (writeLE [] 0 4 1) 62 2 1, code := tags } }

theorem wit_Fetches : codeHolds (State.reset.withFetchWord 32 (encode (.add 1 2 3))) 0 (Instr.add 1 2 3).len (encode (.add 1 2 3)) := by
  rw [adding_word]
  unfold codeHolds
  decide +kernel

theorem decodeBytes_error {w : Nat} (h : (match decodeWord w with | .ok _ => false | .error _ => true) = true) : ∀ i, decodeWord w ≠ .ok i := by
  intro i hi
  rw [hi] at h
  cases h

/-- The word 0 is no instruction of 16 bits, and 0xFFFFFFFF none of 32. -/
theorem wit_Fetches_illegal : codeHolds base 0 2 0 ∧ (0 : Nat) < 2 ^ (8 * 2) ∧ (∀ i, decodeWord 0 ≠ .ok i)
    ∧ codeHolds (State.reset.withFetchWord 32 0xFFFFFFFF) 0 4 0xFFFFFFFF ∧ (0xFFFFFFFF : Nat) < 2 ^ (8 * 4) ∧ (∀ i, decodeWord 0xFFFFFFFF ≠ .ok i) := by
  unfold codeHolds
  exact ⟨by decide +kernel, by decide, decodeBytes_error (by decide), by decide +kernel, by decide, decodeBytes_error (by decide)⟩

theorem wit_Fetches_traps : (tagged [0, 1] 0).rs.regionEnd ≤ 64 ∧ 62 < (tagged [31] 0).rs.regionEnd ∧ fetchLength (tagged [31] 0) 62 = 4
    ∧ (tagged [31] 0).rs.regionEnd ≤ 62 + 2 ∧ 0 + fetchLength (tagged [1] 0) 0 ≤ (tagged [1] 0).rs.regionEnd ∧ codeAt (tagged [1] 0) 0 = false
    ∧ 0 + 4 ≤ (tagged [0] 0).rs.regionEnd ∧ codeAt (tagged [0] 0) 0 = true ∧ fetchLength (tagged [0] 0) 0 = 4 ∧ codeAt (tagged [0] 0) (0 + 2) = false := by
  decide +kernel

/-- A slot that is picked where nothing is scheduled or due and it is the streams' turn, or the device cannot move. -/
theorem issues_self {s : State} {k : SlotIx} (h : s.schedule = [] ∧ firstEnabled urgentAttempts s = none ∧ (s.turn = false ∨ firstEnabled attempts s = none)
    ∧ pickSlot s = some k) : issues s k s := ⟨.inr ⟨h.1, rfl, h.2.1, h.2.2.1⟩, h.2.2.2⟩

theorem wit_StepRunsTheInstruction : (let s := State.reset.withFetchWord 32 (encode (.add 1 2 3)); issues s 0 s ∧ fetches (issuing s 0) 0
    ∧ codeHolds (issuing s 0) (issuing s 0).st.pc.toNat (Instr.add 1 2 3).len (encode (.add 1 2 3))) := by
  rw [adding_word]
  refine ⟨issues_self (by decide +kernel), by unfold fetches; decide +kernel, ?_⟩
  unfold codeHolds
  decide +kernel

/-- A stream in the middle of a transfer of its save area that owes a WDOG still fetches. -/
theorem wit_StepRunsTheInstruction_area : (let s := owing.setSt { owing.st with area := some ⟨false, 0, pageWord, [], 0⟩ }
    fetches (issuing s 0) 0 ∧ owesWdog (issuing s 0) 0 = true) := by unfold fetches; decide +kernel

/-- A stream that the schedule lets issue. -/
theorem wit_StepRunsTheInstruction_scheduled : issues { adding with schedule := [.issue] } 0 adding := ⟨.inl ⟨[], rfl, rfl⟩, by decide +kernel⟩

/-- The same step from the state of that program: its own effect. -/
theorem test_step_add : (match step (State.reset.withFetchWord 32 0b0000000000_00011_00010_00001_000000_1) with
    | .next t => decide (t.streams[(0 : SlotIx)].pc = 4)
    | _ => false) = true := by decide +kernel

/-- Whether the fetch of the stream of slot 0 gives a trap or no instruction. -/
def fetched (s : State) : Option (Nat × Word) := match fetchAt (issuing s 0).st.pc.toNat (issuing s 0) with
  | .trap c i => some (c, i)
  | .illegal w => some (0, w.setWidth 64)
  | .instr _ => none

/-- Streams that issue: one whose fetch meets a data tag, one that meets no instruction, and one that owes a WDOG. -/
theorem wit_StepRunsTheInstruction_traps : (∀ s ∈ [tagged [1] 0, base, owing, { base with turn := true }], s.schedule = [] ∧ firstEnabled urgentAttempts s = none
      ∧ (s.turn = false ∨ firstEnabled attempts s = none) ∧ pickSlot s = some 0 ∧ (issuing s 0).st.due = none)
    ∧ owesWdog (issuing (tagged [1] 0) 0) 0 = false ∧ fetched (tagged [1] 0) = some (2, 0)
    ∧ owesWdog (issuing base 0) 0 = false ∧ fetched base = some (0, 0) ∧ owesWdog (issuing owing 0) 0 = true ∧ (issuing owing 0).st.area = none := by
  decide +kernel

/-- A stream that was found in a trap while its slice work ran, and no longer runs. -/
def trapped : State := base.setSt { base.st with due := some (2, 0, 0) }

theorem wit_StepRunsTheInstruction_due : issues trapped 0 trapped ∧ (issuing trapped 0).st.due = some (2, 0, 0) ∧ (issuing trapped 0).sliceBusy = false :=
  ⟨issues_self (by decide +kernel), by decide +kernel, by decide +kernel⟩

/-- A stream whose instruction would wait: it reads a queue that holds nothing. -/
def waiting : State := let s := State.reset.withFetchWord 32 (encode (.add 1 30 30)); s.setSt { s.st with qm := true }

theorem wit_StepRunsTheInstruction_waits : (match issueAs 0 waiting with
    | .next t => t.streams[(0 : SlotIx)].stalled
    | _ => false) = true := by decide +kernel

theorem wit_StepRunsTheDevice : (Instr.dispatch).isEvent = true ∧ (Instr.add 1 2 3).isEvent = false
    ∧ (∀ m ∈ [Move.device .dispatch, .device (.add 1 2 3), .elsewhere (.claim 1), .issue], ({ base with schedule := [m] } : State).schedule = m :: [])
    ∧ pickSlot { { State.reset with schedule := [.issue] } with schedule := [] } = none
    ∧ (let s := { resting with turn := true }; s.schedule = [] ∧ firstEnabled urgentAttempts s = none ∧ s.turn = true ∧ (firstEnabled attempts s).isSome = true)
    ∧ (let s := State.reset; s.schedule = [] ∧ firstEnabled urgentAttempts s = none ∧ firstEnabled attempts s = none ∧ pickSlot s = none) := by decide +kernel

/-- An ARMED residency whose start has come falls due. -/
theorem wit_StepRunsTheDevice_due : (let s := inRes (fun r => { r with state := .armed, startTick := 0 }) resting; s.schedule = []
    ∧ (firstEnabled urgentAttempts s).isSome = true) := by decide +kernel

theorem wit_StepsKeepMemories : base.memoriesWf ∧ base.copiesWf ∧ goes (step base) = true :=
  ⟨⟨rfl, rfl, rfl, rfl, rfl⟩, by unfold State.copiesWf; decide +kernel, by decide +kernel⟩

theorem wit_StepsGoOn : base.scheduleOfSteps ∧ ({ base with schedule := [.device .dispatch] } : State).scheduleOfSteps := by
  unfold State.scheduleOfSteps
  exact ⟨by decide +kernel, by decide +kernel⟩

/-- A stream at trap level 2: a legal state whose step goes on. -/
theorem wit_StepsKeepLevels : (base.setSt { base.st with tlevel := 2 }).levelsLegal ∧ goes (step (base.setSt { base.st with tlevel := 2 })) = true := by
  unfold State.levelsLegal
  exact ⟨by decide +kernel, by decide +kernel⟩

/-! ## Ill-formed instructions: each limit of R75 and R77 to R80 refuses a term, and its word is no instruction (R83) -/

/-- The term is not well-formed, and the word that its fields would have is refused. -/
def refusedWord (i : Instr) : Bool := !i.wellFormed && (decodeTableWord (8 * i.len) (encode i)).isNone

theorem test_refused_word_shift : refusedWord (.slliw 1 32 2) = true ∧ refusedWord (.srliw 1 63 2) = true ∧ refusedWord (.sraiw 1 32 2) = true := by decide +kernel

theorem test_refused_empty_loop : refusedWord (.loop 5 0) = true ∧ refusedWord (.loopImm 3 0) = true ∧ (Instr.loop 0 5).wellFormed = false := by decide +kernel

theorem test_refused_element_type : refusedWord (.vld 1 2 3 8 0) = true ∧ refusedWord (.vlds 1 2 3 9 0) = true ∧ refusedWord (.vldx 1 2 3 12 0) = true
    ∧ refusedWord (.vst 1 2 3 15 0) = true ∧ refusedWord (.vsts 1 2 3 8 0) = true ∧ refusedWord (.vstx 1 2 3 9 0) = true := by decide +kernel

theorem test_refused_mask_register : refusedWord (.vceq 8 1 2 0 0) = true ∧ refusedWord (.vclt 9 1 2 0 0) = true ∧ refusedWord (.vclo 31 1 2 0 0) = true
    ∧ refusedWord (.vfceq 8 1 2 0) = true ∧ refusedWord (.vfclt 8 1 2 0) = true ∧ refusedWord (.vfcle 8 1 2 0) = true ∧ refusedWord (.mset 8 1) = true
    ∧ refusedWord (.mpop 1 8) = true ∧ refusedWord (.mnot 1 8) = true := by decide +kernel

theorem test_refused_mask_operands : refusedWord (.mand 8 1 2) = true ∧ refusedWord (.mor 1 8 2) = true ∧ refusedWord (.mxor 1 2 8) = true
    ∧ refusedWord (.mnot 8 1) = true := by decide +kernel

theorem test_refused_saturation : refusedWord (.vsat 1 2 0 0 0) = true ∧ refusedWord (.vsat 1 2 8 0 0) = true ∧ refusedWord (.vsat 1 2 16 1 0) = true := by
  decide +kernel

theorem test_refused_conversion : refusedWord (.vcvt 1 0 5 2) = true ∧ refusedWord (.vcvt 1 5 13 2) = true := by decide +kernel

theorem test_refused_clear_range : refusedWord (.accz 31 1) = true ∧ refusedWord (.accz 40 24) = true ∧ (Instr.accz 40 23).wellFormed = true := by decide +kernel

theorem test_refused_extension : refusedWord (.packx 8) = true ∧ refusedWord (.packy 8) = true ∧ refusedWord (.packxf 8) = true
    ∧ refusedWord (.packyf 8) = true ∧ refusedWord (.packk 8) = true ∧ refusedWord (.mmar 8) = true ∧ refusedWord (.tld 1 8) = true
    ∧ refusedWord (.tst 1 8) = true ∧ refusedWord (.tlds 1 8) = true := by decide +kernel

theorem test_refused_extension_system : refusedWord (.sendl 1 8 0 0) = true ∧ refusedWord (.tnew 1 8) = true ∧ refusedWord (.oxl 8 1) = true
    ∧ refusedWord (.oxs 8 1) = true ∧ refusedWord (.oxc 8 1 0) = true ∧ refusedWord (.oxc 1 1 10) = true ∧ refusedWord (.jrec 1 8) = true
    ∧ refusedWord (.emit 8 1) = true ∧ refusedWord (.rngb 1 8) = true := by decide +kernel

theorem test_refused_odd_pair : refusedWord (.rngb 1 3) = true := by decide +kernel

theorem test_refused_channel : refusedWord (.send 1 2 3 3 0) = true ∧ refusedWord (.sendl 1 2 3 0) = true ∧ refusedWord (.msgx 1 2 3) = true := by decide +kernel

theorem test_refused_scope : refusedWord (.fence 5) = true ∧ refusedWord (.signal 6 1 2) = true ∧ refusedWord (.bar 7 1) = true := by decide +kernel

/-! ## Words of the spec's examples -/

/-- The table after R84: legal words. -/
theorem test_words_legal : decodeTableWord 32 0x00000001 = some (.add 0 0 0) ∧ decodeTableWord 32 0x0400203B = some (.mmar 2)
    ∧ decodeTableWord 32 0x04400055 = some (.qmap 1) := by decide

/-- The table after R84: words that are no instruction. -/
theorem test_words_illegal : decodeTableWord 16 0x0000 = none ∧ decodeTableWord 16 0x003C = none ∧ decodeTableWord 32 0x000C0019 = none
    ∧ decodeTableWord 32 0xFFFFFFFF = none := by decide

/-- R99's example. -/
theorem test_word_lui : decodeTableWord 32 0x12346495 = some (.lui 9 0x12346) ∧ decodeTableWord 32 0xFFFE9485 = some (.addi 9 9 0x7FFF) := by decide

/-- R111's examples. -/
theorem test_word_lw : decodeTableWord 32 0x01042621 = some (.lw 12 2 16) ∧ decodeTableWord 16 0x1192 = some (.cLw 12 4) := by decide

theorem test_word_sd : decodeTableWord 32 0xFF8692A3 = some (.sd 5 9 0xFF8) := by decide

theorem test_word_lqd : decodeTableWord 32 0x0058B525 = some (.lqd 10 11 12) := by decide

theorem test_word_amoadd : decodeTableWord 32 0x800E62A7 = some (.amoadd 5 6 7) ∧ decodeTableWord 32 0x00949427 = some (.amocasw 8 9 10) := by decide

theorem test_word_vst : decodeTableWord 32 0x003C91AD = some (.vst 3 9 30 0 0) ∧ decodeTableWord 32 0x048C522B = some (.vldx 4 5 6 0 2) := by decide

theorem test_word_vclt : decodeTableWord 32 0x800411AF = some (.vclt 3 1 2 0 0) := by decide

theorem test_word_vcvt : decodeTableWord 32 0xA2D462B3 = some (.vcvt 5 10 11 6) := by decide

theorem test_word_swr : decodeTableWord 32 0x20705051 = some (.swr 0 0x038 5) ∧ decodeTableWord 32 0x60726451 = some (.sclr 8 0x039 6) := by decide

theorem test_word_brk : decodeTableWord 32 0x084A0053 = some (.brk 0x25) := by decide

/-! ## Words written out field by field from R73 to R82: one or more of each group that the lists above leave out -/

theorem test_words_scalar : decodeTableWord 32 0b0000000100_00011_00010_00001_000001_1 = some (.div 1 2 3)
    ∧ decodeTableWord 32 0b00000000000000000001_00101_001011_1 = some (.auipc 5 1) ∧ decodeTableWord 32 0b10000000000000000000_00001_001101_1 = some (.jal 1 0x80000)
    ∧ decodeTableWord 32 0b000000000000011_00010_00001_001110_1 = some (.jalr 1 2 3) ∧ decodeTableWord 32 0b0000000000_0000000101_00110_001111_1 = some (.loop 6 5)
    ∧ decodeTableWord 32 0b0000000111_0000000101_00000_001111_1 = some (.loopImm 7 5) ∧ decodeTableWord 32 0b11111111111111111110_00011_010100_1 = some (.lit 3 0xFFFFE) := by
  decide

theorem test_words_vector : decodeTableWord 32 0b0011_10_0_010_00011_00010_00001_011001_1 = some (.vslide 1 2 3 2 2)
    ∧ decodeTableWord 32 0b1000_10_0_000_00000_00010_00001_011001_1 = some (.vfreds 1 2 0) ∧ decodeTableWord 32 0b0000101_000_00000_00100_00011_011010_1 = some (.mset 3 4)
    ∧ decodeTableWord 32 0b10011_01_000_01011_00010_00001_010111_1 = some (.vsat 1 2 11 1 0) ∧ decodeTableWord 32 0b0001100_001_00000_00010_00001_011000_1 = some (.vfrcp 1 2 1) := by
  decide

theorem test_words_multiplier : decodeTableWord 32 0b0000100_000_00000_00111_00000_011100_1 = some (.packk 7)
    ∧ decodeTableWord 32 0b0000001_100_00000_00010_00011_011101_1 = some (.mulj 35 2) ∧ decodeTableWord 32 0b0000100_110_00001_00000_00010_011110_1 = some (.accmv 34 33)
    ∧ decodeTableWord 32 0b0000001_100_00001_00100_00011_011110_1 = some (.extrf 3 33 4 0) := by decide

theorem test_words_engines : decodeTableWord 32 0b0000000_000_00011_00010_00000_100000_1 = some (.act 2 3)
    ∧ decodeTableWord 32 0b0000001_000_00000_00010_00001_100001_1 = some (.tchk 1 2) ∧ decodeTableWord 32 0b0000010_000_00000_00000_00001_100010_1 = some (.cpyq 1)
    ∧ decodeTableWord 32 0b0000010_000_00000_00001_00011_011111_1 = some (.tlds 3 1) := by decide

theorem test_words_messages : decodeTableWord 32 0b0000010_0_01_00011_00010_00000_100011_1 = some (.reply 2 3)
    ∧ decodeTableWord 32 0b0000000_1_00_00000_00010_00001_100100_1 = some (.vread 1 2 1) ∧ decodeTableWord 32 0b0000001_0_00_00011_00010_00000_100100_1 = some (.vwrite 2 3 0)
    ∧ decodeTableWord 32 0b0000010_0_00_00011_00010_00001_100100_1 = some (.vamo 1 2 3 0) ∧ decodeTableWord 32 0b0000001_111_00000_00010_00000_100101_1 = some (.tdec 2 7) := by decide

theorem test_words_system : decodeTableWord 32 0b0000010_000_01001_00101_00010_100111_1 = some (.oxc 2 5 9)
    ∧ decodeTableWord 32 0b000_000000111000_00000_00001_101000_1 = some (.srd 1 0x038) ∧ decodeTableWord 32 0b0000001_001_00000_00000_00000_101001_1 = some (.tabort 1)
    ∧ decodeTableWord 32 0b0000000_000_00000_00000_00000_101010_1 = some .endStream ∧ decodeTableWord 32 0b0000010_000_00011_00010_00000_101011_1 = some (.emit 2 3)
    ∧ decodeTableWord 32 0b0000000_000_00000_00110_00001_101100_1 = some (.rngb 1 6) := by decide

theorem test_words_compact : decodeTableWord 16 0b0_00010_00001_0001_0 = some (.cMv 1 2) ∧ decodeTableWord 16 0b111111_00001_0010_0 = some (.cAddi 1 63)
    ∧ decodeTableWord 16 0b100000_00011_1000_0 = some (.cSrli 3 32) ∧ decodeTableWord 16 0b10000000000_1101_0 = some (.cJ 0x400)
    ∧ decodeTableWord 16 0b00000000000_1110_0 = some .cEnd := by decide

/-! ## Single steps: the spec's worked examples -/

/-- What an instruction leaves in a scalar register. -/
def after (i : Instr) (s : State) (r : Reg) : Option Word := match exec i s with
  | .next t => some (t.st.getX r)
  | _ => none

/-- R96's table of the divide members. -/
theorem test_div : after (.div 1 2 3) (withX 0 (-7) 2) 1 = some (-3) ∧ after (.rem 1 2 3) (withX 0 (-7) 2) 1 = some (-1)
    ∧ after (.divz 1 2 3) (withX 0 0xFFFFFFFFFFFFFFF9 2) 1 = some 0x7FFFFFFFFFFFFFFC ∧ after (.rem 1 2 3) (withX 0 7 (-2)) 1 = some 1 := by decide +kernel

theorem test_divw : after (.divw 1 2 3) (withX 0 0x12345678FFFFFFF9 2) 1 = some 0xFFFFFFFFFFFFFFFD
    ∧ after (.divzw 1 2 3) (withX 0 0xFFFFFFFF 1) 1 = some 0xFFFFFFFFFFFFFFFF ∧ after (.div 1 2 3) (withX 0 5 0x100000000) 1 = some 0
    ∧ after (.div 1 2 3) (withX 0 0x8000000000000000 (-1)) 1 = some 0x8000000000000000 := by decide +kernel

/-- R99's example and its note. -/
theorem test_lui : after (.lui 9 0x12346) base 9 = some 0x12346000 ∧ after (.addi 9 9 0x7FFF) (writeX 9 0x12346000 base) 9 = some 0x12345FFF
    ∧ after (.lui 9 0x80000) base 9 = some 0xFFFFFFFF80000000 := by decide +kernel

/-- R118's example. -/
theorem test_amocasw : (let s := writeX 10 0x1234567880000000 (writeX 9 0x100 (writeX 8 0xFFFFFFFF00000007 (inCore (fun c => { c with spad := writeLE c.spad 0x100 4 7 }) base)))
    after (.amocasw 8 9 10) s 8 = some 7 ∧ (match exec (.amocasw 8 9 10) s with
      | .next t => decide (readLE t.core.spad 0x100 4 = 0x80000000)
      | _ => false) = true) := by decide +kernel

/-- R112's example: a load of which no byte is in range. -/
theorem test_lw_out_of_range : (match exec (.lw 1 2 0) (withX 5 (-2) 0) with
    | .next t => decide (t.st.getX 1 = 0) && decide (t.rs.spflag.getLsbD 63 = true) && decide (sel t.rs.spflag 0 32 = 0xFFFFFFFE)
    | _ => false) = true := by decide +kernel

/-- A SCLR of FFLAGS returns the old flags and clears those named (R24). -/
theorem test_sclr : (let s := (writeX 6 0x11 base).setSt { (writeX 6 0x11 base).st with fflags := 0x13 }
    match exec (.sclr 8 0x039 6) s with
    | .next t => decide (t.st.getX 8 = 0x13) && decide (t.st.fflags = 0x02)
    | _ => false) = true := by decide +kernel

/-- The known answer of Philox4x32-10 for key 0 and counter 0, as the authors of the generator publish it. -/
theorem test_philox : philoxBlock 0 0 0 = 0x9B00DBD8BC57AC4CE169C58D6627E8D5 := by decide +kernel

/-- R267's example: byte 0x1234 of that GROUP page. -/
theorem test_place : place 0x806D4FFC20000140 0x1234 = ⟨0x0148, 3, 0, 0x020, 2, 4⟩ := by decide +kernel

/-- The digit walk's example of R70: the sums −3, 5 and −1 of 16 bits. -/
theorem test_digitWalk : digitWalk 16 3 (-(2 ^ 32) + 5 * 2 ^ 16 - 3) = [-3, 5, -1] := by decide +kernel

theorem wit_DigitWalk : 0 < 16 := by decide

/-! ## The program of R343: its words, its descriptors and its count check -/

theorem test_r343_fill : decodeTableWord 32 0x140090B3 = some (.vbcast 1 9 1 0) ∧ decodeTableWord 32 0x4000401F = some (.loopImm 256 4)
    ∧ decodeTableWord 32 0x0000A0AD = some (.vst 1 10 0 0 0) := by decide

theorem test_r343_setup : decodeTableWord 32 0x00005037 = some (.guard 5) ∧ decodeTableWord 32 0x083E0037 = some (.accz 0 31)
    ∧ decodeTableWord 32 0x093E0037 = some (.accz 32 31) ∧ decodeTableWord 32 0x04001039 = some (.packxf 1)
    ∧ decodeTableWord 32 0x06002039 = some (.packyf 2) := by decide

theorem test_r343_barrier : decodeTableWord 32 0x0006A04B = some (.tnew 10 3) ∧ decodeTableWord 32 0x0400A04B = some (.tarm 10)
    ∧ decodeTableWord 32 0x0480A04D = some (.bar 2 10) := by decide

theorem test_r343_cont : decodeTableWord 32 0x0400103B = some (.mmar 1) ∧ decodeTableWord 32 0x0200013D = some (.extrf 2 0 0 0)
    ∧ decodeTableWord 32 0x00004595 = some (.lui 11 4) := by decide

/-- The core after the program's GUARD. -/
def r343Core : Core := match exec (.guard 5) (writeX 5 0x0010100A base) with
  | .next t => t.core
  | _ => base.core

/-- GUARD gives s = 40 and both windows 16 bits; dpx and dpy pass the limits of R152, and dmm those of R160. -/
theorem test_r343_guard : digitWidth r343Core = 40 ∧ r343Core.wx = 16 ∧ r343Core.wy = 16 ∧ tileFault r343Core .xf 0x404000800040040A = none
    ∧ tileFault r343Core .yf 0x404000802040040A = none ∧ mmarFault r343Core 0x0000004040000000 = none := by decide +kernel

/-- dpx: BF16 from offset 0x40 of the scratchpad, 64 rows of 128 bytes with 64 columns, to X entry 0 on. -/
theorem test_r343_pack : packDesc .xf 0x404000800040040A = ⟨false, 0x00A, true, none, 0x40, 128, 64, 64, 0, false⟩ := by decide +kernel

/-- The MMAR uses a0 to a31 for the even rows and a32 to a63 for the odd rows, and 64 terms pass the count check. -/
theorem test_r343_mmar : mmarAccs 0 0 64 = (List.range 64).map (fun m => if m % 2 = 0 then m / 2 else 32 + m / 2)
    ∧ countFault r343Core 64 (mmarAccs 0 0 64) = none := by decide +kernel

/-! ## Keccak: published answers -/

/-- SHA3-384 of "abc", first bytes (FIPS 202's example). -/
theorem test_sha3 : (sha3 [0x61, 0x62, 0x63]).take 4 = [0xEC, 0x01, 0x49, 0x82] := by decide +kernel

/-- KMAC256's sample 4 of SP 800-185: key 40 to 5F, data 00 to 03, "My Tagged Application". -/
theorem test_kmac : ((kmac256 ((List.range 32).map (fun k => BitVec.ofNat 8 (0x40 + k))) [0, 1, 2, 3] 64
    [0x4D, 0x79, 0x20, 0x54, 0x61, 0x67, 0x67, 0x65, 0x64, 0x20, 0x41, 0x70, 0x70, 0x6C, 0x69, 0x63, 0x61, 0x74, 0x69, 0x6F, 0x6E]).take 4)
    = [0x20, 0xC5, 0x70, 0xC3] := by decide +kernel

/-! ## The words that the listings of R280, R372 and R398 give -/

theorem test_r280_rows : decodeTableWord 32 0x08060037 = some (.accz 0 3) ∧ decodeTableWord 32 0x09060037 = some (.accz 32 3)
    ∧ decodeTableWord 32 0x00149041 = some (.act 9 10) ∧ decodeTableWord 32 0x040015BF = some (.tlds 11 1)
    ∧ decodeTableWord 32 0x021A9041 = some (.pre 9 13) ∧ decodeTableWord 32 0x0000B643 = some (.twait 12 11) := by decide

theorem test_r280_store : decodeTableWord 32 0x0306043D = some (.extrf 8 35 0 0) ∧ decodeTableWord 32 0x020057BF = some (.tst 15 5) := by decide

theorem test_r372 : decodeTableWord 32 0x0158B581 = some (.sll 11 11 12) ∧ decodeTableWord 32 0x0020C60B = some (.ori 12 12 0x10)
    ∧ decodeTableWord 32 0x0516D649 = some (.vamo 12 13 11 1) ∧ decodeTableWord 32 0x01F09489 = some (.andi 9 9 0xF8) := by decide

theorem test_r398_draw : decodeTableWord 32 0x0000B14F = some (.oxl 2 11) ∧ decodeTableWord 32 0x020141CF = some (.oxs 3 20)
    ∧ decodeTableWord 32 0x000020D9 = some (.rngb 1 2) ∧ decodeTableWord 32 0x28001A33 = some (.vmvx 20 1 0 2) := by decide

theorem test_r398_journal : decodeTableWord 32 0x00005BD7 = some (.jrec 23 5) ∧ decodeTableWord 32 0x02400053 = some (.tabort 1)
    ∧ decodeTableWord 32 0x02000C57 = some (.jseal 24) ∧ decodeTableWord 32 0x04046057 = some (.emit 6 2) := by decide

/-! ## The staging, the far side of a window, and the scan channels -/

theorem wit_JournalInstructions_staging : stagingFull base = false ∧ stagingFull (elsewhere (.staging 65536) base) = true := by decide +kernel

/-- A package that holds a window with JID 8 and last heard of its serving side at cycle 3. -/
def holdsWindow (cycle : Word) : State := inCore (fun c => { c with cycle := cycle })
  { base with resil := { base.resil with partnerWindows := [⟨8, 4, [], []⟩], partnerHeard := [(8, 3)] } }

theorem wit_JournalSteps_silent : (⟨8, 4, [], []⟩ : PartnerWindow) ∈ (holdsWindow 27003).resil.partnerWindows
    ∧ 27000 ≤ (holdsWindow 27003).core.cycle.toNat - (Table.get 0 (holdsWindow 27003).resil.partnerHeard (8 : BitVec 16).toNat).toNat
    ∧ (holdsWindow 27002).core.cycle.toNat - (Table.get 0 (holdsWindow 27002).resil.partnerHeard (8 : BitVec 16).toNat).toNat < 27000 := by decide +kernel

/-- Quad 1,599 is followed by quad 0 on the service channel, and 1,639 by 1,600 on the other; a retired quad is passed over. -/
theorem test_scan_turn : (let s := { base with resil := { base.resil with serviceNext := 1600, spareNext := 1640, failedQuads := [0] } }
    serviceDue s = some 1 ∧ spareDue s = some 1600) := by decide +kernel

/-- The sixteen shingles of stack 0 are taken; a pool of one makes room. -/
theorem test_shingle_pool : (let s := { base with resil := { base.resil with shingles := List.replicate 16 (shingle true) } }
    shingleFree s 0 = false ∧ shingleFree s 1 = true ∧ shingleFree (elsewhere (.pool 0 1) s) 0 = true) := by decide +kernel

end Sys2Proof.Tests
end

section
/-! SUPPORT. How an instruction of a stream can end, as its frame sees it: what a trap stops (R162, R221, R303, R308), the laws of StreamFrame, and
one lemma per shared operation for the answers that complete. -/

namespace Sys2Proof.Machine

@[simp] theorem State.setRs_rs (s : State) (x : Residency) : (s.setRs x).rs = x := vset_get _ _ _

theorem vset_vset {α : Type} {n : Nat} (v : Vector α n) (i : Fin n) (a b : α) : vset (vset v i a) i b = vset v i b := by
  simp [vset]

theorem State.setRs_setRs (s : State) (x y : Residency) : (s.setRs x).setRs y = s.setRs y := by
  show ({ s with res := vset (vset s.res s.ri x) s.ri y } : State) = _
  rw [vset_vset]
  rfl

/-! ## What every stream keeps while pending accesses are performed (R110) -/

/-- The slew unit is that of the other state, and every stream is active or free, in its residency and at its trap level as it was there. -/
structure KeepsLives (s t : State) : Prop where
  slew : t.core.slew = s.core.slew
  active : ∀ j : SlotIx, t.streams[j].active = s.streams[j].active
  res : ∀ j : SlotIx, t.streams[j].res = s.streams[j].res
  tlevel : ∀ j : SlotIx, t.streams[j].tlevel = s.streams[j].tlevel

theorem KeepsLives.of_streams {s t : State} (hw : t.core.slew = s.core.slew) (h : t.streams = s.streams) : KeepsLives s t :=
  ⟨hw, fun _ => by rw [h], fun _ => by rw [h], fun _ => by rw [h]⟩

theorem KeepsLives.rfl (s : State) : KeepsLives s s := .of_streams (Eq.refl _) (Eq.refl _)

theorem KeepsLives.trans {s t u : State} (h : KeepsLives s t) (g : KeepsLives t u) : KeepsLives s u :=
  ⟨g.slew.trans h.slew, fun j => (g.active j).trans (h.active j), fun j => (g.res j).trans (h.res j), fun j => (g.tlevel j).trans (h.tlevel j)⟩

/-- A list of operations that each keep them, folded. -/
theorem KeepsLives.foldl {α : Type} {f : State → α → State} (hf : ∀ s a, KeepsLives s (f s a)) (l : List α) (s : State) :
    KeepsLives s (l.foldl f s) := by
  induction l generalizing s with
  | nil => exact .rfl s
  | cons a l ih => exact (hf s a).trans (ih _)

/-- Replacing one stream by another that is as alive keeps them. -/
theorem KeepsLives.vset (s : State) (i : SlotIx) (x : Stream) (ha : x.active = s.streams[i].active) (hr : x.res = s.streams[i].res)
    (hl : x.tlevel = s.streams[i].tlevel) : KeepsLives s { s with streams := vset s.streams i x } := by
  have h (j : SlotIx) : (Machine.vset s.streams i x)[j].active = s.streams[j].active ∧ (Machine.vset s.streams i x)[j].res = s.streams[j].res
      ∧ (Machine.vset s.streams i x)[j].tlevel = s.streams[j].tlevel := by
    by_cases hj : i = j
    · subst hj
      simp [ha, hr, hl]
    · simp [hj]
  exact ⟨Eq.refl _, fun j => (h j).1, fun j => (h j).2.1, fun j => (h j).2.2⟩

theorem orFlags_keepsLives (f : BitVec 5) (s : State) : KeepsLives s (orFlags f s) := .vset s s.cur _ (Eq.refl _) (Eq.refl _) (Eq.refl _)

theorem writeV_keepsLives (r : Reg) (v : VWord) (s : State) : KeepsLives s (writeV r v s) := by
  obtain ⟨-, e⟩ | ⟨q, -, ⟨-, e⟩ | ⟨k, -, e⟩⟩ := writeV_cases r v s
  · rw [e]
    exact .vset s s.cur _ (Eq.refl _) (Eq.refl _) (Eq.refl _)
  · rw [e]
    exact .rfl s
  · rw [e]
    exact .of_streams (Eq.refl _) (Eq.refl _)

theorem vecPiece_keepsLives (q : VecRun) (p : List VecCell) (s : State) : KeepsLives s (vecPiece q p s).2 := by
  unfold vecPiece
  dsimp only
  split
  · exact .rfl s
  · exact .of_streams (Eq.refl _) (Eq.refl _)

theorem vecEnd_keepsLives (q : VecRun) (s : State) : KeepsLives s (vecEnd q s) := by
  have h1 : KeepsLives s { s with core := { s.core with vecRun := none }, cur := q.slot } := .of_streams (Eq.refl _) (Eq.refl _)
  unfold vecEnd
  dsimp only
  cases q.dest with
  | none => exact h1.trans ((orFlags_keepsLives _ _).trans (.of_streams (Eq.refl _) (Eq.refl _)))
  | some d => exact h1.trans ((orFlags_keepsLives _ _).trans ((writeV_keepsLives _ _ _).trans (.of_streams (Eq.refl _) (Eq.refl _))))

theorem vecPiece_cur (q : VecRun) (p : List VecCell) (s : State) : (vecPiece q p s).2.cur = s.cur := by
  unfold vecPiece
  dsimp only
  split <;> rfl

theorem vecStep_keepsLives (s : State) : KeepsLives s (vecStep s) ∧ (vecStep s).cur = s.cur := by
  unfold vecStep
  split
  · exact ⟨.rfl s, rfl⟩
  · rename_i q _
    split
    · exact ⟨vecEnd_keepsLives q s, rfl⟩
    · rename_i p ps _
      dsimp only
      split
      · exact ⟨(vecPiece_keepsLives q p s).trans (vecEnd_keepsLives _ _), vecPiece_cur q p s⟩
      · exact ⟨(vecPiece_keepsLives q p s).trans (.of_streams (Eq.refl _) (Eq.refl _)), vecPiece_cur q p s⟩

/-- An operation folded over a list keeps the current slot where each application does. -/
theorem foldl_cur {α : Type} {f : State → α → State} (hf : ∀ s a, (f s a).cur = s.cur) (l : List α) (s : State) : (l.foldl f s).cur = s.cur := by
  induction l generalizing s with
  | nil => rfl
  | cons a l ih => exact (ih _).trans (hf s a)

theorem finishVec_keepsLives (s : State) : KeepsLives s (finishVec s) ∧ (finishVec s).cur = s.cur := by
  unfold finishVec
  split
  · exact ⟨.rfl s, rfl⟩
  · exact ⟨.foldl (fun s _ => (vecStep_keepsLives s).1) _ s, foldl_cur (fun s _ => (vecStep_keepsLives s).2) _ s⟩

theorem deliverLoad_keepsLives (e : Remote) (v : Nat) (s : State) : KeepsLives s (deliverLoad e v s) ∧ (deliverLoad e v s).cur = s.cur := by
  unfold deliverLoad
  dsimp only
  split
  · split
    · exact ⟨.of_streams rfl rfl, rfl⟩
    · exact ⟨.rfl s, rfl⟩
  · split
    · exact ⟨.vset s e.slot _ (Stream.putX_active _ _ _) (Stream.putX_res _ _ _) (Stream.putX_tlevel _ _ _), rfl⟩
    · exact ⟨.rfl s, rfl⟩

theorem ownWr_streams (r : ResIx) (n : Nat) : ∀ (off v : Nat) (s : State),
    (ownWr r off n v s).streams = s.streams ∧ (ownWr r off n v s).core.slew = s.core.slew ∧ (ownWr r off n v s).cur = s.cur := by
  induction n with
  | zero => intro off v s; exact ⟨rfl, rfl, rfl⟩
  | succ n ih =>
    intro off v s
    obtain ⟨h1, h2, h3⟩ := ih (off + 1) (v / 2 ^ 8) (if off < s.res[r].spsize.toNat then
        { s with core := { s.core with spad := writeByte s.core.spad (s.res[r].spbase.toNat + off) (BitVec.ofNat 8 v) } }
      else s)
    refine ⟨h1.trans ?_, h2.trans ?_, h3.trans ?_⟩ <;> (split <;> rfl)

theorem targetWr_keepsLives (e : Remote) (off n v : Nat) (s : State) : KeepsLives s (targetWr e off n v s) ∧ (targetWr e off n v s).cur = s.cur := by
  unfold targetWr
  split
  · obtain ⟨h1, h2, h3⟩ := ownWr_streams e.res (e.kept off n) off v s
    exact ⟨.of_streams h2 h1, h3⟩
  · split
    · exact ⟨.rfl s, rfl⟩
    · exact ⟨.of_streams rfl rfl, rfl⟩

theorem performRemote_keepsLives (i : Nat) (s : State) : KeepsLives s (performRemote i s) ∧ (performRemote i s).cur = s.cur := by
  unfold performRemote
  split
  · exact ⟨.rfl s, rfl⟩
  · rename_i e _
    extract_lets off k v s1 _ s2
    have h1 : KeepsLives s s1 ∧ s1.cur = s.cur := by
      simp only [s1]
      split
      · exact targetWr_keepsLives e _ _ _ s
      · exact ⟨.rfl s, rfl⟩
    obtain ⟨hl, hc⟩ := h1
    clear_value s1
    have h2 : KeepsLives s s2 := hl.trans (.of_streams rfl rfl)
    split
    · exact ⟨hl.trans (.of_streams rfl rfl), hc⟩
    · split
      · exact ⟨h2, hc⟩
      · exact ⟨h2.trans (deliverLoad_keepsLives e v s2).1, (deliverLoad_keepsLives e v s2).2.trans hc⟩

theorem performFirst_keepsLives (p : Remote → Bool) (s : State) : KeepsLives s (performFirst p s) ∧ (performFirst p s).cur = s.cur := by
  unfold performFirst
  split
  · exact ⟨.rfl s, rfl⟩
  · exact performRemote_keepsLives _ s

theorem performAll_keepsLives (p : Remote → Bool) (s : State) : KeepsLives s (performAll p s) ∧ (performAll p s).cur = s.cur :=
  ⟨.foldl (fun s _ => (performFirst_keepsLives p s).1) _ s, foldl_cur (fun s _ => (performFirst_keepsLives p s).2) _ s⟩

theorem drainRemote_keepsLives (s : State) : KeepsLives s (drainRemote s) ∧ (drainRemote s).cur = s.cur := by
  obtain ⟨h1, h2⟩ := performAll_keepsLives (fun e => decide (e.slot = s.cur)) s
  obtain ⟨h3, h4⟩ := finishVec_keepsLives (performAll (fun e => decide (e.slot = s.cur)) s)
  exact ⟨h1.trans h3, h4.trans h2⟩

/-! ## What a kill and an abort stop (R221, R306, R308) -/

/-- The streams and the current slot are those of the other state. -/
structure SameStreams (s t : State) : Prop where
  streams : t.streams = s.streams
  cur : t.cur = s.cur

theorem SameStreams.rfl (s : State) : SameStreams s s := ⟨Eq.refl _, Eq.refl _⟩

theorem SameStreams.trans {s t u : State} (h : SameStreams s t) (g : SameStreams t u) : SameStreams s u :=
  ⟨g.streams.trans h.streams, g.cur.trans h.cur⟩

theorem SameStreams.st {s t : State} (h : SameStreams s t) : t.st = s.st := by
  unfold State.st
  simp only [h.streams, h.cur]

theorem SameStreams.foldl {α : Type} {f : State → α → State} (hf : ∀ s a, SameStreams s (f s a)) (l : List α) (s : State) :
    SameStreams s (l.foldl f s) := by
  induction l generalizing s with
  | nil => exact .rfl s
  | cons a l ih => exact (hf s a).trans (ih _)

theorem logAbort_sameStreams (e : Word × Word × Word × Word) (s : State) : SameStreams s (logAbort e s) := by
  unfold logAbort
  split <;> exact ⟨rfl, rfl⟩

theorem removeTrigger_sameStreams (r : ResIx) (m : Msg) (s : State) : SameStreams s (removeTrigger r m s) := by
  unfold removeTrigger
  dsimp only
  split <;> exact ⟨rfl, rfl⟩

theorem deadLetter_sameStreams (why : Nat) (m : Msg) (s : State) : SameStreams s (deadLetter why m s) := ⟨rfl, rfl⟩

theorem SameStreams.setRes {s t : State} (h : SameStreams s t) (r : ResIx) (x : Residency) : SameStreams s (t.setRes r x) := ⟨h.streams, h.cur⟩

theorem SameStreams.setRecWord {s t : State} (h : SameStreams s t) (r : ResIx) (off v : Nat) : SameStreams s (setRecWord t r off v) :=
  ⟨h.streams, h.cur⟩

theorem SameStreams.setRecBit {s t : State} (h : SameStreams s t) (r : ResIx) (off bit : Nat) (b : Bool) : SameStreams s (setRecBit t r off bit b) :=
  ⟨h.streams, h.cur⟩

theorem dropWaiting_sameStreams (r : ResIx) (vn : Nat) (s : State) : SameStreams s (dropWaiting r vn s) := by
  unfold dropWaiting
  extract_lets gone s1 s2
  have h : SameStreams s s2 := SameStreams.trans (t := s1) ⟨rfl, rfl⟩ (.foldl (fun t (e : RxEntry) => deadLetter_sameStreams 7 e.m t) gone s1)
  split
  · exact h.setRes _ _
  · exact h

theorem enqueueReady_sameStreams (r : ResIx) (off : Nat) (s : State) : SameStreams s (enqueueReady r off s) := by
  unfold enqueueReady
  dsimp only
  split
  · exact ⟨rfl, rfl⟩
  · refine SameStreams.setRes (SameStreams.setRecWord ?_ _ _ _) _ _
    split
    · exact .rfl s
    · exact (SameStreams.rfl s).setRecWord _ _ _

theorem readyRecord_sameStreams (r : ResIx) (off : Nat) (s : State) : SameStreams s (readyRecord r off s) := by
  have h (x : Residency) (bit : Nat) : SameStreams s (Machine.setRecBit (s.setRes r x) r off bit true) := ((SameStreams.rfl s).setRes r x).setRecBit _ _ _ _
  unfold readyRecord
  dsimp only
  split
  · exact h _ _
  · exact (h _ _).trans (enqueueReady_sameStreams r off _)

/-- Every stream of residency r has stopped in t, and the current slot is that of s. -/
structure Stopped (r : ResIx) (s t : State) : Prop where
  inactive : ∀ j : SlotIx, s.streams[j].res = r → t.streams[j].active = false
  cur : t.cur = s.cur

theorem Stopped.trans {r : ResIx} {s t u : State} (h : Stopped r s t) (g : SameStreams t u) : Stopped r s u :=
  ⟨fun j hj => by rw [g.streams]; exact h.inactive j hj, g.cur.trans h.cur⟩

theorem SameStreams.stopped {r : ResIx} {s t u : State} (h : SameStreams s t) (g : Stopped r t u) : Stopped r s u :=
  ⟨fun j hj => g.inactive j (by rw [h.streams]; exact hj), g.cur.trans h.cur⟩

theorem stopStreams_stopped (r : ResIx) (s : State) : Stopped r s (stopStreams r s) := by
  unfold stopStreams
  extract_lets s1
  have h : KeepsLives s s1 ∧ s1.cur = s.cur := by
    simp only [s1]
    split
    · exact finishVec_keepsLives s
    · exact ⟨.rfl s, rfl⟩
  obtain ⟨hl, hc⟩ := h
  clear_value s1
  refine ⟨fun j hj => ?_, hc⟩
  have hr : s1.streams[j.val].res = r := (hl.res j).trans hj
  simp only [Fin.getElem_fin, Vector.getElem_map]
  split
  · rfl
  · rename_i hn
    simpa [hr] using hn

/-- Removing a trigger that is a message, and no other, changes no stream. -/
theorem endTrigger_sameStreams (tr : Option Trigger) (r : ResIx) (s : State) :
    SameStreams s (match tr with
      | some (.message m) => removeTrigger r m s
      | _ => s) := by
  cases tr with
  | none => exact .rfl s
  | some x => cases x with
    | message m => exact removeTrigger_sameStreams r m s
    | _ => exact .rfl s

theorem killNow_stopped (r : ResIx) (slot : Option SlotIx) (reason cause : Nat) (epc info : Word) (s : State) :
    Stopped r s (killNow r slot reason cause epc info s) := by
  unfold killNow
  extract_lets report trigger s1 s2 s3 g
  have h1 : Stopped r s s1 := (stopStreams_stopped r s).trans ⟨rfl, rfl⟩
  have h2 : SameStreams s1 s2 := endTrigger_sameStreams trigger r s1
  have h3 : SameStreams s2 s3 := ((dropWaiting_sameStreams r 0 s2).trans (dropWaiting_sameStreams r 1 _)).trans (dropWaiting_sameStreams r 2 _)
  clear_value s3
  exact (h1.trans (h2.trans h3)).trans ⟨rfl, rfl⟩

/-- Without slice work a kill is carried out at once (R162). -/
theorem killResidency_stopped {r : ResIx} {s : State} (hw : s.workOf r = false) (slot : Option SlotIx) (reason cause : Nat) (epc info : Word) :
    Stopped r s (killResidency r slot reason cause epc info s) :=
  killResidency_cases (P := Stopped r s) (fun h => by rw [hw] at h; cases h) (fun _ => killNow_stopped r slot reason cause epc info s)

theorem logAbort_workOf (e : Word × Word × Word × Word) (s : State) (r : ResIx) : (logAbort e s).workOf r = s.workOf r := by
  unfold logAbort
  split <;> rfl

theorem abortActivation_stopped {r : ResIx} {s : State} (hw : s.workOf r = false) (keep : Bool) (reason cause : Nat) (epc info : Word) :
    Stopped r s (abortActivation r keep reason cause epc info s) := by
  unfold abortActivation
  extract_lets x count trigger entry s1 _ s2 s3 _ s4
  have h2 : SameStreams s s2 := (logAbort_sameStreams entry s).trans ⟨rfl, rfl⟩
  have h4 : Stopped r s s4 := (h2.stopped (stopStreams_stopped r s2)).trans ⟨rfl, rfl⟩
  have hw2 : s2.workOf r = false := (logAbort_workOf entry s r).trans hw
  clear_value trigger s4 s2
  split
  · exact h2.stopped (killResidency_stopped hw2 _ _ _ _ _)
  · match trigger with
    | none => exact h4
    | some (.message m) =>
      cases keep
      · exact h4.trans (removeTrigger_sameStreams r m s4)
      · exact h4.trans ⟨rfl, rfl⟩
    | some (.record off) =>
      cases keep
      · exact h4
      · exact h4.trans (readyRecord_sameStreams r off s4)
    | some .launch => exact h4.trans ⟨rfl, rfl⟩

/-- A trap without slice work of the residency either enters a handler one level up, or stops the stream (R162, R303). -/
theorem takeTrap_leaves {s : State} (hw : s.workOf s.ri = false) (cause : Nat) (epc info : Word) :
    (takeTrap cause epc info s).st.tlevel ≠ s.st.tlevel ∨ (takeTrap cause epc info s).st.active = false := by
  obtain ⟨hl, hc⟩ := drainRemote_keepsLives s
  have hres : ∀ j : SlotIx, j = s.cur → (drainRemote s).streams[j].res = s.ri := fun j hj => by rw [hl.res j, hj]; rfl
  have hri : (drainRemote s).st.res = s.ri := hres _ hc
  have hlev : (drainRemote s).st.tlevel = s.st.tlevel := by
    unfold State.st
    simp only [hc]
    exact hl.tlevel s.cur
  have hwork : (drainRemote s).workOf (drainRemote s).st.res = false := by
    rw [hri]
    unfold State.workOf
    rw [hl.slew]
    exact hw
  have hstop {u : State} (h : Stopped (drainRemote s).st.res (drainRemote s) u) : u.st.active = false :=
    h.inactive u.cur (by rw [hri]; exact hres _ (h.cur.trans hc))
  refine takeTrap_cases (P := fun u => u.st.tlevel ≠ s.st.tlevel ∨ u.st.active = false) (fun _ => ?_) (fun _ _ => ?_) fun h hlt _ t _ _ ht => ?_
  · exact .inr (hstop (killResidency_stopped hwork _ _ _ _ _))
  · exact .inr (hstop (abortActivation_stopped hwork _ _ _ _ _))
  · left
    rw [State.setSt_st, ht, ← hlev]
    bv_omega

end Sys2Proof.Machine
end

section
namespace Sys2Proof.Machine

theorem State.setRs_self (s : State) : s.setRs s.rs = s := by
  show ({ s with res := vset s.res s.ri s.rs } : State) = s
  rw [show vset s.res s.ri s.rs = s.res from Vector.set_getElem_self _]

/-! ## Operations that change residencies alone -/

/-- The states differ in their residencies alone. -/
def OnlyRes (s t : State) : Prop := t = { s with res := t.res }

theorem OnlyRes.rfl (s : State) : OnlyRes s s := Eq.refl s

theorem OnlyRes.trans {s t u : State} (h : OnlyRes s t) (g : OnlyRes t u) : OnlyRes s u := by
  have e : ({ t with res := u.res } : State) = { s with res := u.res } := by rw [h]
  exact Eq.trans g e

theorem OnlyRes.setRes {s t : State} (h : OnlyRes s t) (r : ResIx) (x : Residency) : OnlyRes s (t.setRes r x) := h.trans (Eq.refl _)

theorem OnlyRes.sameStreams {s t : State} (h : OnlyRes s t) : SameStreams s t := by
  rw [h]
  exact ⟨Eq.refl _, Eq.refl _⟩

theorem OnlyRes.core {s t : State} (h : OnlyRes s t) : t.core = s.core := by rw [h]

/-- Reading a scalar operand changes the queues of the running task and nothing else. -/
theorem popX_eq {r : Reg} {s t : State} {x : Word} (h : popX r s = some (x, t)) : t = s.setRs { s.rs with task := t.rs.task } := by
  obtain ⟨-, ⟨-, -, rfl⟩ | ⟨q, k, rest, -, -, -, rfl⟩⟩ := popX_cases h
  · exact t.setRs_self.symm
  · simp only [State.setTask, State.setRs_rs]

theorem popX_onlyRes {r : Reg} {s t : State} {x : Word} (h : popX r s = some (x, t)) : OnlyRes s t := by
  rw [popX_eq h]
  rfl

theorem popV_onlyRes {r : Reg} {s t : State} {x : VWord} (h : popV r s = some (x, t)) : OnlyRes s t := by
  obtain ⟨-, -, rfl⟩ | ⟨q, k, rest, -, -, -, rfl⟩ := popV_cases h <;> rfl

/-- A local access that passes its checks changes SPFLAG and the granule records of the residency alone (R28, R124). -/
theorem accessed_eq (write : Bool) (ins : List Nat) (outs : List Int) (s : State) :
    ∃ f g, recordLocal write ins (commitFlag write false 0 outs s) = s.setRs { s.rs with spflag := f, granules := g } := by
  refine ⟨spflagAfter s.rs.spflag write false 0 outs, ?_⟩
  unfold recordLocal commitFlag
  rw [State.setRs_rs, State.setRs_setRs]
  split
  · exact ⟨_, rfl⟩
  · exact ⟨s.rs.granules, rfl⟩

theorem appendEntries_onlyRes (es : List BufEntry) (s : State) : OnlyRes s (appendEntries es s) := by
  unfold appendEntries
  split <;> rfl

theorem sealBatch_onlyRes (r : ResIx) (s : State) : OnlyRes s (sealBatch r s) := by
  unfold sealBatch
  dsimp only
  split <;> rfl

end Sys2Proof.Machine

namespace Sys2Proof.Spec

open Sys2Proof Sys2Proof.Machine

section
variable {xs vs : Reg → Prop} {ms os : Fin 8 → Prop} {fl qm : Prop} {s t u : State}

theorem StreamFrame.of_sameStreams (h : SameStreams s t) : StreamFrame xs vs ms os fl qm s t := by
  have e := h.st
  exact ⟨fun _ _ => by rw [e], fun _ _ => by rw [e], fun _ _ => by rw [e], fun _ _ => by rw [e], fun _ => by rw [e], by simp [e], by simp [e],
    by simp [e, h.cur], fun _ _ => by rw [h.streams]⟩

theorem StreamFrame.trans (h : StreamFrame xs vs ms os fl qm s t) (g : StreamFrame xs vs ms os fl qm t u) : StreamFrame xs vs ms os fl qm s u := by
  obtain ⟨a1, a2, a3, a4, a5, a6, a7, a8, a9, a10⟩ := g.exceptions
  obtain ⟨b1, b2, b3, b4, b5, b6, b7, b8, b9, b10⟩ := h.exceptions
  obtain ⟨c1, c2, c3, c4, c5⟩ := g.identity
  obtain ⟨d1, d2, d3, d4, d5⟩ := h.identity
  exact
    { scalars := fun r hr => (g.scalars r hr).trans (h.scalars r hr)
      vectors := fun r hr => (g.vectors r hr).trans (h.vectors r hr)
      masks := fun k hk => (g.masks k hk).trans (h.masks k hk)
      extensions := fun k hk => (g.extensions k hk).trans (h.extensions k hk)
      flags := fun hf => (g.flags hf).trans (h.flags hf)
      modes := ⟨g.modes.1.trans h.modes.1, fun hq => (g.modes.2 hq).trans (h.modes.2 hq)⟩
      exceptions := ⟨a1.trans b1, a2.trans b2, a3.trans b3, a4.trans b4, a5.trans b5, a6.trans b6, a7.trans b7, a8.trans b8, a9.trans b9, a10.trans b10⟩
      identity := ⟨c1.trans d1, c2.trans d2, c3.trans d3, c4.trans d4, c5.trans d5⟩
      others := fun j hj => (g.others j (by rw [d1]; exact hj)).trans (h.others j hj) }

/-- A stream that differs from the current one in its named registers, its program counter, loop stack and marks takes its place. -/
theorem StreamFrame.setSt (x : Stream) (hx : ∀ r : Reg, ¬ xs r → x.getX r = s.st.getX r) (hv : ∀ r : Reg, ¬ vs r → x.v[regIx r] = s.st.v[regIx r])
    (h : { x with x := s.st.x, v := s.st.v, pc := s.st.pc, loops := s.st.loops, wait := s.st.wait, stalled := s.st.stalled } = s.st) :
    StreamFrame xs vs ms os fl qm s (s.setSt x) := by
  have hf {α : Type} (f : Stream → α) := congrArg f h
  have e := s.setSt_st x
  exact
    { scalars := by rw [e]; exact hx
      vectors := by rw [e]; exact hv
      masks := fun k _ => by rw [e]; exact hf (·.m[k])
      extensions := fun k _ => by rw [e]; exact hf (·.ox[k])
      flags := fun _ => by rw [e]; exact hf (·.fflags)
      modes := by rw [e]; exact ⟨hf (·.fmode), fun _ => hf (·.qm)⟩
      exceptions := by
        rw [e]
        exact ⟨hf (·.tlevel), hf (·.tvec), hf (·.tsave), hf (·.tsavelen), hf (·.traps), hf (·.xbank), hf (·.loopBank), hf (·.due), hf (·.entered),
          hf (·.area)⟩
      identity := by rw [e]; exact ⟨rfl, hf (·.active), hf (·.res), hf (·.kind), hf (·.tileBad)⟩
      others := fun j hj => vset_get_ne _ _ _ _ (Ne.symm hj) }

/-- The marks that a pick and the end of an instruction leave are outside the frame. -/
theorem StreamFrame.marked (pc : Word) (ls : List Loop) (w : Nat) (b : Bool) (s : State) :
    StreamFrame xs vs ms os fl qm s (s.setSt { s.st with pc := pc, loops := ls, wait := w, stalled := b }) :=
  .setSt _ (fun _ _ => rfl) (fun _ _ => rfl) rfl

theorem StreamFrame.writeX {a : Reg} (ha : xs a) (v : Word) (s : State) : StreamFrame xs vs ms os fl qm s (writeX a v s) := by
  obtain ⟨-, e⟩ | ⟨q, -, ⟨-, e⟩ | ⟨k, -, e⟩⟩ := writeX_cases a v s
  · rw [e]
    refine .setSt _ (fun r hr => Stream.getX_putX_ne _ _ _ _ fun h => hr (h ▸ ha)) (fun r _ => by rw [Stream.putX_v]) ?_
    unfold Stream.putX
    split <;> rfl
  · rw [e]
    exact .of_sameStreams (.rfl s)
  · rw [e]
    exact .of_sameStreams ⟨rfl, rfl⟩

theorem StreamFrame.writeV {a : Reg} (ha : vs a) (v : VWord) (s : State) : StreamFrame xs vs ms os fl qm s (writeV a v s) := by
  obtain ⟨-, e⟩ | ⟨q, -, ⟨-, e⟩ | ⟨k, -, e⟩⟩ := writeV_cases a v s
  · rw [e]
    refine .setSt _ (fun _ _ => rfl) (fun r hr => vset_get_ne _ _ _ _ fun h => hr ?_) rfl
    have e : a = r := BitVec.eq_of_toNat_eq (congrArg Fin.val h)
    exact e ▸ ha
  · rw [e]
    exact .of_sameStreams (.rfl s)
  · rw [e]
    exact .of_sameStreams ⟨rfl, rfl⟩

end

/-! ## An instruction that completes keeps a frame -/

/-- A claim about a state that speaks of nothing in its streams and residencies. -/
def Outer (R : State → Prop) : Prop := ∀ t x y, R t → R { t with streams := x, res := y }

theorem Outer.onlyRes {R : State → Prop} (hR : Outer R) {s t : State} (h : OnlyRes s t) (hs : R s) : R t := by
  rw [h]
  exact hR s s.streams t.res hs

/-- An instruction of four bytes can issue at s: it does not straddle a loop's end, and no slice work of its stream or residency is in progress. R is
a claim about the machine beyond streams and residencies that holds at s. -/
structure Ready (R : State → Prop) (s : State) : Prop where
  fits : fits 4 s
  idle : s.sliceBusy = false
  quiet : s.workOf s.ri = false
  outer : Outer R
  here : R s

/-- Everything an instruction that completes does to the streams is the named registers and where the stream goes on, and R holds; an answer that enters
a trap or ends the activation is not spoken of. -/
def KeepsFrame (xs vs : Reg → Prop) (R : State → Prop) (s : State) (o : Res) : Prop :=
  ∀ u, o = .next u → u.st.tlevel = s.st.tlevel → u.st.active = true → StreamFrame xs vs noIx noIx False False s u ∧ R u

/-- A state that an instruction of s has come to: the named registers may have been written, the stream still stands at the instruction, and R holds. -/
structure Reached (xs vs : Reg → Prop) (R : State → Prop) (s t : State) : Prop where
  frame : StreamFrame xs vs noIx noIx False False s t
  pc : t.st.pc = s.st.pc
  loops : t.st.loops = s.st.loops
  rest : R t

section
variable {xs vs : Reg → Prop} {R : State → Prop} {s t : State}

theorem Ready.start (hr : Ready R s) : Reached xs vs R s s := ⟨.of_sameStreams (.rfl s), rfl, rfl, hr.here⟩

theorem Reached.step (h : Reached xs vs R s t) {u : State} (g : SameStreams t u) (hu : R u) : Reached xs vs R s u :=
  ⟨h.frame.trans (.of_sameStreams g), by rw [g.st, h.pc], by rw [g.st, h.loops], hu⟩

theorem Reached.onlyRes (h : Reached xs vs R s t) (hr : Ready R s) {u : State} (g : OnlyRes t u) : Reached xs vs R s u :=
  h.step g.sameStreams (hr.outer.onlyRes g h.rest)

theorem Ready.writeX (hr : Ready R s) (a : Reg) (v : Word) (ht : R t) : R (writeX a v t) := by
  obtain ⟨-, e⟩ | ⟨q, -, ⟨-, e⟩ | ⟨k, -, e⟩⟩ := writeX_cases a v t <;> rw [e]
  · exact hr.outer t _ t.res ht
  · exact ht
  · exact hr.outer.onlyRes (t := t.setTask _) rfl ht

theorem Ready.writeV (hr : Ready R s) (a : Reg) (v : VWord) (ht : R t) : R (writeV a v t) := by
  obtain ⟨-, e⟩ | ⟨q, -, ⟨-, e⟩ | ⟨k, -, e⟩⟩ := writeV_cases a v t <;> rw [e]
  · exact hr.outer t _ t.res ht
  · exact ht
  · exact hr.outer.onlyRes (t := t.setTask _) rfl ht

theorem Reached.writeX (h : Reached xs vs R s t) (hr : Ready R s) {a : Reg} (ha : xs a) (v : Word) : Reached xs vs R s (writeX a v t) := by
  obtain ⟨hpc, hls, -⟩ := writeX_frame a v t
  exact ⟨h.frame.trans (.writeX ha v t), hpc.trans h.pc, hls.trans h.loops, hr.writeX a v h.rest⟩

theorem Reached.writeV (h : Reached xs vs R s t) (hr : Ready R s) {a : Reg} (ha : vs a) (v : VWord) : Reached xs vs R s (writeV a v t) := by
  obtain ⟨hpc, hls, -⟩ := writeV_frame a v t
  exact ⟨h.frame.trans (.writeV ha v t), hpc.trans h.pc, hls.trans h.loops, hr.writeV a v h.rest⟩

theorem stall_keepsFrame (hr : Ready R s) : KeepsFrame xs vs R s (stall s) := by
  intro u e _ _
  cases e
  exact ⟨.marked s.st.pc s.st.loops s.st.wait true s, hr.outer s _ s.res hr.here⟩

/-- A trap never completes: it goes up a level or ends the activation (R162, R303). -/
theorem trap_keepsFrame (hr : Ready R s) (cause : Nat) (info : Word) {s' : State} (hs : SameStreams s s') (hc : s'.core = s.core) :
    KeepsFrame xs vs R s (trap cause info s') := by
  have hst : s'.st = s.st := hs.st
  have hbusy : s'.sliceBusy = false := by
    unfold State.sliceBusy
    rw [hs.cur, hc]
    exact hr.idle
  have hwork : s'.workOf s'.ri = false := by
    unfold State.workOf State.ri
    rw [hst, hc]
    exact hr.quiet
  refine trap_cases (fun h => ?_) fun _ u e hl ha => ?_
  · rw [hbusy] at h
    cases h
  · cases e
    rcases takeTrap_leaves hwork cause s'.st.pc info with h | h
    · exact absurd (hl.trans (congrArg _ hst.symm)) h
    · rw [h] at ha
      cases ha

theorem trapHere_keepsFrame (hr : Ready R s) (cause : Nat) (info : Word) : KeepsFrame xs vs R s (trap cause info s) :=
  trap_keepsFrame hr cause info (.rfl s) rfl

theorem retire_keepsFrame (hr : Ready R s) {i : Instr} (hi : i.len = 4) (h : Reached xs vs R s t) : KeepsFrame xs vs R s (retire i t) := by
  refine retire_cases (fun ls pc _ u e _ _ => ?_) fun ls pc e => ?_
  · cases e
    exact ⟨h.frame.trans (.marked pc ls 0 false t), hr.outer t _ t.res h.rest⟩
  · have hf : (fallThrough t.st.pc i.len t.st.loops).2.2 = false := by
      rw [h.pc, h.loops, hi]
      exact hr.fits
    rw [e] at hf
    cases hf

theorem finishX_keepsFrame (hr : Ready R s) {i : Instr} (hi : i.len = 4) {a : Reg} (h : Reached (· = a) vs R s t) (v : Word) :
    KeepsFrame (· = a) vs R s (finishX i a v t) :=
  retire_keepsFrame hr hi (h.writeX hr rfl v)

theorem withX_keepsFrame (hr : Ready R s) (h : Reached xs vs R s t) {r : Reg} {k : Word → State → Res}
    (hk : ∀ x u, popX r t = some (x, u) → Reached xs vs R s u → KeepsFrame xs vs R s (k x u)) : KeepsFrame xs vs R s (withX r s t k) :=
  withX_cases (stall_keepsFrame hr) fun x u e => hk x u e (h.onlyRes hr (popX_onlyRes e))

theorem withV_keepsFrame (hr : Ready R s) (h : Reached xs vs R s t) {r : Reg} {k : VWord → State → Res}
    (hk : ∀ x u, Reached xs vs R s u → KeepsFrame xs vs R s (k x u)) : KeepsFrame xs vs R s (withV r s t k) :=
  withV_cases (stall_keepsFrame hr) fun x u e => hk x u (h.onlyRes hr (popV_onlyRes e))

theorem withRoomX_keepsFrame (hr : Ready R s) {a : Reg} {k : Res} (hk : KeepsFrame xs vs R s k) : KeepsFrame xs vs R s (withRoomX a s t k) :=
  withRoomX_cases (stall_keepsFrame hr) fun _ => hk

theorem withRoomV_keepsFrame (hr : Ready R s) {a : Reg} {k : Res} (hk : KeepsFrame xs vs R s k) : KeepsFrame xs vs R s (withRoomV a s t k) :=
  withRoomV_cases (stall_keepsFrame hr) fun _ => hk

theorem ite_keepsFrame {c : Prop} [Decidable c] {a b : Res} (ha : KeepsFrame xs vs R s a) (hb : ¬ c → KeepsFrame xs vs R s b) :
    KeepsFrame xs vs R s (if c then a else b) := by
  split
  · exact ha
  · exact hb ‹_›

/-- A local access that goes on has changed SPFLAG and the granule records at most. -/
theorem localAccess_keepsFrame (hr : Ready R s) (h : Reached xs vs R s t) {read write : Bool} {offs : List Int} {k : State → Res}
    (hk : ∀ f g, Reached xs vs R s (t.setRs { t.rs with spflag := f, granules := g }) →
      KeepsFrame xs vs R s (k (t.setRs { t.rs with spflag := f, granules := g }))) :
    KeepsFrame xs vs R s (localAccess s read write offs t k) := by
  refine localAccess_cases (stall_keepsFrame hr) (fun info _ => trapHere_keepsFrame hr _ info)
    (fun _ info _ => trap_keepsFrame hr _ info ⟨rfl, rfl⟩ rfl) (fun _ _ _ => trapHere_keepsFrame hr _ _) fun _ => ?_
  obtain ⟨f, g, e⟩ := accessed_eq write (inOffsets t.rs.spsize.toNat offs) (outOffsets t.rs.spsize.toNat offs) t
  rw [e]
  exact hk f g (h.onlyRes hr rfl)

theorem sendChecks_keepsFrame (hr : Ready R s) {need sinks : Nat} {arrived : Bool} {k : Res} (hk : KeepsFrame xs vs R s k) :
    KeepsFrame xs vs R s (sendChecks need sinks arrived s t k) :=
  ite_keepsFrame (trapHere_keepsFrame hr _ _) fun _ => ite_keepsFrame (trapHere_keepsFrame hr _ _) fun _ =>
    ite_keepsFrame (trapHere_keepsFrame hr _ _) fun _ => hk

theorem sendOne_keepsFrame (hr : Ready R s) {i : Instr} (hi : i.len = 4) (h : Reached xs vs R s t) (m : Msg) :
    KeepsFrame xs vs R s (sendOne i m s t) :=
  sendChecks_keepsFrame hr (retire_keepsFrame hr hi (h.onlyRes hr (appendEntries_onlyRes _ t)))

end
end Sys2Proof.Spec
end

section
/-! SUPPORT. What the multiplier's operations leave alone (R149 to R166), and the frames of its instructions. -/

namespace Sys2Proof.Spec

open Sys2Proof Sys2Proof.Machine

/-- The scratchpad, the vaults, the network and the stack manager are those of the other state. -/
structure SameBeyondMultiplier (s t : State) : Prop where
  spad : t.core.spad = s.core.spad
  vault : t.vault = s.vault
  net : t.net = s.net
  mgr : t.mgr = s.mgr

/-- An operation of the multiplier has touched its configuration, buffers, accumulators, slice work and claims, and the residencies, alone. -/
structure MultiplierOnly (s t : State) : Prop extends SameStreams s t, SameBeyondMultiplier s t

theorem MultiplierOnly.rfl (s : State) : MultiplierOnly s s := ⟨.rfl s, Eq.refl _, Eq.refl _, Eq.refl _, Eq.refl _⟩

theorem MultiplierOnly.setCore {s : State} {c : Core} (h : c.spad = s.core.spad) : MultiplierOnly s { s with core := c } :=
  ⟨⟨Eq.refl _, Eq.refl _⟩, h, Eq.refl _, Eq.refl _, Eq.refl _⟩

theorem MultiplierOnly.trans {s t u : State} (h : MultiplierOnly s t) (g : MultiplierOnly t u) : MultiplierOnly s u :=
  ⟨h.toSameStreams.trans g.toSameStreams, g.spad.trans h.spad, g.vault.trans h.vault, g.net.trans h.net, g.mgr.trans h.mgr⟩

theorem MultiplierOnly.foldl {α : Type} {f : State → α → State} (hf : ∀ s a, MultiplierOnly s (f s a)) (l : List α) (s : State) :
    MultiplierOnly s (l.foldl f s) := by
  induction l generalizing s with
  | nil => exact .rfl s
  | cons a l ih => exact (hf s a).trans (ih _)

/-- Whether the state that a multiplier operation answers, if it is one, has a property. -/
def okIn (P : State → Prop) : Wide → Prop
  | .ok t => P t
  | .trap _ _ _ => True
  | .wait => True

theorem okIn.mono {P Q : State → Prop} {w : Wide} (h : okIn P w) (hPQ : ∀ t, P t → Q t) : okIn Q w := by
  cases w with
  | ok t => exact hPQ t h
  | trap _ _ _ => trivial
  | wait => trivial

theorem multCheck_okIn {P : State → Prop} {r : ResIx} {accs : List Nat} {s : State} {k : Wide} (hk : okIn P k) : okIn P (multCheck r accs s k) := by
  unfold multCheck
  split
  · trivial
  · split
    · trivial
    · split
      · trivial
      · exact hk

/-- A check that traps or waits adds nothing to what an operation can answer. -/
theorem ite_okIn {P : State → Prop} {c : Prop} [Decidable c] {a b : Wide} (ha : okIn P a) (hb : okIn P b) : okIn P (if c then a else b) := by
  split
  · exact ha
  · exact hb

theorem guardOp_only (r : ResIx) (x : Word) (s : State) : okIn (MultiplierOnly s) (guardOp r x s) :=
  multCheck_okIn (MultiplierOnly.setCore rfl)

theorem joinOp_only (r : ResIx) (j : BitVec 1) (s : State) : okIn (MultiplierOnly s) (joinOp r j s) :=
  multCheck_okIn (ite_okIn trivial ⟨⟨rfl, rfl⟩, rfl, rfl, rfl, rfl⟩)

theorem quadJoin_only (s : State) : MultiplierOnly s (quadJoin s) := by
  unfold quadJoin
  dsimp only
  split
  · exact ⟨⟨rfl, rfl⟩, rfl, rfl, rfl, rfl⟩
  · exact .rfl s

theorem qjoinOp_only (r : ResIx) (s : State) : okIn (MultiplierOnly s) (qjoinOp r s) := by
  refine multCheck_okIn ?_
  dsimp only
  split
  · trivial
  · exact MultiplierOnly.trans (t := { s with quad := { s.quad with claim := true } }) ⟨⟨rfl, rfl⟩, rfl, rfl, rfl, rfl⟩ (quadJoin_only _)

theorem quadLeave_only (s : State) : MultiplierOnly s (quadLeave s) := by
  unfold quadLeave quadSplit
  split <;> exact ⟨⟨rfl, rfl⟩, rfl, rfl, rfl, rfl⟩

theorem qleaveOp_only (r : ResIx) (s : State) : okIn (MultiplierOnly s) (qleaveOp r s) := multCheck_okIn (quadLeave_only s)

theorem setAcc_only (n : Nat) (a : Acc) (s : State) : MultiplierOnly s (setAcc n a s) := .setCore rfl

theorem acczOp_only (r : ResIx) (n k : Nat) (s : State) : okIn (MultiplierOnly s) (acczOp r n k s) :=
  multCheck_okIn (MultiplierOnly.foldl (fun s n => setAcc_only n Acc.zero s) _ s)

theorem putEntry_only (e : Nat) (v : Int) (ds : List Packed) (q : Nat) (s : State) : MultiplierOnly s (putEntry e v ds q s) :=
  .setCore rfl

theorem putRow_only (r : Nat) (v : Int) (ds : List Packed) (q : Nat) (s : State) : MultiplierOnly s (putRow r v ds q s) :=
  .setCore rfl

/-- A tile of entries or rows, or the one group of PACKK, reaches a buffer and nothing else. -/
theorem packStore_only (f : PackFn) (p : PackDesc) (v : List (List Packed)) (s : State) : MultiplierOnly s (packStore f p v s) := by
  unfold packStore
  dsimp only
  split
  · split
    · exact putRow_only _ _ _ _ s
    · exact putEntry_only _ _ _ _ s
  · split
    · exact .foldl (fun s e => putRow_only _ _ _ _ s) _ s
    · exact MultiplierOnly.trans (.foldl (fun s e => putEntry_only _ _ _ _ s) _ s) ⟨⟨rfl, rfl⟩, rfl, rfl, rfl, rfl⟩

/-- The checks of a pack's source go on with the residency's SPFLAG and granule records changed at most. -/
theorem packSource_only {r : ResIx} {p : PackDesc} {s : State} {k : State → Wide} (hk : ∀ t, MultiplierOnly s t → okIn (MultiplierOnly s) (k t)) :
    okIn (MultiplierOnly s) (packSource r p s k) := by
  unfold packSource
  dsimp only
  split
  · split
    · trivial
    · split
      · trivial
      · split
        · trivial
        · exact hk _ ⟨⟨rfl, rfl⟩, rfl, rfl, rfl, rfl⟩
  · split
    · trivial
    · exact hk s (.rfl s)

theorem packOp_only (r : ResIx) (f : PackFn) (d : BitVec 128) (s : State) : okIn (MultiplierOnly s) (packOp r f d s) := by
  refine multCheck_okIn ?_
  dsimp only
  split
  · trivial
  · exact ite_okIn trivial (ite_okIn trivial (ite_okIn trivial (ite_okIn trivial (packSource_only fun t ht => ht.trans (packStore_only _ _ _ t)))))

theorem addWork_only (w : Nat) (slot : Option SlotIx) (r : Option ResIx) (s : State) : MultiplierOnly s (addWork w slot r s) :=
  .setCore rfl

theorem poisonAcc_only (n inc : Nat) (s : State) : MultiplierOnly s (poisonAcc n inc s) := setAcc_only _ _ s

theorem accumulate_only (joined : Bool) (n e r : Nat) (s : State) : MultiplierOnly s (accumulate joined n e r s) := setAcc_only _ _ s

theorem mulOp_only (r : ResIx) (joined : Bool) (n : Nat) (x : Word) (slot : Option SlotIx) (s : State) :
    okIn (MultiplierOnly s) (mulOp r joined n x slot s) := by
  refine multCheck_okIn ?_
  dsimp only
  refine ite_okIn trivial (ite_okIn trivial (ite_okIn trivial (ite_okIn trivial (ite_okIn trivial (ite_okIn trivial (ite_okIn trivial
    (ite_okIn trivial ?_)))))))
  split
  · trivial
  · split
    · trivial
    · refine MultiplierOnly.trans ?_ (addWork_only _ _ _ _)
      split
      · exact poisonAcc_only n _ s
      · exact accumulate_only joined n _ _ s

/-- The k-steps of an MMAR before the first uncorrectable operand, and then the poison of its accumulators, touch accumulators alone. -/
theorem mmarOp_only (r : ResIx) (d : BitVec 128) (slot : Option SlotIx) (s : State) : okIn (MultiplierOnly s) (mmarOp r d slot s) := by
  refine multCheck_okIn ?_
  dsimp only
  split
  · trivial
  · refine ite_okIn trivial (ite_okIn trivial ?_)
    split
    · trivial
    · split
      · trivial
      · split
        · trivial
        · have steps (good : List Nat) (ns : List (Nat × Nat)) (f g : Nat → Nat × Nat → Nat) :
              MultiplierOnly s (good.foldl (fun s i => ns.foldl (fun s e => accumulate false e.1 (f i e) (g i e) s) s) s) :=
            .foldl (fun t _ => .foldl (fun u _ => accumulate_only _ _ _ _ u) _ t) _ s
          refine MultiplierOnly.trans ?_ (addWork_only _ _ _ _)
          split
          · exact (steps _ _ _ _).trans (.foldl (fun t n => poisonAcc_only n _ t) _ _)
          · exact steps _ _ _ _

theorem accWriteOp_only (r : ResIx) (n : Nat) (x v : Word) (s : State) : okIn (MultiplierOnly s) (accWriteOp r n x v s) :=
  multCheck_okIn (ite_okIn (setAcc_only _ _ s) (ite_okIn (setAcc_only _ _ s) (.rfl s)))

theorem accMoveOp_only (r : ResIx) (d n : Nat) (s : State) : okIn (MultiplierOnly s) (accMoveOp r d n s) :=
  multCheck_okIn (ite_okIn trivial (setAcc_only _ _ s))

/-! ## The frames of the multiplier's instructions -/

theorem sameBeyondMultiplier_outer (s : State) : Outer (SameBeyondMultiplier s) := fun _ _ _ h => ⟨h.spad, h.vault, h.net, h.mgr⟩

section
variable {xs vs : Reg → Prop} {R : State → Prop} {s t : State}

theorem finishWide_keepsFrame (hr : Ready R s) {i : Instr} (hi : i.len = 4) {w : Wide} (hw : okIn (Reached xs vs R s) w) :
    KeepsFrame xs vs R s (finishWide i s w) := by
  unfold finishWide
  refine ite_keepsFrame (stall_keepsFrame hr) fun _ => ?_
  cases w with
  | ok t => exact retire_keepsFrame hr hi hw
  | trap cause info t => exact trap_keepsFrame hr _ _ ⟨rfl, rfl⟩ rfl
  | wait => exact stall_keepsFrame hr

theorem finishOnly_keepsFrame (hr : Ready (SameBeyondMultiplier s) s) {i : Instr} (hi : i.len = 4)
    (h : Reached xs vs (SameBeyondMultiplier s) s t) {w : Wide} (hw : okIn (MultiplierOnly t) w) :
    KeepsFrame xs vs (SameBeyondMultiplier s) s (finishWide i s w) :=
  finishWide_keepsFrame hr hi <| hw.mono fun _ g => h.step g.toSameStreams
    ⟨g.spad.trans h.rest.spad, g.vault.trans h.rest.vault, g.net.trans h.rest.net, g.mgr.trans h.rest.mgr⟩

theorem streamPack_keepsFrame (hr : Ready (SameBeyondMultiplier s) s) {i : Instr} (hi : i.len = 4) (f : PackFn) (b : Reg) :
    KeepsFrame xs vs (SameBeyondMultiplier s) s (streamPack i f b s) :=
  ite_keepsFrame (stall_keepsFrame hr) fun _ => finishOnly_keepsFrame hr hi hr.start (packOp_only _ _ _ s)

/-- The instructions of the multiplier that write no register. -/
def writesMultiplier (i : Instr) : Prop :=
  (∃ b, i = .guard b) ∨ (∃ j, i = .join j) ∨ i = .qjoin ∨ i = .qleave ∨ (∃ n k, i = .accz n k) ∨ (∃ b f, packRule i = some (b, f))
    ∨ (∃ j n b, multiplyRule i = some (j, n, b)) ∨ (∃ b, i = .mmar b) ∨ (∃ a n b, i = .accwr a n b) ∨ (∃ d n, i = .accmv d n)

theorem packRule_keepsFrame (hr : Ready (SameBeyondMultiplier s) s) {i : Instr} {b : Reg} {f : PackFn} (h : packRule i = some (b, f)) :
    KeepsFrame xs vs (SameBeyondMultiplier s) s (exec i s) := by
  unfold packRule at h
  split at h
  case h_6 => cases h
  all_goals exact streamPack_keepsFrame hr rfl _ _

theorem multiplyRule_keepsFrame (hr : Ready (SameBeyondMultiplier s) s) {i : Instr} {j : Bool} {n : AccNum} {b : Reg}
    (h : multiplyRule i = some (j, n, b)) : KeepsFrame xs vs (SameBeyondMultiplier s) s (exec i s) := by
  unfold multiplyRule at h
  split at h
  case h_3 => cases h
  all_goals exact withX_keepsFrame hr hr.start fun x u _ hu => finishOnly_keepsFrame hr rfl hu (mulOp_only _ _ _ _ _ u)

theorem writesMultiplier_keepsFrame (hr : Ready (SameBeyondMultiplier s) s) {i : Instr} (h : writesMultiplier i) :
    KeepsFrame xs vs (SameBeyondMultiplier s) s (exec i s) := by
  obtain ⟨b, rfl⟩ | ⟨j, rfl⟩ | rfl | rfl | ⟨n, k, rfl⟩ | ⟨b, f, hp⟩ | ⟨j, n, b, hm⟩ | ⟨b, rfl⟩ | ⟨a, n, b, rfl⟩ | ⟨d, n, rfl⟩ := h
  · exact withX_keepsFrame hr hr.start fun x u _ hu => finishOnly_keepsFrame hr rfl hu (guardOp_only _ x u)
  · exact finishOnly_keepsFrame hr rfl hr.start (joinOp_only _ j s)
  · exact finishOnly_keepsFrame hr rfl hr.start (qjoinOp_only _ s)
  · exact finishOnly_keepsFrame hr rfl hr.start (qleaveOp_only _ s)
  · exact finishOnly_keepsFrame hr rfl hr.start (acczOp_only _ _ _ s)
  · exact packRule_keepsFrame hr hp
  · exact multiplyRule_keepsFrame hr hm
  · exact finishOnly_keepsFrame hr rfl hr.start (mmarOp_only _ _ _ s)
  · exact withX_keepsFrame hr hr.start fun x t _ ht => withX_keepsFrame hr ht fun v u _ hu =>
      finishOnly_keepsFrame hr rfl hu (accWriteOp_only _ _ x v u)
  · exact finishOnly_keepsFrame hr rfl hr.start (accMoveOp_only _ _ _ s)

/-- The core and the rest of the device are those of the other state. -/
def SameMachine (s t : State) : Prop := t.core = s.core ∧ DeviceFrame s t

theorem sameMachine_outer (s : State) : Outer (SameMachine s) := fun _ _ _ h => ⟨h.1, h.2.device, h.2.own⟩

theorem sameMachine_refl (s : State) : SameMachine s s := ⟨rfl, ⟨rfl, rfl, rfl, rfl, rfl, rfl, rfl, rfl⟩, rfl, rfl, rfl⟩

theorem extractCheck_okIn {P : State → Prop} {r : ResIx} {n : Nat} {k : Acc → Wide} (hk : ∀ a, okIn P (k a)) : okIn P (extractCheck r n t k) :=
  multCheck_okIn (ite_okIn trivial (ite_okIn trivial (hk _)))

/-- An extract writes the scalar destination where x is 1, and else the vector destination, alone (R164). -/
theorem streamExtract_keepsFrame (hr : Ready R s) {i : Instr} (hi : i.len = 4) (fp : Bool) (d : Reg) (n : AccNum) (b : Reg) (x : BitVec 1) :
    KeepsFrame (fun r => x = 1 ∧ r = d) (fun r => x = 0 ∧ r = d) R s (streamExtract i fp d n b x s) := by
  refine withX_keepsFrame hr hr.start fun v u _ hu => ?_
  split
  · exact withRoomX_keepsFrame hr (finishWide_keepsFrame hr hi (extractCheck_okIn fun _ => hu.writeX hr ⟨‹_›, rfl⟩ _))
  · have hx : x = 0 := by bv_omega
    exact withRoomV_keepsFrame hr (finishWide_keepsFrame hr hi (extractCheck_okIn fun _ => hu.writeV hr ⟨hx, rfl⟩ _))

theorem execAccrd_keepsFrame (hr : Ready R s) (a : Reg) (n : AccNum) (b : Reg) : KeepsFrame (· = a) vs R s (execAccrd a n b s) :=
  withX_keepsFrame hr hr.start fun _ _ _ hu => withRoomX_keepsFrame hr
    (finishWide_keepsFrame hr rfl (multCheck_okIn (ite_okIn trivial (hu.writeX hr rfl _))))

end

theorem multiplierFrames : MultiplierFrames := by
  refine ⟨fun i s u hi hf _ hb hw hu hl ha => ?_, fun d n b x s u hf _ hb hw hu hl ha => ?_, fun a n b s u hf _ hb hw hu hl ha => ?_⟩
  · have hr : Ready (SameBeyondMultiplier s) s := ⟨hf, hb, hw, sameBeyondMultiplier_outer s, (MultiplierOnly.rfl s).toSameBeyondMultiplier⟩
    obtain ⟨hstreams, hrest⟩ := writesMultiplier_keepsFrame (xs := noReg) (vs := noReg) hr hi u hu hl ha
    exact ⟨hstreams, fun p => by rw [hrest.spad], hrest.vault, hrest.net, hrest.mgr⟩
  · have hr : Ready (SameMachine s) s := ⟨hf, hb, hw, sameMachine_outer s, sameMachine_refl s⟩
    rcases hu with hu | hu
    · exact streamExtract_keepsFrame hr rfl false d n b x u hu hl ha
    · exact streamExtract_keepsFrame hr rfl true d n b x u hu hl ha
  · have hr : Ready (SameMachine s) s := ⟨hf, hb, hw, sameMachine_outer s, sameMachine_refl s⟩
    exact execAccrd_keepsFrame hr a n b u hu hl ha

end Sys2Proof.Spec
end

section
/-! SUPPORT. What the engines', the message and the system instructions write of the scratchpad, and their frames (R28, R191, R212, R213, R215). -/

namespace Sys2Proof.Spec

open Sys2Proof Sys2Proof.Machine

/-! ## The scratchpad outside what an instruction writes -/

/-- The streams, the current slot and the scratchpad are those of the other state. -/
structure SameScratch (s t : State) : Prop extends SameStreams s t where
  spad : t.core.spad = s.core.spad

theorem SameScratch.rfl (s : State) : SameScratch s s := ⟨.rfl s, Eq.refl _⟩

theorem SameScratch.trans {s t u : State} (h : SameScratch s t) (g : SameScratch t u) : SameScratch s u :=
  ⟨h.toSameStreams.trans g.toSameStreams, g.spad.trans h.spad⟩

theorem addLock_sameScratch (sp : Space) (ranges : List (Nat × Nat)) (wr : Bool) (owner : Option (ResIx × Nat)) (s : State) :
    SameScratch s (addLock sp ranges wr owner s) := by
  unfold addLock
  split <;> exact ⟨⟨rfl, rfl⟩, rfl⟩

theorem markFence_sameScratch (s : State) : SameScratch s (markFence s) := ⟨⟨rfl, rfl⟩, rfl⟩

/-- The scratchpad of t is in canonical form, and holds what that of s holds at every address of a set. -/
def SpadKept (D : Nat → Prop) (s t : State) : Prop :=
  Memory.wf t.core.spad = true ∧ ∀ p, D p → readByte t.core.spad p = readByte s.core.spad p

theorem spadKept_outer (D : Nat → Prop) (s : State) : Outer (SpadKept D s) := fun _ _ _ h => h

theorem SpadKept.rfl {s : State} (h : s.memoriesWf) (D : Nat → Prop) : SpadKept D s s := ⟨h.1, fun _ _ => Eq.refl _⟩

theorem SpadKept.of_spad {D : Nat → Prop} {s t u : State} (h : SpadKept D s t) (e : u.core.spad = t.core.spad) : SpadKept D s u := by
  unfold SpadKept
  rw [e]
  exact h

/-- A state that an instruction at s has come to by writing the scratchpad outside a set of addresses; the residency's reservation, the tail of its
overflow chain and its last copy record stand where they stood. -/
structure Writing (D : Nat → Prop) (s t : State) : Prop where
  same : SameStreams s t
  kept : SpadKept D s t
  base : t.res[s.ri].spbase = s.rs.spbase
  tail : t.res[s.ri].ovTail = s.rs.ovTail
  last : lastRecord t.res[s.ri] = lastRecord s.rs

/-- The addresses of a set lie outside the n bytes at an offset of the residency's reservation. -/
def Avoids (D : Nat → Prop) (s : State) (off n : Nat) : Prop :=
  ∀ p, D p → p < s.rs.spbase.toNat + off ∨ s.rs.spbase.toNat + off + n ≤ p

theorem Avoids.part {D : Nat → Prop} {s : State} {off n : Nat} (h : Avoids D s off n) (k m : Nat) (hk : k + m ≤ n) : Avoids D s (off + k) m :=
  fun p hp => by have := h p hp; omega

section
variable {D : Nat → Prop} {s t : State}

theorem Writing.start (h : Memory.wf s.core.spad = true) : Writing D s s := ⟨.rfl s, ⟨h, fun _ _ => rfl⟩, rfl, rfl, rfl⟩

theorem Writing.ri (h : Writing D s t) : t.ri = s.ri := congrArg Stream.res h.same.st

theorem Writing.rs_eq (h : Writing D s t) : t.rs = t.res[s.ri] := by
  unfold State.rs
  simp only [h.ri]

theorem Writing.setCore (h : Writing D s t) {c : Core} (hc : c.spad = t.core.spad) : Writing D s { t with core := c } :=
  ⟨⟨h.same.streams, h.same.cur⟩, h.kept.of_spad hc, h.base, h.tail, h.last⟩

theorem Writing.setRes (h : Writing D s t) {x : Residency} (hb : x.spbase = t.res[s.ri].spbase) (ht : x.ovTail = t.res[s.ri].ovTail)
    (hl : lastRecord x = lastRecord t.res[s.ri]) : Writing D s (t.setRes s.ri x) := by
  have e : (t.setRes s.ri x).res[s.ri] = x := vset_get _ _ _
  exact ⟨h.same.setRes _ _, h.kept.of_spad rfl, by rw [e, hb, h.base], by rw [e, ht, h.tail], by rw [e, hl, h.last]⟩

theorem Writing.setRs (h : Writing D s t) {x : Residency} (hb : x.spbase = t.rs.spbase) (ht : x.ovTail = t.rs.ovTail)
    (hl : lastRecord x = lastRecord t.rs) : Writing D s (t.setRs x) := by
  rw [h.rs_eq] at hb ht hl
  rw [show t.setRs x = t.setRes s.ri x by rw [← h.ri]; rfl]
  exact h.setRes hb ht hl

theorem Writing.writeLE (h : Writing D s t) (off n v : Nat) (hD : Avoids D s off n) :
    Writing D s { t with core := { t.core with spad := writeLE t.core.spad (t.res[s.ri].spbase.toNat + off) n v } } := by
  obtain ⟨hwf, hk⟩ := h.kept
  refine ⟨⟨h.same.streams, h.same.cur⟩, ⟨Memory.wf_writeLE _ _ _ _ hwf, fun p hp => ?_⟩, h.base, h.tail, h.last⟩
  have hp' := hD p hp
  rw [← h.base] at hp'
  exact (readByte_writeLE_ne _ _ _ _ _ hwf hp').trans (hk p hp)

theorem Writing.setRecWord (h : Writing D s t) (off v : Nat) (hD : Avoids D s off 8) : Writing D s (setRecWord t s.ri off v) :=
  h.writeLE off 8 v hD

theorem Writing.setRecBit (h : Writing D s t) (off bit : Nat) (b : Bool) (hD : Avoids D s off 8) : Writing D s (setRecBit t s.ri off bit b) :=
  h.setRecWord off _ hD

/-- A record that becomes ready is written within its 64 bytes, and the LINK of the chain's tail is written (R212, R213). -/
theorem enqueueReady_writes (h : Writing D s t) {off : Nat} (hD : Avoids D s off 64) (hT : ∀ o, s.rs.ovTail = some o → Avoids D s (o + 8) 8) :
    SameStreams s (enqueueReady s.ri off t) ∧ SpadKept D s (enqueueReady s.ri off t) := by
  unfold enqueueReady
  dsimp only
  split
  · exact ⟨⟨h.same.streams, h.same.cur⟩, h.kept.of_spad rfl⟩
  · have hlast : Writing D s (match t.res[s.ri].ovTail with
        | none => t
        | some o => setRecWord t s.ri (o + 8) (recWord t s.ri (o + 8) / 2 ^ 16 * 2 ^ 16 + off)) := by
      rw [h.tail]
      cases ho : s.rs.ovTail with
      | none => exact h
      | some o => exact h.setRecWord _ _ (hT o ho)
    have hw (v : Nat) := hlast.setRecWord (off + 8) v (hD.part 8 8 (by decide))
    exact ⟨(hw _).same.setRes _ _, (hw _).kept.of_spad rfl⟩

theorem readyRecord_writes (h : Writing D s t) {off : Nat} (hD : Avoids D s off 64) (hT : ∀ o, s.rs.ovTail = some o → Avoids D s (o + 8) 8) :
    SameStreams s (readyRecord s.ri off t) ∧ SpadKept D s (readyRecord s.ri off t) := by
  have h0 : Avoids D s off 8 := hD.part 0 8 (by decide)
  unfold readyRecord
  dsimp only
  have h1 : Writing D s (t.setRes s.ri { t.res[s.ri] with armed := t.res[s.ri].armed.filter (· ≠ off) }) := h.setRes rfl rfl rfl
  split
  · exact ⟨(h1.setRecBit off 50 true h0).same, (h1.setRecBit off 50 true h0).kept⟩
  · exact enqueueReady_writes (h1.setRecBit off 49 true h0) hD hT

theorem decRecord_writes (hs : Memory.wf s.core.spad = true) {off : Nat} (k : Nat) (hD : Avoids D s off 64)
    (hT : ∀ o, s.rs.ovTail = some o → Avoids D s (o + 8) 8) :
    SameStreams s (decRecord s.ri off k s) ∧ SpadKept D s (decRecord s.ri off k s) := by
  have h0 : Avoids D s off 8 := hD.part 0 8 (by decide)
  have start : Writing D s s := .start hs
  unfold decRecord
  dsimp only
  split
  · exact ⟨start.same, start.kept⟩
  · have h1 := start.setRecWord off (recWord s s.ri off - bits (recWord s s.ri off) 0 32 + (bits (recWord s s.ri off) 0 32 - k)) h0
    split
    · exact readyRecord_writes (h1.setRecBit off 48 false h0) hD hT
    · exact ⟨h1.same, h1.kept⟩

theorem tarmEffect_writes (hs : Memory.wf s.core.spad = true) {off : Nat} (hD : Avoids D s off 64)
    (hT : ∀ o, s.rs.ovTail = some o → Avoids D s (o + 8) 8) : SameStreams s (tarmEffect off s) ∧ SpadKept D s (tarmEffect off s) := by
  have h1 (b : Bool) : Writing D s (setRecBit s s.ri off 48 b) := (Writing.start hs).setRecBit off 48 b (hD.part 0 8 (by decide))
  unfold tarmEffect
  dsimp only
  split
  · exact readyRecord_writes (h1 false) hD hT
  · exact ⟨(h1 true).same.setRes _ _, (h1 true).kept.of_spad rfl⟩

theorem tnewEffect_writes (hs : Memory.wf s.core.spad = true) (d : BitVec 128) {off : Nat} (hD : Avoids D s off 64) :
    SameStreams s (tnewEffect d off s) ∧ SpadKept D s (tnewEffect d off s) := by
  unfold tnewEffect
  extract_lets r w s1 s2 s3
  have h1 : Writing D s s1 := (Writing.start hs).setRecWord off _ (hD.part 0 8 (by decide))
  have h2 : Writing D s s2 := by
    simp only [s2]
    split
    · exact h1.setRecWord _ _ (hD.part 8 8 (by decide))
    · exact h1
  clear_value s2
  have h3 : Writing D s s3 := (((h2.setRecWord _ _ (hD.part 16 8 (by decide))).setRecWord _ _ (hD.part 24 8 (by decide))).setRecWord _ _
    (hD.part 32 8 (by decide))).setRecWord _ _ (hD.part 40 8 (by decide))
  exact ⟨h3.same.setRes _ _, h3.kept.of_spad rfl⟩

/-! ## The record that CPY writes (R191) -/

theorem Writing.spadPut (h : Writing D s t) (off : Nat) (b : Byte) (hD : Avoids D s off 1) : Writing D s (spadPut t (off : Int) b) := by
  unfold Machine.spadPut
  split
  · have hw := h.writeLE off 1 b.toNat hD
    rw [← h.rs_eq] at hw
    simpa [Machine.writeLE] using hw
  · exact h

theorem Writing.spadWr (n : Nat) : ∀ (off v : Nat) {t : State}, Writing D s t → Avoids D s off n → Writing D s (spadWr t (off : Int) n v) := by
  induction n with
  | zero => intro off v t h _; exact h
  | succ n ih => intro off v t h hD; exact ih (off + 1) _ (h.spadPut off _ (hD.part 0 1 (by omega))) (hD.part 1 n (by omega))

theorem Writing.mendSpad (h : Writing D s t) (offs : List Int) : Writing D s (mendSpad t offs) := by
  unfold Machine.mendSpad
  split
  · exact h
  · exact h.setCore rfl

theorem Writing.addLock (h : Writing D s t) (sp : Space) (ranges : List (Nat × Nat)) (wr : Bool) (owner : Option (ResIx × Nat)) :
    Writing D s (addLock sp ranges wr owner t) := by
  unfold Machine.addLock
  split
  · exact h
  · exact h.setCore rfl

theorem Writing.commitFlag (h : Writing D s t) (write q : Bool) (cr : Nat) (outs : List Int) : Writing D s (commitFlag write q cr outs t) :=
  h.setRs rfl rfl rfl

/-- CPY writes the 64 bytes of its record, and the LINK of the record before it (R191). -/
theorem cpyEffect_writes (hs : Memory.wf s.core.spad = true) {at_ : Nat} (rec : BitVec 512) (hD : Avoids D s at_ 64)
    (hL : ∀ o, lastRecord s.rs = some o → Avoids D s o 8) : SameStreams s (cpyEffect at_ rec s) ∧ SpadKept D s (cpyEffect at_ rec s) := by
  unfold cpyEffect
  extract_lets r s1 s2 s3 s4 s5 s6 s7 s8 s9
  have h1 : Writing D s s1 := Writing.spadWr 64 at_ rec.toNat (.start hs) hD
  clear_value s1
  have h3 : Writing D s s3 := (h1.mendSpad (byteRange at_ 64)).setCore rfl
  have h4 : Writing D s s4 := h3.addLock _ _ _ _
  have h5 : Writing D s s5 := by
    simp only [s5]
    split
    · exact h4.addLock _ _ _ _
    · exact h4
  have h6 : Writing D s s6 := by
    simp only [s6]
    split
    · exact h5.addLock _ _ _ _
    · exact h5
  have h7 : Writing D s s7 := by
    simp only [s7]
    split
    · exact h6.commitFlag _ _ _ _
    · exact h6
  have h8 : Writing D s s8 := by
    simp only [s8]
    split
    · exact h7.commitFlag _ _ _ _
    · exact h7
  have h9 : Writing D s s9 := by
    simp only [s9]
    split
    · exact h8
    · rename_i p e
      exact h8.setRecWord p _ (hL p (by rw [← h8.last, ← h8.rs_eq, e]))
  exact ⟨h9.same.setRes _ _, h9.kept.of_spad rfl⟩

end
end Sys2Proof.Spec
end

section
/-! The frames of the engines', the message and the system instructions, and with them the frames of the multiplier's (O36). -/

namespace Sys2Proof.Spec

open Sys2Proof Sys2Proof.Machine

section
variable {xs vs : Reg → Prop} {D : Nat → Prop} {s t u : State}

theorem Reached.scratch (h : Reached xs vs (SpadKept D s) s t) (g : SameScratch t u) : Reached xs vs (SpadKept D s) s u :=
  h.step g.toSameStreams (h.rest.of_spad g.spad)

theorem Reached.wrote (h : Reached xs vs (SpadKept D s) s t) (g : SameStreams t u) (hu : SpadKept D t u) : Reached xs vs (SpadKept D s) s u :=
  h.step g ⟨hu.1, fun p hp => (hu.2 p hp).trans (h.rest.2 p hp)⟩

/-! ## Engines and copy records (R173 to R192) -/

/-- A tile instruction that finds room takes a lock, an engine entry and a tag, and writes the tag to rd alone. -/
theorem issueTile_keepsFrame (hr : Ready (SpadKept D s) s) {i : Instr} (hi : i.len = 4) (k : EngKind) (a b : Reg) :
    KeepsFrame (· = a) vs (SpadKept D s) s (issueTile i k a b s) := by
  refine withRoomX_keepsFrame hr (ite_keepsFrame (stall_keepsFrame hr) fun _ => ite_keepsFrame (stall_keepsFrame hr) fun _ => ?_)
  split
  · exact stall_keepsFrame hr
  · extract_lets d bad tag s1 s2 s3 s4 _ s5
    have h2 : SameScratch s s2 := SameScratch.trans (t := s1) ⟨⟨rfl, rfl⟩, rfl⟩ (addLock_sameScratch _ _ _ _ s1)
    have h3 : SameScratch s s3 := h2.trans ⟨⟨rfl, rfl⟩, rfl⟩
    clear_value s3
    have h4 : SameScratch s3 s4 := by
      simp only [s4]
      split
      · exact ⟨⟨rfl, rfl⟩, rfl⟩
      · exact .rfl s3
    clear_value s4
    have h5 : SameScratch s s5 := (h3.trans h4).trans ⟨⟨rfl, rfl⟩, rfl⟩
    exact finishX_keepsFrame hr hi (hr.start.scratch h5) _

theorem tileRule_keepsFrame (hr : Ready (SpadKept D s) s) {i : Instr} {a b : Reg} {k : EngKind} (h : tileRule i = some (a, b, k)) :
    KeepsFrame (· = a) vs (SpadKept D s) s (exec i s) := by
  unfold tileRule at h
  split at h
  case h_4 => cases h
  all_goals
    cases h
    exact issueTile_keepsFrame hr rfl _ _ _

theorem rowRule_keepsFrame (hr : Ready (SpadKept D s) s) {i : Instr} {b c : Reg} {k : EngKind} (h : rowRule i = some (b, c, k)) :
    KeepsFrame xs vs (SpadKept D s) s (exec i s) := by
  have row (j : Instr) (hj : j.len = 4) (k : EngKind) (b c : Reg) : KeepsFrame xs vs (SpadKept D s) s (issueRow j k b c s) :=
    withX_keepsFrame hr hr.start fun _ _ _ h1 => withX_keepsFrame hr h1 fun _ _ _ h2 =>
      ite_keepsFrame (stall_keepsFrame hr) fun _ => ite_keepsFrame (stall_keepsFrame hr) fun _ =>
        retire_keepsFrame hr hj (h2.scratch ⟨⟨rfl, rfl⟩, rfl⟩)
  unfold rowRule at h
  split at h
  case h_3 => cases h
  all_goals exact row _ rfl _ _ _

theorem execRowq_keepsFrame (hr : Ready (SpadKept D s) s) (a b : Reg) : KeepsFrame (· = a) vs (SpadKept D s) s (execRowq a b s) :=
  withX_keepsFrame hr hr.start fun _ _ _ h => withRoomX_keepsFrame hr (finishX_keepsFrame hr rfl h _)

theorem execTwait_keepsFrame (hr : Ready (SpadKept D s) s) (a b : Reg) : KeepsFrame (· = a) vs (SpadKept D s) s (execTwait a b s) := by
  refine withX_keepsFrame hr hr.start fun _ _ _ h => withRoomX_keepsFrame hr ?_
  split
  · exact stall_keepsFrame hr
  · exact finishX_keepsFrame hr rfl h _

theorem execTchk_keepsFrame (hr : Ready (SpadKept D s) s) (a b : Reg) : KeepsFrame (· = a) vs (SpadKept D s) s (execTchk a b s) :=
  withX_keepsFrame hr hr.start fun _ _ _ h => withRoomX_keepsFrame hr (finishX_keepsFrame hr rfl h _)

theorem execCpyq_keepsFrame (hr : Ready (SpadKept D s) s) (a : Reg) : KeepsFrame (· = a) vs (SpadKept D s) s (execCpyq a s) :=
  withRoomX_keepsFrame hr (finishX_keepsFrame hr rfl hr.start _)

theorem execCpygo_keepsFrame (hr : Ready (SpadKept D s) s) : KeepsFrame xs vs (SpadKept D s) s (execCpygo s) :=
  ite_keepsFrame (stall_keepsFrame hr) fun _ => retire_keepsFrame hr rfl (hr.start.onlyRes hr rfl)

theorem execCpy_keepsFrame (hr : Ready (SpadKept D s) s) (a : Reg) (hD : Avoids D s (crFld (oxRecord s) 16 16) 64)
    (hL : ∀ o, lastRecord s.rs = some o → Avoids D s o 8) : KeepsFrame (· = a) vs (SpadKept D s) s (execCpy a s) := by
  refine withRoomX_keepsFrame hr (ite_keepsFrame (stall_keepsFrame hr) fun _ => ite_keepsFrame (finishX_keepsFrame hr rfl hr.start _) fun _ =>
    ite_keepsFrame (finishX_keepsFrame hr rfl hr.start _) fun _ => localAccess_keepsFrame hr hr.start fun f g h => ?_)
  have hrs := s.setRs_rs { s.rs with spflag := f, granules := g }
  obtain ⟨h1, h2⟩ := cpyEffect_writes (D := D) (s := s.setRs { s.rs with spflag := f, granules := g }) h.rest.1
    (cpyRecord (s.setRs { s.rs with spflag := f, granules := g }) (oxRecord s)) (by unfold Avoids; rw [hrs]; exact hD)
    (by unfold Avoids; rw [hrs]; exact hL)
  exact finishX_keepsFrame hr rfl (h.wrote h1 h2) _

/-! ## Messages, task records and synchronisation (R200 to R214) -/

/-- The instructions that append one message read their operands and append it. -/
theorem sendRule_keepsFrame (hr : Ready (SpadKept D s) s) {i : Instr} {m : Msg} (h : sendRule i s t m) :
    KeepsFrame xs vs (SpadKept D s) s (exec i s) := by
  obtain ⟨a, b, c, v, r, _, _, _, _, _, rfl, -⟩ | ⟨b, c, _, _, _, rfl, -⟩ | ⟨a, b, r, _, _, _, rfl, -⟩ | ⟨b, c, r, _, _, _, rfl, -⟩
    | ⟨a, b, c, r, _, _, _, _, _, rfl, -⟩ | ⟨y, b, c, _, _, _, rfl, -⟩ := h
  · exact withX_keepsFrame hr hr.start fun _ _ _ h1 => withV_keepsFrame hr h1 fun _ _ h2 => withX_keepsFrame hr h2 fun _ _ _ h3 =>
      sendOne_keepsFrame hr rfl h3 _
  · exact withX_keepsFrame hr hr.start fun _ _ _ h1 => withV_keepsFrame hr h1 fun _ _ h2 => sendOne_keepsFrame hr rfl h2 _
  · exact withX_keepsFrame hr hr.start fun _ _ _ h1 => withX_keepsFrame hr h1 fun _ _ _ h2 => sendOne_keepsFrame hr rfl h2 _
  · exact withX_keepsFrame hr hr.start fun _ _ _ h1 => withX_keepsFrame hr h1 fun _ _ _ h2 => sendOne_keepsFrame hr rfl h2 _
  · exact withX_keepsFrame hr hr.start fun _ _ _ h1 => withX_keepsFrame hr h1 fun _ _ _ h2 => withX_keepsFrame hr h2 fun _ _ _ h3 =>
      sendOne_keepsFrame hr rfl h3 _
  · exact withX_keepsFrame hr hr.start fun _ _ _ h1 => withX_keepsFrame hr h1 fun _ _ _ h2 => sendOne_keepsFrame hr rfl h2 _

theorem execSendl_keepsFrame (hr : Ready (SpadKept D s) s) (a b : Reg) (v : BitVec 2) (r : BitVec 1) :
    KeepsFrame xs vs (SpadKept D s) s (execSendl a b v r s) := by
  refine withX_keepsFrame hr hr.start fun _ _ _ h => ?_
  dsimp only
  split
  · exact trapHere_keepsFrame hr _ _
  · exact sendChecks_keepsFrame hr (localAccess_keepsFrame hr h fun _ _ h2 => retire_keepsFrame hr rfl (h2.onlyRes hr (appendEntries_onlyRes _ _)))

theorem execMsgx_keepsFrame (hr : Ready (SpadKept D s) s) (a b : Reg) (v : BitVec 2) : KeepsFrame (· = a) vs (SpadKept D s) s (execMsgx a b v s) :=
  withX_keepsFrame hr hr.start fun _ _ _ h => withRoomX_keepsFrame hr (finishX_keepsFrame hr rfl h _)

theorem execFence_keepsFrame (hr : Ready (SpadKept D s) s) (y : BitVec 3) : KeepsFrame xs vs (SpadKept D s) s (execFence y s) := by
  have h1 : SameScratch s (if y = 0 then s else markFence s) := by
    split
    · exact .rfl s
    · exact markFence_sameScratch s
  refine retire_keepsFrame hr rfl ?_
  split
  · exact (hr.start.scratch h1).onlyRes hr (appendEntries_onlyRes _ _)
  · exact hr.start.scratch h1

theorem execBar_keepsFrame (hr : Ready (SpadKept D s) s) (y : BitVec 3) (b : Reg) : KeepsFrame xs vs (SpadKept D s) s (execBar y b s) :=
  withX_keepsFrame hr hr.start fun _ _ _ h => sendChecks_keepsFrame hr
    (retire_keepsFrame hr rfl (h.onlyRes hr ((appendEntries_onlyRes _ _).setRes _ _)))

/-- A record operation writes what its effect writes of the record that its operand names, and nothing where that lies out of range (R28, R213). -/
theorem recordOp_keepsFrame (hr : Ready (SpadKept D s) s) {i : Instr} (hi : i.len = 4) {x : Word} (h : Reached xs vs (SpadKept D s) s t)
    {f : Nat → State → State} (hf : ∀ u, Memory.wf u.core.spad = true → u.rs.spbase = t.rs.spbase → u.rs.ovTail = t.rs.ovTail →
      SameStreams u (f (64 * (x.toNat / 64)) u) ∧ SpadKept D u (f (64 * (x.toNat / 64)) u)) :
    KeepsFrame xs vs (SpadKept D s) s (recordOp i x s t f) := by
  unfold recordOp
  rw [Nat.mul_comm]
  refine localAccess_keepsFrame hr h fun a g h2 => retire_keepsFrame hr hi ?_
  split
  · exact h2
  · obtain ⟨h3, h4⟩ := hf _ h2.rest.1 (by rw [State.setRs_rs]) (by rw [State.setRs_rs])
    exact h2.wrote h3 h4

/-- Reading an operand leaves the residency's reservation and its overflow chain where they stood. -/
theorem popX_places {r : Reg} {x : Word} (h : popX r s = some (x, t)) : t.rs.spbase = s.rs.spbase ∧ t.rs.ovTail = s.rs.ovTail := by
  rw [popX_eq h, State.setRs_rs]
  exact ⟨rfl, rfl⟩

theorem execTnew_keepsFrame (hr : Ready (SpadKept D s) s) {b : Reg} (c : Reg) {x : Word} (hx : popX b s = some (x, t))
    (hD : Avoids D s (64 * (x.toNat / 64)) 64) : KeepsFrame xs vs (SpadKept D s) s (execTnew b c s) := by
  refine withX_keepsFrame hr hr.start fun x' t' e h => ?_
  obtain ⟨rfl, rfl⟩ : x = x' ∧ t = t' := by simpa [hx] using e
  split
  · exact trapHere_keepsFrame hr _ _
  · refine recordOp_keepsFrame hr rfl h fun u hu hb _ => tnewEffect_writes hu _ ?_
    unfold Avoids
    rw [hb, (popX_places hx).1]
    exact hD

/-- The frame of TDEC and TARM: f writes the record that xo names, and the LINK of the overflow chain's tail (R212, R213). -/
theorem counterOp_keepsFrame (hr : Ready (SpadKept D s) s) {i : Instr} (hi : i.len = 4) {b : Reg} {x : Word} (hx : popX b s = some (x, t))
    (hD : Avoids D s (64 * (x.toNat / 64)) 64) (hT : ∀ o, s.rs.ovTail = some o → Avoids D s (o + 8) 8) {f : Nat → State → State}
    (hf : ∀ (u : State) (off : Nat), Memory.wf u.core.spad = true → Avoids D u off 64 → (∀ o, u.rs.ovTail = some o → Avoids D u (o + 8) 8) →
      SameStreams u (f off u) ∧ SpadKept D u (f off u)) :
    KeepsFrame xs vs (SpadKept D s) s (withX b s s fun x s1 => recordOp i x s s1 f) := by
  refine withX_keepsFrame hr hr.start fun x' t' e h => ?_
  obtain ⟨rfl, rfl⟩ : x = x' ∧ t = t' := by simpa [hx] using e
  obtain ⟨hb', ht'⟩ := popX_places hx
  refine recordOp_keepsFrame hr hi h fun u hu hb ht => hf u _ hu ?_ fun o ho => ?_
  · unfold Avoids
    rw [hb, hb']
    exact hD
  · unfold Avoids
    rw [hb, hb']
    exact hT o (by rw [← ht', ← ht, ho])

/-! ## System registers and the journal (R215, R226 to R228) -/

theorem execSrd_keepsFrame (hr : Ready (SpadKept D s) s) (a : Reg) (n : BitVec 12) : KeepsFrame (· = a) vs (SpadKept D s) s (execSrd a n s) := by
  unfold execSrd sysAccess
  split
  · exact trapHere_keepsFrame hr _ _
  · exact withRoomX_keepsFrame hr (ite_keepsFrame (stall_keepsFrame hr) fun _ => finishX_keepsFrame hr rfl hr.start _)

theorem execJrec_keepsFrame (hr : Ready (SpadKept D s) s) (a b : Reg) : KeepsFrame (· = a) vs (SpadKept D s) s (execJrec a b s) := by
  unfold execJrec
  dsimp only
  split
  · exact trapHere_keepsFrame hr _ _
  · exact withRoomX_keepsFrame hr (ite_keepsFrame (finishX_keepsFrame hr rfl hr.start _) fun _ => ite_keepsFrame (stall_keepsFrame hr) fun _ =>
      localAccess_keepsFrame hr hr.start fun _ _ h =>
        finishX_keepsFrame hr rfl (h.onlyRes hr ((OnlyRes.rfl _).setRes _ _)) _)

theorem execJseal_keepsFrame (hr : Ready (SpadKept D s) s) (a : Reg) : KeepsFrame (· = a) vs (SpadKept D s) s (execJseal a s) :=
  withRoomX_keepsFrame hr (finishX_keepsFrame hr rfl (hr.start.onlyRes hr (sealBatch_onlyRes _ s)) _)

theorem execEmit_keepsFrame (hr : Ready (SpadKept D s) s) (b c : Reg) : KeepsFrame xs vs (SpadKept D s) s (execEmit b c s) := by
  refine withV_keepsFrame hr hr.start fun _ _ h => ?_
  dsimp only
  split
  · exact trapHere_keepsFrame hr _ _
  · exact sendChecks_keepsFrame hr (retire_keepsFrame hr rfl (h.onlyRes hr (appendEntries_onlyRes _ _)))

end

theorem systemFrames : SystemFrames := by
  intro i s u hf _ hb hw hm hu hl ha
  have hr (D : Nat → Prop) : Ready (SpadKept D s) s := ⟨hf, hb, hw, spadKept_outer D s, .rfl hm D⟩
  -- What a frame over a set of addresses says of u.
  have claims {xs vs : Reg → Prop} {D : Nat → Prop} (h : KeepsFrame xs vs (SpadKept D s) s (exec i s)) :
      StreamFrame xs vs noIx noIx False False s u ∧ ∀ p, D p → readByte u.core.spad p = readByte s.core.spad p :=
    (h u hu hl ha).imp_right And.right
  -- An instruction that writes no memory keeps every address.
  have all {xs vs : Reg → Prop} (h : KeepsFrame xs vs (SpadKept (fun _ => True) s) s (exec i s)) :
      StreamFrame xs vs noIx noIx False False s u ∧ ∀ p, readByte u.core.spad p = readByte s.core.spad p :=
    (claims h).imp_right fun g p => g p trivial
  have r := hr fun _ => True
  refine ⟨fun a h => ?_, fun h => ?_, fun b c x t h hx => ?_, fun b x t h hx => ?_, fun a h => ?_⟩
  · obtain ⟨b, k, ht⟩ | ⟨b, rfl⟩ | ⟨b, rfl⟩ | ⟨b, rfl⟩ | rfl | ⟨b, v, rfl⟩ | ⟨n, rfl⟩ | ⟨b, rfl⟩ | rfl := h
    · exact all (tileRule_keepsFrame r ht)
    · exact all (execRowq_keepsFrame r a b)
    · exact all (execTwait_keepsFrame r a b)
    · exact all (execTchk_keepsFrame r a b)
    · exact all (execCpyq_keepsFrame r a)
    · exact all (execMsgx_keepsFrame r a b v)
    · exact all (execSrd_keepsFrame r a n)
    · exact all (execJrec_keepsFrame r a b)
    · exact all (execJseal_keepsFrame r a)
  · obtain ⟨b, c, k, hk⟩ | rfl | ⟨t, m, hs⟩ | ⟨a, b, v, r', rfl⟩ | ⟨y, rfl⟩ | ⟨y, b, rfl⟩ | ⟨b, c, rfl⟩ := h
    · exact all (rowRule_keepsFrame r hk)
    · exact all (execCpygo_keepsFrame r)
    · exact all (sendRule_keepsFrame r hs)
    · exact all (execSendl_keepsFrame r a b v r')
    · exact all (execFence_keepsFrame r y)
    · exact all (execBar_keepsFrame r y b)
    · exact all (execEmit_keepsFrame r b c)
  · subst h
    exact claims (execTnew_keepsFrame (hr _) c hx fun _ hp => hp)
  · have hk : KeepsFrame noReg noReg (SpadKept (fun p => (p < s.rs.spbase.toNat + 64 * (x.toNat / 64) ∨ s.rs.spbase.toNat + 64 * (x.toNat / 64) + 64 ≤ p)
        ∧ ∀ o, s.rs.ovTail = some o → p < s.rs.spbase.toNat + o + 8 ∨ s.rs.spbase.toNat + o + 16 ≤ p) s) s (exec i s) := by
      obtain ⟨k, rfl⟩ | rfl := h
      · exact counterOp_keepsFrame (hr _) rfl hx (fun _ hp => hp.1) (fun o ho _ hp => hp.2 o ho)
          fun _ _ hm' hD hT => decRecord_writes hm' _ hD hT
      · exact counterOp_keepsFrame (hr _) rfl hx (fun _ hp => hp.1) (fun o ho _ hp => hp.2 o ho)
          fun _ _ hm' hD hT => tarmEffect_writes hm' hD hT
    exact (claims hk).imp_right fun g p h1 h2 => g p ⟨h1, h2⟩
  · subst h
    have hk := execCpy_keepsFrame (vs := noReg) (hr fun p => (p < s.rs.spbase.toNat + (oxRecord s).toNat / 2 ^ 16 % 2 ^ 16
        ∨ s.rs.spbase.toNat + (oxRecord s).toNat / 2 ^ 16 % 2 ^ 16 + 64 ≤ p)
      ∧ ∀ o, lastRecord s.rs = some o → p < s.rs.spbase.toNat + o ∨ s.rs.spbase.toNat + o + 8 ≤ p) a (fun _ hp => hp.1) fun o ho _ hp => hp.2 o ho
    exact (claims hk).imp_right fun g p h1 h2 => g p ⟨h1, h2⟩

/-- Settles O36: no answer of these instructions that completes comes from a trap, and each operation of theirs writes what the frame excepts. -/
theorem engineFrames : Obligations.EngineFrames := ⟨multiplierFrames, systemFrames⟩

end Sys2Proof.Spec
end

section
/-! The machine right after reset (O57): what each of its tables lists, and the values that the spec gives at power-up. -/

namespace Sys2Proof.Spec

open Sys2Proof Sys2Proof.Machine

theorem reset_stream (i : SlotIx) : State.reset.streams[i] = Stream.idle := Vector.getElem_replicate _

theorem reset_residency (r : ResIx) : State.reset.res[r] = Residency.free := Vector.getElem_replicate _

theorem reset_bank (b : BankIx) : State.reset.vault.banks[b] = Bank.closed := Vector.getElem_replicate _

theorem reset_region (k : Fin 30) : State.reset.power.regions[k] = SlewRegion.reset := Vector.getElem_replicate _

theorem reset_mate (k : Fin 4) : State.reset.quad.mates[k] = Mate.empty := Vector.getElem_replicate _

/-- No quad is listed at power-up, and one that is not listed is GATED (R331). -/
theorem reset_qpwr (q : Nat) : qpwr State.reset q = Qpwr.gated q := rfl

theorem reset_levelsLegal : State.reset.levelsLegal := fun i => by
  rw [reset_stream i]
  decide

theorem resetValues : ResetValues :=
  ⟨rfl, fun q => congrArg Qpwr.state (reset_qpwr q), fun b => by rw [reset_bank b]; exact ⟨rfl, rfl⟩, rfl, rfl, fun k => by rw [reset_region k]; rfl, rfl,
    fun i => by rw [reset_stream i]; rfl, fun r => by rw [reset_residency r]; rfl, reset_levelsLegal⟩

theorem resetMemories : ResetMemories := by
  refine ⟨⟨Memory.wf_nil, Memory.wf_nil, Memory.wf_nil, Memory.wf_nil, Memory.wf_nil⟩, ⟨fun k m hm => ?_, ?_, ?_⟩, rfl, rfl⟩
  · rw [reset_mate k] at hm
    exact absurd hm List.not_mem_nil
  · exact fun _ h => absurd h List.not_mem_nil
  · exact fun _ h => absurd h List.not_mem_nil

/-- Settles O57: every entry of a table is its power-up value, and every byte memory lists nothing. -/
theorem resetState : Obligations.ResetState := ⟨resetValues, resetMemories⟩

end Sys2Proof.Spec
end

section
/-! Canonical memories (O58): a state whose byte memories, and copies of them, are all in canonical form, and that the shared operations of the core
keep it so. A step of the device answers at most one state; IfSome, Keeps and Lands carry the claim through options and through the answers of
instructions, for which they also say that the machine goes on (O60). -/

namespace Sys2Proof.Machine

/-! ## The invariant -/

/-- Every byte memory of the machine, and every copy of one, is in canonical form. -/
def State.Canonical (s : State) : Prop := s.memoriesWf ∧ s.copiesWf

/-- Every reservation that a list of quad-mates holds is in canonical form. -/
def matesWf (ms : Vector Mate 4) : Prop := ∀ k : Fin 4, ∀ m ∈ ms[k].residencies, Memory.wf m.mem = true

/-- What an option holds, if anything, has a property. -/
def IfSome {α : Type} (P : α → Prop) (o : Option α) : Prop := ∀ x, o = some x → P x

/-- The second state is canonical where the first is. -/
def Keeps (s t : State) : Prop := s.Canonical → t.Canonical

/-- An answer goes on, with a state that is canonical where the state s is. -/
def Lands (s : State) (o : Res) : Prop := ∃ t, o = .next t ∧ Keeps s t

section
variable {s s0 t : State}

/-- Which components of a state the invariant speaks of. -/
theorem State.Canonical.of_same (h : s.Canonical) (hc : t.core.spad = s.core.spad ∧ t.core.xbuf = s.core.xbuf ∧ t.core.ybuf = s.core.ybuf)
    (hq : t.quad.istore = s.quad.istore ∧ t.quad.mates = s.quad.mates) (hv : t.vault.mem = s.vault.mem)
    (hr : t.resil.shingles = s.resil.shingles ∧ t.resil.copying = s.resil.copying) : t.Canonical := by
  obtain ⟨h1, h2, h3, h4⟩ := h
  obtain ⟨hs, hx, hy⟩ := hc
  refine ⟨State.memoriesWf_of h1 hs hx hy hq.1 hv, ?_⟩
  unfold State.copiesWf
  rw [hq.2, hr.1, hr.2]
  exact ⟨h2, h3, h4⟩

/-- A core whose memories are canonical takes the place of another. -/
theorem State.Canonical.setCore (h : s.Canonical) {c : Core} (hs : Memory.wf c.spad = true) (hx : Memory.wf c.xbuf = true)
    (hy : Memory.wf c.ybuf = true) : ({ s with core := c } : State).Canonical := ⟨⟨hs, hx, hy, h.1.2.2.2⟩, h.2⟩

/-- A core with a new scratchpad that is canonical takes the place of another. -/
theorem State.Canonical.setSpad (h : s.Canonical) {c : Core} (hs : Memory.wf c.spad = true) (hx : c.xbuf = s.core.xbuf) (hy : c.ybuf = s.core.ybuf) :
    ({ s with core := c } : State).Canonical := h.setCore hs (hx ▸ h.1.2.1) (hy ▸ h.1.2.2.1)

/-- A quad whose memories are canonical takes the place of another. -/
theorem State.Canonical.setQuad (h : s.Canonical) {q : Quad} (hi : Memory.wf q.istore = true) (hm : matesWf q.mates) :
    ({ s with quad := q } : State).Canonical := ⟨⟨h.1.1, h.1.2.1, h.1.2.2.1, hi, h.1.2.2.2.2⟩, hm, h.2.2⟩

/-- New quad-mates whose reservations are canonical. -/
theorem State.Canonical.setMates (h : s.Canonical) {ms : Vector Mate 4} (hm : matesWf ms) :
    ({ s with quad := { s.quad with mates := ms } } : State).Canonical := h.setQuad h.1.2.2.2.1 hm

/-- Vaults whose memory is canonical take the place of others. -/
theorem State.Canonical.setVault (h : s.Canonical) {v : Vault} (hv : Memory.wf v.mem = true) : ({ s with vault := v } : State).Canonical :=
  ⟨⟨h.1.1, h.1.2.1, h.1.2.2.1, h.1.2.2.2.1, hv⟩, h.2⟩

theorem State.Canonical.spad (h : s.Canonical) : Memory.wf s.core.spad = true := h.1.1

theorem State.Canonical.mates (h : s.Canonical) : matesWf s.quad.mates := h.2.1

theorem State.Canonical.vaultMem (h : s.Canonical) : Memory.wf s.vault.mem = true := h.1.2.2.2.2

/-- One quad-mate takes the place of another. -/
theorem matesWf.vset {ms : Vector Mate 4} (h : matesWf ms) (k : Fin 4) {x : Mate} (hx : ∀ m ∈ x.residencies, Memory.wf m.mem = true) :
    matesWf (vset ms k x) := by
  intro j m hm
  by_cases e : k = j
  · subst e
    simp only [Fin.getElem_fin, vset_get] at hm
    exact hx m hm
  · simp only [Fin.getElem_fin, vset_get_ne _ _ _ _ e] at hm
    exact h j m hm

/-- Every quad-mate is changed in the same way. -/
theorem matesWf.map {ms : Vector Mate 4} (h : matesWf ms) {f : Mate → Mate}
    (hf : ∀ x : Mate, (∀ m ∈ x.residencies, Memory.wf m.mem = true) → ∀ m ∈ (f x).residencies, Memory.wf m.mem = true) : matesWf (ms.map f) := by
  intro j m hm
  simp only [Fin.getElem_fin, Vector.getElem_map] at hm
  exact hf _ (h j) m hm

/-! ## Through pairs, choices, folds and options -/

/-- The state of a pair that equals another. -/
theorem State.Canonical.of_pair {α : Type} {p q : α × State} (h : p.2.Canonical) (e : p = q) : q.2.Canonical := e ▸ h

theorem State.Canonical.of_eq {α : Type} {p : α × State} {a : α} (h : p.2.Canonical) (e : p = (a, t)) : t.Canonical := h.of_pair e

theorem ite_canonical {c : Prop} [Decidable c] (h : s.Canonical) (g : t.Canonical) : (if c then s else t).Canonical := by
  split
  · exact h
  · exact g

theorem foldl_canonical {α : Type} {f : State → α → State} {l : List α} (hf : ∀ t a, t.Canonical → (f t a).Canonical) (h : s.Canonical) :
    (l.foldl f s).Canonical := by
  induction l generalizing s with
  | nil => exact h
  | cons a l ih => exact ih (hf _ _ h)

section
variable {α β : Type} {P : α → Prop} {Q : β → Prop} {o p : Option α} {a : α}

theorem none_ifSome : IfSome P none := nofun

theorem some_ifSome (h : P a) : IfSome P (some a) := fun _ e => by
  cases e
  exact h

theorem some_pair {b : β} (h : t.Canonical) : IfSome (fun x : β × State => x.2.Canonical) (some (b, t)) := some_ifSome h

theorem ite_ifSome {c : Prop} [Decidable c] (h : IfSome P o) (g : IfSome P p) : IfSome P (if c then o else p) := by
  split
  · exact h
  · exact g

theorem map_ifSome {f : α → β} (h : IfSome P o) (hf : ∀ x, P x → Q (f x)) : IfSome Q (o.map f) := by
  cases o with
  | none => exact none_ifSome
  | some a => exact some_ifSome (hf a (h a rfl))

theorem bind_ifSome {f : α → Option β} (h : IfSome P o) (hf : ∀ x, P x → IfSome Q (f x)) : IfSome Q (o.bind f) := by
  cases o with
  | none => exact none_ifSome
  | some a => exact hf a (h a rfl)

theorem orElse_ifSome {f : Unit → Option α} (h : IfSome P o) (g : ∀ u, IfSome P (f u)) : IfSome P (o.orElse f) := by
  cases o with
  | none => exact g ()
  | some a => exact h

theorem findSome?_ifSome {l : List β} {f : β → Option α} (h : ∀ b, IfSome P (f b)) : IfSome P (l.findSome? f) := fun x e => by
  obtain ⟨b, -, hb⟩ := List.exists_of_findSome?_eq_some e
  exact h b x hb

end

theorem getD_canonical {o : Option State} (h : IfSome State.Canonical o) (g : s.Canonical) : (o.getD s).Canonical := by
  cases o with
  | none => exact g
  | some a => exact h a rfl

/-! ## Registers, queues and residencies -/

theorem popX_canonical {r : Reg} (h : s.Canonical) : IfSome (fun x => x.2.Canonical) (popX r s) := fun x e => by
  have e1 : OnlyRes s x.2 := popX_onlyRes (x := x.1) e
  dsimp only
  rw [e1]
  exact h

theorem popV_canonical {r : Reg} (h : s.Canonical) : IfSome (fun x => x.2.Canonical) (popV r s) := fun x e => by
  have e1 : OnlyRes s x.2 := popV_onlyRes (x := x.1) e
  dsimp only
  rw [e1]
  exact h

theorem writeX_canonical {r : Reg} {v : Word} (h : s.Canonical) : (writeX r v s).Canonical := by
  obtain ⟨-, e⟩ | ⟨q, -, ⟨-, e⟩ | ⟨k, -, e⟩⟩ := writeX_cases r v s <;> (rw [e]; exact h)

theorem writeV_canonical {r : Reg} {v : VWord} (h : s.Canonical) : (writeV r v s).Canonical := by
  obtain ⟨-, e⟩ | ⟨q, -, ⟨-, e⟩ | ⟨k, -, e⟩⟩ := writeV_cases r v s <;> (rw [e]; exact h)

theorem State.setSt_canonical {t' : Stream} (h : s.Canonical) : (State.setSt s t').Canonical := h

theorem State.setRes_canonical {r : ResIx} {x : Residency} (h : s.Canonical) : (State.setRes s r x).Canonical := h

theorem State.setRs_canonical {x : Residency} (h : s.Canonical) : (State.setRs s x).Canonical := h

theorem State.bump_canonical (h : s.Canonical) : (State.bump s).Canonical := h

theorem State.nextFree_canonical (h : s.Canonical) : (State.nextFree s).Canonical := h

theorem State.setTask_canonical {t' : Task} (h : s.Canonical) : (State.setTask s t').Canonical := h

theorem writeM_canonical {i : Fin 8} {v : BitVec 16} (h : s.Canonical) : (writeM i v s).Canonical := h

theorem writeOx_canonical {r : Reg} {v : BitVec 128} (h : s.Canonical) : (writeOx r v s).Canonical := h

theorem orFlags_canonical {f : BitVec 5} (h : s.Canonical) : (orFlags f s).Canonical := h

/-! ## Vector accesses under way (R132, R142) -/

theorem vecPiece_canonical {q : VecRun} {p : List VecCell} (h : s.Canonical) : (vecPiece q p s).2.Canonical := by
  unfold vecPiece
  extract_lets base put
  split
  · exact h
  · exact h.setSpad (foldl_writeByte_wf _ _ p h.spad) rfl rfl

theorem vecEnd_canonical {q : VecRun} (h : s.Canonical) : (vecEnd q s).Canonical := by
  unfold vecEnd
  cases q.dest with
  | none => exact h
  | some d => exact writeV_canonical (s := orFlags _ _) h

theorem vecStep_canonical (h : s.Canonical) : (vecStep s).Canonical := by
  unfold vecStep
  split
  · exact h
  · split
    · exact vecEnd_canonical h
    · exact ite_canonical (vecEnd_canonical (vecPiece_canonical h)) (vecPiece_canonical h)

theorem finishVec_canonical (h : s.Canonical) : (finishVec s).Canonical := by
  unfold finishVec
  split
  · exact h
  · exact foldl_canonical (fun _ _ h1 => vecStep_canonical h1) h

/-! ## Receive queues, sinks and dead letters (R198, R202, R310) -/

theorem setRx_canonical {vn : Nat} {q : List RxEntry} (h : s.Canonical) : ({ s with core := s.core.setRx vn q } : State).Canonical :=
  h.of_same (Core.setRx_memories s.core vn q) ⟨rfl, rfl⟩ rfl ⟨rfl, rfl⟩

theorem freeSinks_canonical {r : ResIx} {n : Nat} (h : s.Canonical) : (freeSinks r n s).Canonical := h

theorem giveSink_canonical {asid : Asid} {gen : BitVec 4} (h : s.Canonical) : (giveSink asid gen s).Canonical := by
  unfold giveSink
  split
  · exact ite_canonical (freeSinks_canonical h) h
  · exact h

theorem landed_canonical {m : Msg} (h : s.Canonical) : (landed m s).Canonical := h

theorem deadLetter_canonical {why : Nat} {m : Msg} (h : s.Canonical) : (deadLetter why m s).Canonical := h

theorem arriveInbound_canonical {m : Msg} (h : s.Canonical) : (arriveInbound m s).Canonical := h

theorem postReply_canonical {m : Msg} (h : s.Canonical) : (postReply m s).Canonical := ite_canonical (arriveInbound_canonical h) h

theorem dropMessage_canonical {why : Nat} {m : Msg} (h : s.Canonical) : (dropMessage why m s).Canonical :=
  ite_canonical (postReply_canonical (deadLetter_canonical h)) (deadLetter_canonical h)

theorem dropDead_canonical {why : Nat} {m : Msg} (h : s.Canonical) : (dropDead why m s).Canonical :=
  ite_canonical (giveSink_canonical (dropMessage_canonical h)) (dropMessage_canonical h)

/-! ## Task records and the ready queue (R39, R212, R213) -/

theorem setRecWord_canonical {r : ResIx} {off v : Nat} (h : s.Canonical) : (setRecWord s r off v).Canonical := ⟨setRecWord_memoriesWf r off v h.1, h.2⟩

theorem setRecBit_canonical {r : ResIx} {off bit : Nat} {b : Bool} (h : s.Canonical) : (setRecBit s r off bit b).Canonical :=
  setRecWord_canonical h

theorem enqueueReady_canonical {r : ResIx} {off : Nat} (h : s.Canonical) : (enqueueReady r off s).Canonical := by
  unfold enqueueReady
  dsimp only
  split
  · exact h
  · refine State.setRes_canonical (setRecWord_canonical ?_)
    split
    · exact h
    · exact setRecWord_canonical h

theorem readyRecord_canonical {r : ResIx} {off : Nat} (h : s.Canonical) : (readyRecord r off s).Canonical := by
  unfold readyRecord
  dsimp only
  split
  · exact setRecBit_canonical (State.setRes_canonical h)
  · exact enqueueReady_canonical (setRecBit_canonical (State.setRes_canonical h))

theorem decRecord_canonical {r : ResIx} {off k : Nat} (h : s.Canonical) : (decRecord r off k s).Canonical := by
  unfold decRecord
  split
  · exact h
  · exact ite_canonical (readyRecord_canonical (setRecBit_canonical (setRecWord_canonical h))) (setRecWord_canonical h)

/-! ## Abort and kill (R301 to R309) -/

theorem stopStreams_canonical {r : ResIx} (h : s.Canonical) : (stopStreams r s).Canonical := by
  have h1 {c : Prop} [Decidable c] : (if c then finishVec s else s).Canonical := ite_canonical (finishVec_canonical h) h
  exact h1.of_same ⟨rfl, rfl, rfl⟩ ⟨rfl, rfl⟩ rfl ⟨rfl, rfl⟩

theorem discardWork_canonical {r : ResIx} (h : s.Canonical) : (discardWork r s).Canonical := h

theorem logAbort_canonical {e : Word × Word × Word × Word} (h : s.Canonical) : (logAbort e s).Canonical := ite_canonical h h

theorem removeTrigger_canonical {r : ResIx} {m : Msg} (h : s.Canonical) : (removeTrigger r m s).Canonical := by
  unfold removeTrigger
  exact ite_canonical (freeSinks_canonical (setRx_canonical h)) (setRx_canonical h)

theorem returnTrigger_canonical {r : ResIx} {m : Msg} (h : s.Canonical) : (returnTrigger r m s).Canonical := setRx_canonical h

theorem dropWaiting_canonical {r : ResIx} {vn : Nat} (h : s.Canonical) : (dropWaiting r vn s).Canonical := by
  have hd {l : List RxEntry} {t : State} (ht : t.Canonical) : (l.foldl (fun s (e : RxEntry) => deadLetter 7 e.m s) t).Canonical :=
    foldl_canonical (fun _ _ h => deadLetter_canonical h) ht
  unfold dropWaiting
  exact ite_canonical (freeSinks_canonical (hd (setRx_canonical h))) (hd (setRx_canonical h))

/-- Removing a trigger that is a message, and no other, changes no memory. -/
theorem endTrigger_canonical {tr : Option Trigger} {r : ResIx} (h : s.Canonical) :
    (match tr with
      | some (.message m) => removeTrigger r m s
      | _ => s).Canonical := by
  cases tr with
  | none => exact h
  | some x => cases x with
    | message m => exact removeTrigger_canonical h
    | _ => exact h

theorem killNow_canonical {r : ResIx} {slot : Option SlotIx} {reason cause : Nat} {epc info : Word} (h : s.Canonical) :
    (killNow r slot reason cause epc info s).Canonical := by
  unfold killNow
  extract_lets report trigger s1 s2 s3 g
  have h1 : s1.Canonical := discardWork_canonical (stopStreams_canonical h)
  have h2 : s2.Canonical := endTrigger_canonical h1
  have h3 : s3.Canonical := dropWaiting_canonical (dropWaiting_canonical (dropWaiting_canonical h2))
  clear_value s3
  exact h3

theorem killResidency_canonical {r : ResIx} {slot : Option SlotIx} {reason cause : Nat} {epc info : Word} (h : s.Canonical) :
    (killResidency r slot reason cause epc info s).Canonical :=
  ite_canonical (State.setRes_canonical h) (killNow_canonical h)

theorem finishKill_canonical {r : ResIx} (h : s.Canonical) : (finishKill r s).Canonical := by
  unfold finishKill
  split
  · exact h
  · exact ite_canonical h (killNow_canonical h)

theorem abortActivation_canonical {r : ResIx} {keep : Bool} {reason cause : Nat} {epc info : Word} (h : s.Canonical) :
    (abortActivation r keep reason cause epc info s).Canonical := by
  unfold abortActivation
  extract_lets x count trigger entry s1 _ s2 s3 _ s4
  have h2 : s2.Canonical := State.setRes_canonical (logAbort_canonical h)
  have h4 : s4.Canonical := State.setRes_canonical (discardWork_canonical (stopStreams_canonical h2))
  clear_value trigger s4 s2
  split
  · exact killResidency_canonical h2
  · match trigger with
    | none => exact h4
    | some (.message m) => exact ite_canonical (returnTrigger_canonical h4) (removeTrigger_canonical h4)
    | some (.record off) => exact ite_canonical (readyRecord_canonical h4) h4
    | some .launch => exact h4

/-! ## Pending accesses (R112, R126) -/

theorem MateRes.wr_wf (n : Nat) : ∀ (off v : Nat) {m : MateRes}, Memory.wf m.mem = true → Memory.wf (m.wr off n v).mem = true := by
  induction n with
  | zero => intro off v m h; exact h
  | succ n ih =>
    intro off v m h
    refine ih _ _ ?_
    split
    · exact Memory.wf_writeByte _ _ _ h
    · exact h

theorem setMateRes_canonical {k : Fin 4} {m : MateRes} (h : s.Canonical) (hm : Memory.wf m.mem = true) : (setMateRes s k m).Canonical := by
  refine h.setMates (h.mates.vset k fun y hy => ?_)
  obtain ⟨x, hx, rfl⟩ := List.mem_map.mp hy
  split
  · exact hm
  · exact h.mates k x hx

/-- The reservation of a quad-mate is canonical. -/
theorem mateRes_wf {k : Fin 4} {gang : BitVec 16} (h : s.Canonical) : IfSome (fun m => Memory.wf m.mem = true) (mateRes s k gang) :=
  fun _ e => h.mates k _ (List.mem_of_find?_eq_some e)

theorem ownWr_canonical (r : ResIx) (n : Nat) : ∀ (off v : Nat) {s : State}, s.Canonical → (ownWr r off n v s).Canonical := by
  induction n with
  | zero => intro off v s h; exact h
  | succ n ih => intro off v s h; exact ih _ _ (ite_canonical (h.setSpad (Memory.wf_writeByte _ _ _ h.spad) rfl rfl) h)

theorem ownStore_canonical {r : ResIx} {off n v : Nat} (h : s.Canonical) : (ownStore r off n v s).Canonical := ownWr_canonical r n off v h

theorem targetWr_canonical {e : Remote} {off n v : Nat} (h : s.Canonical) : (targetWr e off n v s).Canonical := by
  unfold targetWr
  split
  · exact ownStore_canonical h
  · split
    · exact h
    · next m hm => exact setMateRes_canonical h (MateRes.wr_wf _ _ _ (mateRes_wf h m hm))

theorem deliverLoad_canonical {e : Remote} {v : Nat} (h : s.Canonical) : (deliverLoad e v s).Canonical := by
  unfold deliverLoad
  dsimp only
  split
  · split
    · exact State.setRes_canonical h
    · exact h
  · exact ite_canonical h h

theorem performRemote_canonical {i : Nat} (h : s.Canonical) : (performRemote i s).Canonical := by
  unfold performRemote
  split
  · exact h
  · extract_lets off k v s1 _ s2
    have h1 : s1.Canonical := ite_canonical (targetWr_canonical h) h
    have h2 : s2.Canonical := h1
    clear_value s2 s1
    exact ite_canonical h1 (ite_canonical h2 (deliverLoad_canonical h2))

theorem performFirst_canonical {p : Remote → Bool} (h : s.Canonical) : (performFirst p s).Canonical := by
  unfold performFirst
  split
  · exact h
  · exact performRemote_canonical h

theorem performAll_canonical {p : Remote → Bool} (h : s.Canonical) : (performAll p s).Canonical :=
  foldl_canonical (fun _ _ h1 => performFirst_canonical h1) h

theorem drainRemote_canonical (h : s.Canonical) : (drainRemote s).Canonical := finishVec_canonical (performAll_canonical h)

theorem finishHalves_canonical (h : s.Canonical) : (finishHalves s).Canonical := finishVec_canonical (performAll_canonical h)

theorem takeTrap_canonical {cause : Nat} {epc info : Word} (h : s.Canonical) : (takeTrap cause epc info s).Canonical :=
  have hd := drainRemote_canonical h
  takeTrap_cases (P := State.Canonical) (fun _ => killResidency_canonical hd) (fun _ _ => abortActivation_canonical hd)
    fun _ _ _ _ _ _ _ => State.setSt_canonical hd

theorem returnFromTrap_canonical (h : s.Canonical) : (returnFromTrap s).Canonical := h

/-! ## Answers of instructions -/

theorem next_lands (h : Keeps s0 s) : Lands s0 (.next s) := ⟨s, rfl, h⟩

theorem ite_lands {c : Prop} [Decidable c] {a b : Res} (h : Lands s0 a) (g : Lands s0 b) : Lands s0 (if c then a else b) := by
  split
  · exact h
  · exact g

theorem stall_lands (h : Keeps s0 s) : Lands s0 (stall s) := next_lands h

theorem raise_lands {cause : Nat} {epc info : Word} (h : Keeps s0 s) : Lands s0 (raise cause epc info s) :=
  raise_cases (fun _ => next_lands h) fun _ => next_lands fun c => takeTrap_canonical (h c)

theorem trap_lands {cause : Nat} {info : Word} (h : Keeps s0 s) : Lands s0 (trap cause info s) := raise_lands h

theorem retire_lands {i : Instr} (h : Keeps s0 s) : Lands s0 (retire i s) :=
  retire_cases (fun _ _ _ => next_lands h) fun _ _ _ => raise_lands h

theorem jumpTo_lands {p : Word} (h : Keeps s0 s) : Lands s0 (jumpTo p s) := next_lands h

theorem finishX_lands {i : Instr} {r : Reg} {v : Word} (h : Keeps s0 s) : Lands s0 (finishX i r v s) :=
  retire_lands fun c => writeX_canonical (h c)

theorem finishV_lands {i : Instr} {r : Reg} {v : VWord} (h : Keeps s0 s) : Lands s0 (finishV i r v s) :=
  retire_lands fun c => writeV_canonical (h c)

theorem withX_lands {r : Reg} {k : Word → State → Res} (h0 : Keeps s0 t) (h : Keeps s0 s) (hk : ∀ x u, Keeps s0 u → Lands s0 (k x u)) :
    Lands s0 (withX r t s k) :=
  withX_cases (stall_lands h0) fun x u e => hk x u fun c => popX_canonical (h c) _ e

theorem withV_lands {r : Reg} {k : VWord → State → Res} (h0 : Keeps s0 t) (h : Keeps s0 s) (hk : ∀ x u, Keeps s0 u → Lands s0 (k x u)) :
    Lands s0 (withV r t s k) :=
  withV_cases (stall_lands h0) fun x u e => hk x u fun c => popV_canonical (h c) _ e

theorem withRoomX_lands {r : Reg} {k : Res} (h0 : Keeps s0 t) (hk : Lands s0 k) : Lands s0 (withRoomX r t s k) :=
  withRoomX_cases (stall_lands h0) fun _ => hk

theorem withRoomV_lands {r : Reg} {k : Res} (h0 : Keeps s0 t) (hk : Lands s0 k) : Lands s0 (withRoomV r t s k) :=
  withRoomV_cases (stall_lands h0) fun _ => hk

theorem binary_lands {i : Instr} {a b c : Reg} {f : Word → Word → Word} (h : Keeps s0 s) : Lands s0 (binary i a b c f s) :=
  withX_lands h h fun _ _ h1 => withX_lands h h1 fun _ _ h2 => withRoomX_lands h (finishX_lands h2)

theorem unary_lands {i : Instr} {a b : Reg} {f : Word → Word} (h : Keeps s0 s) : Lands s0 (unary i a b f s) :=
  withX_lands h h fun _ _ h1 => withRoomX_lands h (finishX_lands h1)

/-- A device step whose condition may not hold goes on. -/
theorem orStay_lands {o : Option State} (h : Keeps s0 s) (ho : s0.Canonical → IfSome State.Canonical o) : Lands s0 (orStay o s) :=
  next_lands fun c => getD_canonical (ho c) (h c)

/-! ## Accesses to the scratchpad (R112, R120) -/

theorem spadPut_canonical {off : Int} {b : Byte} (h : s.Canonical) : (spadPut s off b).Canonical := by
  unfold spadPut
  exact ite_canonical (h.setSpad (Memory.wf_writeByte _ _ _ h.spad) rfl rfl) h

theorem spadWr_canonical (n : Nat) : ∀ (off : Int) (v : Nat) {s : State}, s.Canonical → (spadWr s off n v).Canonical := by
  induction n with
  | zero => intro off v s h; exact h
  | succ n ih => intro off v s h; exact ih _ _ (spadPut_canonical h)

theorem mendSpad_canonical {offs : List Int} (h : s.Canonical) : (mendSpad s offs).Canonical := ite_canonical h h

theorem commitFlag_canonical {write q : Bool} {cr : Nat} {outs : List Int} (h : s.Canonical) : (commitFlag write q cr outs s).Canonical := h

theorem recordLocal_canonical {write : Bool} {ins : List Nat} (h : s.Canonical) : (recordLocal write ins s).Canonical :=
  ite_canonical (State.setRs_canonical h) h

theorem firstHalf_canonical {off : Int} {n : Nat} {write : Bool} {data : Word} {rd : Reg} {signed : Bool} (h : s.Canonical) :
    (firstHalf off n write data rd signed s).Canonical :=
  performRemote_canonical h

theorem localAccess_lands {read write : Bool} {offs : List Int} {k : State → Res} (h0 : Keeps s0 t) (h : Keeps s0 s)
    (hk : ∀ u, Keeps s0 u → Lands s0 (k u)) : Lands s0 (localAccess t read write offs s k) :=
  localAccess_cases (stall_lands h0) (fun _ _ => trap_lands h0) (fun _ _ _ => trap_lands h0) (fun _ _ _ => trap_lands h0)
    fun _ => hk _ fun c => recordLocal_canonical (commitFlag_canonical (h c))

theorem loadX_lands {i : Instr} {a : Reg} {off : Int} {n : Nat} {signed : Bool} (h0 : Keeps s0 t) (h : Keeps s0 s) :
    Lands s0 (loadX i a off n signed t s) :=
  withRoomX_lands h0 (localAccess_lands h0 h fun _ h1 => ite_lands (retire_lands fun c => firstHalf_canonical (h1 c)) (finishX_lands h1))

theorem storeX_lands {i : Instr} {off : Int} {n v : Nat} (h0 : Keeps s0 t) (h : Keeps s0 s) : Lands s0 (storeX i off n v t s) :=
  localAccess_lands h0 h fun _ h1 =>
    ite_lands (retire_lands fun c => firstHalf_canonical (h1 c)) (retire_lands fun c => mendSpad_canonical (spadWr_canonical n off v (h1 c)))

end

end Sys2Proof.Machine
end

section
/-! Canonical memories: the scalar and control instructions, local accesses and atomics, and the quad-remote accesses (R93 to R127). -/

namespace Sys2Proof.Machine

section
variable {s s0 t : State}

theorem divide_lands {i : Instr} {a b c : Reg} {word : Bool} {f : Word → Word → Word} (h : Keeps s0 s) : Lands s0 (divide i a b c word f s) :=
  withX_lands h h fun _ _ h1 => withX_lands h h1 fun _ _ h2 => withRoomX_lands h (ite_lands (trap_lands h) (finishX_lands h2))

theorem branch_lands {n : Nat} {i : Instr} {b c : Reg} {o : BitVec n} {taken : Word → Word → Bool} (h : Keeps s0 s) :
    Lands s0 (branch i b c o taken s) :=
  withX_lands h h fun _ _ h1 => withX_lands h h1 fun _ _ h2 => ite_lands (jumpTo_lands h2) (retire_lands h2)

theorem jumpLink_lands {n : Nat} {i : Instr} {a : Reg} {o : BitVec n} (h : Keeps s0 s) : Lands s0 (jumpLink i a o s) :=
  withRoomX_lands h (jumpTo_lands fun c => writeX_canonical (h c))

theorem enterLoop_lands {i : Instr} {count : Word} {L : BitVec 10} (h0 : Keeps s0 t) (h : Keeps s0 s) : Lands s0 (enterLoop i count L t s) := by
  unfold enterLoop
  dsimp only
  split
  · exact next_lands fun c => State.setSt_canonical (h c)
  · exact ite_lands (trap_lands h0) (next_lands fun c => State.setSt_canonical (h c))

theorem load_lands {i : Instr} {a b : Reg} {o : BitVec 12} {n : Nat} {signed : Bool} (h : Keeps s0 s) : Lands s0 (load i a b o n signed s) :=
  withX_lands h h fun _ _ h1 => loadX_lands h h1

theorem store_lands {i : Instr} {a b : Reg} {o : BitVec 12} {n : Nat} (h : Keeps s0 s) : Lands s0 (store i a b o n s) :=
  withX_lands h h fun _ _ h1 => withX_lands h h1 fun _ _ h2 => storeX_lands h h2

theorem markRemote_canonical (h : s.Canonical) : (markRemote s).Canonical := h

theorem queueRemote_canonical {k : Fin 4} {off : Word} {n : Nat} {write : Bool} {data : Word} {rd : Reg} {signed : Bool} (h : s.Canonical) :
    (queueRemote k off n write data rd signed s).Canonical :=
  h

theorem recordRemote_canonical {k : Fin 4} {write : Bool} {ins : List Nat} (h : s.Canonical) : (recordRemote k write ins s).Canonical := by
  unfold recordRemote
  split
  · exact h
  · next m e => exact setMateRes_canonical h (mateRes_wf h m e)

theorem remoteAccess_lands {k : Fin 4} {write : Bool} {offs : List Int} {cont : State → Res} (h0 : Keeps s0 t) (h : Keeps s0 s)
    (hcont : ∀ u, Keeps s0 u → Lands s0 (cont u)) :
    Lands s0 (remoteAccess k write offs t s cont) := by
  unfold remoteAccess
  split
  · exact stall_lands h0
  · dsimp only
    split
    · exact hcont _ (fun c => commitFlag_canonical (h c))
    · split
      · exact hcont _ (fun c => commitFlag_canonical (markRemote_canonical (h c)))
      · split
        · exact trap_lands fun c => markRemote_canonical (h0 c)
        · split
          · exact trap_lands fun c => State.setRs_canonical (markRemote_canonical (h0 c))
          · split
            · exact trap_lands fun c => markRemote_canonical (h0 c)
            · exact hcont _ (fun c => recordRemote_canonical (commitFlag_canonical (markRemote_canonical (h c))))

theorem loadQuad_lands {i : Instr} {a b c : Reg} {n : Nat} {signed : Bool} (h : Keeps s0 s) : Lands s0 (loadQuad i a b c n signed s) :=
  withX_lands h h fun _ _ h1 => withX_lands h h1 fun _ _ h2 => ite_lands (loadX_lands h h2) (withRoomX_lands h (remoteAccess_lands h h2 fun _ h3 =>
    ite_lands (retire_lands fun c => queueRemote_canonical (h3 c)) (finishX_lands h3)))

theorem storeQuad_lands {i : Instr} {a b c : Reg} {n : Nat} (h : Keeps s0 s) : Lands s0 (storeQuad i a b c n s) :=
  withX_lands h h fun _ _ h1 => withX_lands h h1 fun _ _ h2 => withX_lands h h2 fun _ _ h3 =>
    ite_lands (storeX_lands h h3) (remoteAccess_lands h h3 fun _ h4 => ite_lands (retire_lands fun c =>
    queueRemote_canonical (h4 c)) (retire_lands h4))

theorem amo_lands {i : Instr} {f : AmoFn} {n : Nat} {a b c : Reg} (h : Keeps s0 s) : Lands s0 (amo i f n a b c s) := by
  unfold amo
  dsimp only
  refine withX_lands h h fun x s1 h1 => withX_lands h h1 fun x1 s2 h2 => ?_
  split
  · refine withX_lands h h2 fun x2 s3 h3 => withRoomX_lands h (localAccess_lands h h3 fun s4 h4 => ?_)
    split
    · exact finishX_lands h4
    · exact finishX_lands fun c => mendSpad_canonical (spadWr_canonical _ _ _ (h4 c))
  · refine withRoomX_lands h (localAccess_lands h h2 fun s3 h3 => ?_)
    split
    · exact finishX_lands h3
    · exact finishX_lands fun c => mendSpad_canonical (spadWr_canonical _ _ _ (h3 c))

theorem execJalr_lands {a b : Reg} {i : BitVec 15} : Lands s (execJalr a b i s) :=
  withX_lands id id fun _ _ h => withRoomX_lands id (ite_lands (trap_lands id) (jumpTo_lands fun c => writeX_canonical (h c)))

theorem execLit_lands {a : Reg} {o : BitVec 20} : Lands s (execLit a o s) := by
  unfold execLit
  dsimp only
  refine withRoomX_lands id ?_
  split
  · exact trap_lands id
  · split
    · exact trap_lands id
    · exact finishX_lands id

end

end Sys2Proof.Machine
end

section
/-! Canonical memories: the vaults' banks, the walker, the translation buffers and the dirty logs (R253 to R279). -/

namespace Sys2Proof.Machine

section
variable {s s0 t : State}

theorem busCheck_canonical {a : Nat} (h : s.Canonical) : (busCheck a s).2.Canonical := by
  unfold busCheck
  dsimp only
  split <;> exact h

theorem setBank_canonical {b : BankIx} {x : Bank} (h : s.Canonical) : (setBank b x s).Canonical := h

theorem countCorrected_canonical {a : Nat} (h : s.Canonical) : (countCorrected a s).Canonical := by
  unfold countCorrected
  split
  · exact h
  · exact setBank_canonical h

theorem correctWords_canonical {ws : List Nat} (h : s.Canonical) : (correctWords ws s).Canonical :=
  foldl_canonical (fun _ _ h1 => ite_canonical (countCorrected_canonical h1) h1) h

theorem readWords_canonical {a : Nat} {ws : List Nat} (h : s.Canonical) : (readWords a ws s).2.Canonical := by
  unfold readWords
  split
  · exact h
  · split
    · rename_i e
      have h1 := (busCheck_canonical h).of_eq e
      exact h1
    · rename_i e
      have h1 := (busCheck_canonical h).of_eq e
      exact correctWords_canonical h1

theorem beatRead_canonical {a : Nat} (h : s.Canonical) : (beatRead a s).2.Canonical := readWords_canonical h

theorem mendVault_canonical {a n : Nat} (h : s.Canonical) : (mendVault a n s).Canonical := h

theorem vaultPut_canonical {a : Nat} {bs : List Byte} (h : s.Canonical) : (vaultPut a bs s).Canonical := h.setVault (Memory.wf_writeList _ _ _ h.vaultMem)

theorem beatWrite_canonical {a : Nat} {bs : List Byte} (h : s.Canonical) : (beatWrite a bs s).2.Canonical := by
  unfold beatWrite
  split
  · exact h
  · split
    · rename_i e
      have h1 := (busCheck_canonical h).of_eq e
      exact h1
    · rename_i e
      have h1 := (busCheck_canonical h).of_eq e
      dsimp only
      split
      · exact correctWords_canonical h1
      · exact mendVault_canonical (vaultPut_canonical (correctWords_canonical h1))

theorem setQpwr_canonical {q : Nat} {x : Qpwr} (h : s.Canonical) : (setQpwr q x s).Canonical := h

theorem tryWake_canonical {q : Nat} (h : s.Canonical) : IfSome State.Canonical (tryWake q s) := by
  unfold tryWake
  dsimp only
  split
  · exact none_ifSome
  · split
    · exact ite_ifSome none_ifSome (some_ifSome h)
    · exact ite_ifSome none_ifSome (some_ifSome h)
    · exact none_ifSome

theorem wakeVault_canonical {v : Nat} (h : s.Canonical) : IfSome State.Canonical (wakeVault v s) := by
  unfold wakeVault
  split
  · exact tryWake_canonical h
  · exact none_ifSome

theorem openColumn_canonical {p : Place} (h : s.Canonical) : IfSome State.Canonical (openColumn p s) := by
  unfold openColumn
  split
  · exact none_ifSome
  · split
    · exact none_ifSome
    · split
      · dsimp only
        split
        · exact some_ifSome (setBank_canonical h)
        · exact none_ifSome
      · exact some_ifSome h

theorem readCopy_canonical {p : Place} (h : s.Canonical) : IfSome (fun x => x.2.Canonical) (readCopy p s) := by
  unfold readCopy
  split
  · exact none_ifSome
  · exact map_ifSome (openColumn_canonical h) fun _ h1 => readWords_canonical h1

theorem readEntry_canonical {w : Word} {i : Nat} (h : s.Canonical) : (readEntry w i s).2.Canonical := by
  unfold readEntry
  dsimp only
  split
  · exact h
  · rename_i e
    have h1 := (readCopy_canonical h) _ e
    exact h1
  · rename_i e
    have h1 := (readCopy_canonical h) _ e
    split
    · exact h
    · rename_i e1
      have h2 := (readCopy_canonical h1) _ e1
      exact ite_canonical (beatWrite_canonical h2) h2
    · rename_i e1
      have h2 := (readCopy_canonical h1) _ e1
      exact h2

theorem walkFrom_canonical (l : List Nat) : ∀ {w : Word} {s : State}, s.Canonical → (walkFrom w l s).2.Canonical := by
  induction l with
  | nil => intro w s h; exact h
  | cons i l ih =>
    intro w s h
    have hr := readEntry_canonical (w := w) (i := i) h
    unfold walkFrom
    split
    · exact h
    · split
      · next e => exact hr.of_eq e
      · next e => exact hr.of_eq e
      · next e =>
        have h1 := hr.of_eq e
        dsimp only
        split
        · exact h1
        · split
          · exact h1
          · exact ih h1

theorem walk_canonical {asid : Asid} {vpn : Nat} (h : s.Canonical) : (walk asid vpn s).2.Canonical := by
  unfold walk
  dsimp only
  split
  · exact h
  · exact walkFrom_canonical _ h

theorem putCopy_canonical {p : Place} {w : Word} (h : s.Canonical) : (putCopy p w s).Canonical :=
  beatWrite_canonical (getD_canonical (openColumn_canonical h) h)

theorem writeLeaf_canonical {asid : Asid} {vpn : Nat} {w : Word} (h : s.Canonical) : (writeLeaf asid vpn w s).Canonical := by
  unfold writeLeaf
  split
  · exact h
  · exact putCopy_canonical (putCopy_canonical h)

theorem changeCopy_canonical {p : Place} {f : Word → Word} (h : s.Canonical) : (changeCopy p f s).Canonical := by
  unfold changeCopy
  split
  · rename_i e
    have h1 := (readWords_canonical (getD_canonical (openColumn_canonical h) h)).of_eq e
    exact beatWrite_canonical h1
  · rename_i e
    exact (readWords_canonical (getD_canonical (openColumn_canonical h) h)).of_eq e

theorem changeLeaf_canonical {asid : Asid} {vpn : Nat} {f : Word → Word} (h : s.Canonical) : (changeLeaf asid vpn f s).Canonical := by
  unfold changeLeaf
  split
  · exact h
  · exact changeCopy_canonical (changeCopy_canonical (walk_canonical h))

theorem invalidate_canonical {asid : Asid} {vpn : Nat} (h : s.Canonical) : (invalidate asid vpn s).Canonical := h

theorem translateStack_canonical {asid : Asid} {vpn : Nat} (h : s.Canonical) : (translateStack asid vpn s).2.Canonical := by
  unfold translateStack
  split
  · exact h
  · split
    · exact h
    · split
      · rename_i e1
        have h1 := (walk_canonical h).of_eq e1
        exact h1
      · exact walk_canonical h

theorem translate_canonical {asid : Asid} {vpn : Nat} (h : s.Canonical) : (translate asid vpn s).2.Canonical := by
  unfold translate
  split
  · exact h
  · split
    · rename_i e1
      have h1 := (translateStack_canonical h).of_eq e1
      exact h1
    · exact translateStack_canonical h

theorem joinQueue_canonical {who : Claimant} {p : Place} (h : s.Canonical) : (joinQueue who p s).Canonical := h

theorem reachBeat_canonical {who : Claimant} {p : Place} (h : s.Canonical) : (reachBeat who p s).2.Canonical := by
  unfold reachBeat
  dsimp only
  split
  · exact joinQueue_canonical h
  · split
    · exact joinQueue_canonical h
    · split
      · exact joinQueue_canonical h
      · exact setBank_canonical (joinQueue_canonical h)

theorem leaveQueue_canonical {who : Claimant} (h : s.Canonical) : (leaveQueue who s).Canonical := h

theorem waited_canonical (h : t.Canonical) : IfSome State.Canonical (waited s t) := by
  unfold waited
  exact ite_ifSome none_ifSome (some_ifSome h)

theorem markPage_canonical {asid : Asid} {vpn vault : Nat} (h : s.Canonical) : (markPage asid vpn vault s).Canonical := by
  unfold markPage
  dsimp only
  repeat' split
  all_goals exact h

theorem logDirty_canonical {asid : Asid} {vpn vault : Nat} (h : s.Canonical) : (logDirty asid vpn vault s).Canonical :=
  ite_canonical h (markPage_canonical h)

theorem setProducer_canonical {ring : Fin 24} {pi : BitVec 32} (h : s.Canonical) : (setProducer ring pi s).Canonical := ite_canonical h h

theorem ringDoorbells_canonical {asid : Asid} {va a n : Nat} (h : s.Canonical) : (ringDoorbells asid va a n s).Canonical := by
  unfold ringDoorbells
  refine foldl_canonical (fun s1 a1 h1 => ?_) h
  split
  · exact h1
  · exact ite_canonical (setProducer_canonical h1) h1

theorem storeColumn_canonical {asid : Asid} {va : Nat} {p : Place} {bs : List Byte} (h : s.Canonical) :
    IfSome (fun x => x.2.Canonical) (storeColumn asid va p bs s) := by
  unfold storeColumn
  split
  · exact none_ifSome
  · split
    · rename_i e
      have h1 := (beatWrite_canonical h).of_eq e
      exact some_pair (ringDoorbells_canonical (logDirty_canonical h1))
    · exact some_ifSome (beatWrite_canonical h)

theorem touchQuad_canonical {asid : Asid} {quad : Nat} (h : s.Canonical) : (touchQuad asid quad s).Canonical := ite_canonical h h

end

end Sys2Proof.Machine
end

section
/-! Canonical memories: the vector instructions (R128 to R142). -/

namespace Sys2Proof.Machine

section
variable {s s0 t : State}

theorem startVec_canonical {q : VecRun} (h : s.Canonical) : (startVec q s).Canonical := vecStep_canonical h

theorem vecLoad_lands {i : Instr} {a : Reg} {t' : BitVec 4} {m : MaskField} {base : Int} {k : VecKind} (h0 : Keeps s0 t) (h : Keeps s0 s) :
    Lands s0 (vecLoad i a t' m base k t s) := by
  unfold vecLoad
  refine withRoomV_lands h0 ?_
  split
  · exact stall_lands h0
  · dsimp only
    split
    · exact trap_lands h0
    · exact localAccess_lands h0 h fun _ h1 => retire_lands fun c => startVec_canonical (h1 c)

theorem vecStore_lands {i : Instr} {t' : BitVec 4} {m : MaskField} {base : Int} {k : VecKind} {v : VWord} (h0 : Keeps s0 t) (h : Keeps s0 s) :
    Lands s0 (vecStore i t' m base k v t s) := by
  unfold vecStore
  split
  · exact stall_lands h0
  · dsimp only
    split
    · exact trap_lands h0
    · exact localAccess_lands h0 h fun _ h1 => retire_lands fun c => startVec_canonical (h1 c)

theorem vecBinary_lands {i : Instr} {a b c : Reg} {w : Nat} {m : MaskField} {f : Nat → Nat → Nat} (h : Keeps s0 s) :
    Lands s0 (vecBinary i a b c w m f s) :=
  withV_lands h h fun _ _ h1 => withV_lands h h1 fun _ _ h2 => withRoomV_lands h (finishV_lands h2)

theorem vecUnary_lands {i : Instr} {a b : Reg} {w : Nat} {m : MaskField} {f : Nat → Nat} (h : Keeps s0 s) : Lands s0 (vecUnary i a b w m f s) :=
  withV_lands h h fun _ _ h1 => withRoomV_lands h (finishV_lands h1)

theorem vecCompare_lands {i : Instr} {a b c : Reg} {w : Nat} {m : MaskField} {f : Nat → Nat → Bool} (h : Keeps s0 s) :
    Lands s0 (vecCompare i a b c w m f s) :=
  withV_lands h h fun _ _ h1 => withV_lands h h1 fun _ _ h2 => retire_lands fun c => writeM_canonical (h2 c)

theorem finishFp_lands {i : Instr} {a : Reg} {m : MaskField} {r : List (Nat × BitVec 5)} (h : Keeps s0 s) : Lands s0 (finishFp i a m r s) :=
  finishV_lands fun c => orFlags_canonical (h c)

theorem fpBinary_lands {i : Instr} {a b c : Reg} {m : MaskField} {f : RMode → Nat → Nat → Nat × BitVec 5} (h : Keeps s0 s) :
    Lands s0 (fpBinary i a b c m f s) :=
  withV_lands h h fun _ _ h1 => withV_lands h h1 fun _ _ h2 => withRoomV_lands h (finishFp_lands h2)

theorem fpUnary_lands {i : Instr} {a b : Reg} {m : MaskField} {f : RMode → Nat → Nat × BitVec 5} (h : Keeps s0 s) : Lands s0 (fpUnary i a b m f s) :=
  withV_lands h h fun _ _ h1 => withRoomV_lands h (finishFp_lands h1)

theorem fpFused_lands {i : Instr} {a b c : Reg} {m : MaskField} {f : RMode → Nat → Nat → Nat → Nat × BitVec 5} (h : Keeps s0 s) :
    Lands s0 (fpFused i a b c m f s) :=
  withV_lands h h fun _ _ h1 => withV_lands h h1 fun _ _ h2 => withV_lands h h2 fun _ _ h3 => withRoomV_lands h (finishFp_lands h3)

theorem fpCompare_lands {i : Instr} {a b c : Reg} {m : MaskField} {f : Nat → Nat → Bool × BitVec 5} (h : Keeps s0 s) :
    Lands s0 (fpCompare i a b c m f s) :=
  withV_lands h h fun _ _ h1 => withV_lands h h1 fun _ _ h2 => retire_lands fun c => writeM_canonical (orFlags_canonical (h2 c))

theorem reduction_lands {i : Instr} {a b : Reg} {w : Nat} {m : MaskField} {identity : Nat} {f : RMode → Nat → Nat → Nat × BitVec 5} (h : Keeps s0 s) :
    Lands s0 (reduction i a b w m identity f s) :=
  withV_lands h h fun _ _ h1 => withRoomV_lands h (finishV_lands fun c => orFlags_canonical (h1 c))

theorem maskBinary_lands {i : Instr} {a b c : Reg} {f : BitVec 16 → BitVec 16 → BitVec 16} (h : Keeps s0 s) : Lands s0 (maskBinary i a b c f s) :=
  retire_lands fun c => writeM_canonical (h c)

theorem execVsts_lands {a b c : Reg} {t' : BitVec 4} {m : MaskField} : Lands s (execVsts a b c t' m s) :=
  withX_lands id id fun _ _ h => withX_lands id h fun _ _ h1 => withV_lands id h1 fun _ _ h2 => vecStore_lands id h2

theorem execVstx_lands {a b c : Reg} {t' : BitVec 4} {m : MaskField} : Lands s (execVstx a b c t' m s) :=
  withX_lands id id fun _ _ h => withV_lands id h fun _ _ h1 => withV_lands id h1 fun _ _ h2 => vecStore_lands id h2

theorem execVsel_lands {a b c : Reg} {m : MaskField} : Lands s (execVsel a b c m s) :=
  withV_lands id id fun _ _ h => withV_lands id h fun _ _ h1 => withRoomV_lands id (finishV_lands h1)

theorem execVshuf_lands {a b c : Reg} {w : BitVec 2} {m : MaskField} : Lands s (execVshuf a b c w m s) :=
  withV_lands id id fun _ _ h => withV_lands id h fun _ _ h1 => withRoomV_lands id (finishV_lands h1)

theorem execVmvx_lands {a b c : Reg} {w : BitVec 2} : Lands s (execVmvx a b c w s) :=
  withV_lands id id fun _ _ h => withX_lands id h fun _ _ h1 => withRoomX_lands id (finishX_lands h1)

theorem execVslide_lands {a b c : Reg} {w : BitVec 2} {m : MaskField} : Lands s (execVslide a b c w m s) :=
  withV_lands id id fun _ _ h => withX_lands id h fun _ _ h1 => withRoomV_lands id (finishV_lands h1)

theorem execVzip_lands {a b c : Reg} {w : BitVec 2} {m : MaskField} : Lands s (execVzip a b c w m s) :=
  withV_lands id id fun _ _ h => withV_lands id h fun _ _ h1 => withRoomV_lands id (finishV_lands h1)

theorem execVuzp_lands {a b c : Reg} {w : BitVec 2} {m : MaskField} : Lands s (execVuzp a b c w m s) :=
  withV_lands id id fun _ _ h => withV_lands id h fun _ _ h1 => withRoomV_lands id (finishV_lands h1)

theorem execVcvt_lands {a : Reg} {d f : BitVec 4} {b : Reg} : Lands s (execVcvt a d f b s) :=
  withV_lands id id fun _ _ h => withRoomV_lands id (ite_lands (trap_lands id) (finishV_lands fun c => orFlags_canonical (h c)))

end

end Sys2Proof.Machine
end

section
/-! Canonical memories: the wide multiplier (R143 to R167). -/

namespace Sys2Proof.Machine

open Sys2Proof.Spec (okIn multCheck_okIn ite_okIn)

section
variable {s s0 t : State}

/-! ## Accumulators, the modes of the pairs, and the buffers -/

theorem setAcc_canonical {n : Nat} {a : Acc} (h : s.Canonical) : (setAcc n a s).Canonical := h.of_same ⟨rfl, rfl, rfl⟩ ⟨rfl, rfl⟩ rfl ⟨rfl, rfl⟩

theorem accumulate_canonical {joined : Bool} {n e r : Nat} (h : s.Canonical) : (accumulate joined n e r s).Canonical := setAcc_canonical h

theorem poisonAcc_canonical {n inc : Nat} (h : s.Canonical) : (poisonAcc n inc s).Canonical := setAcc_canonical h

theorem addWork_canonical {w : Nat} {slot : Option SlotIx} {r : Option ResIx} (h : s.Canonical) : (addWork w slot r s).Canonical := h

theorem quadJoin_canonical (h : s.Canonical) : (quadJoin s).Canonical := ite_canonical h h

theorem quadSplit_canonical (h : s.Canonical) : (quadSplit s).Canonical := by
  unfold quadSplit
  refine (h.setMates (h.mates.map fun x hx => ?_)).of_same ⟨rfl, rfl, rfl⟩ ⟨rfl, rfl⟩ rfl ⟨rfl, rfl⟩
  exact iteInduction (motive := fun m : Mate => ∀ r ∈ m.residencies, Memory.wf r.mem = true) (fun _ => hx) fun _ => hx

theorem quadLeave_canonical (h : s.Canonical) : (quadLeave s).Canonical := ite_canonical (quadSplit_canonical h) h

theorem quadRelease_canonical (h : s.Canonical) : (quadRelease s).Canonical := ite_canonical h (quadLeave_canonical h)

theorem settleLeave_canonical (h : s.Canonical) : (settleLeave s).Canonical := ite_canonical (quadSplit_canonical h) h

theorem putEntry_canonical {e : Nat} {v : Int} {ds : List Packed} {q : Nat} (h : s.Canonical) : (putEntry e v ds q s).Canonical :=
  h.setCore h.spad (Memory.wf_writeLE _ _ _ _ h.1.2.1) h.1.2.2.1

theorem putRow_canonical {r : Nat} {v : Int} {ds : List Packed} {q : Nat} (h : s.Canonical) : (putRow r v ds q s).Canonical := by
  have hy := Memory.wf_writeLE s.core.ybuf (512 * r) 512 (wrap 4096 v).toNat h.1.2.2.1
  unfold putRow
  generalize writeLE s.core.ybuf (512 * r) 512 (wrap 4096 v).toNat = y at hy
  exact h.setCore h.spad h.1.2.1 hy

theorem packStore_canonical {f : PackFn} {p : PackDesc} {v : List (List Packed)} (h : s.Canonical) : (packStore f p v s).Canonical := by
  unfold packStore
  dsimp only
  split
  · exact ite_canonical (putRow_canonical h) (putEntry_canonical h)
  · split
    · exact foldl_canonical (fun _ _ h1 => putRow_canonical h1) h
    · exact foldl_canonical (fun _ _ h1 => putEntry_canonical h1) h

/-! ## The operations that a stream's instruction and a matrix command share -/

theorem guardOp_canonical {r : ResIx} {x : Word} (h : s.Canonical) : okIn State.Canonical (guardOp r x s) := multCheck_okIn h

theorem joinOp_canonical {r : ResIx} {j : BitVec 1} (h : s.Canonical) : okIn State.Canonical (joinOp r j s) := multCheck_okIn (ite_okIn trivial h)

theorem qjoinOp_canonical {r : ResIx} (h : s.Canonical) : okIn State.Canonical (qjoinOp r s) := by
  refine multCheck_okIn ?_
  dsimp only
  split
  · trivial
  · exact quadJoin_canonical (s := { s with quad := _ }) h

theorem qleaveOp_canonical {r : ResIx} (h : s.Canonical) : okIn State.Canonical (qleaveOp r s) := multCheck_okIn (quadLeave_canonical h)

theorem acczOp_canonical {r : ResIx} {n k : Nat} (h : s.Canonical) : okIn State.Canonical (acczOp r n k s) :=
  multCheck_okIn (foldl_canonical (f := fun s n => setAcc n Acc.zero s) (fun _ _ h1 => setAcc_canonical h1) h)

/-- The checks of a pack's source go on with records of the residency changed at most. -/
theorem packSource_canonical {r : ResIx} {p : PackDesc} {k : State → Wide} (h : s.Canonical)
    (hk : ∀ t : State, t.Canonical → okIn State.Canonical (k t)) : okIn State.Canonical (packSource r p s k) := by
  unfold packSource
  dsimp only
  split
  · split
    · trivial
    · split
      · trivial
      · split
        · trivial
        · exact hk _ (State.setRes_canonical h)
  · split
    · trivial
    · exact hk s h

theorem packOp_canonical {r : ResIx} {f : PackFn} {d : BitVec 128} (h : s.Canonical) : okIn State.Canonical (packOp r f d s) := by
  refine multCheck_okIn ?_
  dsimp only
  split
  · trivial
  · exact ite_okIn trivial (ite_okIn trivial (ite_okIn trivial (ite_okIn trivial (packSource_canonical h fun _ ht => packStore_canonical ht))))

theorem mulOp_canonical {r : ResIx} {joined : Bool} {n : Nat} {x : Word} {slot : Option SlotIx} (h : s.Canonical) :
    okIn State.Canonical (mulOp r joined n x slot s) := by
  refine multCheck_okIn ?_
  dsimp only
  refine ite_okIn trivial (ite_okIn trivial (ite_okIn trivial (ite_okIn trivial (ite_okIn trivial (ite_okIn trivial (ite_okIn trivial
    (ite_okIn trivial ?_)))))))
  split
  · trivial
  · split
    · trivial
    · exact addWork_canonical (ite_canonical (poisonAcc_canonical h) (accumulate_canonical h))

theorem mmarOp_canonical {r : ResIx} {d : BitVec 128} {slot : Option SlotIx} (h : s.Canonical) : okIn State.Canonical (mmarOp r d slot s) := by
  refine multCheck_okIn ?_
  dsimp only
  split
  · trivial
  · refine ite_okIn trivial (ite_okIn trivial ?_)
    split
    · trivial
    · split
      · trivial
      · split
        · trivial
        · have steps (good : List Nat) (ns : List (Nat × Nat)) (f g : Nat → Nat × Nat → Nat) :
              (good.foldl (fun s i => ns.foldl (fun s e => accumulate false e.1 (f i e) (g i e) s) s) s).Canonical :=
            foldl_canonical (fun _ _ h1 => foldl_canonical (fun _ _ h2 => accumulate_canonical h2) h1) h
          exact addWork_canonical (ite_canonical (foldl_canonical (fun _ _ h1 => poisonAcc_canonical h1) (steps _ _ _ _)) (steps _ _ _ _))

theorem extractCheck_canonical {r : ResIx} {n : Nat} {k : Acc → Wide} (hk : ∀ a, okIn State.Canonical (k a)) :
    okIn State.Canonical (extractCheck r n s k) := multCheck_okIn (ite_okIn trivial (ite_okIn trivial (hk _)))

theorem extractX_canonical {r : ResIx} {fp : Bool} {n : Nat} {x : Word} {d : Reg} (h : s.Canonical) :
    okIn State.Canonical (extractX r fp n x d s) := extractCheck_canonical fun _ => writeX_canonical h

theorem extractV_canonical {r : ResIx} {fp : Bool} {n : Nat} {x : Word} {d : Reg} (h : s.Canonical) :
    okIn State.Canonical (extractV r fp n x d s) := extractCheck_canonical fun _ => writeV_canonical h

theorem accReadOp_canonical {r : ResIx} {n : Nat} {x : Word} {k : Word → Wide} (hk : ∀ v, okIn State.Canonical (k v)) :
    okIn State.Canonical (accReadOp r n x s k) := multCheck_okIn (ite_okIn trivial (hk _))

theorem accWriteOp_canonical {r : ResIx} {n : Nat} {x v : Word} (h : s.Canonical) : okIn State.Canonical (accWriteOp r n x v s) :=
  multCheck_okIn (ite_okIn (setAcc_canonical h) (ite_okIn (setAcc_canonical h) h))

theorem accMoveOp_canonical {r : ResIx} {d n : Nat} (h : s.Canonical) : okIn State.Canonical (accMoveOp r d n s) :=
  multCheck_okIn (ite_okIn trivial (setAcc_canonical h))

/-! ## Instructions -/

/-- What an operation that traps changes is the record of a race alone. -/
theorem finishWide_lands {i : Instr} {w : Wide} (h : Keeps s0 s) (hw : s0.Canonical → okIn State.Canonical w) : Lands s0 (finishWide i s w) := by
  unfold finishWide
  refine ite_lands (stall_lands h) ?_
  cases w with
  | ok u => exact retire_lands hw
  | trap cause info u => exact trap_lands fun c => State.setRs_canonical (h c)
  | wait => exact stall_lands h

theorem execGuard_lands {b : Reg} : Lands s (execGuard b s) :=
  withX_lands id id fun _ _ h1 => finishWide_lands id fun c => guardOp_canonical (h1 c)

theorem streamPack_lands {i : Instr} {f : PackFn} {b : Reg} : Lands s (streamPack i f b s) :=
  ite_lands (stall_lands id) (finishWide_lands id packOp_canonical)

theorem execMuls_lands {n : AccNum} {b : Reg} : Lands s (execMuls n b s) :=
  withX_lands id id fun _ _ h1 => finishWide_lands id fun c => mulOp_canonical (h1 c)

theorem execMulj_lands {n : AccNum} {b : Reg} : Lands s (execMulj n b s) :=
  withX_lands id id fun _ _ h1 => finishWide_lands id fun c => mulOp_canonical (h1 c)

theorem streamExtract_lands {i : Instr} {fp : Bool} {d : Reg} {n : AccNum} {b : Reg} {x : BitVec 1} : Lands s (streamExtract i fp d n b x s) :=
  withX_lands id id fun _ _ h1 => ite_lands (withRoomX_lands id (finishWide_lands id fun c => extractX_canonical (h1 c)))
    (withRoomV_lands id (finishWide_lands id fun c => extractV_canonical (h1 c)))

theorem execAccrd_lands {a : Reg} {n : AccNum} {b : Reg} : Lands s (execAccrd a n b s) :=
  withX_lands id id fun _ _ h1 => withRoomX_lands id (finishWide_lands id fun c => accReadOp_canonical fun _ => writeX_canonical (h1 c))

theorem execAccwr_lands {a : Reg} {n : AccNum} {b : Reg} : Lands s (execAccwr a n b s) :=
  withX_lands id id fun _ _ h1 => withX_lands id h1 fun _ _ h2 => finishWide_lands id fun c => accWriteOp_canonical (h2 c)

end

end Sys2Proof.Machine
end

section
/-! Canonical memories: loads, stores and atomics of the vaults, and the operations of banks (R174 to R192). -/

namespace Sys2Proof.Machine

section
variable {s s0 t : State}

theorem addLock_canonical {sp : Space} {ranges : List (Nat × Nat)} {wr : Bool} {owner : Option (ResIx × Nat)} (h : s.Canonical) :
    (addLock sp ranges wr owner s).Canonical := by
  unfold addLock
  split <;> exact h

theorem pushEng_canonical {e : EngOp} (h : s.Canonical) : (pushEng e s).Canonical := h

theorem issueTile_lands {i : Instr} {k : EngKind} {a b : Reg} (h : Keeps s0 s) : Lands s0 (issueTile i k a b s) := by
  unfold issueTile
  refine withRoomX_lands h ?_
  split
  · exact stall_lands h
  · split
    · exact stall_lands h
    · split
      · exact stall_lands h
      · dsimp only
        exact finishX_lands fun c => State.setRs_canonical (ite_canonical (commitFlag_canonical (pushEng_canonical (addLock_canonical
          (State.bump_canonical (h c))))) (pushEng_canonical (addLock_canonical (State.bump_canonical (h c)))))

theorem issueRow_lands {i : Instr} {k : EngKind} {b c : Reg} (h : Keeps s0 s) : Lands s0 (issueRow i k b c s) :=
  withX_lands h h fun _ _ h1 => withX_lands h h1 fun _ _ h2 => ite_lands (stall_lands h) (ite_lands (stall_lands h) (retire_lands fun c =>
    pushEng_canonical (h2 c)))

theorem cpyEffect_canonical {at_ : Nat} {rec : BitVec 512} (h : s.Canonical) : (cpyEffect at_ rec s).Canonical := by
  unfold cpyEffect
  extract_lets r s1 s2 s3 s4 s5 s6 s7 s8 s9 _
  have h1 : s1.Canonical := spadWr_canonical _ _ _ h
  have h2 : s2.Canonical := mendSpad_canonical h1
  have h3 : s3.Canonical := State.bump_canonical h2
  have h4 : s4.Canonical := addLock_canonical h3
  have h5 : s5.Canonical := by
    unfold s5
    split
    · exact addLock_canonical h4
    · exact h4
  have h6 : s6.Canonical := by
    unfold s6
    split
    · exact addLock_canonical h5
    · exact h5
  have h7 : s7.Canonical := ite_canonical (commitFlag_canonical h6) h6
  have h8 : s8.Canonical := ite_canonical (commitFlag_canonical h7) h7
  have h9 : s9.Canonical := by
    unfold s9
    split
    · exact h8
    · exact setRecWord_canonical h8
  clear_value s1 s2 s3 s4 s5 s6 s7 s8 s9
  exact State.setRs_canonical h9

theorem handOver_canonical {r : ResIx} {slot : Option SlotIx} (h : s.Canonical) : (handOver r slot s).Canonical := h

theorem execTwait_lands {a b : Reg} : Lands s (execTwait a b s) := by
  unfold execTwait
  refine withX_lands id id fun x s1 h => withRoomX_lands id ?_
  split
  · exact stall_lands id
  · exact finishX_lands h

theorem execCpy_lands {a : Reg} : Lands s (execCpy a s) :=
  withRoomX_lands id (ite_lands (stall_lands id) (ite_lands (finishX_lands id) (ite_lands (finishX_lands id) (localAccess_lands id id fun _ h =>
    finishX_lands fun c => cpyEffect_canonical (h c)))))

end

end Sys2Proof.Machine
end

section
/-! Canonical memories: the steps of the tile engine and of the banks (R178 to R188). -/

namespace Sys2Proof.Machine

section
variable {s s0 t : State}

theorem setHead_canonical {e : EngOp} (h : s.Canonical) : (setHead e s).Canonical := h

theorem endTile_canonical {e : EngOp} {status detail : Nat} (h : s.Canonical) : (endTile e status detail s).Canonical := h

theorem tryTileOpStart_canonical (h : s.Canonical) : IfSome State.Canonical (tryTileOpStart s) := by
  unfold tryTileOpStart
  split
  · exact none_ifSome
  · split
    · exact none_ifSome
    · split
      · exact some_ifSome (endTile_canonical h)
      · split
        · exact some_ifSome (endTile_canonical h)
        · split
          · exact none_ifSome
          · exact some_ifSome (setHead_canonical h)

theorem pageCheck_canonical {e : EngOp} {vpn : Nat} (h : s.Canonical) : (pageCheck e vpn s).2.Canonical := by
  unfold pageCheck
  dsimp only
  split
  · rename_i e1
    have h1 := (translate_canonical h).of_eq e1
    exact h1
  · rename_i e1
    have h1 := (translate_canonical h).of_eq e1
    exact h1
  · rename_i e1
    have h1 := (translate_canonical h).of_eq e1
    repeat' split
    all_goals exact h1

theorem bufferWrite_canonical {sp : Space} {lo : Nat} {bs : List Byte} (h : s.Canonical) : (bufferWrite sp lo bs s).Canonical := by
  cases sp with
  | spad => exact h
  | xbuf => exact h.setCore h.spad (Memory.wf_writeList _ _ _ h.1.2.1) h.1.2.2.1
  | ybuf => exact h.setCore h.spad h.1.2.1 (Memory.wf_writeList _ _ _ h.1.2.2.1)

theorem engineWrite_canonical {r : Residency} {lo : Nat} {bs : List Byte} (h : s.Canonical) : (engineWrite r lo bs s).Canonical :=
  h.setSpad (Memory.wf_writeList _ _ _ h.spad) rfl rfl

theorem localWrite_canonical {r : Residency} {sp : Space} {lo : Nat} {bs : List Byte} (h : s.Canonical) : (localWrite r sp lo bs s).Canonical := by
  unfold localWrite
  split
  · exact engineWrite_canonical h
  · exact bufferWrite_canonical h

theorem moveBeat_canonical {e : EngOp} {w : Word} (h : s.Canonical) : IfSome State.Canonical (moveBeat e w s) := by
  unfold moveBeat
  dsimp only
  split
  · split
    · exact some_ifSome (endTile_canonical h)
    · split
      · exact none_ifSome
      · rename_i e3
        have h1 := (storeColumn_canonical h) _ e3
        exact some_ifSome (setHead_canonical (touchQuad_canonical h1))
      · rename_i e3
        have h1 := (storeColumn_canonical h) _ e3
        exact some_ifSome (endTile_canonical h1)
  · split
    · rename_i e1
      have h1 := (beatRead_canonical h).of_eq e1
      exact some_ifSome (setHead_canonical (localWrite_canonical h1))
    · rename_i e1
      have h1 := (beatRead_canonical h).of_eq e1
      exact some_ifSome (endTile_canonical h1)

/-- A fold that carries a value beside the state. -/
theorem foldl_snd_canonical {α β : Type} {f : β × State → α → β × State} {l : List α} {b : β}
    (hf : ∀ x a, x.2.Canonical → (f x a).2.Canonical) (h : s.Canonical) : (l.foldl f (b, s)).2.Canonical := by
  suffices H : ∀ x : β × State, x.2.Canonical → (l.foldl f x).2.Canonical from H _ h
  induction l with
  | nil => exact fun _ h => h
  | cons a l ih => exact fun x h => ih _ (hf x a h)

theorem openFirstRow_canonical {d : BitVec 128} {w : Word} (h : s.Canonical) : (openFirstRow d w s).Canonical := by
  refine foldl_snd_canonical (fun x p hx => ?_) h
  split
  · exact hx
  · exact ite_canonical hx (setBank_canonical hx)

theorem beatOnPage_canonical {e : EngOp} {w : Word} {fresh : Bool} (h : s.Canonical) : IfSome State.Canonical (beatOnPage e w fresh s) := by
  unfold beatOnPage
  dsimp only
  split
  · rename_i e1
    have h1 := (reachBeat_canonical (ite_canonical (openFirstRow_canonical h) h)).of_eq e1
    split
    · rename_i e2
      have h2 := (moveBeat_canonical h1) _ e2
      exact some_ifSome (leaveQueue_canonical h2)
    · exact waited_canonical (setHead_canonical h1)
  · rename_i e1
    have h1 := (reachBeat_canonical (ite_canonical (openFirstRow_canonical h) h)).of_eq e1
    split
    · exact some_ifSome (setHead_canonical h1)
    · exact waited_canonical h1

theorem tryVaultBeat_canonical (h : s.Canonical) : IfSome State.Canonical (tryVaultBeat s) := by
  unfold tryVaultBeat
  split
  · exact none_ifSome
  · split
    · exact none_ifSome
    · dsimp only
      split
      · split
        · split
          · exact some_ifSome (endTile_canonical (leaveQueue_canonical h))
          · exact beatOnPage_canonical h
        · split
          · exact some_ifSome (endTile_canonical (leaveQueue_canonical h))
          · exact beatOnPage_canonical h
      · split
        · exact none_ifSome
        · rename_i e2
          have h1 := (pageCheck_canonical h).of_eq e2
          exact some_ifSome (setHead_canonical h1)
        · rename_i e2
          have h1 := (pageCheck_canonical h).of_eq e2
          exact some_ifSome (endTile_canonical h1)
        · rename_i e2
          have h1 := (pageCheck_canonical h).of_eq e2
          exact beatOnPage_canonical h1

theorem dropLock_canonical {k : Option (Fin 8)} (h : s.Canonical) : (dropLock k s).Canonical := by
  unfold dropLock
  split <;> exact h

theorem recordStatus_canonical {e : EngOp} {w : Word} (h : s.Canonical) : (recordStatus e w s).Canonical := by
  unfold recordStatus
  exact ite_canonical h h

theorem completeTile_canonical {e : EngOp} {status detail : Nat} (h : s.Canonical) : (completeTile e status detail s).Canonical :=
  recordStatus_canonical (dropLock_canonical h)

theorem tryTileOpComplete_canonical (h : s.Canonical) : IfSome State.Canonical (tryTileOpComplete s) := by
  unfold tryTileOpComplete
  split
  · exact none_ifSome
  · split
    · exact none_ifSome
    · split
      · exact some_ifSome (completeTile_canonical h)
      · split
        · exact some_ifSome (completeTile_canonical h)
        · exact none_ifSome

theorem tryPageMapResume_canonical {mapped : Bool} (h : s.Canonical) : IfSome State.Canonical (tryPageMapResume mapped s) := by
  unfold tryPageMapResume
  dsimp only
  split
  · split
    · split
      · exact none_ifSome
      · exact some_ifSome h
    · exact some_ifSome h
  · split
    · split
      · split
        · exact none_ifSome
        · exact some_ifSome h
      · exact some_ifSome h
    · split
      · exact some_ifSome (setHead_canonical h)
      · exact some_ifSome (endTile_canonical h)

theorem rowCommands_canonical {open_ : Bool} {w : Word} {lo hi : Nat} (h : s.Canonical) : (rowCommands open_ w lo hi s).Canonical :=
  foldl_canonical (fun _ _ h1 => setBank_canonical h1) h

theorem rowPage_canonical {open_ : Bool} {asid : Asid} {vpn : Nat} (h : s.Canonical) :
    IfSome (fun x => x.2.Canonical) (rowPage open_ asid vpn s) := by
  unfold rowPage
  dsimp only
  split
  · exact some_pair h
  · split
    · split
      · rename_i e2
        have h1 := (translate_canonical h).of_eq e2
        exact some_pair h1
      · rename_i e2
        have h1 := (translate_canonical h).of_eq e2
        exact some_pair h1
      · exact none_ifSome
    · split <;> exact some_pair h

theorem rowPages_canonical {open_ : Bool} {asid : Asid} {lo hi : Nat} (n : Nat) : ∀ (vpn : Nat) {s : State}, s.Canonical →
    IfSome State.Canonical (rowPages open_ asid lo hi n vpn s) := by
  induction n with
  | zero => exact fun _ _ h => some_ifSome h
  | succ n ih =>
    intro vpn s h
    unfold rowPages
    split
    · exact none_ifSome
    · rename_i e
      exact ih _ (rowPage_canonical h _ e)
    · rename_i e
      exact ih _ (rowCommands_canonical (rowPage_canonical h _ e))

theorem rowRange_canonical {open_ : Bool} {asid : Asid} {lo hi : Nat} (h : s.Canonical) : IfSome State.Canonical (rowRange open_ asid lo hi s) :=
  rowPages_canonical _ _ h

theorem tryPendingAct_canonical (h : s.Canonical) : IfSome State.Canonical (tryPendingAct s) := by
  unfold tryPendingAct
  split
  · exact none_ifSome
  · exact map_ifSome (rowRange_canonical h) fun _ h1 => h1

theorem tryRowHead_canonical {k : EngKind} (h : s.Canonical) : IfSome State.Canonical (tryRowHead k s) := by
  unfold tryRowHead
  split
  · exact none_ifSome
  · refine ite_ifSome none_ifSome ?_
    extract_lets _ s1 lo hi
    have h1 : s1.Canonical := h
    clear_value s1
    refine ite_ifSome (some_ifSome h1) ?_
    split
    · rename_i e
      exact some_ifSome (ite_ifSome (rowRange_canonical h1) none_ifSome _ e)
    · exact some_ifSome h1

theorem tryActivationEnd_canonical {b : BankIx} (h : s.Canonical) : IfSome State.Canonical (tryActivationEnd b s) := by
  unfold tryActivationEnd
  dsimp only
  split
  · exact some_ifSome (setBank_canonical h)
  · exact none_ifSome

theorem tryPrechargeEnd_canonical {b : BankIx} (h : s.Canonical) : IfSome State.Canonical (tryPrechargeEnd b s) := by
  unfold tryPrechargeEnd
  dsimp only
  split
  · exact some_ifSome (setBank_canonical h)
  · exact none_ifSome

theorem tryRefresh_canonical {b : BankIx} (h : s.Canonical) : IfSome State.Canonical (tryRefresh b s) := by
  unfold tryRefresh
  dsimp only
  split
  · split
    · exact some_ifSome (setBank_canonical h)
    · exact some_ifSome (setBank_canonical h)
    · exact none_ifSome
  · exact none_ifSome

theorem tryRefreshEnd_canonical {b : BankIx} (h : s.Canonical) : IfSome State.Canonical (tryRefreshEnd b s) := by
  unfold tryRefreshEnd
  dsimp only
  split
  · exact some_ifSome (setBank_canonical h)
  · exact some_ifSome (setBank_canonical h)
  · exact none_ifSome

theorem tryRowRepair_canonical {b : BankIx} {row : BitVec 10} (h : s.Canonical) : IfSome State.Canonical (tryRowRepair b row s) := by
  unfold tryRowRepair
  dsimp only
  split
  · exact some_ifSome (setBank_canonical h)
  · split
    · exact some_ifSome (setBank_canonical h)
    · split
      · exact some_ifSome (setBank_canonical h)
      · exact none_ifSome

theorem tryTranslationWalk_canonical {asid : Asid} {vpn : Vpn} (h : s.Canonical) : IfSome State.Canonical (tryTranslationWalk asid vpn s) := by
  unfold tryTranslationWalk
  split
  · exact none_ifSome
  · exact some_ifSome (translate_canonical h)

theorem invalidateLevel_canonical {level : Fin 3} {asid : Asid} {vpn : Nat} (h : s.Canonical) : (invalidateLevel level asid vpn s).Canonical := h

theorem zeroPage_canonical {w : Word} (h : s.Canonical) : (zeroPage w s).Canonical := h.setVault (Table.wf_filter _ _ _ h.vaultMem)

theorem fillPages_canonical {ws : List Word} (h : s.Canonical) : (fillPages ws s).Canonical := foldl_canonical (fun _ _ h1 => zeroPage_canonical h1) h

theorem tryTableEntryChange_canonical {level : Fin 3} {asid : Asid} {vpn : Vpn} {word : Word} (h : s.Canonical) :
    IfSome State.Canonical (tryTableEntryChange level asid vpn word s) := by
  unfold tryTableEntryChange
  split
  · exact none_ifSome
  · dsimp only
    split
    · exact none_ifSome
    · exact some_ifSome (invalidateLevel_canonical (putCopy_canonical (putCopy_canonical (fillPages_canonical h))))

theorem mergeEntry_canonical {e : BitVec 13 × Asid × Vpn × Bool} (h : s.Canonical) : (mergeEntry e s).Canonical :=
  ite_canonical h (changeLeaf_canonical h)

theorem mergeLog_canonical {quad : BitVec 13} (h : s.Canonical) : (mergeLog quad s).Canonical :=
  foldl_canonical (fun _ _ h1 => mergeEntry_canonical h1) h

theorem tryMerge_canonical {quad : BitVec 13} (h : s.Canonical) : IfSome State.Canonical (tryMerge quad s) := by
  unfold tryMerge
  split
  · exact some_ifSome (mergeLog_canonical h)
  · exact none_ifSome

theorem tryHarvest_canonical {asid : Asid} (h : s.Canonical) : IfSome State.Canonical (tryHarvest asid s) := by
  unfold tryHarvest
  dsimp only
  split
  · exact none_ifSome
  · exact some_ifSome (foldl_canonical (fun _ _ h1 => changeLeaf_canonical h1) (foldl_canonical (fun _ _ h1 => mergeLog_canonical h1) h))

theorem execActAtHead_lands  : Lands s (execActAtHead s) :=
  orStay_lands id fun h => orElse_ifSome (tryPendingAct_canonical h) fun _ => tryRowHead_canonical h

theorem execTempSample_lands {temps : List Nat} : Lands s (execTempSample temps s) := by
  unfold execTempSample
  dsimp only
  split
  · exact ite_lands (next_lands fun c => endTile_canonical c) (next_lands fun c => c)
  · exact next_lands fun c => c

end

end Sys2Proof.Machine
end

section
/-! Canonical memories: the steps of the copy engine (R189 to R195). -/

namespace Sys2Proof.Machine

/-- Whether the state that an endpoint answers is canonical. -/
def Xfer.Canonical : Xfer → Prop
  | .ok _ s => s.Canonical
  | .stop _ _ s => s.Canonical
  | .fault _ s => s.Canonical
  | .wait s => s.Canonical

section
variable {s s0 t : State}

/-! ## Endpoints and units of a command -/

theorem setRun_canonical {r : ResIx} {c : CopyRun} (h : s.Canonical) : (setRun r c s).Canonical := h

theorem Xfer.ite_canonical {c : Prop} [Decidable c] {a b : Xfer} (ha : a.Canonical) (hb : b.Canonical) : (if c then a else b).Canonical := by
  split
  · exact ha
  · exact hb

theorem reachVault_canonical {r : ResIx} {va : Nat} {write : Bool} {k : Word → Place → State → Xfer} (h : s.Canonical)
    (hk : ∀ w p (t : State), t.Canonical → (k w p t).Canonical) : (reachVault r va write s k).Canonical := by
  unfold reachVault
  dsimp only
  split
  · rename_i e
    have h1 := (translateStack_canonical h).of_eq e
    exact Xfer.ite_canonical h1 h1
  · exact h
  · rename_i e
    have h1 := (translateStack_canonical h).of_eq e
    refine Xfer.ite_canonical (Xfer.ite_canonical h1 h1) (Xfer.ite_canonical (leaveQueue_canonical h1) (Xfer.ite_canonical h1 (Xfer.ite_canonical h1 (Xfer.ite_canonical h1 ?_))))
    split
    · rename_i e1
      exact hk _ _ _ ((reachBeat_canonical h1).of_eq e1)
    · rename_i e1
      exact (reachBeat_canonical h1).of_eq e1

theorem readEnd_canonical {r : ResIx} {sp a n : Nat} (h : s.Canonical) : (readEnd r sp a n s).Canonical := by
  unfold readEnd
  split
  · refine reachVault_canonical h fun _ _ t ht => ?_
    split
    all_goals
      rename_i e
      exact (beatRead_canonical (leaveQueue_canonical ht)).of_eq e
  all_goals exact Xfer.ite_canonical h h

theorem writeEnd_canonical {r : ResIx} {sp a : Nat} {bs : List Byte} (h : s.Canonical) : (writeEnd r sp a bs s).Canonical := by
  unfold writeEnd
  split
  · refine reachVault_canonical h fun _ _ t ht => ?_
    split
    · exact ht
    · rename_i e
      exact touchQuad_canonical (leaveQueue_canonical (storeColumn_canonical ht _ e))
    · rename_i e
      exact leaveQueue_canonical (storeColumn_canonical ht _ e)
  · exact localWrite_canonical h

theorem ite_snd_canonical {α : Type} {c : Prop} [Decidable c] {x y : α × State} (hx : x.2.Canonical) (hy : y.2.Canonical) :
    (if c then x else y).2.Canonical := by
  split
  · exact hx
  · exact hy

theorem Xfer.settle_canonical {c : CopyRun} {x : Xfer} {go : List Byte → State → CopyRun × State} (hx : x.Canonical)
    (hgo : ∀ bs (t : State), t.Canonical → (go bs t).2.Canonical) : (Xfer.settle c x go).2.Canonical := by
  cases x with
  | ok bs t => exact hgo bs t hx
  | stop _ _ _ => exact hx
  | fault _ _ => exact hx
  | wait _ => exact hx

theorem writeDue_canonical {bs : List Byte} {r : ResIx} {rec : BitVec 512} {c : CopyRun} (h : s.Canonical) :
    (writeDue bs r rec c s).2.Canonical := by
  unfold writeDue
  dsimp only
  exact Xfer.settle_canonical (writeEnd_canonical h) fun _ _ ht => ite_snd_canonical ht ht

theorem copyUnit_canonical {r : ResIx} {rec : BitVec 512} {c : CopyRun} (h : s.Canonical) : (copyUnit r rec c s).2.Canonical := by
  unfold copyUnit
  split
  · exact writeDue_canonical h
  · exact Xfer.settle_canonical (readEnd_canonical h) fun _ _ ht => ite_snd_canonical ht ht

theorem fillUnit_canonical {r : ResIx} {rec : BitVec 512} {c : CopyRun} (h : s.Canonical) : (fillUnit r rec c s).2.Canonical := writeDue_canonical h

theorem hostrdUnit_canonical {bytes : List Byte} {r : ResIx} {rec : BitVec 512} {c : CopyRun} (h : s.Canonical) :
    (hostrdUnit bytes r rec c s).2.Canonical := writeDue_canonical h

theorem hostwrUnit_canonical {r : ResIx} {rec : BitVec 512} {c : CopyRun} (h : s.Canonical) : (hostwrUnit r rec c s).2.Canonical :=
  Xfer.settle_canonical (readEnd_canonical h) fun _ _ ht => ht

/-! ## Steps of the chains -/

theorem tryMove_canonical {r : ResIx} {cmd : Nat} {allowed : BitVec 512 → State → Bool} {f : CopyUnit} (h : s.Canonical)
    (hf : ∀ rec c (t : State), t.Canonical → (f r rec c t).2.Canonical) : IfSome State.Canonical (tryMove r cmd allowed f s) := by
  unfold tryMove
  split
  · exact none_ifSome
  · dsimp only
    split
    · exact some_ifSome (setRun_canonical h)
    · exact ite_ifSome (some_ifSome (setRun_canonical h)) (ite_ifSome (some_ifSome (setRun_canonical h))
        (ite_ifSome (waited_canonical (hf _ _ _ h)) (some_ifSome (setRun_canonical (hf _ _ _ h)))))

theorem tryHostrd_canonical {r : ResIx} {bytes : List Byte} (h : s.Canonical) : IfSome State.Canonical (tryHostrd r bytes s) := by
  unfold tryHostrd
  split
  · exact none_ifSome
  · exact ite_ifSome none_ifSome (tryMove_canonical h fun _ _ _ ht => hostrdUnit_canonical ht)

theorem tryBadCopyCommand_canonical {r : ResIx} (h : s.Canonical) : IfSome State.Canonical (tryBadCopyCommand r s) := by
  unfold tryBadCopyCommand
  split
  · exact none_ifSome
  · exact some_ifSome (setRun_canonical h)

theorem dropRecordLocks_canonical {r : ResIx} {off : Nat} (h : s.Canonical) : (dropRecordLocks r off s).Canonical := h

theorem tryCopyCompletion_canonical {r : ResIx} (h : s.Canonical) : IfSome State.Canonical (tryCopyCompletion r s) := by
  have setNext {o : Option CopyRun} {t : State} (ht : t.Canonical) :
      ({ t with quad := { t.quad with copyRun := vset t.quad.copyRun r o } } : State).Canonical := ht
  unfold tryCopyCompletion
  split
  · exact none_ifSome
  · dsimp only
    split
    · exact some_ifSome (decRecord_canonical (setNext h))
    · exact none_ifSome
    · exact ite_ifSome none_ifSome (ite_ifSome (some_ifSome (setNext (setRecWord_canonical h)))
        (some_ifSome (setNext (State.setRes_canonical (dropRecordLocks_canonical (setRecWord_canonical h))))))

theorem tryRestripe_canonical {r : ResIx} (h : s.Canonical) : IfSome State.Canonical (tryRestripe r s) := by
  unfold tryRestripe
  split
  · exact none_ifSome
  · dsimp only
    split
    · exact some_ifSome (setRun_canonical h)
    · split
      · exact some_ifSome (setRun_canonical h)
      · split
        · exact none_ifSome
        · split
          · rename_i e2
            have h1 := (translateStack_canonical h).of_eq e2
            exact some_ifSome (setRun_canonical h1)
          · exact none_ifSome
          · rename_i e2
            have h1 := (translateStack_canonical h).of_eq e2
            split
            · exact none_ifSome
            · exact some_ifSome (setRun_canonical (invalidate_canonical (changeLeaf_canonical h1)))

theorem moveColumn_canonical {asid : Asid} {vpn : Nat} {old new : Word} {o : Nat} (h : s.Canonical) :
    IfSome (fun x => x.2.Canonical) (moveColumn asid vpn old new o s) := by
  unfold moveColumn
  dsimp only
  split
  · exact none_ifSome
  · rename_i e
    have h1 := (openColumn_canonical h) _ e
    split
    · exact none_ifSome
    · rename_i e1
      have h2 := (openColumn_canonical (beatRead_canonical h1)) _ e1
      split
      · exact none_ifSome
      · exact some_pair (ite_canonical (touchQuad_canonical (logDirty_canonical (beatWrite_canonical h2))) (beatWrite_canonical h2))

theorem tryChunkMove_canonical {r : ResIx} (h : s.Canonical) : IfSome State.Canonical (tryChunkMove r s) := by
  unfold tryChunkMove
  split
  · exact none_ifSome
  · dsimp only
    split
    · exact none_ifSome
    · split
      · exact none_ifSome
      · split
        · exact none_ifSome
        · rename_i e1
          have h1 := (moveColumn_canonical h) _ e1
          exact some_ifSome (setRun_canonical (ite_canonical (changeLeaf_canonical h1) h1))

theorem rewordPage_canonical {asid : Asid} {vpn : Nat} {f : Word → Word} (h : s.Canonical) : (rewordPage asid vpn f s).Canonical := h

theorem tryRestripeSwitch_canonical {r : ResIx} (h : s.Canonical) : IfSome State.Canonical (tryRestripeSwitch r s) := by
  unfold tryRestripeSwitch
  split
  · exact none_ifSome
  · dsimp only
    split
    · exact none_ifSome
    · exact some_ifSome (setRun_canonical (rewordPage_canonical (invalidate_canonical (writeLeaf_canonical h))))

/-! ## The engine serves the chains in turn -/

/-- Every step of a chain that the engine tries keeps memories canonical. -/
theorem copyAttempts_canonical {r : ResIx} {bytes : List Byte} (h : s.Canonical) : ∀ f ∈ copyAttempts r bytes, IfSome State.Canonical (f s) := by
  unfold copyAttempts
  simp only [List.forall_mem_cons]
  exact ⟨tryMove_canonical h fun _ _ _ ht => copyUnit_canonical ht, tryRestripe_canonical h, tryChunkMove_canonical h, tryRestripeSwitch_canonical h,
    tryMove_canonical h fun _ _ _ ht => fillUnit_canonical ht, tryHostrd_canonical h, tryMove_canonical h fun _ _ _ ht => hostwrUnit_canonical ht,
    tryMove_canonical h fun _ _ _ ht => fillUnit_canonical ht, tryBadCopyCommand_canonical h, tryCopyCompletion_canonical h, nofun⟩

theorem served_canonical {r : ResIx} {f : State → Option State} (hf : IfSome State.Canonical (f s)) :
    IfSome State.Canonical (served r f s) := ite_ifSome (map_ifSome hf fun _ h => h) none_ifSome

theorem tryCopyEngine_canonical (h : s.Canonical) : IfSome State.Canonical (tryCopyEngine s) :=
  findSome?_ifSome fun _ => served_canonical fun x e => by
    obtain ⟨f, hf, he⟩ := List.exists_of_findSome?_eq_some e
    exact copyAttempts_canonical h f hf x he

theorem execCopy_lands {r : ResIx} : Lands s (execCopy r s) :=
  orStay_lands id fun c => served_canonical (tryMove_canonical c fun _ _ _ ht => copyUnit_canonical ht)

theorem execFill_lands {r : ResIx} : Lands s (execFill r s) :=
  orStay_lands id fun c => served_canonical (tryMove_canonical c fun _ _ _ ht => fillUnit_canonical ht)

theorem execHostwr_lands {r : ResIx} : Lands s (execHostwr r s) :=
  orStay_lands id fun c => served_canonical (tryMove_canonical c fun _ _ _ ht => hostwrUnit_canonical ht)

theorem execDrain_lands {r : ResIx} : Lands s (execDrain r s) :=
  orStay_lands id fun c => served_canonical (tryMove_canonical c fun _ _ _ ht => fillUnit_canonical ht)

end

end Sys2Proof.Machine
end

section
/-! Canonical memories: messages and barriers (R196 to R214). -/

namespace Sys2Proof.Machine

section
variable {s s0 t : State}

theorem appendEntries_canonical {es : List BufEntry} (h : s.Canonical) : (appendEntries es s).Canonical := by
  unfold appendEntries
  split
  · exact h
  · exact State.setRs_canonical (State.setTask_canonical h)

theorem sendChecks_lands {need sinks : Nat} {arrived : Bool} {k : Res} (h0 : Keeps s0 t) (hk : Lands s0 k) :
    Lands s0 (sendChecks need sinks arrived t s k) :=
  ite_lands (trap_lands h0) (ite_lands (trap_lands h0) (ite_lands (trap_lands h0) hk))

theorem sendOne_lands {i : Instr} {m : Msg} (h0 : Keeps s0 t) (h : Keeps s0 s) : Lands s0 (sendOne i m t s) :=
  sendChecks_lands h0 (retire_lands fun c => appendEntries_canonical (h c))

theorem recordOp_lands {i : Instr} {x : Word} {f : Nat → State → State} (h0 : Keeps s0 t) (h : Keeps s0 s)
    (hf : ∀ off (u : State), u.Canonical → (f off u).Canonical) : Lands s0 (recordOp i x t s f) := by
  unfold recordOp
  exact localAccess_lands h0 h fun _ h1 => retire_lands fun c => ite_canonical (h1 c) (hf _ _ (h1 c))

theorem tnewEffect_canonical {d : BitVec 128} {off : Nat} (h : s.Canonical) : (tnewEffect d off s).Canonical := by
  unfold tnewEffect
  extract_lets r w s1 s2 s3 _
  have h1 : s1.Canonical := setRecWord_canonical h
  have h2 : s2.Canonical := ite_canonical (setRecWord_canonical h1) h1
  have h3 : s3.Canonical := setRecWord_canonical (setRecWord_canonical (setRecWord_canonical (setRecWord_canonical h2)))
  clear_value s1 s2 s3
  exact State.setRes_canonical h3

theorem tarmEffect_canonical {off : Nat} (h : s.Canonical) : (tarmEffect off s).Canonical :=
  ite_canonical (readyRecord_canonical (setRecBit_canonical h)) (State.setRes_canonical (setRecBit_canonical h))

theorem markFence_canonical (h : s.Canonical) : (markFence s).Canonical := h

theorem execSend_lands {a b c : Reg} {v : BitVec 2} {r : BitVec 1} : Lands s (execSend a b c v r s) :=
  withX_lands id id fun _ _ h => withV_lands id h fun _ _ h1 => withX_lands id h1 fun _ _ h2 => sendOne_lands id h2

theorem execSendl_lands {a b : Reg} {v : BitVec 2} {r : BitVec 1} : Lands s (execSendl a b v r s) := by
  unfold execSendl
  refine withX_lands id id fun x s1 h => ?_
  dsimp only
  split
  · exact trap_lands id
  · exact sendChecks_lands id (localAccess_lands id h fun _ h1 => retire_lands fun c => appendEntries_canonical (h1 c))

theorem execVamo_lands {a b c : Reg} {r : BitVec 1} : Lands s (execVamo a b c r s) :=
  withX_lands id id fun _ _ h => withX_lands id h fun _ _ h1 => withX_lands id h1 fun _ _ h2 => sendOne_lands id h2

theorem execTnew_lands {b c : Reg} : Lands s (execTnew b c s) := by
  unfold execTnew
  refine withX_lands id id fun x s1 h => ?_
  split
  · exact trap_lands id
  · exact recordOp_lands id h fun _ _ h1 => tnewEffect_canonical h1

theorem execFence_lands {y : BitVec 3} : Lands s (execFence y s) := by
  unfold execFence
  dsimp only
  exact retire_lands fun c => ite_canonical (appendEntries_canonical (ite_canonical c (markFence_canonical c))) (ite_canonical c
    (markFence_canonical c))

theorem execBar_lands {y : BitVec 3} {b : Reg} : Lands s (execBar y b s) :=
  withX_lands id id fun _ _ h => sendChecks_lands id (retire_lands fun c => State.setRs_canonical (appendEntries_canonical (h c)))

end

end Sys2Proof.Machine
end

section
/-! Canonical memories: the agents of the vaults (R206 to R208). -/

namespace Sys2Proof.Machine

section
variable {s s0 t : State}

/-- An option that is no state, from which a state comes. -/
theorem bind_any_ifSome {α β : Type} {P : β → Prop} {o : Option α} {f : α → Option β} (hf : ∀ x, IfSome P (f x)) : IfSome P (o.bind f) := by
  cases o with
  | none => exact none_ifSome
  | some a => exact hf a

theorem touchSource_canonical {asid : Asid} {src : BitVec 32} (h : s.Canonical) : (touchSource asid src s).Canonical :=
  ite_canonical (touchQuad_canonical h) h

theorem sendReply_canonical {vault : Nat} {m : Msg} (h : s.Canonical) : (sendReply vault m s).Canonical := by
  unfold sendReply
  split
  · exact postReply_canonical h
  · split <;> exact h

theorem finishJob_canonical {i : Nat} {j : AgentJob} (h : s.Canonical) : (finishJob i j s).Canonical :=
  ite_canonical (ite_canonical (sendReply_canonical h) h) (ite_canonical (sendReply_canonical h) h)

theorem routeVault_canonical {m : Msg} (h : s.Canonical) : (routeVault m s).2.Canonical := by
  unfold routeVault
  dsimp only
  split
  · rename_i e
    have h1 := (translateStack_canonical h).of_eq e
    exact h1
  · rename_i e
    have h1 := (translateStack_canonical h).of_eq e
    exact h1
  · rename_i e
    have h1 := (translateStack_canonical h).of_eq e
    exact h1

theorem enqueueJob_canonical {m : Msg} {vault : Nat} (h : s.Canonical) : (enqueueJob m vault s).Canonical := h

theorem setJob_canonical {i : Nat} {j : AgentJob} (h : s.Canonical) : (setJob i j s).Canonical := h

theorem acceptJob_canonical {i : Nat} {j : AgentJob} (h : s.Canonical) : IfSome State.Canonical (acceptJob i j s) := by
  unfold acceptJob
  dsimp only
  split
  · exact some_ifSome (finishJob_canonical h)
  · split
    · rename_i e
      have h1 := (ite_snd_canonical (translate_canonical h) (translateStack_canonical h)).of_eq e
      exact some_ifSome (setJob_canonical h1)
    · exact none_ifSome
    · rename_i e
      have h1 := (ite_snd_canonical (translate_canonical h) (translateStack_canonical h)).of_eq e
      split
      · exact some_ifSome (setJob_canonical h1)
      · split
        · exact none_ifSome
        · split
          · exact some_ifSome (finishJob_canonical h1)
          · split
            · exact none_ifSome
            · split
              · split
                · exact none_ifSome
                · exact some_ifSome (finishJob_canonical h1)
              · exact some_ifSome (foldl_canonical (fun _ _ h2 => joinQueue_canonical h2) (setJob_canonical h1))

theorem moveColumnOf_canonical {j : AgentJob} {w : Word} {c : Nat} (h : s.Canonical) : IfSome (fun x => x.2.Canonical) (moveColumnOf j w c s) := by
  unfold moveColumnOf
  dsimp only
  split
  · exact map_ifSome (storeColumn_canonical h) fun _ h1 => ite_snd_canonical (touchSource_canonical h1) h1
  · split
    · rename_i e
      have h1 := (beatRead_canonical h).of_eq e
      split
      · exact some_pair h1
      · split
        · exact some_pair h1
        · exact map_ifSome (storeColumn_canonical h1) fun _ h2 => ite_snd_canonical (touchSource_canonical h2) h2
    · rename_i e
      have h1 := (beatRead_canonical h).of_eq e
      exact some_pair h1

theorem tryColumn_canonical {i : Nat} {j : AgentJob} {w : Word} {c : Nat} (h : s.Canonical) : IfSome State.Canonical (tryColumn i j w c s) := by
  unfold tryColumn
  dsimp only
  split
  · exact none_ifSome
  · split
    · rename_i e
      have h1 := (reachBeat_canonical h).of_eq e
      exact waited_canonical h1
    · rename_i e
      have h1 := (reachBeat_canonical h).of_eq e
      split
      · exact waited_canonical h1
      · rename_i e1
        have h2 := (moveColumnOf_canonical h1) _ e1
        exact some_ifSome (ite_canonical (finishJob_canonical (leaveQueue_canonical h2)) (setJob_canonical (leaveQueue_canonical h2)))

theorem tryJob_canonical {i : Nat} (h : s.Canonical) : IfSome State.Canonical (tryJob i s) := by
  unfold tryJob
  split
  · exact none_ifSome
  · split
    · exact none_ifSome
    · split
      · exact some_ifSome (finishJob_canonical h)
      · split
        · split
          · exact none_ifSome
          · exact acceptJob_canonical h
        · exact findSome?_ifSome fun _ => tryColumn_canonical h

theorem serveJob_canonical {id : Nat} (h : s.Canonical) : IfSome State.Canonical (serveJob id s) := bind_any_ifSome fun _ => tryJob_canonical h

theorem serveNext_canonical {hidx : BitVec 8} (h : s.Canonical) : IfSome State.Canonical (serveNext hidx s) := by
  unfold serveNext
  refine findSome?_ifSome fun b => ?_
  split
  · exact none_ifSome
  · split
    · exact tryJob_canonical h
    · exact none_ifSome

end

end Sys2Proof.Machine
end

section
/-! Canonical memories: the system and journal instructions and the 32-bit forms (R215 to R230). -/

namespace Sys2Proof.Machine

section
variable {s s0 t : State}

theorem writeGuardcfg_canonical {v : Word} (h : s.Canonical) : (writeGuardcfg v s).Canonical := ite_canonical h h

theorem writeBudget_canonical {v : Word} (h : s.Canonical) : (writeBudget v s).Canonical := by
  unfold writeBudget
  split
  · exact h
  · exact ite_canonical (State.setTask_canonical h) h

theorem sysWrite_canonical {num : Nat} {v : Word} (h : s.Canonical) : (sysWrite num v s).Canonical := by
  unfold sysWrite
  dsimp only
  split
  · exact writeGuardcfg_canonical h
  · exact State.setSt_canonical h
  · exact State.setSt_canonical h
  · exact State.setSt_canonical h
  · exact State.setSt_canonical h
  · exact State.setSt_canonical h
  · exact writeBudget_canonical h
  · exact ite_canonical (ite_canonical h h) (ite_canonical (State.setSt_canonical h) (ite_canonical (State.setSt_canonical h) h))

theorem clearSticky_canonical {num : Nat} {x : Word} (h : s.Canonical) : (clearSticky num x s).Canonical :=
  ite_canonical h (ite_canonical (State.setRs_canonical h) (ite_canonical (State.setRs_canonical h) h))

theorem sysEffect_canonical {f : SysFn} {num : Nat} {old x : Word} (h : s.Canonical) : (sysEffect f num old x s).Canonical := by
  unfold sysEffect
  split
  · exact h
  · exact clearSticky_canonical (sysWrite_canonical h)
  · exact clearSticky_canonical (sysWrite_canonical h)
  · exact sysWrite_canonical h

theorem sysAccess_lands {i : Instr} {f : SysFn} {a : Reg} {n : BitVec 12} {x : Word} (h0 : Keeps s0 t) (h : Keeps s0 s) :
    Lands s0 (sysAccess i f a n x t s) := by
  unfold sysAccess
  split
  · exact trap_lands h0
  · exact withRoomX_lands h0 (ite_lands (stall_lands h0) (finishX_lands fun c => sysEffect_canonical (h c)))

theorem atTrapLevel_lands {i : Instr} {k : Res} (h : Keeps s0 s) (hk : Lands s0 k) : Lands s0 (atTrapLevel i s k) :=
  ite_lands (trap_lands h) (ite_lands (stall_lands h) hk)

theorem areaAccess_lands {wr : Bool} {k : Word → State → Res} (h : Keeps s0 s) (hk : ∀ x u, Keeps s0 u → Lands s0 (k x u)) :
    Lands s0 (areaAccess wr s k) := by
  unfold areaAccess
  dsimp only
  split
  · exact trap_lands h
  · split
    · exact trap_lands h
    · exact stall_lands h
    · rename_i e
      exact ite_lands (hk _ _ (fun c => (translateStack_canonical (h c)).of_eq e)) (trap_lands h)

theorem startArea_lands {wr : Bool} {w : Word} (h : Keeps s0 s) : Lands s0 (startArea wr w s) := stall_lands fun c => State.setSt_canonical (h c)

theorem areaMoved_canonical {i : SlotIx} {a : Area} {bs : List Byte} (h : s.Canonical) : (areaMoved i a bs s).Canonical := h

theorem trySpillColumn_canonical {i : SlotIx} (h : s.Canonical) : IfSome State.Canonical (trySpillColumn i s) := by
  unfold trySpillColumn
  dsimp only
  split
  · exact none_ifSome
  · split
    · exact none_ifSome
    · split
      · split
        · exact some_ifSome (leaveQueue_canonical (areaMoved_canonical h))
        · split
          · exact none_ifSome
          · split
            · rename_i e2
              have h1 := (reachBeat_canonical h).of_eq e2
              exact waited_canonical h1
            · rename_i e2
              have h1 := (reachBeat_canonical h).of_eq e2
              split
              · exact waited_canonical h1
              · rename_i e3
                have h2 := (storeColumn_canonical h1) _ e3
                exact some_ifSome (leaveQueue_canonical (areaMoved_canonical (ite_canonical (touchQuad_canonical h2) h2)))
      · split
        · exact some_ifSome (leaveQueue_canonical (areaMoved_canonical h))
        · split
          · exact none_ifSome
          · split
            · rename_i e1
              have h1 := (reachBeat_canonical h).of_eq e1
              exact waited_canonical h1
            · rename_i e1
              have h1 := (reachBeat_canonical h).of_eq e1
              split
              · rename_i e2
                have h2 := (beatRead_canonical h1).of_eq e2
                exact some_ifSome (leaveQueue_canonical (areaMoved_canonical h2))
              · rename_i e2
                have h2 := (beatRead_canonical h1).of_eq e2
                exact some_ifSome (leaveQueue_canonical (areaMoved_canonical h2))

theorem restoreArea_canonical {d : Nat → Word} (h : s.Canonical) : (restoreArea d s).Canonical := h

theorem releaseBuffer_canonical {r : ResIx} {b : List BufEntry} {ages : List Word} (h : s.Canonical) : (releaseBuffer r b ages s).Canonical := h

theorem endTask_canonical {r : ResIx} (h : s.Canonical) : (endTask r s).Canonical := by
  unfold endTask
  split
  · exact h
  · extract_lets s1 s2 _
    have h1 : s1.Canonical := handOver_canonical (releaseBuffer_canonical h)
    have h2 : s2.Canonical := by
      unfold s2
      split
      · exact removeTrigger_canonical h1
      · exact h1
    clear_value s1 s2
    exact State.setRes_canonical h2

theorem endOfStream_canonical (h : s.Canonical) : (endOfStream s).Canonical := by
  unfold endOfStream
  extract_lets r s1 _ s2 _ s3
  have h1 : s1.Canonical := h
  have h3 : s3.Canonical := h1
  clear_value s3
  exact ite_canonical h3 (endTask_canonical h3)

theorem endStreamOp_lands (h : Keeps s0 s) : Lands s0 (endStreamOp s) :=
  ite_lands (stall_lands h) (ite_lands (trap_lands h) (next_lands fun c => endOfStream_canonical (h c)))

theorem sealBatch_canonical {r : ResIx} (h : s.Canonical) : (sealBatch r s).Canonical := ite_canonical h (State.setRes_canonical h)

theorem execOxl_lands {a b : Reg} : Lands s (execOxl a b s) :=
  withX_lands id id fun _ _ h => localAccess_lands id h fun _ h1 => retire_lands fun c => writeOx_canonical (h1 c)

theorem execTspill_lands  : Lands s (execTspill s) := by
  unfold execTspill
  refine atTrapLevel_lands id ?_
  split
  · exact areaAccess_lands id fun _ _ h => startArea_lands h
  · exact ite_lands (stall_lands id) (retire_lands fun c => State.setSt_canonical c)

theorem execTfill_lands  : Lands s (execTfill s) := by
  unfold execTfill
  refine atTrapLevel_lands id ?_
  split
  · exact areaAccess_lands id fun _ _ h => startArea_lands h
  · split
    · exact stall_lands id
    · dsimp only
      split
      · exact trap_lands fun c => State.setSt_canonical c
      · exact retire_lands fun c => restoreArea_canonical (State.setSt_canonical c)

theorem execJrec_lands {a b : Reg} : Lands s (execJrec a b s) := by
  unfold execJrec
  dsimp only
  split
  · exact trap_lands id
  · exact withRoomX_lands id (ite_lands (finishX_lands id) (ite_lands (stall_lands id) (localAccess_lands id id fun _ h => finishX_lands fun c =>
      State.setRs_canonical (h c))))

theorem execEmit_lands {b c : Reg} : Lands s (execEmit b c s) := by
  unfold execEmit
  refine withV_lands id id fun x s1 h => ?_
  dsimp only
  split
  · exact trap_lands id
  · exact sendChecks_lands id (retire_lands fun c => appendEntries_canonical (h c))

end

end Sys2Proof.Machine
end

section
/-! Canonical memories: the device steps of streams, residencies and the dispatcher (R13 to R39, R285 to R309). -/

namespace Sys2Proof.Machine

/-- Whether the state that an access of a device answers, if it is one, is canonical. -/
def Served.Canonical : Served → Prop
  | .wait => True
  | .fault _ _ s => s.Canonical
  | .done _ _ _ s => s.Canonical

section
variable {s s0 t : State}

/-- An option that is no state, made into one. -/
theorem map_any_ifSome {α β : Type} {P : β → Prop} {o : Option α} {f : α → β} (hf : ∀ x, P (f x)) : IfSome P (o.map f) :=
  map_ifSome (P := fun _ => True) (fun _ _ => trivial) fun x _ => hf x

/-! ## Bytes that a device reads and writes column by column -/

theorem devRead_canonical {asid : Asid} (fuel : Nat) : ∀ (va n : Nat) {s : State}, s.Canonical → (devRead asid va n s fuel).Canonical := by
  induction fuel with
  | zero => exact fun _ _ _ h => h
  | succ fuel ih =>
    intro va n s h
    unfold devRead
    split
    · exact h
    split
    · rename_i e
      exact (translateStack_canonical h).of_eq e
    · trivial
    rename_i e
    have h1 := (translateStack_canonical h).of_eq e
    split
    · exact h1
    dsimp only
    split
    · trivial
    split
    · trivial
    rename_i e2
    have h2 := openColumn_canonical h1 _ e2
    split
    · rename_i e3
      have h3 := ih (va + min n (16 - va % 16)) (n - min n (16 - va % 16)) ((beatRead_canonical h2).of_eq e3)
      split
      · rename_i e4
        rw [e4] at h3
        exact h3
      · exact h3
    · rename_i e3
      exact (beatRead_canonical h2).of_eq e3

theorem devWrite_canonical {asid : Asid} (fuel : Nat) : ∀ (va : Nat) (bs : List Byte) {s : State}, s.Canonical →
    (devWrite asid va bs s fuel).Canonical := by
  induction fuel with
  | zero => exact fun _ _ _ h => h
  | succ fuel ih =>
    intro va bs s h
    unfold devWrite
    split
    · exact h
    split
    · rename_i e
      exact (translateStack_canonical h).of_eq e
    · trivial
    rename_i e
    have h1 := (translateStack_canonical h).of_eq e
    have hw {p : Place} {bs : List Byte} := bind_ifSome (openColumn_canonical (p := p) h1)
      fun _ h2 => storeColumn_canonical (asid := asid) (va := va) (p := p) (bs := bs) h2
    split
    · exact h1
    split
    · trivial
    dsimp only
    split
    · trivial
    split
    · trivial
    · rename_i e2
      exact ih _ _ (hw _ e2)
    · rename_i e2
      exact hw _ e2

/-- What an access gives that has ended well. -/
theorem Served.Canonical.of_done {x : Served} (h : x.Canonical) {st d : Nat} {bs : List Byte} (e : x = .done st d bs t) : t.Canonical := by
  subst e
  exact h

theorem Served.Canonical.of_fault {x : Served} (h : x.Canonical) {why va : Nat} (e : x = .fault why va t) : t.Canonical := by
  subst e
  exact h

theorem devBytes_canonical {asid : Asid} {va n : Nat} (h : s.Canonical) : IfSome (fun x => x.2.Canonical) (devBytes asid va n s) := by
  unfold devBytes
  split
  · rename_i e
    exact some_pair ((devRead_canonical _ _ _ h).of_done e)
  · exact none_ifSome

theorem devPut_canonical {asid : Asid} {va : Nat} {bs : List Byte} (h : s.Canonical) : IfSome State.Canonical (devPut asid va bs s) := by
  unfold devPut
  split
  · rename_i e
    exact some_ifSome ((devWrite_canonical _ _ _ h).of_done e)
  · exact none_ifSome

/-! ## Streams, residencies and the dispatcher -/

theorem notify_canonical {code : Nat} {v : Word} (h : s.Canonical) : (notify code v s).Canonical := h

theorem raiseVector_canonical {v : Nat} (h : s.Canonical) : (raiseVector v s).Canonical := ite_canonical h h

theorem raisePending_canonical (h : s.Canonical) : (raisePending s).Canonical := h

theorem spillMessage_canonical {asid : Asid} {gen : BitVec 4} {m : Msg} {tick : Word} (h : s.Canonical) :
    IfSome State.Canonical (spillMessage asid gen m tick s) := by
  unfold spillMessage
  split
  · exact none_ifSome
  · split
    · exact none_ifSome
    · rename_i e1
      have h1 := (devBytes_canonical h) _ e1
      dsimp only
      split
      · exact none_ifSome
      · split
        · exact none_ifSome
        · rename_i e2
          have h2 := (devPut_canonical h1) _ e2
          exact devPut_canonical h2

theorem spillTake_canonical {asid : Asid} {gen : BitVec 4} (h : s.Canonical) : IfSome (fun x => x.2.Canonical) (spillTake asid gen s) := by
  unfold spillTake
  split
  · exact some_pair h
  · split
    · exact none_ifSome
    · rename_i e1
      have h1 := (devBytes_canonical h) _ e1
      dsimp only
      split
      · exact some_pair h1
      · split
        · exact none_ifSome
        · rename_i e2
          have h2 := (devBytes_canonical h1) _ e2
          split
          · exact none_ifSome
          · rename_i e3
            have h3 := (devPut_canonical h2) _ e3
            exact some_pair h3

theorem noteExpiry_canonical {r : ResIx} (h : s.Canonical) : (noteExpiry r s).Canonical := by
  unfold noteExpiry
  split
  · exact h
  · exact ite_canonical (State.setRes_canonical h) h

theorem takeWdog_lands {slot : SlotIx} {t' : Task} (h : Keeps s0 s) : Lands s0 (takeWdog slot t' s) := by
  unfold takeWdog
  dsimp only
  split
  · exact next_lands fun c => killResidency_canonical (h c)
  · exact ite_lands (stall_lands fun c => h c) (next_lands fun c => takeTrap_canonical (State.setTask_canonical (h c)))

theorem advancePhase_canonical {gang : BitVec 16} (h : s.Canonical) : (advancePhase gang s).Canonical := by
  refine (h.setMates (h.mates.map fun x hx => ?_)).of_same ⟨rfl, rfl, rfl⟩ ⟨rfl, rfl⟩ rfl ⟨rfl, rfl⟩
  intro m hm
  obtain ⟨y, hy, rfl⟩ := List.mem_map.mp hm
  split <;> exact hx y hy

theorem continueAt_canonical {gang : BitVec 16} {scope : BitVec 3} {off : Word} (h : s.Canonical) : (continueAt gang scope off s).Canonical := by
  unfold continueAt
  split
  · dsimp only
    split
    · exact State.setRes_canonical h
    · exact ite_canonical (arriveInbound_canonical (State.setRes_canonical h)) (decRecord_canonical (State.setRes_canonical h))
  · split
    · exact h
    · exact ite_canonical h (arriveInbound_canonical h)

theorem releaseBarrier_canonical {gang : BitVec 16} {scope : BitVec 3} {core : BitVec 32} (h : s.Canonical) :
    (releaseBarrier gang scope core s).Canonical := by
  unfold releaseBarrier
  split
  · dsimp only
    split
    · exact ite_canonical (advancePhase_canonical h) h
    · exact continueAt_canonical (ite_canonical (advancePhase_canonical h) h)
  · exact h

theorem leaveBarriers_canonical {gang : BitVec 16} {core : BitVec 32} (h : s.Canonical) : (leaveBarriers gang core s).Canonical :=
  foldl_canonical (fun _ _ h1 => releaseBarrier_canonical h1) h

theorem leaveGang_canonical {gang : BitVec 16} {core : BitVec 32} {killed : Bool} (h : s.Canonical) : (leaveGang gang core killed s).Canonical :=
  ite_canonical h (leaveBarriers_canonical h)

theorem State.setSlew_canonical {u : Slew} (h : s.Canonical) : (State.setSlew s u).Canonical := h

theorem releaseMultiplier_canonical (h : s.Canonical) : (releaseMultiplier s).Canonical :=
  (quadRelease_canonical h).setCore (quadRelease_canonical h).spad Memory.wf_nil Memory.wf_nil

theorem returnResidency_canonical {r : ResIx} (h : s.Canonical) : (returnResidency r s).Canonical :=
  leaveGang_canonical (State.setRes_canonical (State.setSlew_canonical (ite_canonical h (releaseMultiplier_canonical h))))

theorem tryResidencyRelease_canonical {r : ResIx} (h : s.Canonical) : IfSome State.Canonical (tryResidencyRelease r s) := by
  unfold tryResidencyRelease
  split
  · exact some_ifSome (returnResidency_canonical h)
  · exact none_ifSome

theorem tryClearEnd_canonical {r : ResIx} (h : s.Canonical) : IfSome State.Canonical (tryClearEnd r s) := by
  unfold tryClearEnd
  dsimp only
  split
  · split <;> exact some_ifSome (State.setRes_canonical h)
  · exact none_ifSome

theorem tryOverflowMove_canonical {r : ResIx} (h : s.Canonical) : IfSome State.Canonical (tryOverflowMove r s) := by
  unfold tryOverflowMove
  split
  · exact none_ifSome
  · split
    · exact some_ifSome (State.setRes_canonical h)
    · exact none_ifSome

theorem startTask_canonical {r : ResIx} {trigger : Trigger} {d : Descriptor} {hdr : Word} {p : Nat → Word} (h : s.Canonical) :
    (startTask r trigger d hdr p s).Canonical :=
  State.setRes_canonical (foldl_canonical (fun _ _ h1 => h1) h)

theorem startLaunch_canonical {r : ResIx} (h : s.Canonical) : (startLaunch r s).Canonical := startTask_canonical (State.setRes_canonical h)

theorem dropRecord_canonical {r : ResIx} {off : Nat} (h : s.Canonical) : (dropRecord r off s).Canonical :=
  logAbort_canonical (setRecBit_canonical (setRecBit_canonical h))

theorem startRecord_canonical {r : ResIx} {off : Nat} (h : s.Canonical) : (startRecord r off s).Canonical := by
  unfold startRecord
  dsimp only
  split
  · exact dropRecord_canonical h
  · split
    · exact readyRecord_canonical (setRecBit_canonical (setRecBit_canonical (startTask_canonical h)))
    · exact setRecBit_canonical (startTask_canonical h)

theorem startMessage_canonical {r : ResIx} {m : Msg} (h : s.Canonical) : (startMessage r m s).Canonical := startTask_canonical (setRx_canonical h)

theorem tryDispatch_canonical (h : s.Canonical) : IfSome State.Canonical (tryDispatch s) := by
  unfold tryDispatch
  split
  · exact none_ifSome
  · split
    · exact none_ifSome
    · split
      · exact some_ifSome (startLaunch_canonical h)
      · exact some_ifSome (startRecord_canonical h)
      · exact some_ifSome (startMessage_canonical h)

theorem tryArmedStart_canonical {r : ResIx} (h : s.Canonical) : IfSome State.Canonical (tryArmedStart r s) := by
  unfold tryArmedStart
  dsimp only
  split
  · exact some_ifSome (startLaunch_canonical (State.setRes_canonical h))
  · exact none_ifSome

theorem tryRemotePerform_canonical {i : Nat} (h : s.Canonical) : IfSome State.Canonical (tryRemotePerform i s) := by
  unfold tryRemotePerform
  split
  · split
    · exact some_ifSome (vecStep_canonical h)
    · exact none_ifSome
  · split
    · exact none_ifSome
    · exact some_ifSome (performRemote_canonical h)

theorem tryQuadMerge_canonical (h : s.Canonical) : IfSome State.Canonical (tryQuadMerge s) := by
  unfold tryQuadMerge
  dsimp only
  split
  · exact some_ifSome (State.setSlew_canonical h)
  · exact none_ifSome

theorem afterWork_canonical {ended : Bool} (h : s.Canonical) : (afterWork ended t s).Canonical := by
  unfold afterWork
  split
  · dsimp only
    refine foldl_canonical (fun _ _ h1 => finishKill_canonical h1) (settleLeave_canonical ?_)
    split
    · exact h
    · exact postReply_canonical (landed_canonical h)
  · exact h

theorem slewRun_canonical {p : Slew × SlewRegion → Slew × SlewRegion → Bool} {n : Nat} (h : s.Canonical) :
    IfSome State.Canonical (slewRun p n s) := by
  unfold slewRun
  exact map_any_ifSome fun _ => afterWork_canonical (h.of_same ⟨rfl, rfl, rfl⟩ ⟨rfl, rfl⟩ rfl ⟨rfl, rfl⟩)

theorem trySlewGrant_canonical (h : s.Canonical) : IfSome State.Canonical (trySlewGrant s) := by
  unfold trySlewGrant
  split
  · exact slewRun_canonical h
  · exact none_ifSome

theorem trySlewStep_canonical (h : s.Canonical) : IfSome State.Canonical (trySlewStep s) := by
  unfold trySlewStep
  dsimp only
  split
  · exact none_ifSome
  · split
    · split
      · exact none_ifSome
      · exact slewRun_canonical h
    · exact slewRun_canonical h

theorem trySliceWorkEnd_canonical (h : s.Canonical) : IfSome State.Canonical (trySliceWorkEnd s) := by
  unfold trySliceWorkEnd
  split
  · exact none_ifSome
  · split
    · exact none_ifSome
    · exact slewRun_canonical h

theorem execWdog_lands {slot : SlotIx} : Lands s (execWdog slot s) := by
  unfold execWdog
  dsimp only
  split
  · split
    · exact next_lands id
    · exact ite_lands (takeWdog_lands fun c => noteExpiry_canonical c) (next_lands id)
  · exact next_lands id

end

end Sys2Proof.Machine
end

section
/-! Canonical memories: leaving the stack (R350 to R359). -/

namespace Sys2Proof.Machine

section
variable {s s0 t : State}

theorem setModule_canonical {k : Fin 8} {x : Module} (h : s.Canonical) : (setModule k x s).Canonical := h

theorem crossStack_canonical {stack quad : Nat} {m : Msg} (h : s.Canonical) : (crossStack stack quad m s).Canonical := h

theorem setFlow_canonical {f : Nat} {x : Flow} (h : s.Canonical) : (setFlow f x s).Canonical := h

theorem takePort_canonical (h : s.Canonical) : (takePort s).2.Canonical := by
  unfold takePort
  dsimp only
  split
  · exact State.nextFree_canonical h
  · exact h
  · exact h
  · exact h

theorem sendPacket_canonical {f : Nat} {num : BitVec 32} {m : Msg} (h : s.Canonical) : (sendPacket f num m s).Canonical := by
  unfold sendPacket
  split
  · rename_i e
    have h1 := (takePort_canonical h).of_eq e
    exact setFlow_canonical h1
  · rename_i e
    have h1 := (takePort_canonical h).of_eq e
    split
    · exact h1
    · exact crossStack_canonical h1

theorem fabricSend_canonical {stack : Nat} {m : Msg} (h : s.Canonical) : (fabricSend stack m s).Canonical :=
  sendPacket_canonical (setFlow_canonical h)

end

end Sys2Proof.Machine
end

section
/-! Canonical memories: the matrix port (R169 to R173). -/

namespace Sys2Proof.Machine

open Sys2Proof.Spec (okIn multCheck_okIn ite_okIn)

/-- Whether the state that a command of the port answers, if it is one, is canonical. -/
def Command.Canonical : Command → Prop
  | .illegal => True
  | .op w _ => okIn State.Canonical w

section
variable {s s0 t : State}

theorem answer_canonical {status reason info : Nat} {data : List Word} {m : Msg} (h : s.Canonical) : (answer status reason info data m s).Canonical :=
  postReply_canonical (landed_canonical h)

theorem answerDone_canonical {data : List Word} {m : Msg} (h : s.Canonical) : (answerDone data m t s).Canonical := by
  unfold answerDone
  exact ite_canonical (answer_canonical h) (h.of_same ⟨rfl, rfl, rfl⟩ ⟨rfl, rfl⟩ rfl ⟨rfl, rfl⟩)

theorem portStep_canonical {hidxs : List Nat} {right : Option Nat} {run : Msg → ResIx → State → Command} (h : s.Canonical)
    (hr : ∀ m r, (run m r s).Canonical) : IfSome State.Canonical (portStep hidxs right run s) := by
  unfold portStep
  split
  · exact none_ifSome
  · rename_i m rest e
    have hd : (dropDead 6 m { s with core := { s.core with portQ := rest } }).Canonical := dropDead_canonical (by exact h)
    refine ite_ifSome none_ifSome (ite_ifSome (some_ifSome (landed_canonical hd)) (ite_ifSome (some_ifSome (answer_canonical h)) ?_))
    split
    · exact some_ifSome (answer_canonical h)
    · rename_i r er
      have h1 := hr m r
      split
      · exact some_ifSome (answer_canonical h)
      · exact none_ifSome
      · rename_i e1
        rw [e1] at h1
        exact some_ifSome (answerDone_canonical h1)
      · exact some_ifSome (answer_canonical (State.nextFree_canonical h))

/-! ## The commands -/

theorem ite_command_canonical {c : Prop} [Decidable c] {a b : Command} (ha : a.Canonical) (hb : b.Canonical) : (if c then a else b).Canonical := by
  split
  · exact ha
  · exact hb

theorem runMcfg_canonical {m : Msg} {r : ResIx} (h : s.Canonical) : (runMcfg m r s).Canonical := by
  unfold runMcfg
  refine ite_command_canonical trivial ?_
  have hg := guardOp_canonical (r := r) (x := BitVec.ofNat 64 (cmdWord m 1)) h
  split
  · rename_i e
    rw [e] at hg
    exact ite_okIn (joinOp_canonical hg) hg
  · exact hg

theorem runMpack_canonical {m : Msg} {r : ResIx} (h : s.Canonical) : (runMpack m r s).Canonical := ite_command_canonical trivial (packOp_canonical h)

theorem runMmar_canonical {m : Msg} {r : ResIx} (h : s.Canonical) : (runMmar m r s).Canonical := ite_command_canonical trivial (mmarOp_canonical h)

theorem runMzero_canonical {m : Msg} {r : ResIx} (h : s.Canonical) : (runMzero m r s).Canonical := ite_command_canonical trivial (acczOp_canonical h)

theorem runMextr_canonical {m : Msg} {r : ResIx} (h : s.Canonical) : (runMextr m r s).Canonical :=
  ite_command_canonical trivial (extractCheck_canonical fun _ => h)

theorem runMstat_canonical {m : Msg} {r : ResIx} (h : s.Canonical) : (runMstat m r s).Canonical :=
  ite_command_canonical trivial (accReadOp_canonical fun _ => h)

theorem execMcfg_lands : Lands s (execMcfg s) := orStay_lands id fun c => portStep_canonical c fun _ _ => runMcfg_canonical c

theorem execMpack_lands : Lands s (execMpack s) := orStay_lands id fun c => portStep_canonical c fun _ _ => runMpack_canonical c

theorem execMmarCommand_lands : Lands s (execMmarCommand s) := orStay_lands id fun c => portStep_canonical c fun _ _ => runMmar_canonical c

theorem execMzero_lands : Lands s (execMzero s) := orStay_lands id fun c => portStep_canonical c fun _ _ => runMzero_canonical c

theorem execMextr_lands : Lands s (execMextr s) := orStay_lands id fun c => portStep_canonical c fun _ _ => runMextr_canonical c

theorem execMstat_lands : Lands s (execMstat s) := orStay_lands id fun c => portStep_canonical c fun _ _ => runMstat_canonical c

theorem execIllcmd_lands : Lands s (execIllcmd s) := orStay_lands id fun c => portStep_canonical c fun _ _ => trivial

end

end Sys2Proof.Machine
end

section
/-! Canonical memories: the steps of the network (R196 to R214, R292, R310). -/

namespace Sys2Proof.Machine

section
variable {s s0 t : State}

theorem refuseAtPort_canonical {m : Msg} (h : s.Canonical) : (refuseAtPort m s).Canonical :=
  landed_canonical (ite_canonical (postReply_canonical h) (dropDead_canonical h))

theorem route_canonical {m : Msg} (h : s.Canonical) : (route m s).Canonical := by
  unfold route
  dsimp only
  split
  · exact landed_canonical (dropDead_canonical h)
  · split
    · split
      · exact fabricSend_canonical (routeVault_canonical h)
      · split
        · exact crossStack_canonical (routeVault_canonical h)
        · exact enqueueJob_canonical (ite_canonical (giveSink_canonical (routeVault_canonical h)) (routeVault_canonical h))
    · split
      · exact fabricSend_canonical h
      · split
        · exact crossStack_canonical h
        · split
          · exact landed_canonical (dropDead_canonical h)
          · exact ite_canonical (arriveInbound_canonical h) (ite_canonical (refuseAtPort_canonical h) h)

theorem depart_canonical {gang : BitVec 16} {buf : Nat} {m : Msg} (h : s.Canonical) : (depart gang buf m s).Canonical := route_canonical h

theorem performed_canonical {m : Msg} {status : BitVec 8} {served : Nat} (h : s.Canonical) : (performed m status served s).Canonical := by
  unfold performed
  split
  · exact h
  · exact ite_canonical (depart_canonical (landed_canonical h)) (landed_canonical h)

theorem tryAgentCompletion_canonical (h : s.Canonical) : IfSome State.Canonical (tryAgentCompletion s) := by
  unfold tryAgentCompletion
  split
  · exact none_ifSome
  · exact some_ifSome (performed_canonical h)

theorem deliverFar_canonical {i : Nat} {status : BitVec 8} {served : Nat} (h : s.Canonical) :
    IfSome State.Canonical (deliverFar i status served s) := by
  unfold deliverFar
  split
  · exact none_ifSome
  · split
    · exact none_ifSome
    · exact some_ifSome (performed_canonical h)

theorem tryFarDelivery_canonical (h : s.Canonical) : IfSome State.Canonical (tryFarDelivery s) := deliverFar_canonical h

theorem agentStep_lands {hidx : BitVec 8} {m : Option Msg} (h : Keeps s0 s) : Lands s0 (agentStep hidx m s) := by
  unfold agentStep
  split
  · exact orStay_lands h fun c => serveNext_canonical (h c)
  · split
    · exact orStay_lands (fun c => route_canonical (h c)) fun c => serveNext_canonical (route_canonical (h c))
    · exact next_lands h

theorem forgetSignal_canonical {r : ResIx} (h : s.Canonical) : (forgetSignal r s).Canonical := h

theorem ackArrives_canonical {asid : Asid} {gen : BitVec 4} (h : s.Canonical) : (ackArrives asid gen s).Canonical := by
  unfold ackArrives
  dsimp only
  split
  · split
    · exact h
    · exact ite_canonical (arriveInbound_canonical (forgetSignal_canonical h)) (freeSinks_canonical (forgetSignal_canonical h))
  · exact ite_canonical (arriveInbound_canonical h) h

theorem acknowledge_canonical {m : Msg} (h : s.Canonical) : (acknowledge m s).Canonical := ite_canonical h (ite_canonical (ackArrives_canonical h) h)

theorem divert_canonical {back : Bool} {asid : Asid} {gen : BitVec 4} {m : Msg} {tick : Word} (h : s.Canonical) :
    IfSome State.Canonical (divert back asid gen m tick s) := by
  unfold divert
  split
  · exact none_ifSome
  · rename_i e
    have h1 := (spillMessage_canonical h) _ e
    extract_lets s1'
    have h1' : s1'.Canonical := ite_canonical (giveSink_canonical h1) h1
    clear_value s1'
    exact some_ifSome (ite_canonical (acknowledge_canonical h1') h1')

theorem trySpillNotice_canonical (h : s.Canonical) : IfSome State.Canonical (trySpillNotice s) := by
  unfold trySpillNotice
  refine findSome?_ifSome fun b => ?_
  split
  · refine bind_any_ifSome fun x => ?_
    split
    · exact none_ifSome
    · exact some_ifSome (notify_canonical h)
  · exact none_ifSome

theorem moveMail_canonical {r : ResIx} (h : s.Canonical) : IfSome State.Canonical (moveMail r s) := by
  unfold moveMail
  extract_lets mine oldest
  clear_value oldest
  cases oldest with
  | none => exact none_ifSome
  | some e => exact ite_ifSome none_ifSome (divert_canonical (setRx_canonical h))

theorem receive_canonical {r : ResIx} {m : Msg} (h : s.Canonical) : IfSome State.Canonical (receive r m s) := by
  unfold receive
  extract_lets x vn _ s1
  have h1 : s1.Canonical := ite_canonical (forgetSignal_canonical h) h
  clear_value s1
  exact ite_ifSome (some_ifSome h) (ite_ifSome (some_ifSome (freeSinks_canonical h)) (ite_ifSome (some_ifSome (dropMessage_canonical h1))
    (ite_ifSome (some_ifSome (dropDead_canonical h1)) (ite_ifSome none_ifSome (some_ifSome (setRx_canonical h1))))))

theorem taken_canonical {m : Msg} (h : s.Canonical) : (taken m s).Canonical := ite_canonical h (landed_canonical h)

theorem arriveForContext_canonical {m : Msg} {tick : Word} (h : s.Canonical) : IfSome State.Canonical (arriveForContext m tick s) := by
  unfold arriveForContext
  split
  · dsimp only
    split
    · exact some_ifSome (landed_canonical (dropDead_canonical h))
    · split
      · split
        · exact none_ifSome
        · exact map_ifSome (divert_canonical h) fun _ h1 => landed_canonical h1
      · split
        · exact map_ifSome (divert_canonical h) fun _ h1 => ite_canonical (State.setRes_canonical (landed_canonical h1)) (landed_canonical h1)
        · exact map_ifSome (receive_canonical h) fun _ h1 => taken_canonical h1
  · split
    · exact map_ifSome (divert_canonical h) fun _ h1 => landed_canonical h1
    · exact some_ifSome (landed_canonical (dropDead_canonical h))

theorem arriveHere_canonical {m : Msg} {tick : Word} (h : s.Canonical) : IfSome State.Canonical (arriveHere m tick s) := by
  unfold arriveHere
  split
  · split
    · exact some_ifSome h
    · exact some_ifSome (refuseAtPort_canonical h)
  · split
    · exact some_ifSome (landed_canonical (dropDead_canonical h))
    · split
      · exact some_ifSome (refuseAtPort_canonical h)
      · exact arriveForContext_canonical h

theorem takeInbound_canonical (h : s.Canonical) (l : List (Msg × Word)) : ∀ held, IfSome (fun x => x.2.Canonical) (takeInbound s l held) := by
  induction l with
  | nil => exact fun _ => none_ifSome
  | cons e rest ih =>
    intro held
    have later (held : List (BitVec 2)) : IfSome (fun x : Nat × State => x.2.Canonical) ((takeInbound s rest held).map fun e => (e.1 + 1, e.2)) :=
      map_ifSome (ih held) fun _ hx => hx
    unfold takeInbound
    refine ite_ifSome (later held) ?_
    split
    · rename_i e1
      exact some_pair (arriveHere_canonical h _ e1)
    · exact later _

theorem deliverMail_canonical {r : ResIx} (h : s.Canonical) : IfSome State.Canonical (deliverMail r s) := by
  unfold deliverMail
  split
  · exact none_ifSome
  · rename_i e
    have h1 := (spillTake_canonical h) _ e
    exact some_ifSome (State.setRes_canonical h1)
  · rename_i e
    have h1 := (spillTake_canonical h) _ e
    extract_lets _ s1'
    have h1' : s1'.Canonical := ite_canonical (State.setRes_canonical h1) h1
    clear_value s1'
    split
    · exact some_ifSome (dropDead_canonical h1')
    · split
      · exact some_ifSome (decRecord_canonical h1')
      · exact receive_canonical h1'

theorem tryEnqueue_canonical (h : s.Canonical) : IfSome State.Canonical (tryEnqueue s) := by
  unfold tryEnqueue
  split
  · rename_i e
    exact some_ifSome ((findSome?_ifSome fun _ => moveMail_canonical h) _ e)
  split
  · rename_i e
    exact some_ifSome ((findSome?_ifSome fun _ => ite_ifSome (deliverMail_canonical h) none_ifSome) _ e)
  split
  · exact none_ifSome
  · rename_i e
    have h1 := takeInbound_canonical h _ _ _ e
    exact some_ifSome h1

theorem awaitAck_canonical {asid : Asid} {gen : BitVec 4} (h : s.Canonical) : (awaitAck asid gen s).Canonical := by
  unfold awaitAck
  split
  · exact State.setRes_canonical h
  · exact h

theorem departSignal_canonical {gang : BitVec 16} {buf : Nat} {m : Msg} (h : s.Canonical) : (departSignal gang buf m s).Canonical :=
  ite_canonical (depart_canonical (awaitAck_canonical h)) h

theorem tryDepart_canonical (h : s.Canonical) : IfSome State.Canonical (tryDepart s) := by
  unfold tryDepart
  split
  · exact some_ifSome (route_canonical h)
  · split
    · exact none_ifSome
    · dsimp only
      split
      · exact some_ifSome (ite_canonical (departSignal_canonical h) (depart_canonical h))
      · exact some_ifSome h

theorem trySignalDecrement_canonical (h : s.Canonical) : IfSome State.Canonical (trySignalDecrement s) := by
  unfold trySignalDecrement
  split
  · exact none_ifSome
  · dsimp only
    split
    · exact none_ifSome
    · split
      · split
        · exact arriveForContext_canonical h
        · exact some_ifSome (landed_canonical (acknowledge_canonical (decRecord_canonical h)))
      · exact arriveForContext_canonical h

theorem tryBounce_canonical (h : s.Canonical) : IfSome State.Canonical (tryBounce s) := by
  unfold tryBounce
  split
  · exact none_ifSome
  · exact some_ifSome (postReply_canonical h)

theorem recordArrival_canonical {gang : BitVec 16} {scope : BitVec 3} {core : BitVec 32} {off : Word} (h : s.Canonical) :
    (recordArrival gang scope core off s).Canonical :=
  releaseBarrier_canonical h

theorem tryBarrierArrival_canonical {gang : BitVec 16} {scope : BitVec 3} {core : BitVec 32} (h : s.Canonical) :
    IfSome State.Canonical (tryBarrierArrival gang scope core s) := by
  unfold tryBarrierArrival
  split
  · split
    · exact none_ifSome
    · exact some_ifSome (ite_canonical (recordArrival_canonical h) h)
  · split
    · exact some_ifSome (recordArrival_canonical h)
    · exact none_ifSome

theorem flushEntries_canonical (n : Nat) : ∀ {s : State}, s.Canonical → (flushEntries s n).Canonical := by
  induction n with
  | zero => exact fun h => h
  | succ n ih =>
    intro s h
    unfold flushEntries
    split
    · exact h
    · exact ite_canonical h (ih (raiseVector_canonical (by exact h)))

theorem flushAll_canonical (h : s.Canonical) : (flushAll s).Canonical := flushEntries_canonical _ h

theorem reportEnd_canonical {g : Gang} (h : s.Canonical) : (reportEnd g s).Canonical :=
  ite_canonical (flushAll_canonical (ite_canonical (postReply_canonical h) h)) (ite_canonical (postReply_canonical h) h)

theorem unbindMates_canonical {gang : BitVec 16} (h : s.Canonical) : (unbindMates gang s).Canonical :=
  (h.setMates (h.mates.map fun _ hx m hm => hx m (List.mem_of_mem_filter hm))).of_same ⟨rfl, rfl, rfl⟩ ⟨rfl, rfl⟩ rfl ⟨rfl, rfl⟩

theorem tryGangEnd_canonical {gang : BitVec 16} (h : s.Canonical) : IfSome State.Canonical (tryGangEnd gang s) := by
  unfold tryGangEnd
  split
  · exact none_ifSome
  · split
    · exact some_ifSome (unbindMates_canonical (ite_canonical h (reportEnd_canonical h)))
    · exact none_ifSome

theorem execMessageEnqueue_lands {m : Option Msg} : Lands s (execMessageEnqueue m s) := by
  unfold execMessageEnqueue
  split
  · exact orStay_lands id fun h => tryEnqueue_canonical h
  · exact ite_lands (orStay_lands (fun c => route_canonical c) fun h => tryEnqueue_canonical (route_canonical h)) (next_lands id)

end

end Sys2Proof.Machine
end

section
/-! Canonical memories: the manager: launches, bindings and releases (R283 to R318). -/

namespace Sys2Proof.Machine

section
variable {s s0 t : State}

theorem nextRecord_canonical {ring : Fin 24} (h : s.Canonical) : IfSome (fun x => x.2.Canonical) (nextRecord ring s) := by
  unfold nextRecord
  dsimp only
  split
  · exact none_ifSome
  · exact map_ifSome (devBytes_canonical h) fun _ h1 => h1

theorem closeRecord_canonical {ring : Fin 24} {st : Refused} (h : s.Canonical) : IfSome State.Canonical (closeRecord ring st s) :=
  map_ifSome (devPut_canonical h) fun _ h1 => h1

theorem trySealReread_canonical {ring : Fin 24} (h : s.Canonical) : IfSome State.Canonical (trySealReread ring s) := by
  unfold trySealReread
  split
  · exact none_ifSome
  · rename_i e
    have h1 := (nextRecord_canonical h) _ e
    dsimp only
    split
    · exact none_ifSome
    · split
      · exact closeRecord_canonical h1
      · exact some_ifSome h1

theorem notifyRing_canonical {ring : Fin 8} {pi : BitVec 32} (h : s.Canonical) : (notifyRing ring pi s).Canonical := setProducer_canonical h

theorem tryNotifyGo_canonical (h : s.Canonical) : IfSome State.Canonical (tryNotifyGo s) := by
  unfold tryNotifyGo
  split
  · exact none_ifSome
  · split
    · exact none_ifSome
    · exact some_ifSome (notifyRing_canonical h)

theorem bindResidency_canonical {at_ : ResIx} {x : Residency} (h : s.Canonical) : (bindResidency at_ x s).Canonical := by
  unfold bindResidency
  extract_lets lo hi s1 _ s2
  have h1 : s1.Canonical := ite_canonical h (releaseMultiplier_canonical h)
  have h2 : s2.Canonical := h1.setSpad (Memory.wf_clearRange _ _ _ h1.spad) rfl rfl
  clear_value s2
  exact State.setRes_canonical h2

theorem bindMate_canonical {g : Gang} {k : Fin 4} (h : s.Canonical) : (bindMate g k s).Canonical := by
  unfold bindMate
  dsimp only
  refine ite_canonical h ((h.setMates (h.mates.vset k fun m hm => ?_)).of_same ⟨rfl, rfl, rfl⟩ ⟨rfl, rfl⟩ rfl ⟨rfl, rfl⟩)
  rcases List.mem_append.mp hm with hm | hm
  · exact h.mates k m hm
  · rw [List.mem_singleton.mp hm]
    exact Memory.wf_nil

theorem bindMates_canonical {g : Gang} (h : s.Canonical) : (bindMates g s).Canonical := foldl_canonical (fun _ _ h1 => bindMate_canonical h1) h

theorem addGang_canonical {p : BitVec 1024} {ring : Option (Fin 24)} {pos : BitVec 32} {forwarded : Option (BitVec 17)}
    {reported : List (BitVec 17 × BitVec 8)} {quads : List (BitVec 17 × BitVec 13)} {bank : BitVec 4} (h : s.Canonical) :
    (addGang p ring pos forwarded reported quads bank s).Canonical :=
  ite_canonical h (bindMates_canonical h)

theorem placeGang_canonical {p : BitVec 1024} {ring : Option (Fin 24)} {pos : BitVec 32} {forwarded : Option (BitVec 17)}
    {reported : List (BitVec 17 × BitVec 8)} {at_ : Option Placement} (h : s.Canonical) :
    IfSome State.Canonical (placeGang p ring pos forwarded reported at_ s) := by
  unfold placeGang
  dsimp only
  split
  · split
    · exact none_ifSome
    · exact some_ifSome (addGang_canonical h)
  · split
    · exact none_ifSome
    · split
      · split
        · exact some_ifSome (addGang_canonical h)
        · exact none_ifSome
      · split
        · exact none_ifSome
        · split
          · exact none_ifSome
          · split
            · exact none_ifSome
            · exact some_ifSome (addGang_canonical (bindResidency_canonical h))

theorem placeAnywhere_canonical {p : BitVec 1024} {ring : Option (Fin 24)} {pos : BitVec 32} {forwarded : Option (BitVec 17)}
    {reported : List (BitVec 17 × BitVec 8)} {at_ : Option Placement} (h : s.Canonical) :
    IfSome State.Canonical (placeAnywhere p ring pos forwarded reported at_ s) :=
  orElse_ifSome (placeGang_canonical h) fun _ => findSome?_ifSome fun _ => bind_any_ifSome fun _ => placeGang_canonical h

theorem freeGang_canonical {gang : BitVec 16} (h : s.Canonical) : (freeGang gang s).Canonical := by
  unfold freeGang
  extract_lets s1 s2 _
  have h1 : s1.Canonical := by
    unfold s1
    split
    · exact h
    · exact State.setRes_canonical (ite_canonical h (releaseMultiplier_canonical h))
  have h2 : s2.Canonical := unbindMates_canonical h1
  clear_value s1 s2
  exact h2

theorem reportLaunch_canonical {gang : BitVec 16} {st : Refused} (h : s.Canonical) : (reportLaunch gang st s).Canonical := h

theorem sendLaunch_canonical {p : BitVec 1024} {m : LaunchMsg} (h : s.Canonical) : (sendLaunch p m s).Canonical := h

theorem placeOrWait_canonical {p : BitVec 1024} {ring : Option (Fin 24)} {pos : BitVec 32} {forwarded : Option (BitVec 17)}
    {at_ : Option Placement} (h : s.Canonical) :
    (placeOrWait p ring pos forwarded at_ s).Canonical := by
  unfold placeOrWait
  split
  · rename_i e
    exact (placeAnywhere_canonical h) _ e
  · exact h

theorem takeLaunch_canonical {p : BitVec 1024} {ring : Fin 24} {n : BitVec 32} {at_ : Option Placement} (h : s.Canonical) :
    (takeLaunch p ring n at_ s).Canonical :=
  placeOrWait_canonical (sendLaunch_canonical h)

theorem takeRecord_canonical {ring : Fin 24} {mode : Nat} {refusal : BitVec 1024 → State → Option Refused} {accepted : Nat}
    {f : BitVec 1024 → BitVec 32 → State → State} (h : s.Canonical) (hf : ∀ p n (t : State), t.Canonical → (f p n t).Canonical) :
    IfSome State.Canonical (takeRecord ring mode refusal accepted f s) := by
  unfold takeRecord
  split
  · exact none_ifSome
  · rename_i e
    have h1 := nextRecord_canonical h _ e
    refine ite_ifSome none_ifSome ?_
    split
    · exact closeRecord_canonical h1
    · exact map_ifSome (closeRecord_canonical h1) (hf _ _)

theorem startBound_canonical {gang : BitVec 16} {p : BitVec 1024} {st : BindState} (h : s.Canonical) : (startBound gang p st s).Canonical := by
  unfold startBound
  split
  · exact h
  · exact ite_canonical h (State.setRes_canonical (State.bump_canonical h))

theorem updateGang_canonical {gang : BitVec 16} {f : Gang → Gang} (h : s.Canonical) : (updateGang gang f s).Canonical := h

theorem startGang_canonical {p : BitVec 1024} (h : s.Canonical) : (startGang p s).Canonical := updateGang_canonical (startBound_canonical h)

theorem forwardStart_canonical {p : BitVec 1024} {n : BitVec 32} (h : s.Canonical) : (forwardStart p n s).Canonical := by
  unfold forwardStart
  split
  · exact h
  · exact sendLaunch_canonical h

theorem reportAt_canonical {gang : BitVec 16} {ring : Option (Fin 24)} {pos : BitVec 32} {st : Refused} (h : s.Canonical) :
    (reportAt gang ring pos st s).Canonical := by
  unfold reportAt
  split
  · exact reportLaunch_canonical h
  · dsimp only
    split
    · rename_i e
      exact (devPut_canonical h) _ e
    · exact reportLaunch_canonical h

theorem reportForward_canonical {gang : BitVec 16} {st : Refused} {src : BitVec 17} (h : s.Canonical) : (reportForward gang st src s).Canonical := h

theorem reportFate_canonical {g : Gang} {st : Refused} (h : s.Canonical) : (reportFate g st s).Canonical := reportAt_canonical h

theorem dropLaunch_canonical {w : Waiting} (h : s.Canonical) : (dropLaunch w s).Canonical := h

theorem commitGang_canonical {g : Gang} (h : s.Canonical) : (commitGang g s).Canonical :=
  ite_canonical (updateGang_canonical (startBound_canonical h)) (updateGang_canonical h)

theorem tryCommit_canonical {gang : BitVec 16} (h : s.Canonical) : IfSome State.Canonical (tryCommit gang s) := by
  unfold tryCommit
  split
  · exact none_ifSome
  · split
    · exact none_ifSome
    · split
      · exact some_ifSome (commitGang_canonical h)
      · split
        · exact some_ifSome (sendLaunch_canonical (commitGang_canonical h))
        · exact none_ifSome

theorem tryOwnCommit_canonical {gang : BitVec 16} (h : s.Canonical) : IfSome State.Canonical (tryOwnCommit gang s) := by
  unfold tryOwnCommit
  split
  · exact none_ifSome
  · split
    · exact none_ifSome
    · exact tryCommit_canonical h

theorem abortGang_canonical {g : Gang} {st : Refused} (h : s.Canonical) : (abortGang g st s).Canonical := reportFate_canonical (freeGang_canonical h)

theorem sendAbort_canonical {g : Gang} {st : Refused} (h : s.Canonical) : (sendAbort g st s).Canonical := abortGang_canonical (sendLaunch_canonical h)

theorem abortWaiting_canonical {w : Waiting} {st : Refused} (h : s.Canonical) : (abortWaiting w st s).Canonical :=
  reportAt_canonical (dropLaunch_canonical (sendLaunch_canonical h))

theorem tryLaunchAbort_canonical {gang : BitVec 16} (h : s.Canonical) : IfSome State.Canonical (tryLaunchAbort gang s) := by
  unfold tryLaunchAbort
  split
  · split
    · exact none_ifSome
    · split
      · exact none_ifSome
      · split
        · exact some_ifSome (dropLaunch_canonical h)
        · split
          · split
            · exact some_ifSome (abortWaiting_canonical h)
            · exact none_ifSome
          · exact none_ifSome
  · split
    · exact none_ifSome
    · split
      · exact some_ifSome (freeGang_canonical h)
      · split
        · split
          · exact some_ifSome (sendAbort_canonical h)
          · exact none_ifSome
        · exact none_ifSome

theorem tryReadyDeadline_canonical {gang : BitVec 16} (h : s.Canonical) : IfSome State.Canonical (tryReadyDeadline gang s) := by
  unfold tryReadyDeadline
  split
  · split
    · exact none_ifSome
    · split
      · exact some_ifSome (abortWaiting_canonical h)
      · exact none_ifSome
  · split
    · exact some_ifSome (sendAbort_canonical h)
    · exact none_ifSome

theorem trySelfAbort_canonical {gang : BitVec 16} (h : s.Canonical) : IfSome State.Canonical (trySelfAbort gang s) := by
  unfold trySelfAbort
  split
  · exact none_ifSome
  · split
    · exact some_ifSome (freeGang_canonical h)
    · exact none_ifSome

theorem considerWaiting_canonical {at_ : Option Placement} (h : s.Canonical) (n : Nat) : ∀ l, IfSome State.Canonical (considerWaiting at_ s n l) := by
  induction n with
  | zero => exact fun _ => none_ifSome
  | succ n ih =>
    intro l
    unfold considerWaiting
    split
    · exact none_ifSome
    rename_i w e
    have h1 := dropLaunch_canonical (w := w) h
    split
    · rename_i e1
      have h2 := placeAnywhere_canonical h1 _ e1
      refine some_ifSome ?_
      split
      · exact h2
      · exact ite_canonical (reportForward_canonical h1) (reportForward_canonical h2)
    · exact ih _

theorem drainVictim_canonical {r : ResIx} (h : s.Canonical) : (drainVictim r s).Canonical := ite_canonical (State.setRes_canonical h) h

theorem tryMatePlacement_canonical (h : s.Canonical) : IfSome State.Canonical (tryMatePlacement s) := by
  unfold tryMatePlacement
  refine findSome?_ifSome fun b => ?_
  refine findSome?_ifSome fun b1 => ?_
  dsimp only
  split
  · exact some_ifSome (bindMate_canonical h)
  · exact none_ifSome

theorem tryReconsider_canonical {at_ : Option Placement} (h : s.Canonical) : IfSome State.Canonical (tryReconsider at_ s) :=
  considerWaiting_canonical h _ _

theorem execStart_lands {ring : Fin 24} : Lands s (execStart ring s) :=
  orStay_lands id fun h => takeRecord_canonical h fun _ _ _ h1 => startGang_canonical (forwardStart_canonical h1)

theorem execCancel_lands {ring : Fin 24} : Lands s (execCancel ring s) :=
  orStay_lands id fun h => takeRecord_canonical h fun _ _ _ h1 => freeGang_canonical (forwardStart_canonical h1)

theorem execLaunchForward_lands {packet : BitVec 1024} {from_ : BitVec 17 × BitVec 32} {at_ : Option Placement} :
    Lands s (execLaunchForward packet from_ at_ s) := by
  unfold execLaunchForward
  dsimp only
  split
  · exact next_lands fun c => reportForward_canonical c
  · split
    · split
      · exact next_lands fun c => reportForward_canonical c
      · split
        · exact next_lands fun c => reportForward_canonical c
        · split
          · rename_i e1
            exact next_lands fun c => reportForward_canonical ((placeAnywhere_canonical c) _ e1)
          · exact next_lands fun c => placeOrWait_canonical c
    · split
      · exact next_lands fun c => reportForward_canonical c
      · split
        · exact next_lands fun c => reportForward_canonical (freeGang_canonical c)
        · split
          · exact next_lands fun c => reportForward_canonical c
          · exact next_lands fun c => reportForward_canonical (startGang_canonical c)

theorem execReadyReport_lands {gang : BitVec 16} {pkg : BitVec 17} {status : BitVec 8} : Lands s (execReadyReport gang pkg status s) := by
  unfold execReadyReport
  dsimp only
  split
  · exact next_lands fun c => updateGang_canonical c
  · exact next_lands fun c => c

end

end Sys2Proof.Machine
end

section
/-! Canonical memories: the manager: save and restore (R311 to R318). -/

namespace Sys2Proof.Machine

/-- Whether the state that a read of a saved area answers, if it is one, is canonical. -/
def AreaRead.Canonical : AreaRead → Prop
  | .ok _ _ s => s.Canonical
  | _ => True

section
variable {s s0 t : State}

theorem resumeRunning_canonical {r : ResIx} (h : s.Canonical) : (resumeRunning r s).Canonical := h

theorem trySaveStart_canonical {r : ResIx} {va len : Word} (h : s.Canonical) : IfSome State.Canonical (trySaveStart r va len s) := by
  unfold trySaveStart
  split
  · exact none_ifSome
  · split
    · exact some_ifSome (sealBatch_canonical h)
    · split
      · exact none_ifSome
      · split
        · exact some_ifSome (notify_canonical (resumeRunning_canonical h))
        · split
          · exact some_ifSome (notify_canonical (resumeRunning_canonical h))
          · exact some_ifSome (State.setRes_canonical h)

theorem poisonArea_canonical {asid : Asid} {va : Nat} {offs : List Nat} (h : s.Canonical) : (poisonArea asid va offs s).Canonical := by
  unfold poisonArea
  refine foldl_canonical (fun s1 a h1 => ?_) h
  split
  · rename_i e
    exact (translateStack_canonical h1).of_eq e
  · rename_i e
    exact (translateStack_canonical h1).of_eq e
  · rename_i e
    have h2 := (translateStack_canonical h1).of_eq e
    exact h2

theorem returnMail_canonical {r : ResIx} (h : s.Canonical) : (returnMail r s).Canonical := h

theorem finishSave_canonical {r : ResIx} (h : s.Canonical) : (finishSave r s).Canonical :=
  State.setRes_canonical (ite_canonical (returnMail_canonical h) (releaseMultiplier_canonical (returnMail_canonical h)))

theorem writeUnit_canonical {r : ResIx} (h : s.Canonical) : (writeUnit r s).Canonical := by
  unfold writeUnit
  extract_lets x bs p p'
  split
  · trivial
  split
  · rename_i e
    exact devWrite_canonical _ _ _ (touchQuad_canonical (poisonArea_canonical ((devWrite_canonical _ _ _ h).of_done e)))
  · exact devWrite_canonical _ _ _ h

theorem trySaveUnit_canonical {r : ResIx} (h : s.Canonical) : IfSome State.Canonical (trySaveUnit r s) := by
  unfold trySaveUnit
  split
  · rename_i s1 e
    extract_lets x p' s2
    have h2 : s2.Canonical := State.setRes_canonical ((writeUnit_canonical h).of_done e)
    clear_value s2
    exact some_ifSome (ite_canonical (finishSave_canonical h2) h2)
  · rename_i e
    exact ite_ifSome none_ifSome (some_ifSome ((writeUnit_canonical h).of_done e))
  · exact none_ifSome

theorem trySaveFault_canonical {r : ResIx} (h : s.Canonical) : IfSome State.Canonical (trySaveFault r s) := by
  unfold trySaveFault
  split
  · exact some_ifSome (notify_canonical (State.setRes_canonical h))
  · exact none_ifSome

theorem trySaveAbandon_canonical {r : ResIx} (h : s.Canonical) : IfSome State.Canonical (trySaveAbandon r s) := by
  unfold trySaveAbandon
  dsimp only
  split
  · split
    · exact none_ifSome
    · split
      · exact none_ifSome
      · exact some_ifSome (State.setRes_canonical (resumeRunning_canonical h))
  · exact none_ifSome

theorem areaWait_canonical {x : AreaRead} (h : s.Canonical) : IfSome State.Canonical (areaWait x s) := by
  unfold areaWait
  split
  · split
    · exact none_ifSome
    · exact some_ifSome (notify_canonical h)
  · exact wakeVault_canonical h
  · exact none_ifSome

theorem copyMem_wf {src dst : Mem} {a b n : Nat} (h : Memory.wf dst = true) : Memory.wf (copyMem src a dst b n) = true :=
  Memory.wf_writeList dst b _ h

theorem loadMultiplier_canonical {x : Residency} {m : Mem} {bad : List Nat} (h : s.Canonical) : (loadMultiplier x m bad s).Canonical := by
  unfold loadMultiplier
  extract_lets accs bufs g sq s1
  have h1 : s1.Canonical := foldl_canonical (fun _ _ h => setAcc_canonical h) h
  clear_value s1
  have hx : Memory.wf (copyMem m bufs [] 0 8192) = true := copyMem_wf Memory.wf_nil
  have hy : Memory.wf (copyMem m (bufs + 40960) [] 0 32768) = true := copyMem_wf Memory.wf_nil
  generalize copyMem m bufs [] 0 8192 = xbuf at hx
  generalize copyMem m (bufs + 40960) [] 0 32768 = ybuf at hy
  exact h1.setCore h1.spad hx hy

theorem loadContext_canonical {r : ResIx} {at_ : Placement} {a : Away} {g : Gang} {i : Image} {role : Role} {m : Mem} {bad : List Nat}
    (h : s.Canonical) : IfSome State.Canonical (loadContext r at_ a g i role m bad s) := by
  unfold loadContext
  split
  · exact none_ifSome
  · refine ite_ifSome none_ifSome ?_
    extract_lets _ x lo fmt s1 _ _ s2
    have h1 : s1.Canonical := bindResidency_canonical h
    have h2 : s2.Canonical := h1.setSpad (copyMem_wf h1.spad) rfl rfl
    clear_value s2
    exact some_ifSome (ite_canonical h2 (loadMultiplier_canonical h2))

/-! ## Reading a saved area -/

theorem areaDword_canonical {asid : Asid} {va i : Nat} {m : Mem} {bad : List Nat} (h : s.Canonical) : (areaDword asid va i m bad s).Canonical := by
  unfold areaDword
  extract_lets a fault
  split
  · trivial
  · trivial
  · rename_i e
    have h1 := (translateStack_canonical h).of_eq e
    split
    · trivial
    extract_lets p
    split
    · trivial
    split
    · trivial
    · rename_i e1
      exact readWords_canonical (openColumn_canonical h1 _ e1)

theorem areaBytes_canonical {asid : Asid} {va n : Nat} (h : s.Canonical) : (areaBytes asid va n s).Canonical := by
  unfold areaBytes
  refine List.foldlRecOn (motive := AreaRead.Canonical) _ _ h fun acc ha i _ => ?_
  split
  · exact areaDword_canonical ha
  · exact ha

/-- What a read of an area gives that ends well. -/
theorem AreaRead.Canonical.of_ok {x : AreaRead} (h : x.Canonical) {m : Mem} {bad : List Nat} (e : x = .ok m bad t) : t.Canonical := by
  subst e
  exact h

theorem restoreContext_canonical {r : ResIx} {va : Nat} {at_ : Placement} {a : Away} {g : Gang} {i : Image} {role : Role} (h : s.Canonical) :
    IfSome State.Canonical (restoreContext r va at_ a g i role s) := by
  unfold restoreContext
  split
  · rename_i e
    exact loadContext_canonical ((areaBytes_canonical h).of_ok e)
  · exact areaWait_canonical h

theorem savedContext_canonical {va : Nat} {gen : BitVec 4} (h : s.Canonical) : IfSome (fun x => x.2.Canonical) (savedContext va gen s) := by
  have read (good : Mem → Away → Bool) (a : Away) : IfSome (fun x : Away × AreaRead => x.2.Canonical)
      (if a.gen ≠ gen then none
      else match areaBytes a.asid va 256 s with
        | .ok h bad s => if good h a then some (a, .ok h bad s) else none
        | e => some (a, e)) := by
    refine ite_ifSome none_ifSome ?_
    split
    · rename_i e
      exact ite_ifSome (some_ifSome ((areaBytes_canonical h).of_ok e)) none_ifSome
    · exact some_ifSome (areaBytes_canonical h)
  exact orElse_ifSome (findSome?_ifSome (read _)) fun _ => findSome?_ifSome (read _)

theorem tryRestore_canonical {r : ResIx} {va : Word} {at_ : Placement} (h : s.Canonical) : IfSome State.Canonical (tryRestore r va at_ s) := by
  unfold tryRestore
  split
  · exact none_ifSome
  · rename_i e
    have h1 : State.Canonical _ := savedContext_canonical h _ e
    refine ite_ifSome (some_ifSome (notify_canonical h1)) ?_
    split
    · exact none_ifSome
    refine ite_ifSome none_ifSome ?_
    split
    · exact none_ifSome
    split
    · exact none_ifSome
    · exact restoreContext_canonical h1
  · exact areaWait_canonical h

end

end Sys2Proof.Machine
end

section
/-! Canonical memories: the journal (R376 to R386). -/

namespace Sys2Proof.Machine

section
variable {s s0 t : State}

theorem setJournal_canonical {r : ResIx} {j : Journal} (h : s.Canonical) : (setJournal r j s).Canonical := h

theorem sendJournal_canonical {ms : List JournalMsg} (h : s.Canonical) : (sendJournal ms s).Canonical := h

theorem shipBatch_canonical {r : ResIx} {xs : List JSlot} (h : s.Canonical) : (shipBatch r xs s).Canonical := h

theorem shipOrWait_canonical {r : ResIx} {xs : List JSlot} (h : s.Canonical) : (shipOrWait r xs s).Canonical :=
  ite_canonical (shipBatch_canonical h) (setJournal_canonical h)

theorem writeSlots_canonical {asid : Asid} {j : Journal} {xs : List JSlot} : ∀ {pos : Nat} {s : State}, s.Canonical →
    (writeSlots asid j pos xs s).Canonical := by
  induction xs with
  | nil => exact fun h => h
  | cons x rest ih =>
    intro pos s h
    have h1 := devWrite_canonical (asid := asid) 129 (j.lbase.toNat + 128 * (pos % 2 ^ (8 + j.lnw.toNat))) (slotBytes x) h
    unfold writeSlots
    split
    · rename_i e
      exact ih (h1.of_done e)
    · exact h1

theorem tryBatchShip_canonical {r : ResIx} (h : s.Canonical) : IfSome State.Canonical (tryBatchShip r s) := by
  unfold tryBatchShip
  dsimp only
  split
  · exact some_ifSome (shipBatch_canonical (setJournal_canonical h))
  · split
    · exact none_ifSome
    · split
      · exact none_ifSome
      · split
        · exact none_ifSome
        · split
          · exact none_ifSome
          · rename_i e1
            have h1 := (writeSlots_canonical h).of_fault e1
            exact some_ifSome (notify_canonical (setJournal_canonical h1))
          · rename_i e1
            have h1 := (writeSlots_canonical h).of_done e1
            exact some_ifSome (shipOrWait_canonical (setJournal_canonical h1))
          · rename_i e1
            have h1 := (writeSlots_canonical h).of_done e1
            exact some_ifSome (notify_canonical (setJournal_canonical h1))

theorem applyAck_canonical {r : ResIx} {num : Word} (h : s.Canonical) : (applyAck r num s).Canonical := h

theorem tryEgressRelease_canonical {r : ResIx} (h : s.Canonical) : IfSome State.Canonical (tryEgressRelease r s) := by
  unfold tryEgressRelease
  dsimp only
  split
  · split
    · exact some_ifSome (depart_canonical (setJournal_canonical h))
    · exact none_ifSome
  · exact none_ifSome

theorem tryPeerLost_canonical {r : ResIx} (h : s.Canonical) : IfSome State.Canonical (tryPeerLost r s) := by
  unfold tryPeerLost
  dsimp only
  split
  · exact some_ifSome (notify_canonical (setJournal_canonical h))
  · exact none_ifSome

theorem tryWindowShip_canonical {r : ResIx} {ppkg : BitVec 17} {pstk : BitVec 2} (h : s.Canonical) :
    IfSome State.Canonical (tryWindowShip r ppkg pstk s) := by
  unfold tryWindowShip
  dsimp only
  split
  · exact none_ifSome
  · exact some_ifSome (setJournal_canonical (sendJournal_canonical h))

theorem tryWindowAck_canonical {r : ResIx} {pgen : BitVec 8} (h : s.Canonical) : IfSome State.Canonical (tryWindowAck r pgen s) := by
  unfold tryWindowAck
  dsimp only
  split
  · split
    · exact some_ifSome (setJournal_canonical h)
    · exact some_ifSome (applyAck_canonical (setJournal_canonical h))
  · exact none_ifSome

theorem partnerBeat_canonical {jid : BitVec 16} (h : s.Canonical) : (partnerBeat jid s).Canonical := ite_canonical h h

theorem partnerSilent_canonical {jid : BitVec 16} (h : s.Canonical) : (partnerSilent jid s).Canonical :=
  ite_canonical (foldl_canonical (fun _ _ h1 => notify_canonical h1) h) h

theorem tryReplay_canonical {r : ResIx} {jid fresh : BitVec 16} {digest weights : Word} (h : s.Canonical) :
    IfSome State.Canonical (tryReplay r jid fresh digest weights s) := by
  unfold tryReplay
  dsimp only
  split
  · exact none_ifSome
  · split
    · exact none_ifSome
    · split
      · exact none_ifSome
      · split
        · rename_i e1
          have h1 := (writeSlots_canonical h).of_done e1
          exact some_ifSome (foldl_canonical (fun _ _ h2 => notify_canonical h2) (setJournal_canonical h1))
        · exact none_ifSome

theorem killByManager_canonical {r : ResIx} (h : s.Canonical) : (killByManager r s).Canonical := ite_canonical h (killResidency_canonical h)

theorem answerWindowFault_canonical {r : ResIx} {mapped : Bool} (h : s.Canonical) : (answerWindowFault r mapped s).Canonical :=
  ite_canonical (setJournal_canonical h) (killByManager_canonical (setJournal_canonical h))

theorem execJournalAck_lands {r : ResIx} {pgen : BitVec 8} {num : Word} : Lands s (execJournalAck r pgen num s) :=
  next_lands fun c => ite_canonical (applyAck_canonical (setJournal_canonical c)) (setJournal_canonical c)

theorem execPageMapResume_lands {mapped : Bool} : Lands s (execPageMapResume mapped s) := by
  unfold execPageMapResume
  split
  · rename_i e
    exact next_lands fun c => (tryPageMapResume_canonical c) _ e
  · split
    · exact next_lands id
    · exact next_lands fun c => answerWindowFault_canonical c

theorem execSnapTruncation_lands {r : ResIx} : Lands s (execSnapTruncation r s) := by
  unfold execSnapTruncation
  extract_lets s1
  have h1 : Keeps s s1 := fun c => setJournal_canonical c
  clear_value s1
  exact next_lands h1

end

end Sys2Proof.Machine
end

section
/-! Canonical memories: the host interface (R363 to R369). -/

namespace Sys2Proof.Machine

/-- Whether the state that a piece of a host access answers, if it is one, is canonical. -/
def HostServed.Canonical : HostServed → Prop
  | .queued s => s.Canonical
  | .done _ s => s.Canonical
  | _ => True

section
variable {s s0 t : State}

theorem setMailbox_canonical {k : Fin 4} {f : Mailbox → Mailbox} (h : s.Canonical) : (setMailbox k f s).Canonical := h

theorem answerAt_canonical {k : Fin 4} {irq : Bool} {status detail value : Nat} (h : s.Canonical) :
    (answerAt k irq status detail value s).Canonical :=
  ite_canonical (raiseVector_canonical (setMailbox_canonical h)) (setMailbox_canonical h)

theorem answerMail_canonical {irq : Bool} {status detail value : Nat} (h : s.Canonical) : (answerMail irq status detail value s).Canonical :=
  answerAt_canonical h

theorem openMail_canonical (h : s.Canonical) : (openMail s).Canonical := h

theorem serveMail_lands {irq : Bool} {masks : List Nat} {body : List Word} {f : State → State} (hf : s.Canonical → (f s).Canonical) :
    Lands s (serveMail irq masks body f s) := by
  unfold serveMail
  refine ite_lands (next_lands id) ?_
  split
  · exact next_lands answerMail_canonical
  · exact next_lands hf

theorem refuseHost_canonical {a : HostAccess} (h : s.Canonical) : (refuseHost a s).Canonical := by
  unfold refuseHost
  split <;> exact h

theorem endHost_canonical {a : HostAccess} (h : s.Canonical) : (endHost a s).Canonical := ite_canonical h h

theorem setPending_canonical {i : Nat} {a : Option HostAccess} (h : s.Canonical) : (setPending i a s).Canonical := h

theorem readPiece_canonical {a : HostAccess} {p : Place} (h : s.Canonical) : (readPiece a p s).Canonical := by
  unfold readPiece
  split
  · rename_i e
    exact (beatRead_canonical h).of_eq e
  · rename_i e
    have h1 := (beatRead_canonical h).of_eq e
    exact h1

theorem writePiece_canonical {a : HostAccess} {p : Place} {bs : List Byte} (h : s.Canonical) : (writePiece a p bs s).Canonical := by
  unfold writePiece
  split
  · exact h
  · rename_i e
    have h1 : State.Canonical _ := storeColumn_canonical h _ e
    exact ite_canonical h1 (notify_canonical h1)

theorem hostPiece_canonical {a : HostAccess} (h : s.Canonical) : (hostPiece a s).Canonical := by
  unfold hostPiece
  split
  · exact h
  split
  · trivial
  split
  · trivial
  · trivial
  · rename_i e
    have h1 := (translateStack_canonical h).of_eq e
    split
    · trivial
    extract_lets p
    split
    · trivial
    split
    · trivial
    split
    · rename_i e1
      exact (reachBeat_canonical h1).of_eq e1
    · rename_i e1
      have h2 := (reachBeat_canonical h1).of_eq e1
      split
      · exact readPiece_canonical h2
      · exact writePiece_canonical h2

theorem hostGo_canonical {i : Nat} (h : s.Canonical) : IfSome State.Canonical (hostGo i s) := by
  unfold hostGo
  split
  · exact none_ifSome
  · rename_i a _
    have h1 := hostPiece_canonical (a := a) h
    refine ite_ifSome none_ifSome ?_
    split
    · exact none_ifSome
    · rename_i e
      rw [e] at h1
      exact waited_canonical h1
    · exact none_ifSome
    · exact some_ifSome (refuseHost_canonical (leaveQueue_canonical (setPending_canonical h)))
    · rename_i e
      rw [e] at h1
      have h2 := leaveQueue_canonical (who := .host a.id) h1
      exact some_ifSome (ite_canonical (endHost_canonical (setPending_canonical h2)) (setPending_canonical h2))

theorem tryHostGo_canonical (h : s.Canonical) : IfSome State.Canonical (tryHostGo s) := findSome?_ifSome fun _ => hostGo_canonical h

theorem hostArrives_canonical {a : HostAccess} (h : s.Canonical) : (hostArrives a s).Canonical :=
  ite_canonical (refuseHost_canonical h) (getD_canonical (hostGo_canonical h) h)

theorem execRingcfg_lands {irq : Bool} {body : List Word} : Lands s (execRingcfg irq body s) :=
  serveMail_lands fun h => ite_canonical (answerMail_canonical h) (ite_canonical (answerMail_canonical h) (answerMail_canonical h))

theorem execCringcfg_lands {irq : Bool} {body : List Word} : Lands s (execCringcfg irq body s) :=
  serveMail_lands fun h => ite_canonical (answerMail_canonical h) (ite_canonical (answerMail_canonical h) (flushAll_canonical
    (answerMail_canonical h)))

theorem execDmawcfg_lands {irq : Bool} {body : List Word} : Lands s (execDmawcfg irq body s) :=
  serveMail_lands fun h => ite_canonical (answerMail_canonical h) (ite_canonical (answerMail_canonical h) (answerMail_canonical h))

theorem execBadcmd_lands {command : Word} {body : List Word} : Lands s (execBadcmd command body s) :=
  ite_lands (next_lands id) (ite_lands (next_lands fun c => answerMail_canonical c) (next_lands id))

theorem execHostMapTimeout_lands : Lands s (execHostMapTimeout s) := by
  unfold execHostMapTimeout
  split
  · exact next_lands id
  · rename_i i _
    refine next_lands fun c => ?_
    cases s.host.pending[i]? with
    | none => exact c
    | some a => exact refuseHost_canonical (leaveQueue_canonical (setPending_canonical c))

theorem execWincfg_lands {irq : Bool} {body : List Word} : Lands s (execWincfg irq body s) :=
  serveMail_lands fun c => ite_canonical (answerMail_canonical c) (answerMail_canonical (by exact c))

end

end Sys2Proof.Machine
end

section
/-! Canonical memories: snapshots, scans and spares (R387 to R397). -/

namespace Sys2Proof.Machine

section
variable {s s0 t : State}

theorem loadRegion_canonical {i : Image} (h : s.Canonical) : (loadRegion i s).Canonical := by
  unfold loadRegion
  split
  · exact h
  · exact h.setQuad (Memory.wf_writeList _ _ _ (Memory.wf_clearRange _ _ _ h.1.2.2.2.1)) h.mates

theorem quadHolds_canonical {q : BitVec 11} {i : Image} (h : s.Canonical) : (quadHolds q i s).Canonical := ite_canonical (loadRegion_canonical h) h

theorem finishLoad_canonical {index : BitVec 8} (h : s.Canonical) : (finishLoad index s).Canonical := by
  unfold finishLoad
  split
  · exact h
  · exact ite_canonical h (answerAt_canonical h)

theorem enterImage_canonical {i : Image} {room : Bool} (h : s.Canonical) : (enterImage i room s).Canonical := by
  unfold enterImage
  split
  · exact answerAt_canonical h
  · exact answerAt_canonical h
  · split
    · exact answerAt_canonical h
    · extract_lets i' _ s1 s2
      have h1 : s1.Canonical := h
      have h2 : s2.Canonical := by
        unfold s2
        split
        · exact h1
        · exact quadHolds_canonical h1
      clear_value s1 s2
      exact finishLoad_canonical h2

theorem loadImage_canonical {x : ImageLoad} (h : s.Canonical) : IfSome State.Canonical (loadImage x s) := by
  unfold loadImage
  dsimp only
  split
  · exact none_ifSome
  · rename_i e
    have h1 := (devRead_canonical _ _ _ h).of_fault e
    exact some_ifSome (answerAt_canonical h1)
  · rename_i e
    have h1 := (devRead_canonical _ _ _ h).of_done e
    split
    · exact some_ifSome (answerAt_canonical h1)
    · split
      · exact some_ifSome (answerAt_canonical h1)
      · exact some_ifSome (enterImage_canonical h1)
  · rename_i e
    have h1 := (devRead_canonical _ _ _ h).of_done e
    exact some_ifSome (answerAt_canonical h1)

theorem tryLoadGo_canonical (h : s.Canonical) : IfSome State.Canonical (tryLoadGo s) := findSome?_ifSome fun _ => loadImage_canonical h

theorem tryImageForward_canonical {source target : BitVec 11} (h : s.Canonical) : IfSome State.Canonical (tryImageForward source target s) :=
  map_any_ifSome fun _ => finishLoad_canonical (quadHolds_canonical h)

theorem reloadImages_canonical (h : s.Canonical) : (reloadImages s).Canonical :=
  foldl_canonical (fun _ _ h1 => ite_canonical (loadRegion_canonical h1) h1) h

theorem tryFirmwareCheck_canonical (h : s.Canonical) : IfSome State.Canonical (tryFirmwareCheck s) := by
  unfold tryFirmwareCheck
  split
  · refine some_ifSome ?_
    split
    · exact setMailbox_canonical (answerAt_canonical (by exact h))
    · exact answerAt_canonical (by exact h)
  · exact none_ifSome

theorem execImgload_lands {irq : Bool} {body : List Word} {index : BitVec 8} {base : BitVec 9} {room : Bool} :
    Lands s (execImgload irq body index base room s) :=
  serveMail_lands fun h => getD_canonical (loadImage_canonical (openMail_canonical h)) (openMail_canonical h)

/-- Every memory is empty after a reset. -/
theorem reset_canonical : State.reset.Canonical := ⟨Spec.resetMemories.1, Spec.resetMemories.2.1⟩

theorem execPowerUp_lands : Lands s (execPowerUp s) := next_lands fun c => ⟨⟨rfl, rfl, rfl, rfl, c.vaultMem⟩, reset_canonical.2⟩

theorem execImgdrop_lands {irq : Bool} {body : List Word} : Lands s (execImgdrop irq body s) :=
  serveMail_lands fun c => ite_canonical (answerMail_canonical c) (answerMail_canonical (by exact c))

end

end Sys2Proof.Machine
end

section
/-! Canonical memories: power and clocks (R325 to R341). -/

namespace Sys2Proof.Machine

section
variable {s s0 t : State}

theorem freshQuad_canonical (h : s.Canonical) : (freshQuad s).Canonical :=
  ⟨⟨rfl, rfl, rfl, rfl, h.vaultMem⟩, reset_canonical.mates, h.2.2⟩

theorem gateCommand_canonical {q : Nat} (h : s.Canonical) : (gateCommand q s).Canonical := by
  unfold gateCommand
  extract_lets x s1 _
  have h1 : s1.Canonical := setQpwr_canonical h
  clear_value s1
  exact ite_canonical h (ite_canonical h1 (ite_canonical h (ite_canonical (setQpwr_canonical h) (setQpwr_canonical h))))

theorem closeQuad_canonical {l : Nat} (h : s.Canonical) : (closeQuad l s).Canonical := mergeLog_canonical h

theorem tryGateFall_canonical {q : Nat} (h : s.Canonical) : IfSome State.Canonical (tryGateFall q s) := by
  unfold tryGateFall
  extract_lets x l s1 s2 s3
  have h1 : s1.Canonical := getD_canonical (map_any_ifSome fun _ => closeQuad_canonical h) h
  have h2 : s2.Canonical := ite_canonical (freshQuad_canonical h1) h1
  have h3 : s3.Canonical := setQpwr_canonical h2
  clear_value s1 s2 s3
  split
  · exact none_ifSome
  · exact some_ifSome (ite_canonical (getD_canonical (tryWake_canonical h3) h3) h3)

theorem tryWakeAdmit_canonical (h : s.Canonical) : IfSome State.Canonical (tryWakeAdmit s) := by
  unfold tryWakeAdmit
  split
  · exact none_ifSome
  · exact ite_ifSome none_ifSome (some_ifSome h)

theorem comeUp_canonical {q : Nat} (h : s.Canonical) : (comeUp q s).Canonical :=
  ite_canonical (freshQuad_canonical (setQpwr_canonical h)) (setQpwr_canonical h)

theorem tryReload_canonical (h : s.Canonical) : IfSome State.Canonical (tryReload s) := by
  unfold tryReload
  split
  · exact some_ifSome (reloadImages_canonical h)
  · exact none_ifSome

theorem tryWakeComplete_canonical {q : Nat} (h : s.Canonical) : IfSome State.Canonical (tryWakeComplete q s) := by
  unfold tryWakeComplete
  split
  · exact some_ifSome (getD_canonical (tryWakeAdmit_canonical (comeUp_canonical h)) (comeUp_canonical h))
  · exact none_ifSome

theorem tryHeldWake_canonical (h : s.Canonical) : IfSome State.Canonical (tryHeldWake s) := findSome?_ifSome fun _ => wakeVault_canonical h

theorem writeBinding_canonical {r : ResIx} {v : BitVec 128} (h : s.Canonical) : (writeBinding r v s).Canonical :=
  ite_canonical h (setJournal_canonical h)

theorem writeQpwr_canonical {q : Nat} {v : BitVec 128} (h : s.Canonical) : (writeQpwr q v s).Canonical := by
  unfold writeQpwr
  split
  · exact h
  · dsimp only
    split
    · exact gateCommand_canonical (setQpwr_canonical h)
    · exact ite_canonical (getD_canonical (tryWake_canonical (setQpwr_canonical h)) (setQpwr_canonical h)) (setQpwr_canonical h)

theorem clearBlock_canonical {y : Nat} (h : s.Canonical) : (clearBlock y s).Canonical := h.setVault (Table.wf_filter _ _ _ h.vaultMem)

theorem copyBlock_canonical {x y : Nat} (h : s.Canonical) : (copyBlock x y s).Canonical := by
  unfold copyBlock
  extract_lets moved s1
  have h1 : s1.Canonical := clearBlock_canonical h
  clear_value s1 moved
  refine ite_canonical h (h1.setVault ?_)
  exact List.foldlRecOn (motive := fun m => Memory.wf m = true) _ _ h1.vaultMem fun m hm c _ => Table.wf_put _ _ _ _ hm

theorem parkQuad_canonical {l : Nat} (h : s.Canonical) : (parkQuad l s).Canonical := by
  unfold parkQuad
  exact ite_canonical h (copyBlock_canonical h)

theorem remapQuad_canonical {l q : Nat} (h : s.Canonical) : (remapQuad l q s).Canonical := by
  unfold remapQuad
  split
  · exact h
  · extract_lets s1
    have h1 : s1.Canonical := clearBlock_canonical (copyBlock_canonical (parkQuad_canonical h))
    clear_value s1
    exact h1

theorem writeRoot_canonical {asid : Asid} {word : Word} (h : s.Canonical) : (writeRoot asid word s).Canonical := by
  unfold writeRoot
  exact ite_canonical h (fillPages_canonical h)

theorem writeControl_canonical {reg : ControlReg} {v : BitVec 128} (h : s.Canonical) : (writeControl reg v s).Canonical := by
  unfold writeControl
  split
  · exact ite_canonical h h
  · exact h
  · exact writeRoot_canonical h
  · exact h
  · exact ite_canonical h h
  · exact h
  · exact writeQpwr_canonical h
  · exact h
  · exact drainVictim_canonical h
  · exact writeBinding_canonical h
  · exact remapQuad_canonical h
  · exact ite_canonical h h
  · exact h

end

end Sys2Proof.Machine
end

section
/-! Canonical memories: snapshots, scan rotation and spares (R387 to R397). -/

namespace Sys2Proof.Machine

section
variable {s s0 t : State}

/-- Shingles and pages under copy whose bytes are canonical take the place of others. -/
theorem State.Canonical.setResil (h : s.Canonical) {r : Resilience} (hs : ∀ x ∈ r.shingles, Memory.wf x.bytes = true)
    (hc : ∀ x ∈ r.copying, Memory.wf x.bytes = true) : ({ s with resil := r } : State).Canonical := ⟨h.1, h.2.1, hs, hc⟩

theorem State.Canonical.shingles (h : s.Canonical) : ∀ x ∈ s.resil.shingles, Memory.wf x.bytes = true := h.2.2.1

theorem State.Canonical.copying (h : s.Canonical) : ∀ x ∈ s.resil.copying, Memory.wf x.bytes = true := h.2.2.2

/-! ## Snapshots -/

theorem updateSnapshot_canonical {asid : Asid} {f : Snapshot → Snapshot} (h : s.Canonical) : (updateSnapshot asid f s).Canonical := h

theorem trySnapshotCut_canonical {asid : Asid} (h : s.Canonical) : IfSome State.Canonical (trySnapshotCut asid s) := by
  unfold trySnapshotCut
  split
  · exact none_ifSome
  · exact ite_ifSome none_ifSome (some_ifSome h)

theorem setEpoch_canonical {asid : Asid} {vpn : Nat} (h : s.Canonical) : (setEpoch asid vpn s).Canonical := by
  unfold setEpoch
  extract_lets e s1
  have h1 : s1.Canonical := changeLeaf_canonical (s := s) h
  clear_value s1
  exact h1

theorem setCopying_canonical {i : Nat} {c : Option PageCopy} (h : s.Canonical) (hc : ∀ x, c = some x → Memory.wf x.bytes = true) :
    (setCopying i c s).Canonical := by
  refine h.setResil h.shingles fun x hx => ?_
  rcases List.mem_append.mp hx with hx | hx
  · rcases List.mem_append.mp hx with hx | hx
    · exact h.copying x (List.mem_of_mem_take hx)
    · exact hc x (Option.mem_toList.mp hx)
  · exact h.copying x (List.mem_of_mem_drop hx)

theorem endCopy_canonical {i : Nat} {c : PageCopy} {x : Snapshot} (h : s.Canonical) (hc : Memory.wf c.bytes = true) :
    (endCopy i c x s).Canonical := by
  unfold endCopy
  extract_lets shingle s1 s2
  have h1 : s1.Canonical := setEpoch_canonical (setCopying_canonical h nofun)
  have h2 : s2.Canonical := updateSnapshot_canonical h1
  clear_value s2 s1
  refine ite_canonical (h2.setResil (fun y hy => ?_) h2.copying) (updateSnapshot_canonical h1)
  rcases List.mem_append.mp hy with hy | hy
  · exact h2.shingles y hy
  · rw [List.mem_singleton.mp hy]
    exact hc

theorem copyColumn_canonical {i : Nat} {c : PageCopy} {x : Snapshot} (h : s.Canonical) (hc : Memory.wf c.bytes = true) :
    IfSome State.Canonical (copyColumn i c x s) := by
  unfold copyColumn
  refine ite_ifSome (ite_ifSome none_ifSome (some_ifSome (endCopy_canonical h hc))) (ite_ifSome none_ifSome
    (map_ifSome (openColumn_canonical h) fun t ht => ?_))
  refine setCopying_canonical (beatRead_canonical ht) fun y hy => ?_
  cases hy
  exact Memory.wf_writeList _ _ _ hc

theorem tryPageCopy_canonical {asid : Asid} {vpn : Nat} (h : s.Canonical) : IfSome State.Canonical (tryPageCopy asid vpn s) := by
  unfold tryPageCopy
  split
  · exact none_ifSome
  split
  · rename_i i _
    cases e : s.resil.copying[i]? with
    | none => exact none_ifSome
    | some c => exact copyColumn_canonical h (h.copying c (List.mem_of_getElem? e))
  · refine ite_ifSome none_ifSome (some_ifSome (h.setResil h.shingles fun y hy => ?_))
    rcases List.mem_append.mp hy with hy | hy
    · exact h.copying y hy
    · rw [List.mem_singleton.mp hy]
      exact Memory.wf_nil

theorem tryShingleDrain_canonical (h : s.Canonical) : IfSome State.Canonical (tryShingleDrain s) := by
  unfold tryShingleDrain
  split
  · exact none_ifSome
  · refine some_ifSome (h.setResil (fun y hy => ?_) h.copying)
    obtain ⟨n, hn, rfl⟩ := List.mem_iff_getElem.mp hy
    rw [List.getElem_modify]
    rw [List.length_modify] at hn
    split
    · exact h.shingles s.resil.shingles[n] (List.getElem_mem hn)
    · exact h.shingles _ (List.getElem_mem hn)

theorem tryShingleAck_canonical {i : Nat} {accepted : Bool} (h : s.Canonical) : IfSome State.Canonical (tryShingleAck i accepted s) := by
  unfold tryShingleAck
  split
  · exact none_ifSome
  split
  · exact none_ifSome
  · extract_lets _ s1
    have h1 : s1.Canonical := h.setResil (fun y hy => h.shingles y (List.mem_of_mem_eraseIdx hy)) h.copying
    clear_value s1
    exact ite_ifSome (some_ifSome h1) (some_ifSome (updateSnapshot_canonical h1))

theorem tryDrainWalk_canonical {asid : Asid} {vpn : Nat} (h : s.Canonical) : IfSome State.Canonical (tryDrainWalk asid vpn s) := by
  unfold tryDrainWalk
  split
  · exact tryPageCopy_canonical h
  · exact none_ifSome

theorem endSnapshot_canonical {x : Snapshot} (h : s.Canonical) : (endSnapshot x s).Canonical := by
  unfold endSnapshot
  extract_lets s1
  have h1 : s1.Canonical := ite_canonical h (foldl_canonical (f := fun s vpn => setEpoch x.asid vpn s) (fun _ _ h => setEpoch_canonical h) h)
  clear_value s1
  exact raiseVector_canonical (setMailbox_canonical (h1.setResil (fun y hy => h1.shingles y (List.mem_of_mem_filter hy))
    fun y hy => h1.copying y (List.mem_of_mem_filter hy)))

theorem trySnapshotSeal_canonical {asid : Asid} (h : s.Canonical) : IfSome State.Canonical (trySnapshotSeal asid s) := by
  unfold trySnapshotSeal
  split
  · exact none_ifSome
  · split
    · exact some_ifSome (endSnapshot_canonical h)
    · exact none_ifSome

theorem beginScan_canonical {q : BitVec 11} (h : s.Canonical) : (beginScan q s).Canonical := h

theorem tryScanBegin_canonical (h : s.Canonical) : IfSome State.Canonical (tryScanBegin s) := by
  unfold tryScanBegin
  dsimp only
  split
  · exact some_ifSome (beginScan_canonical h)
  · exact none_ifSome

theorem retireResidency_canonical {r : ResIx} (h : s.Canonical) : (retireResidency r s).Canonical :=
  ite_canonical h (notify_canonical (setJournal_canonical (killByManager_canonical h)))

theorem retireQuad_canonical {q : BitVec 11} (h : s.Canonical) : (retireQuad q s).Canonical := by
  unfold retireQuad
  extract_lets hit s1 inQuad _ _ _ s2
  have h1 : s1.Canonical := ite_canonical (foldl_canonical (fun _ _ h => retireResidency_canonical h) h) h
  clear_value s1
  have hm := h1.mates.map (f := fun m => { m with residencies := m.residencies.map fun y => { y with killed := true } }) fun x hx m hm => by
    obtain ⟨y, hy, rfl⟩ := List.mem_map.mp hm
    exact hx y hy
  have h2 : s2.Canonical := by
    unfold s2
    split
    · exact (h1.setMates hm).of_same ⟨rfl, rfl, rfl⟩ ⟨rfl, rfl⟩ rfl ⟨rfl, rfl⟩
    · exact h1
  clear_value s2
  exact foldl_canonical (fun _ _ h => notify_canonical h) h2

theorem tryScanEnd_canonical {q : BitVec 11} {pass : Bool} (h : s.Canonical) : IfSome State.Canonical (tryScanEnd q pass s) := by
  unfold tryScanEnd
  split
  · exact none_ifSome
  · exact some_ifSome (ite_canonical (ite_canonical h h) (retireQuad_canonical (ite_canonical h h)))

theorem finishRemap_canonical {q : BitVec 11} {spare : Nat} (h : s.Canonical) : (finishRemap q spare s).Canonical := by
  have fresh {t : State} (ht : t.Canonical) :
      (let s := freshQuad t; ({ s with quad := { s.quad with reload := true } } : State)).Canonical := freshQuad_canonical ht
  unfold finishRemap
  extract_lets old s1 _ _ s2
  have h1 : s1.Canonical := clearBlock_canonical (parkQuad_canonical h)
  have h2 : s2.Canonical := by
    clear_value s1
    exact h1
  clear_value s2
  exact ite_canonical (fresh h2) h2

theorem trySpareRemap_canonical {q : BitVec 11} {spare : Nat} (h : s.Canonical) : IfSome State.Canonical (trySpareRemap q spare s) := by
  unfold trySpareRemap
  split
  · exact none_ifSome
  · split
    · exact tryWake_canonical h
    · split
      · exact some_ifSome (finishRemap_canonical h)
      · exact some_ifSome h

theorem tryControllerFailure_canonical {vault : BitVec 15} (h : s.Canonical) : IfSome State.Canonical (tryControllerFailure vault s) := by
  unfold tryControllerFailure
  dsimp only
  split
  · exact some_ifSome (notify_canonical (foldl_canonical (fun _ _ h1 => killByManager_canonical h1) h))
  · exact none_ifSome

theorem execSnapcfg_lands {irq : Bool} {body : List Word} : Lands s (execSnapcfg irq body s) := by
  unfold execSnapcfg
  split
  · exact next_lands id
  · dsimp only
    split
    · exact next_lands fun c => answerMail_canonical c
    · split
      · exact next_lands fun c => answerMail_canonical c
      · exact ite_lands (next_lands fun c => answerMail_canonical c) (next_lands fun c => answerMail_canonical c)

theorem execScanVisit_lands {q : BitVec 11} : Lands s (execScanVisit q s) := by
  unfold execScanVisit
  split
  · exact next_lands id
  · exact ite_lands (next_lands fun c => ite_canonical c c) (next_lands fun c => beginScan_canonical (ite_canonical c c))

end

end Sys2Proof.Machine
end

section
/-! Canonical memories: the links and the fabric (R354 to R361). -/

namespace Sys2Proof.Machine

section
variable {s s0 t : State}

theorem deliverAll_canonical {ms : List Msg} (h : s.Canonical) : (deliverAll ms s).Canonical := foldl_canonical (fun _ _ h1 => route_canonical h1) h

theorem leaveFar_canonical {f : Nat} {num : BitVec 32} (h : s.Canonical) : (leaveFar f num s).Canonical := by
  unfold leaveFar
  split
  · exact h
  · exact setFlow_canonical h

theorem beyond_canonical {m : Msg} (h : s.Canonical) : (beyond m s).Canonical := by
  unfold beyond
  dsimp only
  split
  · exact enqueueJob_canonical (routeVault_canonical h)
  · split
    · exact landed_canonical (ite_canonical h (sendReply_canonical h))
    · split
      · exact leaveFar_canonical h
      · exact h

theorem allBeyond_canonical {l : List (BitVec 8 × Flit)} (h : s.Canonical) : (allBeyond l s).Canonical :=
  foldl_canonical (fun _ _ h1 => beyond_canonical h1) h

theorem acceptFlits_canonical {m : Fin 8} {e : BitVec 8} (h : s.Canonical) : (acceptFlits m e s).Canonical :=
  allBeyond_canonical (setModule_canonical h)

theorem crossNext_canonical {m : Fin 8} (h : s.Canonical) : (crossNext m s).Canonical := ite_canonical h (allBeyond_canonical (setModule_canonical h))

theorem pumpAt_canonical {m : Fin 8} (h : s.Canonical) : (pumpAt m s).Canonical := h

theorem returnSlots_canonical {k : Fin 8} {ms : List Msg} (h : s.Canonical) : (returnSlots k ms s).Canonical := h

theorem tryFlitAck_canonical (h : s.Canonical) : IfSome State.Canonical (tryFlitAck s) := by
  unfold tryFlitAck
  dsimp only
  split
  · exact none_ifSome
  · split
    · exact some_ifSome (pumpAt_canonical (returnSlots_canonical (acceptFlits_canonical h)))
    · exact some_ifSome (pumpAt_canonical (setModule_canonical h))

theorem tryReturn_canonical (h : s.Canonical) : IfSome State.Canonical (tryReturn s) := by
  unfold tryReturn
  dsimp only
  refine findSome?_ifSome fun b => ?_
  split
  · exact none_ifSome
  · split
    · exact some_ifSome (route_canonical (setModule_canonical h))
    · exact none_ifSome

theorem moveOn_canonical {m : Fin 8} {ms : List Msg} (h : s.Canonical) : (moveOn m ms s).Canonical :=
  ite_canonical (notify_canonical (setModule_canonical h)) (setModule_canonical h)

theorem killAway_canonical {a : Away} (h : s.Canonical) : (killAway a s).Canonical := h

theorem trySidebandTimeout_canonical {m : Fin 8} (h : s.Canonical) : IfSome State.Canonical (trySidebandTimeout m s) := by
  unfold trySidebandTimeout
  dsimp only
  split
  · exact none_ifSome
  · exact some_ifSome (notify_canonical (foldl_canonical (fun _ _ h1 => killAway_canonical h1) (foldl_canonical (fun _ _ h1 =>
      killByManager_canonical h1) (foldl_canonical (fun _ _ h1 => landed_canonical h1) (moveOn_canonical (setModule_canonical h))))))

theorem drainFlow_canonical {f n : Nat} : ∀ {s : State}, s.Canonical → (drainFlow f s n).Canonical := by
  induction n with
  | zero => exact fun h => h
  | succ n ih =>
    intro s h
    unfold drainFlow
    dsimp only
    split
    · exact h
    · exact ih (route_canonical (setFlow_canonical h))

theorem arrivedPackets_canonical {flow : Nat} {num : BitVec 32} (h : s.Canonical) : (arrivedPackets flow num s).Canonical := h

theorem tryFabricAck_canonical (h : s.Canonical) : IfSome State.Canonical (tryFabricAck s) := by
  unfold tryFabricAck
  refine findSome?_ifSome fun b => ?_
  split
  · exact none_ifSome
  · exact some_ifSome (arrivedPackets_canonical h)

theorem resendPacket_canonical {flow : Nat} {num : BitVec 32} (h : s.Canonical) : IfSome State.Canonical (resendPacket flow num s) :=
  map_any_ifSome fun _ => sendPacket_canonical h

theorem fabricLink_canonical {link : Nat} {dead : Bool} (h : s.Canonical) : (fabricLink link dead s).Canonical := h

theorem execFlitReceive_lands {m : Fin 8} {crcOk : Bool} {num : BitVec 8} {flit : Flit} : Lands s (execFlitReceive m crcOk num flit s) := by
  unfold execFlitReceive
  dsimp only
  split
  · exact next_lands id
  · split
    · exact next_lands fun c => setModule_canonical c
    · split
      · exact next_lands fun c => deliverAll_canonical (setModule_canonical c)
      · exact ite_lands (next_lands fun c => setModule_canonical c) (next_lands fun c => setModule_canonical c)

theorem execModuleDead_lands {m : Fin 8} {e : Option (BitVec 8)} : Lands s (execModuleDead m e s) := by
  unfold execModuleDead
  dsimp only
  split
  · exact ite_lands (next_lands fun c => moveOn_canonical (setModule_canonical c)) (next_lands fun c => setModule_canonical c)
  · exact next_lands fun c => moveOn_canonical (setModule_canonical (acceptFlits_canonical c))

theorem execFabricPacket_lands {flow : Nat} {num : BitVec 32} {msg : Msg} : Lands s (execFabricPacket flow num msg s) := by
  unfold execFabricPacket
  dsimp only
  split
  · exact next_lands fun c => setFlow_canonical (drainFlow_canonical (route_canonical (setFlow_canonical c)))
  · split
    · exact ite_lands (next_lands id) (next_lands fun c => setFlow_canonical c)
    · exact ite_lands (next_lands fun c => setFlow_canonical c) (next_lands fun c => setFlow_canonical c)

theorem execTimingPacket_lands {tick : Word} {synced : Bool} : Lands s (execTimingPacket tick synced s) :=
  next_lands fun c => ite_canonical (notify_canonical (ite_canonical c c)) (ite_canonical c c)

end

end Sys2Proof.Machine
end

section
/-! Every instruction, and every device step, goes on and keeps memories canonical (R11, R83, R301). -/

namespace Sys2Proof.Machine

theorem exec_lands (i : Instr) (s : State) : Lands s (exec i s) := by
  cases i with
  | add | sub | and | or | xor | sll | srl | sra | slt | sltz | min | max | minz | maxz | addw | subw | sllw | srlw | sraw | andn | orn
    | mul | mulh | mulhz | mulw | cAdd | cSub | cAnd => exact binary_lands id
  | clz | ctz | cnt | addi | addiw | andi | ori | xori | slti | sltiz | slli | srli | srai | slliw | srliw | sraiw | cMv | cAddi | cLi
    | cSlli | cSrli => exact unary_lands id
  | div | divz | rem | remz | divw | divzw | remw | remzw => exact divide_lands id
  | lui | auipc | mpop | cpyq => exact withRoomX_lands id (finishX_lands id)
  | beq | bne | blt | bge | blo | bhs | cBeq | cBne => exact branch_lands id
  | jal | cJ => exact jumpLink_lands id
  | jalr => exact execJalr_lands
  | loop => exact withX_lands id id fun _ _ h => enterLoop_lands id h
  | loopImm => exact enterLoop_lands id id
  | lit => exact execLit_lands
  | lb | lh | lw | ld | lbz | lhz | lwz | cLw => exact load_lands id
  | sb | sh | sw | sd | cSw => exact store_lands id
  | lqw | lqd => exact loadQuad_lands id
  | sqw | sqd => exact storeQuad_lands id
  | amoadd | amoaddw | amoswap | amoswapw | amoand | amoandw | amoor | amoorw | amoxor | amoxorw | amomin | amominw | amomax | amomaxw
    | amominz | amominzw | amomaxz | amomaxzw => exact amo_lands id
  | amocas => exact (amo_lands id : Lands s (execAmocas _ _ _ s))
  | amocasw => exact (amo_lands id : Lands s (execAmocasw _ _ _ s))
  | vld => exact withX_lands id id fun _ _ h => vecLoad_lands id h
  | vlds => exact withX_lands id id fun _ _ h => withX_lands id h fun _ _ h1 => vecLoad_lands id h1
  | vldx => exact withX_lands id id fun _ _ h => withV_lands id h fun _ _ h1 => vecLoad_lands id h1
  | vst => exact withX_lands id id fun _ _ h => withV_lands id h fun _ _ h1 => vecStore_lands id h1
  | vsts => exact execVsts_lands
  | vstx => exact execVstx_lands
  | vadd | vmul | vand | vor | vxor | vminz | vmaxz => exact vecBinary_lands id
  | vsub => exact (vecBinary_lands id : Lands s (execVsub _ _ _ _ _ s))
  | vmulh => exact (vecBinary_lands id : Lands s (execVmulh _ _ _ _ _ s))
  | vsll => exact (vecBinary_lands id : Lands s (execVsll _ _ _ _ _ s))
  | vsrl => exact (vecBinary_lands id : Lands s (execVsrl _ _ _ _ _ s))
  | vsra => exact (vecBinary_lands id : Lands s (execVsra _ _ _ _ _ s))
  | vmin => exact (vecBinary_lands id : Lands s (execVmin _ _ _ _ _ s))
  | vmax => exact (vecBinary_lands id : Lands s (execVmax _ _ _ _ _ s))
  | vabs => exact (vecUnary_lands id : Lands s (execVabs _ _ _ _ s))
  | vceq => exact (vecCompare_lands id : Lands s (execVceq _ _ _ _ _ s))
  | vclt => exact (vecCompare_lands id : Lands s (execVclt _ _ _ _ _ s))
  | vclo => exact (vecCompare_lands id : Lands s (execVclo _ _ _ _ _ s))
  | vsel => exact execVsel_lands
  | vsat => exact (vecUnary_lands id : Lands s (execVsat _ _ _ _ _ s))
  | vfadd | vfsub | vfmul => exact fpBinary_lands id
  | vfma => exact fpFused_lands id
  | vfms => exact (fpFused_lands id : Lands s (execVfms _ _ _ _ s))
  | vfmin => exact (fpBinary_lands id : Lands s (execVfmin _ _ _ _ s))
  | vfmax => exact (fpBinary_lands id : Lands s (execVfmax _ _ _ _ s))
  | vfabs => exact (fpUnary_lands id : Lands s (execVfabs _ _ _ s))
  | vfneg => exact (fpUnary_lands id : Lands s (execVfneg _ _ _ s))
  | vfceq | vfclt | vfcle => exact fpCompare_lands id
  | vfrcp | vfrsq | vfexp => exact fpUnary_lands id
  | vshuf => exact execVshuf_lands
  | vbcast => exact withX_lands id id fun _ _ h => withRoomV_lands id (finishV_lands h)
  | vmvx => exact execVmvx_lands
  | vslide => exact execVslide_lands
  | vzip => exact execVzip_lands
  | vuzp => exact execVuzp_lands
  | vreds => exact (reduction_lands id : Lands s (execVreds _ _ _ _ s))
  | vredm => exact (reduction_lands id : Lands s (execVredm _ _ _ _ s))
  | vfreds => exact reduction_lands id
  | vfredm => exact (reduction_lands id : Lands s (execVfredm _ _ _ s))
  | vcvt => exact execVcvt_lands
  | mand | mor | mxor => exact maskBinary_lands id
  | mnot => exact retire_lands fun c => writeM_canonical c
  | mset => exact withX_lands id id fun _ _ h => retire_lands fun c => writeM_canonical (h c)
  | guard => exact execGuard_lands
  | join => exact finishWide_lands id joinOp_canonical
  | qjoin => exact finishWide_lands id qjoinOp_canonical
  | qleave => exact finishWide_lands id qleaveOp_canonical
  | accz => exact finishWide_lands id acczOp_canonical
  | packx | packy | packxf | packyf | packk => exact streamPack_lands
  | muls => exact execMuls_lands
  | mulj => exact execMulj_lands
  | mmar => exact finishWide_lands id mmarOp_canonical
  | extr | extrf => exact streamExtract_lands
  | accrd => exact execAccrd_lands
  | accwr => exact execAccwr_lands
  | accmv => exact finishWide_lands id accMoveOp_canonical
  | tld | tst | tlds => exact issueTile_lands id
  | act | pre => exact issueRow_lands id
  | rowq | tchk | msgx => exact withX_lands id id fun _ _ h => withRoomX_lands id (finishX_lands h)
  | twait => exact execTwait_lands
  | cpy => exact execCpy_lands
  | cpygo => exact ite_lands (stall_lands id) (retire_lands fun c => handOver_canonical c)
  | send => exact execSend_lands
  | sendl => exact execSendl_lands
  | reply => exact withX_lands id id fun _ _ h => withV_lands id h fun _ _ h1 => sendOne_lands id h1
  | vread | vwrite | signal => exact withX_lands id id fun _ _ h => withX_lands id h fun _ _ h1 => sendOne_lands id h1
  | vamo => exact execVamo_lands
  | tnew => exact execTnew_lands
  | tdec => exact withX_lands id id fun _ _ h => recordOp_lands id h fun _ _ h1 => decRecord_canonical h1
  | tarm => exact withX_lands id id fun _ _ h => recordOp_lands id h fun _ _ h1 => tarmEffect_canonical h1
  | fence => exact execFence_lands
  | bar => exact execBar_lands
  | oxl => exact execOxl_lands
  | oxs => exact withX_lands id id fun _ _ h => storeX_lands id h
  | oxc => exact withX_lands id id fun _ _ h => retire_lands fun c => writeOx_canonical (h c)
  | srd => exact sysAccess_lands id id
  | swr | sset | sclr => exact withX_lands id id fun _ _ h => sysAccess_lands id h
  | tret => exact atTrapLevel_lands id (next_lands fun c => returnFromTrap_canonical c)
  | tabort => exact next_lands fun c => abortActivation_canonical c
  | tspill => exact execTspill_lands
  | tfill => exact execTfill_lands
  | brk | illop => exact trap_lands id
  | svc => exact raise_lands id
  | endStream | cEnd => exact endStreamOp_lands id
  | nop | cNop => exact retire_lands id
  | qmap => exact retire_lands fun c => State.setSt_canonical c
  | jrec => exact execJrec_lands
  | jseal => exact withRoomX_lands id (finishX_lands fun c => sealBatch_canonical c)
  | emit => exact execEmit_lands
  | rngb => exact withRoomV_lands id (finishV_lands fun c => writeOx_canonical c)
  | wdog => exact execWdog_lands
  | kill => exact ite_lands (next_lands fun c => killResidency_canonical c) (next_lands id)
  | residencyRelease => exact orStay_lands id fun h => tryResidencyRelease_canonical h
  | reservationClearEnd => exact orStay_lands id fun h => tryClearEnd_canonical h
  | overflowChainMove => exact orStay_lands id fun h => tryOverflowMove_canonical h
  | dispatch => exact orStay_lands id fun h => tryDispatch_canonical h
  | quadRemotePerform => exact orStay_lands id fun h => tryRemotePerform_canonical h
  | quadUnitMerge => exact orStay_lands id fun h => tryQuadMerge_canonical h
  | mcfg => exact execMcfg_lands
  | mpack => exact execMpack_lands
  | mmarCommand => exact execMmarCommand_lands
  | mzero => exact execMzero_lands
  | mextr => exact execMextr_lands
  | mstat => exact execMstat_lands
  | illcmd => exact execIllcmd_lands
  | slewGrant => exact orStay_lands id fun h => trySlewGrant_canonical h
  | slewLevelStep => exact orStay_lands id fun h => trySlewStep_canonical h
  | sliceWorkEnd => exact orStay_lands id fun h => trySliceWorkEnd_canonical h
  | rslewWrite | linkDead | linkReturn => exact next_lands fun c => c
  | tileOpStart => exact orStay_lands id fun h => tryTileOpStart_canonical h
  | vaultBeat => exact orStay_lands id fun h => tryVaultBeat_canonical h
  | tileOpComplete => exact orStay_lands id fun h => tryTileOpComplete_canonical h
  | pageMapResume => exact execPageMapResume_lands
  | actAtHead => exact execActAtHead_lands
  | preAtHead => exact orStay_lands id fun h => tryRowHead_canonical h
  | activationEnd => exact orStay_lands id fun h => tryActivationEnd_canonical h
  | prechargeEnd => exact orStay_lands id fun h => tryPrechargeEnd_canonical h
  | refresh => exact orStay_lands id fun h => tryRefresh_canonical h
  | refreshEnd => exact orStay_lands id fun h => tryRefreshEnd_canonical h
  | rowRepair => exact orStay_lands id fun h => tryRowRepair_canonical h
  | tempSample => exact execTempSample_lands
  | copy => exact execCopy_lands
  | restripe => exact orStay_lands id fun h => served_canonical (tryRestripe_canonical h)
  | fill => exact execFill_lands
  | hostrd => exact orStay_lands id fun h => served_canonical (tryHostrd_canonical h)
  | hostwr => exact execHostwr_lands
  | drain => exact execDrain_lands
  | badCopyCommand => exact orStay_lands id fun h => served_canonical (tryBadCopyCommand_canonical h)
  | copyCompletion => exact orStay_lands id fun h => served_canonical (tryCopyCompletion_canonical h)
  | chunkMove => exact orStay_lands id fun h => served_canonical (tryChunkMove_canonical h)
  | restripeSwitch => exact orStay_lands id fun h => served_canonical (tryRestripeSwitch_canonical h)
  | translationWalk => exact orStay_lands id fun h => tryTranslationWalk_canonical h
  | tableEntryChange => exact orStay_lands id fun h => tryTableEntryChange_canonical h
  | dirtyLogMerge => exact orStay_lands id fun h => tryMerge_canonical h
  | harvest => exact orStay_lands id fun h => tryHarvest_canonical h
  | messageEnqueue => exact execMessageEnqueue_lands
  | messageDepart => exact orStay_lands id fun h => tryDepart_canonical h
  | signalDecrement => exact orStay_lands id fun h => trySignalDecrement_canonical h
  | signalAck => exact next_lands fun c => ackArrives_canonical c
  | scopeMissBounce => exact orStay_lands id fun h => tryBounce_canonical h
  | barrierArrival => exact orStay_lands id fun h => tryBarrierArrival_canonical h
  | agentVread | agentVwrite | agentVamo | vfaddc | vfence => exact agentStep_lands id
  | agentCompletion => exact orStay_lands id fun h => tryAgentCompletion_canonical h
  | gangEnd => exact orStay_lands id fun h => tryGangEnd_canonical h
  | batchShip => exact orStay_lands id fun h => tryBatchShip_canonical h
  | batchStore => exact next_lands fun c => ite_canonical (State.nextFree_canonical c) c
  | journalAck => exact execJournalAck_lands
  | snapTruncation => exact execSnapTruncation_lands
  | egressRelease => exact orStay_lands id fun h => tryEgressRelease_canonical h
  | heartbeat => exact ite_lands (next_lands fun c => setJournal_canonical c) (next_lands id)
  | peerLost => exact orStay_lands id fun h => tryPeerLost_canonical h
  | bindingFreeze => exact ite_lands (next_lands id) (next_lands fun c => setJournal_canonical c)
  | windowShip => exact orStay_lands id fun h => tryWindowShip_canonical h
  | windowAck => exact orStay_lands id fun h => tryWindowAck_canonical h
  | replay => exact orStay_lands id fun h => tryReplay_canonical h
  | snapcfg => exact execSnapcfg_lands
  | snapshotCut => exact orStay_lands id fun h => trySnapshotCut_canonical h
  | pageCopy => exact orStay_lands id fun h => tryPageCopy_canonical h
  | shingleDrain => exact orStay_lands id fun h => tryShingleDrain_canonical h
  | shingleAck => exact orStay_lands id fun h => tryShingleAck_canonical h
  | drainWalk => exact orStay_lands id fun h => tryDrainWalk_canonical h
  | snapshotSeal => exact orStay_lands id fun h => trySnapshotSeal_canonical h
  | scanVisit => exact execScanVisit_lands
  | scanEnd => exact orStay_lands id fun h => tryScanEnd_canonical h
  | spareRemap => exact orStay_lands id fun h => trySpareRemap_canonical h
  | ringNotify => exact next_lands fun c => ite_canonical (notifyRing_canonical c) c
  | placeAndStart | placeOnly => exact orStay_lands id fun h => takeRecord_canonical h fun _ _ _ h1 => takeLaunch_canonical h1
  | start => exact execStart_lands
  | cancel => exact execCancel_lands
  | sealReread => exact orStay_lands id fun h => trySealReread_canonical h
  | launchForward => exact execLaunchForward_lands
  | readyReport => exact execReadyReport_lands
  | commit => exact orStay_lands id fun h => tryCommit_canonical h
  | launchAbort => exact orStay_lands id fun h => tryLaunchAbort_canonical h
  | selfAbort => exact orStay_lands id fun h => trySelfAbort_canonical h
  | armedStart => exact orStay_lands id fun h => tryArmedStart_canonical h
  | launchReconsider => exact orStay_lands id fun h => tryReconsider_canonical h
  | saveStart => exact orStay_lands id fun h => trySaveStart_canonical h
  | saveUnitAck => exact orStay_lands id fun h => trySaveUnit_canonical h
  | saveFault => exact orStay_lands id fun h => trySaveFault_canonical h
  | saveResume => exact next_lands fun c => ite_canonical (State.setRes_canonical c) c
  | saveAbandon => exact orStay_lands id fun h => trySaveAbandon_canonical h
  | restore => exact orStay_lands id fun h => tryRestore_canonical h
  | gate => exact next_lands fun c => gateCommand_canonical c
  | wake => exact orStay_lands id fun h => tryWake_canonical h
  | gateFall => exact orStay_lands id fun h => tryGateFall_canonical h
  | wakeAdmit => exact orStay_lands id fun h => tryWakeAdmit_canonical h
  | wakeComplete => exact orStay_lands id fun h => tryWakeComplete_canonical h
  | controlWrite => exact next_lands fun c => writeControl_canonical c
  | flitReceive => exact execFlitReceive_lands
  | nakReceive | laneFailure => exact ite_lands (next_lands id) (next_lands fun c => setModule_canonical c)
  | flitAck => exact ite_lands (next_lands id) (next_lands fun c => pumpAt_canonical (acceptFlits_canonical c))
  | retrainEnd => exact ite_lands (next_lands fun c => setModule_canonical c) (next_lands id)
  | moduleDead => exact execModuleDead_lands
  | sidebandTimeout => exact orStay_lands id fun h => trySidebandTimeout_canonical h
  | fabricPacket => exact execFabricPacket_lands
  | fabricAck => exact next_lands fun c => arrivedPackets_canonical c
  | gapTimeout => exact ite_lands (next_lands id) (next_lands fun c => setFlow_canonical c)
  | resendTimeout | fabricNak => exact orStay_lands id fun h => resendPacket_canonical h
  | timingPacket => exact execTimingPacket_lands
  | hostRead | hostWrite => exact next_lands fun c => hostArrives_canonical c
  | cciWrite => exact next_lands fun c => flushAll_canonical c
  | ringcfg => exact execRingcfg_lands
  | cringcfg => exact execCringcfg_lands
  | wincfg => exact execWincfg_lands
  | dmawcfg => exact execDmawcfg_lands
  | badcmd _ body => exact execBadcmd_lands (body := body)
  | fwload => exact ite_lands (next_lands id) (next_lands fun c => c)
  | imgload => exact execImgload_lands
  | imgdrop => exact execImgdrop_lands
  | imageForward => exact orStay_lands id fun h => tryImageForward_canonical h
  | powerUp => exact execPowerUp_lands
  | readyDeadline => exact orStay_lands id fun h => tryReadyDeadline_canonical h
  | hostMapTimeout => exact execHostMapTimeout_lands
  | moduleRetrain => exact next_lands fun c => setModule_canonical c
  | controllerFailure => exact orStay_lands id fun h => tryControllerFailure_canonical h

end Sys2Proof.Machine
end

section
/-! Canonical memories: what the device does of itself, what the host reads and writes, and what other cores and units do (R11, R298, R363). -/

namespace Sys2Proof.Machine

section
variable {s s0 t : State}

/-! ## Time, and the device's own steps -/

theorem makeCuts_canonical (h : s.Canonical) : (makeCuts s).Canonical :=
  foldl_canonical (fun _ _ h1 => getD_canonical (trySnapshotCut_canonical h1) h1) h

theorem passTime_canonical {k : Nat} {issued : Option SlotIx} {ready : SlotIx → Bool} (h : s.Canonical) : (passTime k issued ready s).Canonical := by
  unfold passTime
  exact makeCuts_canonical (h.of_same ⟨rfl, rfl, rfl⟩ ⟨rfl, rfl⟩ rfl ⟨rfl, rfl⟩)

theorem tryOwnArrival_canonical (h : s.Canonical) : IfSome State.Canonical (tryOwnArrival s) := by
  unfold tryOwnArrival
  repeat' split
  · exact tryBarrierArrival_canonical h
  all_goals exact none_ifSome

theorem tryOwnMerge_canonical (h : s.Canonical) : IfSome State.Canonical (tryOwnMerge s) := findSome?_ifSome fun _ => tryMerge_canonical h

theorem trySnapTruncation_canonical {r : ResIx} (h : s.Canonical) : IfSome State.Canonical (trySnapTruncation r s) := by
  unfold trySnapTruncation
  exact ite_ifSome (some_ifSome (setJournal_canonical h)) none_ifSome

theorem tryDueKill_canonical {r : ResIx} (h : s.Canonical) : IfSome State.Canonical (tryDueKill r s) := by
  unfold tryDueKill
  exact ite_ifSome (some_ifSome (finishKill_canonical h)) none_ifSome

/-- Every attempt of a list keeps memories canonical. -/
def AttemptsKeep (l : List Attempt) : Prop := ∀ f ∈ l, ∀ s : State, s.Canonical → IfSome State.Canonical (f s)

theorem AttemptsKeep.nil : AttemptsKeep [] := nofun

theorem AttemptsKeep.cons {f : Attempt} {l : List Attempt} (hf : ∀ {s : State}, s.Canonical → IfSome State.Canonical (f s)) (hl : AttemptsKeep l) :
    AttemptsKeep (f :: l) := List.forall_mem_cons.mpr ⟨fun _ h => hf h, hl⟩

theorem AttemptsKeep.append {l m : List Attempt} (hl : AttemptsKeep l) (hm : AttemptsKeep m) : AttemptsKeep (l ++ m) :=
  List.forall_mem_append.mpr ⟨hl, hm⟩

/-- The same attempt for each of several parts of the machine. -/
theorem AttemptsKeep.map {α : Type} (f : α → Attempt) (l : List α) (hf : ∀ {a} {s : State}, s.Canonical → IfSome State.Canonical (f a s)) :
    AttemptsKeep (l.map f) := List.forall_mem_map.mpr fun _ _ _ h => hf h

theorem AttemptsKeep.residencies (f : ResIx → Attempt) (hf : ∀ {r} {s : State}, s.Canonical → IfSome State.Canonical (f r s)) :
    AttemptsKeep (forResidencies f) := .map f _ hf

theorem AttemptsKeep.flatMap {α : Type} {f : α → List Attempt} (l : List α) (hf : ∀ a, AttemptsKeep (f a)) : AttemptsKeep (l.flatMap f) := fun g hg =>
  let ⟨a, _, ha⟩ := List.mem_flatMap.mp hg
  hf a g ha

theorem portAttempts_keep : AttemptsKeep portAttempts :=
  .cons (fun c => portStep_canonical c fun _ _ => runMcfg_canonical c) <| .cons (fun c => portStep_canonical c fun _ _ => runMpack_canonical c) <|
  .cons (fun c => portStep_canonical c fun _ _ => runMmar_canonical c) <| .cons (fun c => portStep_canonical c fun _ _ => runMzero_canonical c) <|
  .cons (fun c => portStep_canonical c fun _ _ => runMextr_canonical c) <| .cons (fun c => portStep_canonical c fun _ _ => runMstat_canonical c) <|
  .cons (fun c => portStep_canonical c fun _ _ => trivial) .nil

theorem bankAttempts_keep (b : BankIx) : AttemptsKeep (bankAttempts b) := by
  refine .cons tryActivationEnd_canonical <| .cons tryPrechargeEnd_canonical <| .cons tryRefresh_canonical <| .cons tryRefreshEnd_canonical <|
    .cons (fun h => ?_) .nil
  split
  · exact tryRowRepair_canonical h
  · exact tryRowRepair_canonical h
  · exact findSome?_ifSome fun _ => tryRowRepair_canonical h

theorem snapshotAttempts_keep : AttemptsKeep snapshotAttempts :=
  .cons (fun h => findSome?_ifSome fun _ => trySnapshotCut_canonical h) <|
  .cons (fun h => findSome?_ifSome fun _ => ite_ifSome (findSome?_ifSome fun _ => tryPageCopy_canonical h) none_ifSome) <|
  .cons tryShingleDrain_canonical <| .cons (fun h => findSome?_ifSome fun _ => trySnapshotSeal_canonical h) .nil

theorem gangAttempts_keep : AttemptsKeep gangAttempts :=
  .cons (fun h => findSome?_ifSome fun _ => tryGangEnd_canonical h) <| .cons (fun h => findSome?_ifSome fun _ => tryOwnCommit_canonical h) <|
  .cons tryMatePlacement_canonical <| .cons (fun h => findSome?_ifSome fun _ => tryReadyDeadline_canonical h) <|
  .cons (fun h => findSome?_ifSome fun _ => tryReadyDeadline_canonical h) <| .cons (fun h => findSome?_ifSome fun _ => trySelfAbort_canonical h) .nil

theorem powerAttempts_keep : AttemptsKeep powerAttempts :=
  .cons (fun h => findSome?_ifSome fun _ => tryGateFall_canonical h) <| .cons (fun h => findSome?_ifSome fun _ => tryWakeComplete_canonical h) <|
  .cons tryWakeAdmit_canonical <| .cons tryHeldWake_canonical <| .cons tryReload_canonical <| .cons tryFirmwareCheck_canonical .nil

/-- Every step of the device that a cycle may look for keeps memories canonical. -/
theorem attempts_keep : AttemptsKeep attempts := by
  unfold attempts
  have units : AttemptsKeep [trySlewGrant, trySliceWorkEnd, trySlewStep, tryQuadMerge, tryTileOpStart, tryPendingAct, tryRowHead .act, tryRowHead .pre,
      tryVaultBeat, tryTileOpComplete] :=
    .cons trySlewGrant_canonical <| .cons trySliceWorkEnd_canonical <| .cons trySlewStep_canonical <| .cons tryQuadMerge_canonical <|
      .cons tryTileOpStart_canonical <| .cons tryPendingAct_canonical <| .cons tryRowHead_canonical <| .cons tryRowHead_canonical <|
      .cons tryVaultBeat_canonical <| .cons tryTileOpComplete_canonical .nil
  have agents : AttemptsKeep [tryRemotePerform 0, tryAgentCompletion, serveNext 0xF0, serveNext 0xF1, serveNext 0xF2, serveNext 0xF3, serveNext 0xF4] :=
    .cons tryRemotePerform_canonical <| .cons tryAgentCompletion_canonical <| .cons serveNext_canonical <| .cons serveNext_canonical <|
      .cons serveNext_canonical <| .cons serveNext_canonical <| .cons serveNext_canonical .nil
  have copies : AttemptsKeep [tryCopyEngine, tryHostGo, tryNotifyGo, tryLoadGo] :=
    .cons tryCopyEngine_canonical <| .cons tryHostGo_canonical <| .cons tryNotifyGo_canonical <| .cons tryLoadGo_canonical .nil
  have net : AttemptsKeep [trySignalDecrement, tryBounce, tryEnqueue, tryOwnArrival, tryDepart, tryFlitAck, tryReturn, tryFabricAck, tryFarDelivery,
      trySpillNotice] :=
    .cons trySignalDecrement_canonical <| .cons tryBounce_canonical <| .cons tryEnqueue_canonical <| .cons tryOwnArrival_canonical <|
      .cons tryDepart_canonical <| .cons tryFlitAck_canonical <| .cons tryReturn_canonical <| .cons tryFabricAck_canonical <|
      .cons tryFarDelivery_canonical <| .cons trySpillNotice_canonical .nil
  have scan : AttemptsKeep [tryOwnMerge, tryScanBegin] := .cons tryOwnMerge_canonical <| .cons tryScanBegin_canonical .nil
  have toPorts := (((((AttemptsKeep.residencies tryResidencyRelease tryResidencyRelease_canonical).append units).append (.flatMap (List.finRange 16) bankAttempts_keep)).append
    agents).append (.map trySpillColumn (List.finRange 4) trySpillColumn_canonical)).append copies
  have toDispatch := ((((toPorts.append portAttempts_keep).append net).append (.residencies tryClearEnd tryClearEnd_canonical)).append
    (.residencies tryOverflowMove tryOverflowMove_canonical)).append (.cons tryDispatch_canonical .nil)
  have toSaves := (((((toDispatch.append (.residencies tryBatchShip tryBatchShip_canonical)).append (.residencies tryEgressRelease tryEgressRelease_canonical)).append
    (.residencies trySnapTruncation trySnapTruncation_canonical)).append (.residencies tryPeerLost tryPeerLost_canonical)).append
    (.residencies trySaveUnit trySaveUnit_canonical)).append (.residencies trySaveFault trySaveFault_canonical)
  exact (((toSaves.append scan).append snapshotAttempts_keep).append gangAttempts_keep).append powerAttempts_keep

theorem urgentAttempts_keep : AttemptsKeep urgentAttempts :=
  .append (.append (.residencies tryDueKill tryDueKill_canonical) (.residencies tryArmedStart tryArmedStart_canonical))
    fun f hf => snapshotAttempts_keep f (List.mem_of_mem_take hf)

/-! ## BAR 0 (R363, R364) -/

theorem after_canonical {o : Res} (ho : Lands s o) (h : s.Canonical) : (after o s).Canonical := by
  obtain ⟨t, rfl, ht⟩ := ho
  exact ht h

theorem bar0Read_canonical {off : BitVec 20} {n : Nat} (h : s.Canonical) : (bar0Read off n s).Canonical := h

theorem firmwareCommand_lands {irq : Bool} {body : List Word} {file : List Byte} : Lands s (firmwareCommand irq body file s) := by
  unfold firmwareCommand
  refine ite_lands (next_lands id) ?_
  split
  · exact next_lands answerMail_canonical
  · exact exec_lands (.fwload irq file) s

theorem runCommand_lands {command : Word} {body : List Word} {index : BitVec 8} {base : BitVec 9} {room : Bool} {file : List Byte} :
    Lands s (runCommand command body index base room file s) := by
  unfold runCommand
  extract_lets irq
  refine ite_lands (exec_lands (.badcmd command body) s) ?_
  split
  · exact exec_lands (.ringcfg irq body) s
  · exact exec_lands (.cringcfg irq body) s
  · exact exec_lands (.wincfg irq body) s
  · exact exec_lands (.dmawcfg irq body) s
  · exact exec_lands (.snapcfg irq body) s
  · exact firmwareCommand_lands
  · exact exec_lands (.imgload irq body index base room) s
  · exact exec_lands (.imgdrop irq body) s
  · exact exec_lands (.badcmd command body) s

theorem mailWrite_canonical {k : Fin 4} {i off n : Nat} {data : Word} {index : BitVec 8} {base : BitVec 9} {room : Bool} {file : List Byte}
    (h : s.Canonical) : (mailWrite k i off n data index base room file s).Canonical := by
  unfold mailWrite
  extract_lets m c s1 _ s2
  have h1 : s1.Canonical := setMailbox_canonical h
  have h2 : s2.Canonical := openMail_canonical (by exact h1)
  clear_value s2 s1
  exact ite_canonical (ite_canonical h (ite_canonical (after_canonical runCommand_lands h2) h1)) (ite_canonical (setMailbox_canonical h) h)

theorem bar0Write_canonical {off : BitVec 20} {n : Nat} {data : Word} {relaxed : Bool} {index : BitVec 8} {base : BitVec 9} {room : Bool}
    {file : List Byte} (h : s.Canonical) : (bar0Write off n data relaxed index base room file s).Canonical := by
  unfold bar0Write
  extract_lets o
  refine ite_canonical h ?_
  split
  · exact ite_canonical (after_canonical (exec_lands (.ringNotify _ _ _) s) h) h
  · exact mailWrite_canonical h
  · exact ite_canonical (after_canonical (exec_lands (.cciWrite _) s) h) (ite_canonical (raisePending_canonical (by exact h)) h)

/-! ## Elsewhere -/

/-- A change of a quad-mate that keeps its reservations canonical. -/
theorem setMate_canonical {k : Fin 4} {f : Mate → Mate} (h : s.Canonical)
    (hf : ∀ x : Mate, (∀ m ∈ x.residencies, Memory.wf m.mem = true) → ∀ m ∈ (f x).residencies, Memory.wf m.mem = true) :
    (setMate k f s).Canonical := h.setMates (h.mates.vset k (hf _ (h.mates k)))

theorem markMate_canonical {k : Fin 4} {gang : BitVec 16} (h : s.Canonical) : (markMate k gang s).Canonical := by
  unfold markMate
  split
  · exact h
  · rename_i m e
    exact setMateRes_canonical h (mateRes_wf h m e)

theorem accessHere_canonical {gang : BitVec 16} {by_ : BitVec 2} {write : Bool} {off n : Nat} {data : Word} (h : s.Canonical) :
    (accessHere gang by_ write off n data s).Canonical := by
  unfold accessHere
  split
  · exact h
  · exact ite_canonical h (ite_canonical (ownStore_canonical (State.setRes_canonical h)) (State.setRes_canonical h))

theorem accessMate_canonical {gang : BitVec 16} {by_ : BitVec 2} {k : Fin 4} {write : Bool} {off n : Nat} {data : Word} (h : s.Canonical) :
    (accessMate gang by_ k write off n data s).Canonical := by
  unfold accessMate
  split
  · exact h
  · rename_i m e
    have hm : Memory.wf m.mem = true := mateRes_wf h m e
    refine ite_canonical h (setMateRes_canonical h ?_)
    split
    · exact MateRes.wr_wf _ _ _ hm
    · exact hm

theorem mateAccess_canonical {gang : BitVec 16} {mate target : Fin 4} {write : Bool} {off : Word} {n : Nat} {data : Word} (h : s.Canonical) :
    (mateAccess gang mate target write off n data s).Canonical := by
  unfold mateAccess
  split
  · exact h
  · dsimp only
    split
    · exact ite_canonical (accessMate_canonical h) (accessHere_canonical h)
    · exact ite_canonical (accessMate_canonical (markMate_canonical h)) (accessHere_canonical (markMate_canonical h))

theorem mateLeaves_canonical {k : Fin 4} (h : s.Canonical) : (mateLeaves k s).Canonical :=
  ite_canonical (ite_canonical (quadSplit_canonical h) h) (setMate_canonical h fun _ hx => hx)

theorem releasedElsewhere_canonical {gang : BitVec 16} {core : BitVec 32} {killed : Bool} (h : s.Canonical) :
    (releasedElsewhere gang core killed s).Canonical :=
  ite_canonical h (leaveGang_canonical (ite_canonical
    (setMate_canonical (ite_canonical (mateLeaves_canonical h) h) fun _ hx m hm => hx m (List.mem_of_mem_filter hm)) h))

theorem preparePage_canonical {w : Word} {data : Option Mem} (h : s.Canonical) : (preparePage w data s).Canonical := by
  unfold preparePage
  extract_lets s1
  have h1 : s1.Canonical := by
    unfold s1
    split
    · exact h
    · exact foldl_canonical (fun _ _ h => ite_canonical (vaultPut_canonical h) h) (zeroPage_canonical h)
  clear_value s1
  exact ite_canonical h h1

theorem elsewhere_canonical {a : Elsewhere} (h : s.Canonical) : (elsewhere a s).Canonical := by
  cases a with
  | access =>
    unfold elsewhere
    exact mateAccess_canonical h
  | claim => exact ite_canonical (quadJoin_canonical (setMate_canonical h fun _ hx => hx)) h
  | leave => exact ite_canonical (mateLeaves_canonical h) h
  | pair => exact ite_canonical h (settleLeave_canonical (setMate_canonical h fun _ hx => hx))
  | quadWork => exact ite_canonical (addWork_canonical h) h
  | lock => exact setMate_canonical h fun _ hx => hx
  | badWords k gang _ =>
    unfold elsewhere
    dsimp only
    split
    · exact h
    · rename_i m e
      exact setMateRes_canonical h (mateRes_wf h m e)
  | placed k gang =>
    unfold elsewhere
    dsimp only
    split
    · exact h
    · exact bindMate_canonical h
  | endBound => exact h
  | killed =>
    refine setMate_canonical (updateGang_canonical h) fun _ hx m hm => ?_
    obtain ⟨y, hy, rfl⟩ := List.mem_map.mp hm
    split <;> exact hx y hy
  | released => exact releasedElsewhere_canonical h
  | delivered => exact getD_canonical (deliverFar_canonical h) h
  | serve => exact getD_canonical (serveJob_canonical h) h
  | filled => exact preparePage_canonical h
  | slewWait =>
    unfold elsewhere
    exact ite_canonical h (h.of_same ⟨rfl, rfl, rfl⟩ ⟨rfl, rfl⟩ rfl ⟨rfl, rfl⟩)
  | port => exact h
  | inUse => exact h
  | staging => exact h
  | partnerRegion => exact h
  | working => exact h
  | pool => exact h
  | partnerBeat => exact partnerBeat_canonical h
  | partnerSilent => exact partnerSilent_canonical h
  | crossed => exact crossNext_canonical h
  | fabricPaths => exact h
  | fabricLink => exact fabricLink_canonical h
  | booted => exact h
  | errorReport => exact raiseVector_canonical h
  | bar0Read => exact bar0Read_canonical h
  | bar0Write => exact bar0Write_canonical h

end

end Sys2Proof.Machine
end

section
/-! Every step goes on and keeps every byte memory in canonical form (O58, O60): the issue of a stream, a step of the device, a move of the
schedule. -/

namespace Sys2Proof.Machine

section
variable {s t : State}

/-- An answer that goes on from a state which keeps memories canonical. -/
theorem Lands.mono {o : Res} (ho : Lands t o) (h : Keeps s t) : Lands s o := by
  obtain ⟨u, rfl, hu⟩ := ho
  exact next_lands (hu ∘ h)

theorem Lands.andThen {o : Res} {f : State → State} (ho : Lands s o) (hf : ∀ u, u.Canonical → (f u).Canonical) : Lands s (andThen o f) := by
  obtain ⟨u, rfl, hu⟩ := ho
  exact next_lands fun c => hf u (hu c)

theorem afterDevice_canonical (h : s.Canonical) : (afterDevice s).Canonical := passTime_canonical (s := s) h

theorem idleCycle_canonical (h : s.Canonical) : (idleCycle s).Canonical := passTime_canonical (s := s) h

theorem afterIssue_canonical {s0 : State} {i : SlotIx} (h : s.Canonical) : (afterIssue s0 i s).Canonical := passTime_canonical (s := s) h

/-! ## Streams -/

theorem issueAs_lands (i : SlotIx) (s : State) : Lands s (issueAs i s) := by
  unfold issueAs
  extract_lets s1
  have h1 : Keeps s s1 := fun c => finishHalves_canonical (s := { s with cur := i }) c
  clear_value s1
  refine Lands.mono ?_ h1
  split
  · exact ite_lands (stall_lands id) (next_lands takeTrap_canonical)
  · refine ite_lands (exec_lands _ s1) ?_
    split
    · exact trap_lands id
    · exact exec_lands _ s1
    · exact exec_lands _ s1

theorem issue_lands (i : SlotIx) (s : State) : Lands s (issue i s) := (issueAs_lands i s).andThen fun _ => afterIssue_canonical

/-! ## Turns of the device and the streams -/

theorem firstEnabled_canonical {l : List Attempt} (hl : AttemptsKeep l) (h : s.Canonical) : IfSome State.Canonical (firstEnabled l s) := fun t e => by
  obtain ⟨f, hf, he⟩ := List.exists_of_findSome?_eq_some e
  exact hl f hf s h t he

theorem tryIssue_lands : IfSome (Lands s) (tryIssue s) := map_any_ifSome fun i => issue_lands i s

theorem tryDevice_lands : IfSome (Lands s) (tryDevice s) := fun o e => by
  obtain ⟨t, ht, rfl⟩ := Option.map_eq_some_iff.mp e
  exact next_lands fun c => afterDevice_canonical (firstEnabled_canonical attempts_keep c t ht)

/-- What can be chosen lands, and so does a cycle in which nothing moves. -/
theorem getD_idle_lands {o : Option Res} (h : IfSome (Lands s) o) : Lands s (o.getD (.next (idleCycle s))) := by
  cases o with
  | none => exact next_lands idleCycle_canonical
  | some r => exact h r rfl

theorem advance_lands (s : State) : Lands s (advance s) :=
  ite_lands (getD_idle_lands (orElse_ifSome tryDevice_lands fun _ => tryIssue_lands))
    (getD_idle_lands (orElse_ifSome tryIssue_lands fun _ => tryDevice_lands))

/-! ## The schedule -/

theorem move_lands {m : Move} (hm : m.good = true) : Lands s (move m s) := by
  cases m with
  | device i =>
    have e : move (.device i) s = andThen (exec i s) afterDevice := if_pos hm
    rw [e]
    exact (exec_lands i s).andThen fun _ => afterDevice_canonical
  | issue => exact getD_idle_lands tryIssue_lands
  | elsewhere a => exact next_lands fun c => afterDevice_canonical (elsewhere_canonical c)

/-- A step goes on unless the schedule asks for an instruction as a device step. -/
theorem step_lands (h : ∀ m, s.schedule.head? = some m → m.good = true) : Lands s (step s) := by
  unfold step
  split
  · rename_i m rest e
    exact Lands.mono (move_lands (h m (by rw [e]; rfl))) id
  · split
    · rename_i t e
      exact next_lands fun c => afterDevice_canonical (firstEnabled_canonical urgentAttempts_keep c t e)
    · exact advance_lands s

/-- The model's only fault: an instruction stands in the schedule as a device step. -/
theorem step_fault {m : Move} (h : s.schedule.head? = some m) (hm : m.good = false) : step s = .fault .notADeviceStep := by
  unfold step
  cases e : s.schedule with
  | nil => rw [e] at h; cases h
  | cons m' rest =>
    rw [e] at h
    cases h
    cases m with
    | device i => exact if_neg (by rw [show i.isEvent = false from hm]; decide)
    | issue => cases hm
    | elsewhere a => cases hm

theorem step_canonical (h : s.Canonical) (e : step s = .next t) : t.Canonical := by
  have hm : ∀ m, s.schedule.head? = some m → m.good = true := fun m hm => by
    by_contra hg
    rw [step_fault hm (Bool.eq_false_of_not_eq_true hg)] at e
    cases e
  obtain ⟨u, hu, hk⟩ := step_lands hm
  rw [hu] at e
  cases e
  exact hk h

end

end Sys2Proof.Machine

namespace Sys2Proof.Spec
open Sys2Proof.Machine

/-- Settles O58: each function of the model that writes a memory, or copies one, keeps its canonical form, so every instruction and every step of the
device does. -/
theorem stepsKeepMemories : Obligations.StepsKeepMemories := fun _ _ hm hc e => step_canonical ⟨hm, hc⟩ e

/-- Settles O60: no instruction and no device step answers a fault or a refusal, so a step can only end at an instruction scheduled as a device
step. -/
theorem stepsGoOn : Obligations.StepsGoOn := fun _ hs =>
  let ⟨t, e, _⟩ := step_lands fun m hm => hs m (List.mem_of_mem_head? hm)
  ⟨t, e⟩

end Sys2Proof.Spec
end

section
/-! The decoder reads back what the encoder writes (R72 to R83): each instruction of an op is found by its row of the opcode map, since no row before
it fits the word. -/

namespace Sys2Proof

/-- A word of n bytes is an instruction's: its parity is that of the length, it fits the length, and the decoder reads it back (R72). -/
def IsWordOf (i : Instr) (n w : Nat) : Prop := n = (if w % 2 = 0 then 2 else 4) ∧ w < 2 ^ (8 * n) ∧ decodeWord w = .ok i

/-- The word of an instruction is read back. -/
def Decodes (i : Instr) : Prop := IsWordOf i i.len (encode i)

/-- Every instruction of a list that is well-formed is read back. -/
def AllDecode (l : List Instr) : Prop := ∀ i ∈ l, i.wellFormed = true → Decodes i

theorem allDecode_nil : AllDecode [] ↔ True := iff_of_true (List.forall_mem_nil _) trivial

theorem allDecode_cons {i : Instr} {l : List Instr} : AllDecode (i :: l) ↔ (i.wellFormed = true → Decodes i) ∧ AllDecode l := List.forall_mem_cons

/-- A 32-bit word decodes to what its op's rows give. -/
theorem decodeWord_long {w op : Nat} {i : Instr} (hw : w < 2 ^ 32) (h : w % 128 = 2 * op + 1) (hd : bits w 1 6 = op → decodeWord32 w = some i)
    (hi : i.wellFormed = true) : IsWordOf i 4 w := by
  have h1 : ¬ w % 2 = 0 := by omega
  refine ⟨(if_neg h1).symm, hw, ?_⟩
  have h2 : bits w 1 6 = op := by
    unfold bits
    omega
  rw [decodeWord, if_neg h1, Nat.mod_eq_of_lt hw, hd h2, checkFields]
  exact if_pos hi

/-- A 16-bit word decodes to what its op's row gives. -/
theorem decodeWord_short {w op : Nat} {i : Instr} (hw : w < 2 ^ 16) (h : w % 32 = 2 * op) (hd : bits w 1 4 = op → decodeWord16 w = some i)
    (hi : i.wellFormed = true) : IsWordOf i 2 w := by
  have h1 : w % 2 = 0 := by omega
  refine ⟨(if_pos h1).symm, hw, ?_⟩
  have h2 : bits w 1 4 = op := by
    unfold bits
    omega
  rw [decodeWord, if_pos h1, Nat.mod_eq_of_lt hw, hd h2, checkFields]
  exact if_pos hi

theorem field_of_div {w lo n : Nat} {x : BitVec n} (h : w / 2 ^ lo % 2 ^ n = x.toNat) : field w lo n = x := BitVec.eq_of_toNat_eq h

theorem accHigh_cases (n : AccNum) : n.toNat / 32 = 0 ∨ n.toNat / 32 = 1 := by omega

theorem decodes_op00_a (a b c : Reg) : AllDecode [.add a b c, .sub a b c, .and a b c, .or a b c, .xor a b c, .sll a b c, .srl a b c, .sra a b c] := by
  simp only [allDecode_cons, allDecode_nil, and_true]
  refine ⟨fun hi => ?_, fun hi => ?_, fun hi => ?_, fun hi => ?_, fun hi => ?_, fun hi => ?_, fun hi => ?_, fun hi => ?_⟩
  all_goals
    delta Decodes encode
    simp only [wordA7B12C17]
    refine decodeWord_long (op := 0x00) (by omega) (by omega) (fun h => ?_) hi
    simp (disch := (unfold bits; omega)) only [decodeWord32, h, decodeOp00, ↓if_neg, ↓if_pos]
    congr 2 <;> exact field_of_div (by omega)

theorem decodes_op00_b (a b c : Reg) : AllDecode [.slt a b c, .sltz a b c, .min a b c, .max a b c, .minz a b c, .maxz a b c, .addw a b c, .subw a b
      c] := by
  simp only [allDecode_cons, allDecode_nil, and_true]
  refine ⟨fun hi => ?_, fun hi => ?_, fun hi => ?_, fun hi => ?_, fun hi => ?_, fun hi => ?_, fun hi => ?_, fun hi => ?_⟩
  all_goals
    delta Decodes encode
    simp only [wordA7B12C17]
    refine decodeWord_long (op := 0x00) (by omega) (by omega) (fun h => ?_) hi
    simp (disch := (unfold bits; omega)) only [decodeWord32, h, decodeOp00, ↓if_neg, ↓if_pos]
    congr 2 <;> exact field_of_div (by omega)

theorem decodes_op00_c (a b c : Reg) : AllDecode [.sllw a b c, .srlw a b c, .sraw a b c, .clz a b, .ctz a b, .cnt a b, .andn a b c, .orn a b c] := by
  simp only [allDecode_cons, allDecode_nil, and_true]
  refine ⟨fun hi => ?_, fun hi => ?_, fun hi => ?_, fun hi => ?_, fun hi => ?_, fun hi => ?_, fun hi => ?_, fun hi => ?_⟩
  all_goals
    delta Decodes encode
    simp only [wordA7B12C17, wordA7B12]
    refine decodeWord_long (op := 0x00) (by omega) (by omega) (fun h => ?_) hi
    simp (disch := (unfold bits; omega)) only [decodeWord32, h, decodeOp00, ↓if_neg, ↓if_pos]
    congr 2 <;> exact field_of_div (by omega)

theorem decodes_op01_a (a b c : Reg) : AllDecode [.mul a b c, .mulh a b c, .mulhz a b c, .mulw a b c, .div a b c, .divz a b c, .rem a b c, .remz a
      b c] := by
  simp only [allDecode_cons, allDecode_nil, and_true]
  refine ⟨fun hi => ?_, fun hi => ?_, fun hi => ?_, fun hi => ?_, fun hi => ?_, fun hi => ?_, fun hi => ?_, fun hi => ?_⟩
  all_goals
    delta Decodes encode
    simp only [wordA7B12C17]
    refine decodeWord_long (op := 0x01) (by omega) (by omega) (fun h => ?_) hi
    simp (disch := (unfold bits; omega)) only [decodeWord32, h, decodeOp01, ↓if_neg, ↓if_pos]
    congr 2 <;> exact field_of_div (by omega)

theorem decodes_op01_b (a b c : Reg) : AllDecode [.divw a b c, .divzw a b c, .remw a b c, .remzw a b c] := by
  simp only [allDecode_cons, allDecode_nil, and_true]
  refine ⟨fun hi => ?_, fun hi => ?_, fun hi => ?_, fun hi => ?_⟩
  all_goals
    delta Decodes encode
    simp only [wordA7B12C17]
    refine decodeWord_long (op := 0x01) (by omega) (by omega) (fun h => ?_) hi
    simp (disch := (unfold bits; omega)) only [decodeWord32, h, decodeOp01, ↓if_neg, ↓if_pos]
    congr 2 <;> exact field_of_div (by omega)

theorem decodes_op02 (a b : Reg) (i : BitVec 15) : AllDecode [.addi a b i] := by
  simp only [allDecode_cons, allDecode_nil, and_true]
  intro hi
  delta Decodes encode
  simp only [wordA7B12I17w15]
  refine decodeWord_long (op := 0x02) (by omega) (by omega) (fun h => ?_) hi
  simp (disch := (unfold bits; omega)) only [decodeWord32, h, decodeOp02]
  congr 2 <;> exact field_of_div (by omega)

theorem decodes_op03 (a b : Reg) (i : BitVec 15) : AllDecode [.addiw a b i] := by
  simp only [allDecode_cons, allDecode_nil, and_true]
  intro hi
  delta Decodes encode
  simp only [wordA7B12I17w15]
  refine decodeWord_long (op := 0x03) (by omega) (by omega) (fun h => ?_) hi
  simp (disch := (unfold bits; omega)) only [decodeWord32, h, decodeOp03]
  congr 2 <;> exact field_of_div (by omega)

theorem decodes_op04 (a b : Reg) (i : BitVec 15) : AllDecode [.andi a b i] := by
  simp only [allDecode_cons, allDecode_nil, and_true]
  intro hi
  delta Decodes encode
  simp only [wordA7B12I17w15]
  refine decodeWord_long (op := 0x04) (by omega) (by omega) (fun h => ?_) hi
  simp (disch := (unfold bits; omega)) only [decodeWord32, h, decodeOp04]
  congr 2 <;> exact field_of_div (by omega)

theorem decodes_op05 (a b : Reg) (i : BitVec 15) : AllDecode [.ori a b i] := by
  simp only [allDecode_cons, allDecode_nil, and_true]
  intro hi
  delta Decodes encode
  simp only [wordA7B12I17w15]
  refine decodeWord_long (op := 0x05) (by omega) (by omega) (fun h => ?_) hi
  simp (disch := (unfold bits; omega)) only [decodeWord32, h, decodeOp05]
  congr 2 <;> exact field_of_div (by omega)

theorem decodes_op06 (a b : Reg) (i : BitVec 15) : AllDecode [.xori a b i] := by
  simp only [allDecode_cons, allDecode_nil, and_true]
  intro hi
  delta Decodes encode
  simp only [wordA7B12I17w15]
  refine decodeWord_long (op := 0x06) (by omega) (by omega) (fun h => ?_) hi
  simp (disch := (unfold bits; omega)) only [decodeWord32, h, decodeOp06]
  congr 2 <;> exact field_of_div (by omega)

theorem decodes_op07 (a b : Reg) (i : BitVec 15) : AllDecode [.slti a b i] := by
  simp only [allDecode_cons, allDecode_nil, and_true]
  intro hi
  delta Decodes encode
  simp only [wordA7B12I17w15]
  refine decodeWord_long (op := 0x07) (by omega) (by omega) (fun h => ?_) hi
  simp (disch := (unfold bits; omega)) only [decodeWord32, h, decodeOp07]
  congr 2 <;> exact field_of_div (by omega)

theorem decodes_op08 (a b : Reg) (i : BitVec 15) : AllDecode [.sltiz a b i] := by
  simp only [allDecode_cons, allDecode_nil, and_true]
  intro hi
  delta Decodes encode
  simp only [wordA7B12I17w15]
  refine decodeWord_long (op := 0x08) (by omega) (by omega) (fun h => ?_) hi
  simp (disch := (unfold bits; omega)) only [decodeWord32, h, decodeOp08]
  congr 2 <;> exact field_of_div (by omega)

theorem decodes_op09 (a b : Reg) (n : BitVec 6) : AllDecode [.slli a n b, .srli a n b, .srai a n b, .slliw a n b, .srliw a n b, .sraiw a n b] := by
  simp only [allDecode_cons, allDecode_nil, and_true]
  refine ⟨fun hi => ?_, fun hi => ?_, fun hi => ?_, fun hi => ?_, fun hi => ?_, fun hi => ?_⟩
  all_goals
    delta Decodes encode
    simp only [wordA7N17w6B12]
    refine decodeWord_long (op := 0x09) (by omega) (by omega) (fun h => ?_) hi
    simp (disch := (unfold bits; omega)) only [decodeWord32, h, decodeOp09, ↓if_neg, ↓if_pos]
    congr 2 <;> exact field_of_div (by omega)

theorem decodes_op0A (a : Reg) (i : BitVec 20) : AllDecode [.lui a i] := by
  simp only [allDecode_cons, allDecode_nil, and_true]
  intro hi
  delta Decodes encode
  simp only [wordA7I12w20]
  refine decodeWord_long (op := 0x0A) (by omega) (by omega) (fun h => ?_) hi
  simp (disch := (unfold bits; omega)) only [decodeWord32, h, decodeOp0A]
  congr 2 <;> exact field_of_div (by omega)

theorem decodes_op0B (a : Reg) (i : BitVec 20) : AllDecode [.auipc a i] := by
  simp only [allDecode_cons, allDecode_nil, and_true]
  intro hi
  delta Decodes encode
  simp only [wordA7I12w20]
  refine decodeWord_long (op := 0x0B) (by omega) (by omega) (fun h => ?_) hi
  simp (disch := (unfold bits; omega)) only [decodeWord32, h, decodeOp0B]
  congr 2 <;> exact field_of_div (by omega)

theorem decodes_op0C (a b : Reg) (o : BitVec 12) : AllDecode [.beq a b o, .bne a b o, .blt a b o, .bge a b o, .blo a b o, .bhs a b o] := by
  simp only [allDecode_cons, allDecode_nil, and_true]
  refine ⟨fun hi => ?_, fun hi => ?_, fun hi => ?_, fun hi => ?_, fun hi => ?_, fun hi => ?_⟩
  all_goals
    delta Decodes encode
    simp only [wordA7B12O20w12]
    refine decodeWord_long (op := 0x0C) (by omega) (by omega) (fun h => ?_) hi
    simp (disch := (unfold bits; omega)) only [decodeWord32, h, decodeOp0C, ↓if_neg, ↓if_pos]
    congr 2 <;> exact field_of_div (by omega)

theorem decodes_op0D (a : Reg) (o : BitVec 20) : AllDecode [.jal a o] := by
  simp only [allDecode_cons, allDecode_nil, and_true]
  intro hi
  delta Decodes encode
  simp only [wordA7O12w20]
  refine decodeWord_long (op := 0x0D) (by omega) (by omega) (fun h => ?_) hi
  simp (disch := (unfold bits; omega)) only [decodeWord32, h, decodeOp0D]
  congr 2 <;> exact field_of_div (by omega)

theorem decodes_op0E (a b : Reg) (i : BitVec 15) : AllDecode [.jalr a b i] := by
  simp only [allDecode_cons, allDecode_nil, and_true]
  intro hi
  delta Decodes encode
  simp only [wordA7B12I17w15]
  refine decodeWord_long (op := 0x0E) (by omega) (by omega) (fun h => ?_) hi
  simp (disch := (unfold bits; omega)) only [decodeWord32, h, decodeOp0E]
  congr 2 <;> exact field_of_div (by omega)

theorem decodes_op0F (n L : BitVec 10) : AllDecode [.loopImm n L] := by
  simp only [allDecode_cons, allDecode_nil, and_true]
  intro hi
  delta Decodes encode
  simp only [wordN22w10L12w10]
  refine decodeWord_long (op := 0x0F) (by omega) (by omega) (fun h => ?_) hi
  simp (disch := (unfold bits; omega)) only [decodeWord32, h, decodeOp0F, ↓if_neg, ↓if_pos]
  congr 2 <;> exact field_of_div (by omega)

theorem decodes_op0F_counted (a : Reg) (L : BitVec 10) : AllDecode [.loop a L] := by
  simp only [allDecode_cons, allDecode_nil, and_true]
  intro hi
  have ha : a.toNat ≠ 0 := fun e => by simp [Instr.wellFormed, BitVec.eq_of_toNat_eq (y := 0) e] at hi
  delta Decodes encode
  simp only [wordA7L12w10]
  refine decodeWord_long (op := 0x0F) (by omega) (by omega) (fun h => ?_) hi
  simp (disch := (unfold bits; omega)) only [decodeWord32, h, decodeOp0F, ↓if_pos]
  congr 2 <;> exact field_of_div (by omega)

theorem decodes_op10 (a b : Reg) (o : BitVec 12) : AllDecode [.lb a b o, .lh a b o, .lw a b o, .ld a b o, .lbz a b o, .lhz a b o, .lwz a b o] := by
  simp only [allDecode_cons, allDecode_nil, and_true]
  refine ⟨fun hi => ?_, fun hi => ?_, fun hi => ?_, fun hi => ?_, fun hi => ?_, fun hi => ?_, fun hi => ?_⟩
  all_goals
    delta Decodes encode
    simp only [wordA7B12O20w12]
    refine decodeWord_long (op := 0x10) (by omega) (by omega) (fun h => ?_) hi
    simp (disch := (unfold bits; omega)) only [decodeWord32, h, decodeOp10, ↓if_neg, ↓if_pos]
    congr 2 <;> exact field_of_div (by omega)

theorem decodes_op11 (a b : Reg) (o : BitVec 12) : AllDecode [.sb a b o, .sh a b o, .sw a b o, .sd a b o] := by
  simp only [allDecode_cons, allDecode_nil, and_true]
  refine ⟨fun hi => ?_, fun hi => ?_, fun hi => ?_, fun hi => ?_⟩
  all_goals
    delta Decodes encode
    simp only [wordA7B12O20w12]
    refine decodeWord_long (op := 0x11) (by omega) (by omega) (fun h => ?_) hi
    simp (disch := (unfold bits; omega)) only [decodeWord32, h, decodeOp11, ↓if_neg, ↓if_pos]
    congr 2 <;> exact field_of_div (by omega)

theorem decodes_op12 (a b c : Reg) : AllDecode [.lqw a b c, .lqd a b c, .sqw a b c, .sqd a b c] := by
  simp only [allDecode_cons, allDecode_nil, and_true]
  refine ⟨fun hi => ?_, fun hi => ?_, fun hi => ?_, fun hi => ?_⟩
  all_goals
    delta Decodes encode
    simp only [wordA7B12C17]
    refine decodeWord_long (op := 0x12) (by omega) (by omega) (fun h => ?_) hi
    simp (disch := (unfold bits; omega)) only [decodeWord32, h, decodeOp12, ↓if_neg, ↓if_pos]
    congr 2 <;> exact field_of_div (by omega)

theorem decodes_op13_a (a b c : Reg) : AllDecode [.amoadd a b c, .amoaddw a b c, .amoswap a b c, .amoswapw a b c, .amocas a b c, .amocasw a b c,
      .amoand a b c, .amoandw a b c] := by
  simp only [allDecode_cons, allDecode_nil, and_true]
  refine ⟨fun hi => ?_, fun hi => ?_, fun hi => ?_, fun hi => ?_, fun hi => ?_, fun hi => ?_, fun hi => ?_, fun hi => ?_⟩
  all_goals
    delta Decodes encode
    simp only [wordA7B12C17]
    refine decodeWord_long (op := 0x13) (by omega) (by omega) (fun h => ?_) hi
    simp (disch := (unfold bits; omega)) only [decodeWord32, h, decodeOp13, ↓if_neg, ↓if_pos]
    congr 2 <;> exact field_of_div (by omega)

theorem decodes_op13_b (a b c : Reg) : AllDecode [.amoor a b c, .amoorw a b c, .amoxor a b c, .amoxorw a b c, .amomin a b c, .amominw a b c,
      .amomax a b c, .amomaxw a b c] := by
  simp only [allDecode_cons, allDecode_nil, and_true]
  refine ⟨fun hi => ?_, fun hi => ?_, fun hi => ?_, fun hi => ?_, fun hi => ?_, fun hi => ?_, fun hi => ?_, fun hi => ?_⟩
  all_goals
    delta Decodes encode
    simp only [wordA7B12C17]
    refine decodeWord_long (op := 0x13) (by omega) (by omega) (fun h => ?_) hi
    simp (disch := (unfold bits; omega)) only [decodeWord32, h, decodeOp13, ↓if_neg, ↓if_pos]
    congr 2 <;> exact field_of_div (by omega)

theorem decodes_op13_c (a b c : Reg) : AllDecode [.amominz a b c, .amominzw a b c, .amomaxz a b c, .amomaxzw a b c] := by
  simp only [allDecode_cons, allDecode_nil, and_true]
  refine ⟨fun hi => ?_, fun hi => ?_, fun hi => ?_, fun hi => ?_⟩
  all_goals
    delta Decodes encode
    simp only [wordA7B12C17]
    refine decodeWord_long (op := 0x13) (by omega) (by omega) (fun h => ?_) hi
    simp (disch := (unfold bits; omega)) only [decodeWord32, h, decodeOp13, ↓if_neg, ↓if_pos]
    congr 2 <;> exact field_of_div (by omega)

theorem decodes_op14 (a : Reg) (o : BitVec 20) : AllDecode [.lit a o] := by
  simp only [allDecode_cons, allDecode_nil, and_true]
  intro hi
  delta Decodes encode
  simp only [wordA7O12w20]
  refine decodeWord_long (op := 0x14) (by omega) (by omega) (fun h => ?_) hi
  simp (disch := (unfold bits; omega)) only [decodeWord32, h, decodeOp14]
  congr 2 <;> exact field_of_div (by omega)

theorem decodes_op15 (a b c : Reg) (t : BitVec 4) (m : MaskField) : AllDecode [.vld a b c t m, .vlds a b c t m, .vldx a b c t m] := by
  simp only [allDecode_cons, allDecode_nil, and_true]
  refine ⟨fun hi => ?_, fun hi => ?_, fun hi => ?_⟩
  all_goals
    delta Decodes encode
    simp only [wordA7B12C17T28w4M22w3]
    refine decodeWord_long (op := 0x15) (by omega) (by omega) (fun h => ?_) hi
    simp (disch := (unfold bits; omega)) only [decodeWord32, h, decodeOp15, ↓if_neg, ↓if_pos]
    congr 2 <;> exact field_of_div (by omega)

theorem decodes_op16 (a b c : Reg) (t : BitVec 4) (m : MaskField) : AllDecode [.vst a b c t m, .vsts a b c t m, .vstx a b c t m] := by
  simp only [allDecode_cons, allDecode_nil, and_true]
  refine ⟨fun hi => ?_, fun hi => ?_, fun hi => ?_⟩
  all_goals
    delta Decodes encode
    simp only [wordA7B12C17T28w4M22w3]
    refine decodeWord_long (op := 0x16) (by omega) (by omega) (fun h => ?_) hi
    simp (disch := (unfold bits; omega)) only [decodeWord32, h, decodeOp16, ↓if_neg, ↓if_pos]
    congr 2 <;> exact field_of_div (by omega)

theorem decodes_op17_a (a b c : Reg) (w : BitVec 2) (m : MaskField) : AllDecode [.vadd a b c w m, .vsub a b c w m, .vmul a b c w m, .vmulh a b c w
      m, .vand a b c w m, .vor a b c w m, .vxor a b c w m, .vsll a b c w m] := by
  simp only [allDecode_cons, allDecode_nil, and_true]
  refine ⟨fun hi => ?_, fun hi => ?_, fun hi => ?_, fun hi => ?_, fun hi => ?_, fun hi => ?_, fun hi => ?_, fun hi => ?_⟩
  all_goals
    delta Decodes encode
    simp only [wordA7B12C17W25w2M22w3]
    refine decodeWord_long (op := 0x17) (by omega) (by omega) (fun h => ?_) hi
    simp (disch := (unfold bits; omega)) only [decodeWord32, h, decodeOp17, ↓if_neg, ↓if_pos]
    congr 2 <;> exact field_of_div (by omega)

theorem decodes_op17_b (a b c : Reg) (w : BitVec 2) (m : MaskField) : AllDecode [.vsrl a b c w m, .vsra a b c w m, .vmin a b c w m, .vmax a b c w
      m, .vminz a b c w m, .vmaxz a b c w m, .vabs a b w m, .vceq a b c w m] := by
  simp only [allDecode_cons, allDecode_nil, and_true]
  refine ⟨fun hi => ?_, fun hi => ?_, fun hi => ?_, fun hi => ?_, fun hi => ?_, fun hi => ?_, fun hi => ?_, fun hi => ?_⟩
  all_goals
    delta Decodes encode
    simp only [wordA7B12C17W25w2M22w3, wordA7B12W25w2M22w3]
    refine decodeWord_long (op := 0x17) (by omega) (by omega) (fun h => ?_) hi
    simp (disch := (unfold bits; omega)) only [decodeWord32, h, decodeOp17, ↓if_neg, ↓if_pos]
    congr 2 <;> exact field_of_div (by omega)

theorem decodes_op17_c (a b c : Reg) (w : BitVec 2) (m : MaskField) (k : BitVec 5) : AllDecode [.vclt a b c w m, .vclo a b c w m, .vsel a b c m,
      .vsat a b k w m] := by
  simp only [allDecode_cons, allDecode_nil, and_true]
  refine ⟨fun hi => ?_, fun hi => ?_, fun hi => ?_, fun hi => ?_⟩
  all_goals
    delta Decodes encode
    simp only [wordA7B12C17W25w2M22w3, wordA7B12C17M22w3, wordA7B12K17W25w2M22w3]
    refine decodeWord_long (op := 0x17) (by omega) (by omega) (fun h => ?_) hi
    simp (disch := (unfold bits; omega)) only [decodeWord32, h, decodeOp17, ↓if_neg, ↓if_pos]
    congr 2 <;> exact field_of_div (by omega)

theorem decodes_op18_a (a b c : Reg) (m : MaskField) : AllDecode [.vfadd a b c m, .vfsub a b c m, .vfmul a b c m, .vfma a b c m, .vfms a b c m,
      .vfmin a b c m, .vfmax a b c m, .vfabs a b m] := by
  simp only [allDecode_cons, allDecode_nil, and_true]
  refine ⟨fun hi => ?_, fun hi => ?_, fun hi => ?_, fun hi => ?_, fun hi => ?_, fun hi => ?_, fun hi => ?_, fun hi => ?_⟩
  all_goals
    delta Decodes encode
    simp only [wordA7B12C17M22w3, wordA7B12M22w3]
    refine decodeWord_long (op := 0x18) (by omega) (by omega) (fun h => ?_) hi
    simp (disch := (unfold bits; omega)) only [decodeWord32, h, decodeOp18, ↓if_neg, ↓if_pos]
    congr 2 <;> exact field_of_div (by omega)

theorem decodes_op18_b (a b c : Reg) (m : MaskField) : AllDecode [.vfneg a b m, .vfceq a b c m, .vfclt a b c m, .vfcle a b c m, .vfrcp a b m,
      .vfrsq a b m, .vfexp a b m] := by
  simp only [allDecode_cons, allDecode_nil, and_true]
  refine ⟨fun hi => ?_, fun hi => ?_, fun hi => ?_, fun hi => ?_, fun hi => ?_, fun hi => ?_, fun hi => ?_⟩
  all_goals
    delta Decodes encode
    simp only [wordA7B12M22w3, wordA7B12C17M22w3]
    refine decodeWord_long (op := 0x18) (by omega) (by omega) (fun h => ?_) hi
    simp (disch := (unfold bits; omega)) only [decodeWord32, h, decodeOp18, ↓if_neg, ↓if_pos]
    congr 2 <;> exact field_of_div (by omega)

theorem decodes_op19_a (a b c : Reg) (w : BitVec 2) (m : MaskField) : AllDecode [.vshuf a b c w m, .vbcast a b w m, .vmvx a b c w, .vslide a b c w
      m, .vzip a b c w m, .vuzp a b c w m, .vreds a b w m, .vredm a b w m] := by
  simp only [allDecode_cons, allDecode_nil, and_true]
  refine ⟨fun hi => ?_, fun hi => ?_, fun hi => ?_, fun hi => ?_, fun hi => ?_, fun hi => ?_, fun hi => ?_, fun hi => ?_⟩
  all_goals
    delta Decodes encode
    simp only [wordA7B12C17W26w2M22w3, wordA7B12W26w2M22w3, wordA7B12C17W26w2]
    refine decodeWord_long (op := 0x19) (by omega) (by omega) (fun h => ?_) hi
    simp (disch := (unfold bits; omega)) only [decodeWord32, h, decodeOp19, ↓if_neg, ↓if_pos]
    congr 2 <;> exact field_of_div (by omega)

theorem decodes_op19_b (a b : Reg) (m : MaskField) (d s : BitVec 4) : AllDecode [.vfreds a b m, .vfredm a b m, .vcvt a d s b] := by
  simp only [allDecode_cons, allDecode_nil, and_true]
  refine ⟨fun hi => ?_, fun hi => ?_, fun hi => ?_⟩
  all_goals
    delta Decodes encode
    simp only [wordA7B12M22w3, wordA7D17w4S22w4B12]
    refine decodeWord_long (op := 0x19) (by omega) (by omega) (fun h => ?_) hi
    simp (disch := (unfold bits; omega)) only [decodeWord32, h, decodeOp19, ↓if_neg, ↓if_pos]
    congr 2 <;> exact field_of_div (by omega)

theorem decodes_op1A (a b c : Reg) : AllDecode [.mand a b c, .mor a b c, .mxor a b c, .mnot a b, .mpop a b, .mset a b] := by
  simp only [allDecode_cons, allDecode_nil, and_true]
  refine ⟨fun hi => ?_, fun hi => ?_, fun hi => ?_, fun hi => ?_, fun hi => ?_, fun hi => ?_⟩
  all_goals
    delta Decodes encode
    simp only [wordA7B12C17, wordA7B12]
    refine decodeWord_long (op := 0x1A) (by omega) (by omega) (fun h => ?_) hi
    simp (disch := (unfold bits; omega)) only [decodeWord32, h, decodeOp1A, ↓if_neg, ↓if_pos]
    congr 2 <;> exact field_of_div (by omega)

theorem decodes_op1B (b : Reg) (j : BitVec 1) : AllDecode [.guard b, .join j] := by
  simp only [allDecode_cons, allDecode_nil, and_true]
  refine ⟨fun hi => ?_, fun hi => ?_⟩
  all_goals
    delta Decodes encode
    simp only [wordB12, wordJ22w1]
    refine decodeWord_long (op := 0x1B) (by omega) (by omega) (fun h => ?_) hi
    simp (disch := (unfold bits; omega)) only [decodeWord32, h, decodeOp1B, ↓if_neg, ↓if_pos]
    congr 2
    exact field_of_div (by omega)

theorem decodes_op1B_fixed : AllDecode [.qjoin, .qleave] := by
  simp only [allDecode_cons, allDecode_nil, and_true]
  refine ⟨fun hi => ?_, fun hi => ?_⟩
  all_goals
    delta Decodes encode
    dsimp only
    refine decodeWord_long (op := 0x1B) (by omega) (by omega) (fun h => ?_) hi
    simp (disch := (unfold bits; omega)) only [decodeWord32, h, decodeOp1B, ↓if_neg, ↓if_pos]

theorem decodes_op1B_acc (n : AccNum) (k : BitVec 5) : AllDecode [.accz n k] := by
  simp only [allDecode_cons, allDecode_nil, and_true]
  intro hi
  delta Decodes encode
  simp only [wordN24w1K17, accHigh, accLow]
  rcases accHigh_cases n with hn | hn
  all_goals
    rw [hn]
    refine decodeWord_long (op := 0x1B) (by omega) (by omega) (fun h => ?_) hi
    simp (disch := (unfold bits; omega)) only [decodeWord32, h, decodeOp1B, ↓if_neg, ↓if_pos]
    congr 2 <;> (apply BitVec.eq_of_toNat_eq; simp only [field, accField, bits, BitVec.toNat_ofNat]; omega)

theorem decodes_op1C (b : Reg) : AllDecode [.packx b, .packy b, .packxf b, .packyf b, .packk b] := by
  simp only [allDecode_cons, allDecode_nil, and_true]
  refine ⟨fun hi => ?_, fun hi => ?_, fun hi => ?_, fun hi => ?_, fun hi => ?_⟩
  all_goals
    delta Decodes encode
    simp only [wordB12]
    refine decodeWord_long (op := 0x1C) (by omega) (by omega) (fun h => ?_) hi
    simp (disch := (unfold bits; omega)) only [decodeWord32, h, decodeOp1C, ↓if_neg, ↓if_pos]
    congr 2
    exact field_of_div (by omega)

theorem decodes_op1D (b : Reg) : AllDecode [.mmar b] := by
  simp only [allDecode_cons, allDecode_nil, and_true]
  intro hi
  delta Decodes encode
  simp only [wordB12]
  refine decodeWord_long (op := 0x1D) (by omega) (by omega) (fun h => ?_) hi
  simp (disch := (unfold bits; omega)) only [decodeWord32, h, decodeOp1D, ↓if_neg, ↓if_pos]
  congr 2
  exact field_of_div (by omega)

theorem decodes_op1D_acc (n : AccNum) (b : Reg) : AllDecode [.muls n b, .mulj n b] := by
  simp only [allDecode_cons, allDecode_nil, and_true]
  refine ⟨fun hi => ?_, fun hi => ?_⟩
  all_goals
    delta Decodes encode
    simp only [wordN24w1B12, accHigh, accLow]
    rcases accHigh_cases n with hn | hn
    all_goals
      rw [hn]
      refine decodeWord_long (op := 0x1D) (by omega) (by omega) (fun h => ?_) hi
      simp (disch := (unfold bits; omega)) only [decodeWord32, h, decodeOp1D, ↓if_neg, ↓if_pos]
      congr 2 <;> (apply BitVec.eq_of_toNat_eq; simp only [field, accField, bits, BitVec.toNat_ofNat]; omega)

theorem decodes_op1E_acc (d b a : Reg) (n : AccNum) (x : BitVec 1) : AllDecode [.extr d n b x, .extrf d n b x, .accrd a n b, .accwr a n b] := by
  simp only [allDecode_cons, allDecode_nil, and_true]
  refine ⟨fun hi => ?_, fun hi => ?_, fun hi => ?_, fun hi => ?_⟩
  all_goals
    delta Decodes encode
    simp only [wordD7N24w1B12X22w1, wordA7N24w1B12, accHigh, accLow]
    rcases accHigh_cases n with hn | hn
    all_goals
      rw [hn]
      refine decodeWord_long (op := 0x1E) (by omega) (by omega) (fun h => ?_) hi
      simp (disch := (unfold bits; omega)) only [decodeWord32, h, decodeOp1E, ↓if_neg, ↓if_pos]
      congr 2 <;> (apply BitVec.eq_of_toNat_eq; simp only [field, accField, bits, BitVec.toNat_ofNat]; omega)

theorem decodes_op1E_move (d s : AccNum) : AllDecode [.accmv d s] := by
  simp only [allDecode_cons, allDecode_nil, and_true]
  intro hi
  delta Decodes encode
  simp only [wordD24w1S23w1, accHigh, accLow]
  rcases accHigh_cases d with hd | hd <;> rcases accHigh_cases s with hs | hs
  all_goals
    rw [hd, hs]
    refine decodeWord_long (op := 0x1E) (by omega) (by omega) (fun h => ?_) hi
    simp (disch := (unfold bits; omega)) only [decodeWord32, h, decodeOp1E, ↓if_neg, ↓if_pos]
    congr 2 <;> (apply BitVec.eq_of_toNat_eq; simp only [accField, bits, BitVec.toNat_ofNat]; omega)

theorem decodes_op1F (a b : Reg) : AllDecode [.tld a b, .tst a b, .tlds a b] := by
  simp only [allDecode_cons, allDecode_nil, and_true]
  refine ⟨fun hi => ?_, fun hi => ?_, fun hi => ?_⟩
  all_goals
    delta Decodes encode
    simp only [wordA7B12]
    refine decodeWord_long (op := 0x1F) (by omega) (by omega) (fun h => ?_) hi
    simp (disch := (unfold bits; omega)) only [decodeWord32, h, decodeOp1F, ↓if_neg, ↓if_pos]
    congr 2 <;> exact field_of_div (by omega)

theorem decodes_op20 (b c a : Reg) : AllDecode [.act b c, .pre b c, .rowq a b] := by
  simp only [allDecode_cons, allDecode_nil, and_true]
  refine ⟨fun hi => ?_, fun hi => ?_, fun hi => ?_⟩
  all_goals
    delta Decodes encode
    simp only [wordB12C17, wordA7B12]
    refine decodeWord_long (op := 0x20) (by omega) (by omega) (fun h => ?_) hi
    simp (disch := (unfold bits; omega)) only [decodeWord32, h, decodeOp20, ↓if_neg, ↓if_pos]
    congr 2 <;> exact field_of_div (by omega)

theorem decodes_op21 (a b : Reg) : AllDecode [.twait a b, .tchk a b] := by
  simp only [allDecode_cons, allDecode_nil, and_true]
  refine ⟨fun hi => ?_, fun hi => ?_⟩
  all_goals
    delta Decodes encode
    simp only [wordA7B12]
    refine decodeWord_long (op := 0x21) (by omega) (by omega) (fun h => ?_) hi
    simp (disch := (unfold bits; omega)) only [decodeWord32, h, decodeOp21, ↓if_neg, ↓if_pos]
    congr 2 <;> exact field_of_div (by omega)

theorem decodes_op22 (a : Reg) : AllDecode [.cpy a, .cpyq a] := by
  simp only [allDecode_cons, allDecode_nil, and_true]
  refine ⟨fun hi => ?_, fun hi => ?_⟩
  all_goals
    delta Decodes encode
    simp only [wordA7]
    refine decodeWord_long (op := 0x22) (by omega) (by omega) (fun h => ?_) hi
    simp (disch := (unfold bits; omega)) only [decodeWord32, h, decodeOp22, ↓if_neg, ↓if_pos]
    congr 2
    exact field_of_div (by omega)

theorem decodes_op22_fixed : AllDecode [.cpygo] := by
  simp only [allDecode_cons, allDecode_nil, and_true]
  intro hi
  delta Decodes encode
  dsimp only
  refine decodeWord_long (op := 0x22) (by omega) (by omega) (fun h => ?_) hi
  simp (disch := (unfold bits; omega)) only [decodeWord32, h, decodeOp22, ↓if_neg, ↓if_pos]

theorem decodes_op23 (a b c : Reg) (v : BitVec 2) (r : BitVec 1) : AllDecode [.send a b c v r, .sendl a b v r, .reply b c, .msgx a b v] := by
  simp only [allDecode_cons, allDecode_nil, and_true]
  refine ⟨fun hi => ?_, fun hi => ?_, fun hi => ?_, fun hi => ?_⟩
  all_goals
    delta Decodes encode
    simp only [wordA7B12C17V22w2R24w1, wordA7B12V22w2R24w1, wordB12C17, wordA7B12V22w2]
    refine decodeWord_long (op := 0x23) (by omega) (by omega) (fun h => ?_) hi
    simp (disch := (unfold bits; omega)) only [decodeWord32, h, decodeOp23, ↓if_neg, ↓if_pos]
    congr 2 <;> exact field_of_div (by omega)

theorem decodes_op24 (a b c : Reg) (r : BitVec 1) : AllDecode [.vread a b r, .vwrite b c r, .vamo a b c r] := by
  simp only [allDecode_cons, allDecode_nil, and_true]
  refine ⟨fun hi => ?_, fun hi => ?_, fun hi => ?_⟩
  all_goals
    delta Decodes encode
    simp only [wordA7B12R24w1, wordB12C17R24w1, wordA7B12C17R24w1]
    refine decodeWord_long (op := 0x24) (by omega) (by omega) (fun h => ?_) hi
    simp (disch := (unfold bits; omega)) only [decodeWord32, h, decodeOp24, ↓if_neg, ↓if_pos]
    congr 2 <;> exact field_of_div (by omega)

theorem decodes_op25 (b c : Reg) (k : BitVec 3) : AllDecode [.tnew b c, .tdec b k, .tarm b] := by
  simp only [allDecode_cons, allDecode_nil, and_true]
  refine ⟨fun hi => ?_, fun hi => ?_, fun hi => ?_⟩
  all_goals
    delta Decodes encode
    simp only [wordB12C17, wordB12K22w3, wordB12]
    refine decodeWord_long (op := 0x25) (by omega) (by omega) (fun h => ?_) hi
    simp (disch := (unfold bits; omega)) only [decodeWord32, h, decodeOp25, ↓if_neg, ↓if_pos]
    congr 2 <;> exact field_of_div (by omega)

theorem decodes_op26 (s : BitVec 3) (b c : Reg) : AllDecode [.fence s, .signal s b c, .bar s b] := by
  simp only [allDecode_cons, allDecode_nil, and_true]
  refine ⟨fun hi => ?_, fun hi => ?_, fun hi => ?_⟩
  all_goals
    delta Decodes encode
    simp only [wordS22w3, wordS22w3B12C17, wordS22w3B12]
    refine decodeWord_long (op := 0x26) (by omega) (by omega) (fun h => ?_) hi
    simp (disch := (unfold bits; omega)) only [decodeWord32, h, decodeOp26, ↓if_neg, ↓if_pos]
    congr 2 <;> exact field_of_div (by omega)

theorem decodes_op27 (a b c : Reg) : AllDecode [.oxl a b, .oxs a b, .oxc a b c] := by
  simp only [allDecode_cons, allDecode_nil, and_true]
  refine ⟨fun hi => ?_, fun hi => ?_, fun hi => ?_⟩
  all_goals
    delta Decodes encode
    simp only [wordA7B12, wordA7B12C17]
    refine decodeWord_long (op := 0x27) (by omega) (by omega) (fun h => ?_) hi
    simp (disch := (unfold bits; omega)) only [decodeWord32, h, decodeOp27, ↓if_neg, ↓if_pos]
    congr 2 <;> exact field_of_div (by omega)

theorem decodes_op28 (a b : Reg) (n : BitVec 12) : AllDecode [.srd a n, .swr a n b, .sset a n b, .sclr a n b] := by
  simp only [allDecode_cons, allDecode_nil, and_true]
  refine ⟨fun hi => ?_, fun hi => ?_, fun hi => ?_, fun hi => ?_⟩
  all_goals
    delta Decodes encode
    simp only [wordA7N17w12, wordA7N17w12B12]
    refine decodeWord_long (op := 0x28) (by omega) (by omega) (fun h => ?_) hi
    simp (disch := (unfold bits; omega)) only [decodeWord32, h, decodeOp28, ↓if_neg, ↓if_pos]
    congr 2 <;> exact field_of_div (by omega)

theorem decodes_op29 (k : BitVec 1) (c : BitVec 8) : AllDecode [.tabort k, .brk c, .svc c] := by
  simp only [allDecode_cons, allDecode_nil, and_true]
  refine ⟨fun hi => ?_, fun hi => ?_, fun hi => ?_⟩
  all_goals
    delta Decodes encode
    simp only [wordK22w1, wordC17w8]
    refine decodeWord_long (op := 0x29) (by omega) (by omega) (fun h => ?_) hi
    simp (disch := (unfold bits; omega)) only [decodeWord32, h, decodeOp29, ↓if_neg, ↓if_pos]
    congr 2
    exact field_of_div (by omega)

theorem decodes_op29_fixed : AllDecode [.tret, .tspill, .tfill] := by
  simp only [allDecode_cons, allDecode_nil, and_true]
  refine ⟨fun hi => ?_, fun hi => ?_, fun hi => ?_⟩
  all_goals
    delta Decodes encode
    dsimp only
    refine decodeWord_long (op := 0x29) (by omega) (by omega) (fun h => ?_) hi
    simp (disch := (unfold bits; omega)) only [decodeWord32, h, decodeOp29, ↓if_neg, ↓if_pos]

theorem decodes_op2A (q : BitVec 1) : AllDecode [.qmap q] := by
  simp only [allDecode_cons, allDecode_nil, and_true]
  intro hi
  delta Decodes encode
  simp only [wordQ22w1]
  refine decodeWord_long (op := 0x2A) (by omega) (by omega) (fun h => ?_) hi
  simp (disch := (unfold bits; omega)) only [decodeWord32, h, decodeOp2A, ↓if_neg, ↓if_pos]
  congr 2
  exact field_of_div (by omega)

theorem decodes_op2A_fixed : AllDecode [.endStream, .nop] := by
  simp only [allDecode_cons, allDecode_nil, and_true]
  refine ⟨fun hi => ?_, fun hi => ?_⟩
  all_goals
    delta Decodes encode
    dsimp only
    refine decodeWord_long (op := 0x2A) (by omega) (by omega) (fun h => ?_) hi
    simp (disch := (unfold bits; omega)) only [decodeWord32, h, decodeOp2A, ↓if_neg, ↓if_pos]

theorem decodes_op2B (a b c : Reg) : AllDecode [.jrec a b, .jseal a, .emit b c] := by
  simp only [allDecode_cons, allDecode_nil, and_true]
  refine ⟨fun hi => ?_, fun hi => ?_, fun hi => ?_⟩
  all_goals
    delta Decodes encode
    simp only [wordA7B12, wordA7, wordB12C17]
    refine decodeWord_long (op := 0x2B) (by omega) (by omega) (fun h => ?_) hi
    simp (disch := (unfold bits; omega)) only [decodeWord32, h, decodeOp2B, ↓if_neg, ↓if_pos]
    congr 2 <;> exact field_of_div (by omega)

theorem decodes_op2C (a b : Reg) : AllDecode [.rngb a b] := by
  simp only [allDecode_cons, allDecode_nil, and_true]
  intro hi
  delta Decodes encode
  simp only [wordA7B12]
  refine decodeWord_long (op := 0x2C) (by omega) (by omega) (fun h => ?_) hi
  simp (disch := (unfold bits; omega)) only [decodeWord32, h, decodeOp2C, ↓if_pos]
  congr 2 <;> exact field_of_div (by omega)
theorem decodes_compact (d s : Reg) (i n k : BitVec 6) (s' : BitVec 3) (o : BitVec 8) (o' : BitVec 11) :
    AllDecode [.cMv d s, .cAddi d i, .cLi d i, .cAdd d s, .cSub d s, .cAnd d s, .cSlli d n, .cSrli d n, .cLw d k, .cSw s k, .cBeq s' o, .cBne s' o,
      .cJ o'] := by
  simp only [allDecode_cons, allDecode_nil, and_true]
  delta Decodes encode
  simp only [wordD5S10, wordD5I10w6, wordD5N10w6, wordD5K10w6, wordS5K10w6, wordS5w3O8w8, wordO5w11]
  refine ⟨decodeWord_short (op := 1) (by omega) (by omega) fun h => ?_, decodeWord_short (op := 2) (by omega) (by omega) fun h => ?_,
    decodeWord_short (op := 3) (by omega) (by omega) fun h => ?_, decodeWord_short (op := 4) (by omega) (by omega) fun h => ?_,
    decodeWord_short (op := 5) (by omega) (by omega) fun h => ?_, decodeWord_short (op := 6) (by omega) (by omega) fun h => ?_,
    decodeWord_short (op := 7) (by omega) (by omega) fun h => ?_, decodeWord_short (op := 8) (by omega) (by omega) fun h => ?_,
    decodeWord_short (op := 9) (by omega) (by omega) fun h => ?_, decodeWord_short (op := 10) (by omega) (by omega) fun h => ?_,
    decodeWord_short (op := 11) (by omega) (by omega) fun h => ?_, decodeWord_short (op := 12) (by omega) (by omega) fun h => ?_,
    decodeWord_short (op := 13) (by omega) (by omega) fun h => ?_⟩
  all_goals
    simp (disch := (unfold bits; omega)) only [decodeWord16, h, ↓if_pos]
    congr 2 <;> exact field_of_div (by omega)

theorem decodes_compact_fixed : AllDecode [.cEnd, .cNop] := by
  simp only [allDecode_cons, allDecode_nil, and_true]
  exact ⟨fun _ => ⟨rfl, by decide, rfl⟩, fun _ => ⟨rfl, by decide, rfl⟩⟩


theorem decodes_of_encoded {i : Instr} (he : i.isEvent = false) (hw : i.wellFormed = true) : Decodes i := by
  cases i with
  | add a b c => exact decodes_op00_a a b c _ (by simp) hw
  | sub a b c => exact decodes_op00_a a b c _ (by simp) hw
  | and a b c => exact decodes_op00_a a b c _ (by simp) hw
  | or a b c => exact decodes_op00_a a b c _ (by simp) hw
  | xor a b c => exact decodes_op00_a a b c _ (by simp) hw
  | sll a b c => exact decodes_op00_a a b c _ (by simp) hw
  | srl a b c => exact decodes_op00_a a b c _ (by simp) hw
  | sra a b c => exact decodes_op00_a a b c _ (by simp) hw
  | slt a b c => exact decodes_op00_b a b c _ (by simp) hw
  | sltz a b c => exact decodes_op00_b a b c _ (by simp) hw
  | min a b c => exact decodes_op00_b a b c _ (by simp) hw
  | max a b c => exact decodes_op00_b a b c _ (by simp) hw
  | minz a b c => exact decodes_op00_b a b c _ (by simp) hw
  | maxz a b c => exact decodes_op00_b a b c _ (by simp) hw
  | addw a b c => exact decodes_op00_b a b c _ (by simp) hw
  | subw a b c => exact decodes_op00_b a b c _ (by simp) hw
  | sllw a b c => exact decodes_op00_c a b c _ (by simp) hw
  | srlw a b c => exact decodes_op00_c a b c _ (by simp) hw
  | sraw a b c => exact decodes_op00_c a b c _ (by simp) hw
  | clz a b => exact decodes_op00_c a b 0 _ (by simp) hw
  | ctz a b => exact decodes_op00_c a b 0 _ (by simp) hw
  | cnt a b => exact decodes_op00_c a b 0 _ (by simp) hw
  | andn a b c => exact decodes_op00_c a b c _ (by simp) hw
  | orn a b c => exact decodes_op00_c a b c _ (by simp) hw
  | mul a b c => exact decodes_op01_a a b c _ (by simp) hw
  | mulh a b c => exact decodes_op01_a a b c _ (by simp) hw
  | mulhz a b c => exact decodes_op01_a a b c _ (by simp) hw
  | mulw a b c => exact decodes_op01_a a b c _ (by simp) hw
  | div a b c => exact decodes_op01_a a b c _ (by simp) hw
  | divz a b c => exact decodes_op01_a a b c _ (by simp) hw
  | rem a b c => exact decodes_op01_a a b c _ (by simp) hw
  | remz a b c => exact decodes_op01_a a b c _ (by simp) hw
  | divw a b c => exact decodes_op01_b a b c _ (by simp) hw
  | divzw a b c => exact decodes_op01_b a b c _ (by simp) hw
  | remw a b c => exact decodes_op01_b a b c _ (by simp) hw
  | remzw a b c => exact decodes_op01_b a b c _ (by simp) hw
  | addi a b i => exact decodes_op02 a b i _ (by simp) hw
  | addiw a b i => exact decodes_op03 a b i _ (by simp) hw
  | andi a b i => exact decodes_op04 a b i _ (by simp) hw
  | ori a b i => exact decodes_op05 a b i _ (by simp) hw
  | xori a b i => exact decodes_op06 a b i _ (by simp) hw
  | slti a b i => exact decodes_op07 a b i _ (by simp) hw
  | sltiz a b i => exact decodes_op08 a b i _ (by simp) hw
  | slli a n b => exact decodes_op09 a b n _ (by simp) hw
  | srli a n b => exact decodes_op09 a b n _ (by simp) hw
  | srai a n b => exact decodes_op09 a b n _ (by simp) hw
  | slliw a n b => exact decodes_op09 a b n _ (by simp) hw
  | srliw a n b => exact decodes_op09 a b n _ (by simp) hw
  | sraiw a n b => exact decodes_op09 a b n _ (by simp) hw
  | lui a i => exact decodes_op0A a i _ (by simp) hw
  | auipc a i => exact decodes_op0B a i _ (by simp) hw
  | beq a b o => exact decodes_op0C a b o _ (by simp) hw
  | bne a b o => exact decodes_op0C a b o _ (by simp) hw
  | blt a b o => exact decodes_op0C a b o _ (by simp) hw
  | bge a b o => exact decodes_op0C a b o _ (by simp) hw
  | blo a b o => exact decodes_op0C a b o _ (by simp) hw
  | bhs a b o => exact decodes_op0C a b o _ (by simp) hw
  | jal a o => exact decodes_op0D a o _ (by simp) hw
  | jalr a b i => exact decodes_op0E a b i _ (by simp) hw
  | loop a L => exact decodes_op0F_counted a L _ (by simp) hw
  | loopImm n L => exact decodes_op0F n L _ (by simp) hw
  | lit a o => exact decodes_op14 a o _ (by simp) hw
  | lb a b o => exact decodes_op10 a b o _ (by simp) hw
  | lh a b o => exact decodes_op10 a b o _ (by simp) hw
  | lw a b o => exact decodes_op10 a b o _ (by simp) hw
  | ld a b o => exact decodes_op10 a b o _ (by simp) hw
  | lbz a b o => exact decodes_op10 a b o _ (by simp) hw
  | lhz a b o => exact decodes_op10 a b o _ (by simp) hw
  | lwz a b o => exact decodes_op10 a b o _ (by simp) hw
  | sb a b o => exact decodes_op11 a b o _ (by simp) hw
  | sh a b o => exact decodes_op11 a b o _ (by simp) hw
  | sw a b o => exact decodes_op11 a b o _ (by simp) hw
  | sd a b o => exact decodes_op11 a b o _ (by simp) hw
  | lqw a b c => exact decodes_op12 a b c _ (by simp) hw
  | lqd a b c => exact decodes_op12 a b c _ (by simp) hw
  | sqw a b c => exact decodes_op12 a b c _ (by simp) hw
  | sqd a b c => exact decodes_op12 a b c _ (by simp) hw
  | amoadd a b c => exact decodes_op13_a a b c _ (by simp) hw
  | amoaddw a b c => exact decodes_op13_a a b c _ (by simp) hw
  | amoswap a b c => exact decodes_op13_a a b c _ (by simp) hw
  | amoswapw a b c => exact decodes_op13_a a b c _ (by simp) hw
  | amocas a b c => exact decodes_op13_a a b c _ (by simp) hw
  | amocasw a b c => exact decodes_op13_a a b c _ (by simp) hw
  | amoand a b c => exact decodes_op13_a a b c _ (by simp) hw
  | amoandw a b c => exact decodes_op13_a a b c _ (by simp) hw
  | amoor a b c => exact decodes_op13_b a b c _ (by simp) hw
  | amoorw a b c => exact decodes_op13_b a b c _ (by simp) hw
  | amoxor a b c => exact decodes_op13_b a b c _ (by simp) hw
  | amoxorw a b c => exact decodes_op13_b a b c _ (by simp) hw
  | amomin a b c => exact decodes_op13_b a b c _ (by simp) hw
  | amominw a b c => exact decodes_op13_b a b c _ (by simp) hw
  | amomax a b c => exact decodes_op13_b a b c _ (by simp) hw
  | amomaxw a b c => exact decodes_op13_b a b c _ (by simp) hw
  | amominz a b c => exact decodes_op13_c a b c _ (by simp) hw
  | amominzw a b c => exact decodes_op13_c a b c _ (by simp) hw
  | amomaxz a b c => exact decodes_op13_c a b c _ (by simp) hw
  | amomaxzw a b c => exact decodes_op13_c a b c _ (by simp) hw
  | vld a b c t m => exact decodes_op15 a b c t m _ (by simp) hw
  | vlds a b c t m => exact decodes_op15 a b c t m _ (by simp) hw
  | vldx a b c t m => exact decodes_op15 a b c t m _ (by simp) hw
  | vst a b c t m => exact decodes_op16 a b c t m _ (by simp) hw
  | vsts a b c t m => exact decodes_op16 a b c t m _ (by simp) hw
  | vstx a b c t m => exact decodes_op16 a b c t m _ (by simp) hw
  | vadd a b c w m => exact decodes_op17_a a b c w m _ (by simp) hw
  | vsub a b c w m => exact decodes_op17_a a b c w m _ (by simp) hw
  | vmul a b c w m => exact decodes_op17_a a b c w m _ (by simp) hw
  | vmulh a b c w m => exact decodes_op17_a a b c w m _ (by simp) hw
  | vand a b c w m => exact decodes_op17_a a b c w m _ (by simp) hw
  | vor a b c w m => exact decodes_op17_a a b c w m _ (by simp) hw
  | vxor a b c w m => exact decodes_op17_a a b c w m _ (by simp) hw
  | vsll a b c w m => exact decodes_op17_a a b c w m _ (by simp) hw
  | vsrl a b c w m => exact decodes_op17_b a b c w m _ (by simp) hw
  | vsra a b c w m => exact decodes_op17_b a b c w m _ (by simp) hw
  | vmin a b c w m => exact decodes_op17_b a b c w m _ (by simp) hw
  | vmax a b c w m => exact decodes_op17_b a b c w m _ (by simp) hw
  | vminz a b c w m => exact decodes_op17_b a b c w m _ (by simp) hw
  | vmaxz a b c w m => exact decodes_op17_b a b c w m _ (by simp) hw
  | vabs a b w m => exact decodes_op17_b a b 0 w m _ (by simp) hw
  | vceq a b c w m => exact decodes_op17_b a b c w m _ (by simp) hw
  | vclt a b c w m => exact decodes_op17_c a b c w m 0 _ (by simp) hw
  | vclo a b c w m => exact decodes_op17_c a b c w m 0 _ (by simp) hw
  | vsel a b c m => exact decodes_op17_c a b c 0 m 0 _ (by simp) hw
  | vsat a b k w m => exact decodes_op17_c a b 0 w m k _ (by simp) hw
  | vfadd a b c m => exact decodes_op18_a a b c m _ (by simp) hw
  | vfsub a b c m => exact decodes_op18_a a b c m _ (by simp) hw
  | vfmul a b c m => exact decodes_op18_a a b c m _ (by simp) hw
  | vfma a b c m => exact decodes_op18_a a b c m _ (by simp) hw
  | vfms a b c m => exact decodes_op18_a a b c m _ (by simp) hw
  | vfmin a b c m => exact decodes_op18_a a b c m _ (by simp) hw
  | vfmax a b c m => exact decodes_op18_a a b c m _ (by simp) hw
  | vfabs a b m => exact decodes_op18_a a b 0 m _ (by simp) hw
  | vfneg a b m => exact decodes_op18_b a b 0 m _ (by simp) hw
  | vfceq a b c m => exact decodes_op18_b a b c m _ (by simp) hw
  | vfclt a b c m => exact decodes_op18_b a b c m _ (by simp) hw
  | vfcle a b c m => exact decodes_op18_b a b c m _ (by simp) hw
  | vfrcp a b m => exact decodes_op18_b a b 0 m _ (by simp) hw
  | vfrsq a b m => exact decodes_op18_b a b 0 m _ (by simp) hw
  | vfexp a b m => exact decodes_op18_b a b 0 m _ (by simp) hw
  | vshuf a b c w m => exact decodes_op19_a a b c w m _ (by simp) hw
  | vbcast a b w m => exact decodes_op19_a a b 0 w m _ (by simp) hw
  | vmvx a b c w => exact decodes_op19_a a b c w 0 _ (by simp) hw
  | vslide a b c w m => exact decodes_op19_a a b c w m _ (by simp) hw
  | vzip a b c w m => exact decodes_op19_a a b c w m _ (by simp) hw
  | vuzp a b c w m => exact decodes_op19_a a b c w m _ (by simp) hw
  | vreds a b w m => exact decodes_op19_a a b 0 w m _ (by simp) hw
  | vredm a b w m => exact decodes_op19_a a b 0 w m _ (by simp) hw
  | vfreds a b m => exact decodes_op19_b a b m 0 0 _ (by simp) hw
  | vfredm a b m => exact decodes_op19_b a b m 0 0 _ (by simp) hw
  | vcvt a d s b => exact decodes_op19_b a b 0 d s _ (by simp) hw
  | mand a b c => exact decodes_op1A a b c _ (by simp) hw
  | mor a b c => exact decodes_op1A a b c _ (by simp) hw
  | mxor a b c => exact decodes_op1A a b c _ (by simp) hw
  | mnot a b => exact decodes_op1A a b 0 _ (by simp) hw
  | mpop a b => exact decodes_op1A a b 0 _ (by simp) hw
  | mset a b => exact decodes_op1A a b 0 _ (by simp) hw
  | guard b => exact decodes_op1B b 0 _ (by simp) hw
  | join j => exact decodes_op1B 0 j _ (by simp) hw
  | qjoin => exact decodes_op1B_fixed _ (by simp) hw
  | qleave => exact decodes_op1B_fixed _ (by simp) hw
  | accz n k => exact decodes_op1B_acc n k _ (by simp) hw
  | packx b => exact decodes_op1C b _ (by simp) hw
  | packy b => exact decodes_op1C b _ (by simp) hw
  | packxf b => exact decodes_op1C b _ (by simp) hw
  | packyf b => exact decodes_op1C b _ (by simp) hw
  | packk b => exact decodes_op1C b _ (by simp) hw
  | muls n b => exact decodes_op1D_acc n b _ (by simp) hw
  | mulj n b => exact decodes_op1D_acc n b _ (by simp) hw
  | mmar b => exact decodes_op1D b _ (by simp) hw
  | extr d n b x => exact decodes_op1E_acc d b 0 n x _ (by simp) hw
  | extrf d n b x => exact decodes_op1E_acc d b 0 n x _ (by simp) hw
  | accrd a n b => exact decodes_op1E_acc 0 b a n 0 _ (by simp) hw
  | accwr a n b => exact decodes_op1E_acc 0 b a n 0 _ (by simp) hw
  | accmv d s => exact decodes_op1E_move d s _ (by simp) hw
  | tld a b => exact decodes_op1F a b _ (by simp) hw
  | tst a b => exact decodes_op1F a b _ (by simp) hw
  | tlds a b => exact decodes_op1F a b _ (by simp) hw
  | act b c => exact decodes_op20 b c 0 _ (by simp) hw
  | pre b c => exact decodes_op20 b c 0 _ (by simp) hw
  | rowq a b => exact decodes_op20 b 0 a _ (by simp) hw
  | twait a b => exact decodes_op21 a b _ (by simp) hw
  | tchk a b => exact decodes_op21 a b _ (by simp) hw
  | cpy a => exact decodes_op22 a _ (by simp) hw
  | cpygo => exact decodes_op22_fixed _ (by simp) hw
  | cpyq a => exact decodes_op22 a _ (by simp) hw
  | send a b c v r => exact decodes_op23 a b c v r _ (by simp) hw
  | sendl a b v r => exact decodes_op23 a b 0 v r _ (by simp) hw
  | reply b c => exact decodes_op23 0 b c 0 0 _ (by simp) hw
  | msgx a b v => exact decodes_op23 a b 0 v 0 _ (by simp) hw
  | vread a b r => exact decodes_op24 a b 0 r _ (by simp) hw
  | vwrite b c r => exact decodes_op24 0 b c r _ (by simp) hw
  | vamo a b c r => exact decodes_op24 a b c r _ (by simp) hw
  | tnew b c => exact decodes_op25 b c 0 _ (by simp) hw
  | tdec b k => exact decodes_op25 b 0 k _ (by simp) hw
  | tarm b => exact decodes_op25 b 0 0 _ (by simp) hw
  | fence s => exact decodes_op26 s 0 0 _ (by simp) hw
  | signal s b c => exact decodes_op26 s b c _ (by simp) hw
  | bar s b => exact decodes_op26 s b 0 _ (by simp) hw
  | oxl a b => exact decodes_op27 a b 0 _ (by simp) hw
  | oxs a b => exact decodes_op27 a b 0 _ (by simp) hw
  | oxc a b c => exact decodes_op27 a b c _ (by simp) hw
  | srd a n => exact decodes_op28 a 0 n _ (by simp) hw
  | swr a n b => exact decodes_op28 a b n _ (by simp) hw
  | sset a n b => exact decodes_op28 a b n _ (by simp) hw
  | sclr a n b => exact decodes_op28 a b n _ (by simp) hw
  | tret => exact decodes_op29_fixed _ (by simp) hw
  | tabort k => exact decodes_op29 k 0 _ (by simp) hw
  | tspill => exact decodes_op29_fixed _ (by simp) hw
  | tfill => exact decodes_op29_fixed _ (by simp) hw
  | brk c => exact decodes_op29 0 c _ (by simp) hw
  | svc c => exact decodes_op29 0 c _ (by simp) hw
  | endStream => exact decodes_op2A_fixed _ (by simp) hw
  | nop => exact decodes_op2A_fixed _ (by simp) hw
  | qmap q => exact decodes_op2A q _ (by simp) hw
  | jrec a b => exact decodes_op2B a b 0 _ (by simp) hw
  | jseal a => exact decodes_op2B a 0 0 _ (by simp) hw
  | emit b c => exact decodes_op2B 0 b c _ (by simp) hw
  | rngb a b => exact decodes_op2C a b _ (by simp) hw
  | cMv d s => exact decodes_compact d s 0 0 0 0 0 0 _ (by simp) hw
  | cAddi d i => exact decodes_compact d 0 i 0 0 0 0 0 _ (by simp) hw
  | cLi d i => exact decodes_compact d 0 i 0 0 0 0 0 _ (by simp) hw
  | cAdd d s => exact decodes_compact d s 0 0 0 0 0 0 _ (by simp) hw
  | cSub d s => exact decodes_compact d s 0 0 0 0 0 0 _ (by simp) hw
  | cAnd d s => exact decodes_compact d s 0 0 0 0 0 0 _ (by simp) hw
  | cSlli d n => exact decodes_compact d 0 0 n 0 0 0 0 _ (by simp) hw
  | cSrli d n => exact decodes_compact d 0 0 n 0 0 0 0 _ (by simp) hw
  | cLw d k => exact decodes_compact d 0 0 0 k 0 0 0 _ (by simp) hw
  | cSw s k => exact decodes_compact 0 s 0 0 k 0 0 0 _ (by simp) hw
  | cBeq s o => exact decodes_compact 0 0 0 0 0 s o 0 _ (by simp) hw
  | cBne s o => exact decodes_compact 0 0 0 0 0 s o 0 _ (by simp) hw
  | cJ o => exact decodes_compact 0 0 0 0 0 0 0 o _ (by simp) hw
  | cEnd => exact decodes_compact_fixed _ (by simp) hw
  | cNop => exact decodes_compact_fixed _ (by simp) hw
  | _ => cases he

/-! ## From words to bytes -/

/-- The bytes of a word of n bytes decode as the word does. -/
theorem decodeBytes_wordBytes {n w : Nat} (rest : List Byte) (hn : n = (if w % 2 = 0 then 2 else 4)) (hw : w < 2 ^ (8 * n)) :
    decodeBytes (wordBytes (n / 2) w ++ rest) = (decodeWord w).map (fun i => (i, rest)) := by
  by_cases h : w % 2 = 0
  · rw [if_pos h] at hn
    subst hn
    have hlo : (BitVec.ofNat 8 w).toNat + 2 ^ 8 * (BitVec.ofNat 8 (w / 2 ^ 8)).toNat = w := by
      simp only [BitVec.toNat_ofNat]
      omega
    have hp : (BitVec.ofNat 8 w).toNat % 2 = 0 := by
      simp only [BitVec.toNat_ofNat]
      omega
    simp only [Nat.reduceDiv, wordBytes, List.cons_append, List.nil_append, decodeBytes, hp, hlo, if_true]
  · rw [if_neg h] at hn
    subst hn
    have hall : (BitVec.ofNat 8 w).toNat + 2 ^ 8 * (BitVec.ofNat 8 (w / 2 ^ 8)).toNat
        + 2 ^ 16 * ((BitVec.ofNat 8 (w / 2 ^ 16)).toNat + 2 ^ 8 * (BitVec.ofNat 8 (w / 2 ^ 16 / 2 ^ 8)).toNat) = w := by
      simp only [BitVec.toNat_ofNat]
      omega
    have hp : ¬ (BitVec.ofNat 8 w).toNat % 2 = 0 := by
      simp only [BitVec.toNat_ofNat]
      omega
    simp only [Nat.reduceDiv, wordBytes, List.cons_append, List.nil_append, decodeBytes, hp, hall, if_false]

/-- R83: the bytes of a well-formed encoded instruction decode to it, whatever follows them. -/
theorem decodeBytes_encode {i : Instr} (rest : List Byte) (he : i.isEvent = false) (hw : i.wellFormed = true) :
    decodeBytes (wordBytes (i.len / 2) (encode i) ++ rest) = .ok (i, rest) := by
  obtain ⟨hlen, hfits, hdec⟩ := decodes_of_encoded he hw
  rw [decodeBytes_wordBytes rest hlen hfits, hdec]
  rfl

end Sys2Proof
end

section
/-! What a fetch gives (R33, R72, R83): the bytes that stand in the image, the tags and the end of the region, and the decoder. It settles O54. -/

namespace Sys2Proof.Machine

/-- The little-endian number in the bytes of a word is the word. -/
theorem readLE_of_wordBytes (m : Mem) (h : Nat) : ∀ a w : Nat, readList m a (2 * h) = wordBytes h w → readLE m a (2 * h) = w % 2 ^ (16 * h) := by
  induction h with
  | zero => exact fun a w _ => (Nat.mod_one w).symm
  | succ h ih =>
    intro a w e
    simp only [Nat.mul_succ, readList, wordBytes, List.cons.injEq] at e
    obtain ⟨e0, e1, e2⟩ := e
    simp only [Nat.mul_succ, readLE, e0, e1, ih _ _ e2, BitVec.toNat_ofNat]
    rw [show 16 * h + 16 = 16 + 16 * h by omega, Nat.pow_add]
    have := Nat.mod_mul (x := w) (a := 2 ^ 16) (b := 2 ^ (16 * h))
    omega

theorem badByte_eq_none {bad : List Nat} {base n : Nat} (h : ∀ k < n, (base + k) / 8 ∉ bad) : badByte bad base (List.range n) = none := by
  unfold badByte
  split
  · rfl
  · rw [List.filter_eq_nil_iff.mpr]
    · rfl
    · exact fun k hk => by simpa using h k (List.mem_range.mp hk)

section
open Sys2Proof.Spec (codeHolds)
variable {s : State} {a n w : Nat}

theorem readLE_of_codeHolds (hn : n = (if w % 2 = 0 then 2 else 4)) (hw : w < 2 ^ (8 * n)) (h : codeHolds s a n w) :
    readLE s.quad.istore (s.rs.istoreAddr a) n = w := by
  obtain ⟨-, -, -, -, hb⟩ := h
  have h2 : 2 * (n / 2) = n := by split at hn <;> omega
  have hr := readLE_of_wordBytes s.quad.istore (n / 2) (s.rs.istoreAddr a) w (by rw [h2]; exact hb)
  rw [h2] at hr
  rw [hr, Nat.mod_eq_of_lt]
  rwa [show 16 * (n / 2) = 8 * n by omega]

/-- The first byte says the length of the word that stands there. -/
theorem fetchLength_of_codeHolds (hn : n = (if w % 2 = 0 then 2 else 4)) (hw : w < 2 ^ (8 * n)) (h : codeHolds s a n w) : fetchLength s a = n := by
  have hr := readLE_of_codeHolds hn hw h
  obtain ⟨m, rfl⟩ : ∃ m, n = m + 1 := ⟨n - 1, by split at hn <;> omega⟩
  have hp : readLE s.quad.istore (s.rs.istoreAddr a) 1 % 2 = w % 2 := by
    simp only [readLE] at hr ⊢
    omega
  rw [fetchLength, hp, ← hn]

/-- Where a word stands in the image, a fetch gives what the decoder makes of it. -/
theorem fetchAt_of_codeHolds (hn : n = (if w % 2 = 0 then 2 else 4)) (hw : w < 2 ^ (8 * n)) (h : codeHolds s a n w) :
    fetchAt a s = match decodeWord w with
      | .ok i => .instr i
      | .error _ => .illegal (BitVec.ofNat 32 w) := by
  have hlen := fetchLength_of_codeHolds hn hw h
  have hval := readLE_of_codeHolds hn hw h
  obtain ⟨hend, hcode, hcode2, hgood, hbytes⟩ := h
  have hpos : 2 ≤ n := by split at hn <;> omega
  have hdec := decodeBytes_wordBytes [] hn hw
  rw [List.append_nil, ← hbytes] at hdec
  have h1 : ¬ s.rs.regionEnd ≤ a := by omega
  have h2 : ¬ (n = 4 ∧ s.rs.regionEnd ≤ a + 2) := by omega
  have h3 : ¬ (n = 4 ∧ codeAt s (a + 2) = false) := fun ⟨e, hf⟩ => by simp [hcode2 e] at hf
  simp only [fetchAt, h1, hlen, h2, hcode, h3, badByte_eq_none hgood, hdec, hval, if_false, Bool.not_true, Bool.false_eq_true]
  cases decodeWord w <;> rfl

end

end Sys2Proof.Machine

namespace Sys2Proof.Spec

open Sys2Proof.Machine

theorem fetchAt_of_encoded {s : State} {a : Nat} {i : Instr} (he : i.isEvent = false) (hw : i.wellFormed = true)
    (h : codeHolds s a i.len (encode i)) : fetchAt a s = .instr i := by
  obtain ⟨hlen, hfits, hdec⟩ := decodes_of_encoded he hw
  rw [fetchAt_of_codeHolds hlen hfits h, hdec]

theorem fetchLength_eq (s : State) (a : Nat) : fetchLength s a = 2 ∨ fetchLength s a = 4 := by
  unfold fetchLength
  split
  · exact .inl rfl
  · exact .inr rfl

/-- Settles O54: the branches of a fetch, the decoder being the encoder's inverse. -/
theorem fetches_hold : Obligations.Fetches := by
  refine ⟨fun s a i he hw h => fetchAt_of_encoded he hw h, fun s a w n hn hw h hd => ?_, fun s a h => if_pos h, fun s a h hl hb => ?_, fun s a h hc => ?_,
    fun s a h hc hl hd => ?_⟩
  · rw [fetchAt_of_codeHolds hn hw h]
    cases e : decodeWord w with
    | ok i => exact absurd e (hd i)
    | error x => rfl
  · rw [fetchAt, if_neg (by omega)]
    exact if_pos ⟨hl, hb⟩
  · have hl := fetchLength_eq s a
    rw [fetchAt, if_neg (by omega)]
    dsimp only
    rw [if_neg (by omega), if_pos (by rw [hc]; rfl)]
  · rw [fetchAt, if_neg (by omega)]
    dsimp only
    rw [if_neg (by omega), if_neg (by rw [hc]; decide), if_pos ⟨hl, hd⟩]

end Sys2Proof.Spec
end

section
/-! One step of the machine (R11, R298, log entry 3): which branch of step runs, what a stream does when it issues, and what the passing of time
leaves alone. It settles O55 and O56. -/

namespace Sys2Proof.Machine

/-! ## The branches of a step -/

section
variable {s t : State} {k : SlotIx}

theorem tryIssue_of_pick (h : pickSlot s = some k) : tryIssue s = some (issue k s) := by rw [tryIssue, h, Option.map_some]

theorem tryIssue_eq_none (h : pickSlot s = none) : tryIssue s = none := by rw [tryIssue, h, Option.map_none]

theorem tryDevice_of_enabled (h : firstEnabled attempts s = some t) : tryDevice s = some (.next (afterDevice t)) := by
  rw [tryDevice, h, Option.map_some]

theorem tryDevice_eq_none (h : firstEnabled attempts s = none) : tryDevice s = none := by rw [tryDevice, h, Option.map_none]

theorem step_scheduled {m : Move} {rest : List Move} (h : s.schedule = m :: rest) : step s = move m { s with schedule := rest } := by
  rw [step, h]

theorem step_urgent (hs : s.schedule = []) (h : firstEnabled urgentAttempts s = some t) : step s = .next (afterDevice t) := by
  simp only [step, hs, h]

theorem step_advance (hs : s.schedule = []) (h : firstEnabled urgentAttempts s = none) : step s = advance s := by
  simp only [step, hs, h]

theorem advance_device (h : firstEnabled attempts s = some t) (ht : s.turn = true ∨ pickSlot s = none) : advance s = .next (afterDevice t) := by
  unfold advance
  rw [tryDevice_of_enabled h]
  split
  · rfl
  · rename_i hn
    rw [tryIssue_eq_none (ht.resolve_left hn)]
    rfl

theorem advance_issue (hk : pickSlot s = some k) (ht : s.turn = false ∨ firstEnabled attempts s = none) : advance s = issue k s := by
  unfold advance
  rw [tryIssue_of_pick hk]
  split
  · rename_i hn
    rw [tryDevice_eq_none (ht.resolve_left (by simp [hn]))]
    rfl
  · rfl

theorem advance_idle (hk : pickSlot s = none) (h : firstEnabled attempts s = none) : advance s = .next (idleCycle s) := by
  unfold advance
  rw [tryIssue_eq_none hk, tryDevice_eq_none h]
  split <;> rfl

/-! ## The slot that issues -/

/-- The slot that a pass over some slots picks is the one picked before, or a ready one. -/
theorem pickFrom_ready (s : State) (l : List SlotIx) : ∀ b : Option SlotIx, (∀ j, b = some j → ready s j = true) →
    ∀ j, l.foldl (fun b i => if ready s i then (match b with
      | none => some i
      | some j => if issuesBefore s i j then some i else some j) else b) b = some j → ready s j = true := by
  induction l with
  | nil => exact fun b hb => hb
  | cons i l ih =>
    intro b hb
    refine ih _ fun j hj => ?_
    dsimp only at hj
    split at hj
    · rename_i hi
      cases b with
      | none =>
        cases hj
        exact hi
      | some j' =>
        dsimp only at hj
        split at hj
        · cases hj
          exact hi
        · exact hb j hj
    · exact hb j hj

theorem ready_of_pick (h : pickSlot s = some k) : ready s k = true := pickFrom_ready s _ none nofun k h

theorem not_ready_of_stalled (h : issueAs k s = .next t) (ht : t.streams[k].stalled = true) : ready s k = false := by
  unfold ready
  rw [h]
  exact Bool.and_eq_false_iff.mpr (.inr (congrArg not ht))

/-! ## What a stream does when it issues -/

section
open Sys2Proof.Spec (issuing)

theorem wdog_not_taken (hw : owesWdog t k = false ∨ t.st.area ≠ none) : (owesWdog t k && t.st.area.isNone) = false := by
  rcases hw with hw | hw
  · rw [hw, Bool.false_and]
  · rw [Option.isNone_eq_false_iff.mpr (Option.isSome_iff_ne_none.mpr hw), Bool.and_false]

section
variable (hd : (issuing s k).st.due = none) (hw : owesWdog (issuing s k) k = false ∨ (issuing s k).st.area ≠ none)
include hd hw

theorem issueAs_trap {cause : Nat} {info : Word} (hx : fetchAt (issuing s k).st.pc.toNat (issuing s k) = .trap cause info) :
    issueAs k s = trap cause info (issuing s k) := by
  have hw' := wdog_not_taken hw
  unfold issuing at hd hw' hx ⊢
  unfold issueAs
  simp only [hd, hw', hx, Bool.false_eq_true, if_false]

theorem issueAs_illegal {w : BitVec 32} (hx : fetchAt (issuing s k).st.pc.toNat (issuing s k) = .illegal w) :
    issueAs k s = exec (.illop w) (issuing s k) := by
  have hw' := wdog_not_taken hw
  unfold issuing at hd hw' hx ⊢
  unfold issueAs
  simp only [hd, hw', hx, Bool.false_eq_true, if_false]

theorem issueAs_instr {i : Instr} (hx : fetchAt (issuing s k).st.pc.toNat (issuing s k) = .instr i) :
    issueAs k s = exec i (issuing s k) := by
  have hw' := wdog_not_taken hw
  unfold issuing at hd hw' hx ⊢
  unfold issueAs
  simp only [hd, hw', hx, Bool.false_eq_true, if_false]

end

theorem issueAs_wdog (hd : (issuing s k).st.due = none) (hw : owesWdog (issuing s k) k = true) (ha : (issuing s k).st.area = none) :
    issueAs k s = exec (.wdog k) (issuing s k) := by
  unfold issuing at hd hw ha ⊢
  unfold issueAs
  simp only [hd, hw, ha, Option.isNone_none, Bool.and_true, if_true]

theorem issueAs_due {cause : Nat} {epc info : Word} (hd : (issuing s k).st.due = some (cause, epc, info)) (hb : (issuing s k).sliceBusy = false) :
    issueAs k s = .next (takeTrap cause epc info (issuing s k)) := by
  unfold issuing at hd hb ⊢
  unfold issueAs
  simp only [hd, hb, Bool.false_eq_true, if_false]

end

/-! ## What the passing of time leaves alone -/

/-- The parts of the machine that no snapshot's cut touches (R389). -/
structure SameButCuts (s t : State) : Prop where
  streams : t.streams = s.streams
  mem : t.vault.mem = s.vault.mem
  quad : t.quad = s.quad
  net : t.net = s.net
  core : t.core = s.core

theorem trySnapshotCut_same {asid : Asid} (h : trySnapshotCut asid s = some t) : SameButCuts s t := by
  unfold trySnapshotCut at h
  split at h
  · cases h
  · split at h
    · cases h
    · cases h
      exact ⟨rfl, rfl, rfl, rfl, rfl⟩

theorem makeCuts_same (s : State) : SameButCuts s (makeCuts s) := by
  unfold makeCuts
  refine List.foldlRecOn (motive := SameButCuts s) _ _ ⟨rfl, rfl, rfl, rfl, rfl⟩ fun u hu x _ => ?_
  cases e : trySnapshotCut x.asid u with
  | none => exact hu
  | some v =>
    have hv := trySnapshotCut_same e
    exact ⟨hv.streams.trans hu.streams, hv.mem.trans hu.mem, hv.quad.trans hu.quad, hv.net.trans hu.net, hv.core.trans hu.core⟩

theorem passTime_keeps (n : Nat) (issued : Option SlotIx) (r : SlotIx → Bool) (s : State) :
    (passTime n issued r s).vault.mem = s.vault.mem ∧ (passTime n issued r s).quad = s.quad ∧ (passTime n issued r s).net = s.net :=
  have h := makeCuts_same _
  ⟨h.mem, h.quad, h.net⟩

theorem passTime_core (n : Nat) (issued : Option SlotIx) (r : SlotIx → Bool) (s : State) :
    (passTime n issued r s).core = { s.core with cycle := s.core.cycle + BitVec.ofNat 64 (n + Config.extraCycles s.free) } := (makeCuts_same _).core

theorem passTime_pc (n : Nat) (issued : Option SlotIx) (r : SlotIx → Bool) (s : State) (k : SlotIx) :
    (passTime n issued r s).streams[k].pc = s.streams[k].pc := by
  unfold passTime
  rw [(makeCuts_same _).streams]
  simp only [Fin.getElem_fin, Vector.getElem_ofFn]
  split <;> rfl

end

end Sys2Proof.Machine

namespace Sys2Proof.Spec

open Sys2Proof.Machine

theorem step_of_issues {s t : State} {k : SlotIx} (h : issues s k t) : step s = issue k t := by
  obtain ⟨⟨rest, hs, rfl⟩ | ⟨hs, rfl, hu, ht⟩, hk⟩ := h
  · rw [step_scheduled hs]
    exact congrArg (Option.getD · _) (tryIssue_of_pick hk)
  · rw [step_advance hs hu, advance_issue hk ht]

/-- Settles O55: a step in which a slot issues is that slot's issue, and what a stream does when it issues is said case by case. -/
theorem stepRunsTheInstruction : Obligations.StepRunsTheInstruction := by
  refine ⟨fun s t k i h hf he hw hc => ?_, fun s t k cause info h hf hx => ?_, fun s t k w h hf hx => ?_, fun s t k h hd hw ha => ?_,
    fun s t k cause epc info h hd hb => ?_, fun s t k h ht hp => ?_, fun s t k => ?_⟩
  · rw [step_of_issues h, issue, issueAs_instr hf.1 hf.2 (fetchAt_of_encoded he hw hc)]
  · rw [step_of_issues h, issue, issueAs_trap hf.1 hf.2 hx]
  · rw [step_of_issues h, issue, issueAs_illegal hf.1 hf.2 hx]
  · rw [step_of_issues h, issue, issueAs_wdog hd hw ha]
  · rw [step_of_issues h, issue, issueAs_due hd hb]
    rfl
  · exact absurd (ready_of_pick hp) (by rw [not_ready_of_stalled h ht]; decide)
  · obtain ⟨hm, hq, -⟩ := passTime_keeps 1 (some k) (ready s) t
    exact ⟨passTime_pc _ _ _ _ _, hm, hq, rfl, _, Nat.le_add_right 1 _, passTime_core _ _ _ _⟩

/-- Settles O56: the branches of a step, and what a cycle in which nothing moves leaves alone. -/
theorem stepRunsTheDevice : Obligations.StepRunsTheDevice := by
  refine ⟨fun s i rest hs hi => ?_, fun s i rest hs hi => ?_, fun s a rest hs => ?_, fun s rest hs hp => ?_, fun s t hs h => step_urgent hs h,
    fun s t hs hu ht h => ?_, fun s hs hu h hp => ?_, fun s => ?_⟩
  · rw [step_scheduled hs]
    exact if_pos hi
  · rw [step_scheduled hs]
    exact if_neg (by simp [hi])
  · rw [step_scheduled hs]
    rfl
  · rw [step_scheduled hs]
    exact congrArg (Option.getD · _) (tryIssue_eq_none hp)
  · rw [step_advance hs hu, advance_device h ht]
  · rw [step_advance hs hu, advance_idle hp h]
  · obtain ⟨hm, hq, hn⟩ := passTime_keeps 1 none (fun _ => false) s
    exact ⟨hm, hq, hn, _, Nat.le_add_right 1 _, passTime_core _ _ _ _⟩

end Sys2Proof.Spec
end

section
/-! The register files and the queue aliases (R18 to R21, R140): what the operand reads and writes do where a register number names a queue, and where
it does not. It settles O19. -/

namespace Sys2Proof.Machine

theorem Stream.getM_putM_ne (t : Stream) (i j : Fin 8) (v : BitVec 16) (h : i ≠ j) : (t.putM i v).getM j = t.getM j := by
  unfold Stream.getM Stream.putM
  by_cases hi : i = 0
  · rw [if_pos hi]
  · rw [if_neg hi]
    split
    · rfl
    · exact vset_get_ne _ _ _ _ h

theorem State.inFlight_eq_false {s : State} (r : Reg) (h : s.core.remote = []) : s.inFlight r = false := by simp [State.inFlight, h]

theorem State.pendingPushes_eq_zero {s : State} (r : ResIx) (q : Fin 4) (h : s.core.remote = []) : s.pendingPushes r q = 0 := by
  simp [State.pendingPushes, h]

section
variable {s : State} {r : Reg}

/-! ## A register number that names a register -/

theorem popX_register (hf : s.inFlight r = false) (hq : s.xQueue r = none) : popX r s = some (s.st.getX r, s) := by
  simp only [popX, hf, hq, Bool.false_eq_true, if_false]

theorem roomX_register (hf : s.inFlight r = false) (hq : s.xQueue r = none) : roomX r s = true := by
  simp only [roomX, hf, hq, Bool.not_false, Bool.and_true]

theorem writeX_register (v : Word) (hq : s.xQueue r = none) : writeX r v s = s.setSt (s.st.putX r v) := by simp only [writeX, hq]

theorem popV_register (hq : s.vQueue r = none) : popV r s = some (s.st.v[regIx r], s) := by simp only [popV, hq]

theorem roomV_register (hq : s.vQueue r = none) : roomV r s = true := by simp only [roomV, hq]

theorem writeV_register (v : VWord) (hq : s.vQueue r = none) : writeV r v s = s.setSt { s.st with v := vset s.st.v (regIx r) v } := by
  simp only [writeV, hq]

/-! ## A register number that names a queue -/

section
variable {q : Fin 4} {k : Task}

theorem popX_empty (hf : s.inFlight r = false) (hq : s.xQueue r = some q) (hk : s.task = some k) (he : k.sq[q] = []) : popX r s = none := by
  simp only [popX, hf, hq, hk, he, Bool.false_eq_true, if_false]

theorem popX_queue {x : Word} {rest : List Word} (hf : s.inFlight r = false) (hq : s.xQueue r = some q) (hk : s.task = some k)
    (he : k.sq[q] = x :: rest) : popX r s = some (x, s.setTask { k with sq := vset k.sq q rest }) := by
  simp only [popX, hf, hq, hk, he, Bool.false_eq_true, if_false]

theorem roomX_queue (hr : s.core.remote = []) (hq : s.xQueue r = some q) (hk : s.task = some k) : roomX r s = decide (k.sq[q].length < 8) := by
  simp only [roomX, s.inFlight_eq_false r hr, s.pendingPushes_eq_zero _ _ hr, hq, hk, Bool.not_false, Bool.true_and, decide_true, Bool.and_true]

theorem writeX_queue (v : Word) (hq : s.xQueue r = some q) (hk : s.task = some k) :
    writeX r v s = s.setTask { k with sq := vset k.sq q (k.sq[q] ++ [v]) } := by
  simp only [writeX, hq, hk]

end

section
variable {q : Fin 2} {k : Task}

theorem popV_empty (hq : s.vQueue r = some q) (hk : s.task = some k) (he : k.vq[q] = []) : popV r s = none := by
  simp only [popV, hq, hk, he]

theorem popV_queue {x : VWord} {rest : List VWord} (hq : s.vQueue r = some q) (hk : s.task = some k) (he : k.vq[q] = x :: rest) :
    popV r s = some (x, s.setTask { k with vq := vset k.vq q rest }) := by
  simp only [popV, hq, hk, he]

theorem roomV_queue (hq : s.vQueue r = some q) (hk : s.task = some k) : roomV r s = decide (k.vq[q].length < 4) := by simp only [roomV, hq, hk]

theorem writeV_queue (v : VWord) (hq : s.vQueue r = some q) (hk : s.task = some k) :
    writeV r v s = s.setTask { k with vq := vset k.vq q (k.vq[q] ++ [v]) } := by
  simp only [writeV, hq, hk]

end

/-! ## QM chooses -/

theorem State.xQueue_on (h : s.st.qm = true) : s.xQueue r = scalarQueue r := by rw [State.xQueue, if_pos h]

theorem State.xQueue_off (h : s.st.qm = false) : s.xQueue r = none := by rw [State.xQueue, h, if_neg Bool.false_ne_true]

theorem State.vQueue_on (h : s.st.qm = true) : s.vQueue r = vectorQueue r := by rw [State.vQueue, if_pos h]

theorem State.vQueue_off (h : s.st.qm = false) : s.vQueue r = none := by rw [State.vQueue, h, if_neg Bool.false_ne_true]

end

end Sys2Proof.Machine

namespace Sys2Proof.Spec

open Sys2Proof.Machine

theorem registerFiles : RegisterFiles :=
  ⟨fun t v => ⟨t.getX_zero, t.putX_zero v⟩, fun t r _ v h => ⟨t.getX_putX r v h, fun hq => t.getX_putX_ne r _ v hq.symm⟩,
    fun t v => ⟨t.getM_zero, t.putM_zero v⟩, fun t i _ v h => ⟨t.getM_putM i v h, fun hj => t.getM_putM_ne i _ v hj.symm⟩⟩

theorem scalarQueues : ScalarQueues := by
  intro s k q r v hk hq hr
  have hf := s.inFlight_eq_false r hr
  constructor
  · intro hm
    have hx : s.xQueue r = some q := (State.xQueue_on hm).trans hq
    exact ⟨popX_empty hf hx hk, fun _ _ => popX_queue hf hx hk, roomX_queue hr hx hk, writeX_queue v hx hk⟩
  · intro hm
    have hx : s.xQueue r = none := State.xQueue_off hm
    exact ⟨popX_register hf hx, roomX_register hf hx, writeX_register v hx⟩

theorem vectorQueues : VectorQueues := by
  intro s k q r v hk hq
  constructor
  · intro hm
    have hx : s.vQueue r = some q := (State.vQueue_on hm).trans hq
    exact ⟨popV_empty hx hk, fun _ _ => popV_queue hx hk, roomV_queue hx hk, writeV_queue v hx hk, by simp only [oldV, hx, Option.isSome_some, if_true]⟩
  · intro hm
    have hx : s.vQueue r = none := State.vQueue_off hm
    exact ⟨popV_register hx, roomV_register hx, writeV_register v hx⟩

/-- Settles O19: the register laws, and the two ways in which QM turns each operand read and write. -/
theorem registersAndQueues : Obligations.RegistersAndQueues := ⟨registerFiles, scalarQueues, vectorQueues⟩

end Sys2Proof.Spec
end

section
/-! What an access to the scratchpad records (R25, R28, R123, R124): SPFLAG takes the lowest offset out of range, and every granule that the access
touches in range takes its record. It settles O8. -/

namespace Sys2Proof.Machine

/-! ## Offsets in and out of range -/

theorem inRange_iff {size : Nat} {o : Int} : inRange size o = true ↔ 0 ≤ o ∧ o < size := by simp [inRange]

theorem mem_inOffsets {size n : Nat} {offs : List Int} : n ∈ inOffsets size offs ↔ ∃ o ∈ offs, inRange size o = true ∧ o.toNat = n := by
  induction offs with
  | nil => simp [inOffsets]
  | cons o offs ih =>
    unfold inOffsets
    split
    · rename_i h
      rw [List.exists_mem_cons_iff, List.mem_cons, ih, eq_comm]
      simp only [h, true_and]
    · rename_i h
      rw [List.exists_mem_cons_iff, ih]
      simp only [h, Bool.false_eq_true, false_and, false_or]

theorem mem_outOffsets {size : Nat} {o : Int} {offs : List Int} : o ∈ outOffsets size offs ↔ o ∈ offs ∧ ¬ inRange size o = true := by
  simp [outOffsets]

theorem leastInt_mem {l : List Int} : ∀ {o : Int}, leastInt l = some o → o ∈ l := by
  induction l with
  | nil => exact nofun
  | cons x l ih =>
    intro o h
    unfold leastInt at h
    split at h
    · cases h
      exact List.mem_cons_self
    · rename_i m e
      cases h
      rcases min_choice x m with h | h
      · rw [h]
        exact List.mem_cons_self
      · rw [h]
        exact List.mem_cons_of_mem _ (ih e)

/-- The least of a list is the element that no other is below. -/
theorem leastInt_eq_some {l : List Int} : ∀ {o : Int}, o ∈ l → (∀ p ∈ l, o ≤ p) → leastInt l = some o := by
  induction l with
  | nil => exact fun h => nomatch h
  | cons x l ih =>
    intro o ho hle
    obtain ⟨hx, hl⟩ := List.forall_mem_cons.mp hle
    unfold leastInt
    rcases List.mem_cons.mp ho with rfl | ho
    · cases e : leastInt l with
      | none => rfl
      | some m =>
        simp only [min_eq_left (hl m (leastInt_mem e))]
    · simp only [ih ho hl, min_eq_right hx]

/-! ## Tables whose written value is not the default -/

section
variable {α : Type} [DecidableEq α] {d v : α}

/-- A read after a write of a value that is not the default, in any table. -/
theorem Table.get_put_of_ne (hv : v ≠ d) (t : Table α) (a b : Nat) : Table.get d (Table.put d t a v) b = if b = a then v else Table.get d t b := by
  induction t with
  | nil => simp [Table.put, Table.get, hv]
  | cons e rest ih =>
    obtain ⟨k, w⟩ := e
    unfold Table.put
    split
    · rename_i hak
      simp only [Table.get]
      split
      · rfl
      · split
        · rw [if_neg (by omega), if_pos (by omega)]
        · rfl
    · split
      · rename_i hak
        subst hak
        simp only [Table.get]
        split <;> rfl
      · rename_i hka hne
        simp only [Table.get, ih]
        split
        · rw [if_neg (by omega)]
        · split
          · rw [if_neg (by omega)]
          · rfl

end

/-! ## Granule records -/

theorem mem_insertNat {n m : Nat} {l : List Nat} : m ∈ insertNat n l ↔ m = n ∨ m ∈ l := by
  induction l with
  | nil => simp [insertNat]
  | cons k l ih =>
    unfold insertNat
    split
    · simp
    · split
      · rename_i h
        subst h
        simp
      · simp only [List.mem_cons, ih]
        tauto

theorem mem_granulesOf {g : Nat} {l : List Nat} : g ∈ granulesOf l ↔ ∃ o ∈ l, o / 256 = g := by
  induction l with
  | nil => simp [granulesOf]
  | cons o l ih => simp [granulesOf, mem_insertNat, ih, eq_comm]

/-- The record of a granule once core c has accessed it (R124). -/
def Granule.after (c : BitVec 2) (write : Bool) (x : Granule) : Granule :=
  if write then { x with writer := some c } else { x with readers := x.readers ||| (1#4 <<< c.toNat) }

theorem reader_ne_zero (c : BitVec 2) (r : BitVec 4) : r ||| (1#4 <<< c.toNat) ≠ 0 := by
  revert c r
  decide

theorem Granule.after_ne_none (c : BitVec 2) (write : Bool) (x : Granule) : x.after c write ≠ Granule.none := by
  unfold Granule.after
  split
  · exact fun h => nomatch congrArg Granule.writer h
  · exact fun h => reader_ne_zero c x.readers (congrArg Granule.readers h)

theorem Granule.after_after (c : BitVec 2) (write : Bool) (x : Granule) : (x.after c write).after c write = x.after c write := by
  cases write
  · simp only [Granule.after, Bool.false_eq_true, if_false, BitVec.or_assoc, BitVec.or_self]
  · rfl

theorem get_raceRecord (c : BitVec 2) (write : Bool) (gs : Table Granule) (g h : Nat) :
    Table.get Granule.none (raceRecord c write gs g) h
      = if h = g then (Table.get Granule.none gs g).after c write else Table.get Granule.none gs h :=
  Table.get_put_of_ne (Granule.after_ne_none c write _) gs g h

/-- The records of a list of granules: each takes its record, however often it is named, and the others stay. -/
theorem get_foldl_raceRecord (c : BitVec 2) (write : Bool) (l : List Nat) : ∀ (gs : Table Granule) (g : Nat),
    Table.get Granule.none (l.foldl (raceRecord c write) gs) g
      = if g ∈ l then (Table.get Granule.none gs g).after c write else Table.get Granule.none gs g := by
  induction l with
  | nil => exact fun gs g => (if_neg List.not_mem_nil).symm
  | cons k l ih =>
    intro gs g
    rw [List.foldl_cons, ih, get_raceRecord]
    by_cases hk : g = k
    · subst hk
      simp [Granule.after_after]
    · simp [hk]

end Sys2Proof.Machine

namespace Sys2Proof.Spec

open Sys2Proof.Machine

section
variable {write : Bool} {offs : List Int} {s : State}

theorem inRange_iff_inside {o : Int} : inRange s.rs.spsize.toNat o = true ↔ inside s o := inRange_iff

theorem accessed_rs (write : Bool) (offs : List Int) (s : State) : (accessed write offs s).rs =
    { s.rs with
      spflag := spflagAfter s.rs.spflag write false 0 (outOffsets s.rs.spsize.toNat offs)
      granules := if s.rs.quadMapped then (granulesOf (inOffsets s.rs.spsize.toNat offs)).foldl (raceRecord s.coreInQuad write) s.rs.granules
        else s.rs.granules } := by
  unfold accessed recordLocal commitFlag
  by_cases h : s.rs.quadMapped = true
  · simp only [State.setRs_rs, h, if_true]
    rfl
  · simp only [State.setRs_rs, h, Bool.false_eq_true, if_false]

theorem spflagAfter_of_set {old : Word} (q : Bool) (cr : Nat) (outs : List Int) (h : old.getLsbD 63 = true) : spflagAfter old write q cr outs = old := by
  have h1 : bits old.toNat 63 1 = 1 := by
    rw [BitVec.getLsbD, Nat.testBit_eq_decide_div_mod_eq, decide_eq_true_eq] at h
    exact h
  unfold spflagAfter
  split
  · rfl
  · exact if_pos h1

theorem spflagAfter_least {old : Word} {outs : List Int} {o : Int} (ho : leastInt outs = some o) (h : old.getLsbD 63 = false) :
    spflagAfter old write false 0 outs = BitVec.ofNat 64 (2 ^ 63 + (if write then 2 ^ 62 else 0) + (o % 2 ^ 32).toNat) := by
  have h1 : ¬ bits old.toNat 63 1 = 1 := by
    rw [BitVec.getLsbD, Nat.testBit_eq_decide_div_mod_eq, decide_eq_false_iff_not] at h
    exact h
  unfold spflagAfter
  rw [ho]
  dsimp only
  rw [if_neg h1]
  cases write <;> simp

end

theorem rangeFlag : RangeFlag := by
  intro write offs s
  rw [accessed_rs]
  dsimp only
  refine ⟨fun h => ?_, fun o ho hout hmin hclear => ?_⟩
  · rcases h with h | h
    · have hnone : outOffsets s.rs.spsize.toNat offs = [] :=
        List.eq_nil_iff_forall_not_mem.mpr fun o ho => (mem_outOffsets.mp ho).2 (inRange_iff_inside.mpr (h o (mem_outOffsets.mp ho).1))
      rw [hnone]
      rfl
    · exact spflagAfter_of_set _ _ _ h
  · refine spflagAfter_least (leastInt_eq_some (mem_outOffsets.mpr ⟨ho, mt inRange_iff_inside.mp hout⟩) fun p hp => ?_) hclear
    obtain ⟨hp, hpo⟩ := mem_outOffsets.mp hp
    exact hmin p hp (mt inRange_iff_inside.mpr hpo)

/-- The granules that an access touches in range. -/
theorem mem_granules_inOffsets {s : State} {offs : List Int} {g : Nat} :
    g ∈ granulesOf (inOffsets s.rs.spsize.toNat offs) ↔ ∃ o ∈ offs, inside s o ∧ o.toNat / 256 = g := by
  rw [mem_granulesOf]
  constructor
  · rintro ⟨n, hn, rfl⟩
    obtain ⟨o, ho, hin, rfl⟩ := mem_inOffsets.mp hn
    exact ⟨o, ho, inRange_iff_inside.mp hin, rfl⟩
  · rintro ⟨o, ho, hin, rfl⟩
    exact ⟨o.toNat, mem_inOffsets.mpr ⟨o, ho, inRange_iff_inside.mpr hin, rfl⟩, rfl⟩

theorem granuleRecords : GranuleRecords := by
  intro write offs s g
  dsimp only
  rw [accessed_rs]
  dsimp only
  refine ⟨fun h => ?_, fun hq h => ?_⟩
  · rcases h with h | h
    · rw [h, if_neg Bool.false_ne_true]
    · split
      · rw [get_foldl_raceRecord, if_neg]
        intro hg
        obtain ⟨o, ho, hin, e⟩ := mem_granules_inOffsets.mp hg
        exact h o ho hin e
      · rfl
  · rw [if_pos hq, get_foldl_raceRecord, if_pos (mem_granules_inOffsets.mpr h)]
    rfl

/-- Settles O8: SPFLAG by the least offset out of range, the granule records by the list of granules touched. -/
theorem accessRecords : Obligations.AccessRecords := ⟨rangeFlag, granuleRecords⟩

end Sys2Proof.Spec
end

section
/-! What an instruction of a stream leaves alone in its residency and beyond the core (R19, R27, R93, R128): the laws of GroupFrame and DeviceFrame, and
one lemma per shared operation. -/

namespace Sys2Proof.Spec

open Sys2Proof.Machine

/-! ## Laws of the frames -/

section
variable {sp : Prop} {s t u : State}

theorem GroupFrame.of_res (h : t.res = s.res) (hi : t.ri = s.ri) : GroupFrame sp s t := by
  have hr : t.rs = s.rs := by simp only [State.rs, h, hi]
  refine ⟨fun _ _ => by rw [h], by rw [hr], fun _ => ⟨by rw [hr], by rw [hr]⟩, ?_⟩
  rw [hr]
  cases s.rs.task <;> rfl

theorem GroupFrame.trans (h : GroupFrame sp s t) (hi : t.ri = s.ri) (g : GroupFrame sp t u) : GroupFrame sp s u := by
  refine ⟨fun r hr => (g.others r (by rwa [hi])).trans (h.others r hr), ?_, fun hs => ?_, ?_⟩
  · exact (congrArg (fun x : Residency => { x with spflag := s.rs.spflag, granules := s.rs.granules }) g.own).trans h.own
  · obtain ⟨gf, gg⟩ := g.access hs
    obtain ⟨hf, hg⟩ := h.access hs
    exact ⟨gf.trans hf, gg.trans hg⟩
  · have ht := h.task
    have gt := g.task
    cases hs : s.rs.task with
    | none =>
      rw [hs, Option.map_eq_none_iff] at ht
      rw [ht, Option.map_eq_none_iff] at gt
      rw [gt]
      rfl
    | some a =>
      rw [hs, Option.map_eq_some_iff] at ht
      obtain ⟨b, hb, eb⟩ := ht
      rw [hb, Option.map_eq_some_iff] at gt
      obtain ⟨c, hc, ec⟩ := gt
      rw [hc]
      exact congrArg some ((congrArg (fun k : Task => { k with sq := a.sq, vq := a.vq }) ec).trans eb)

/-- The task's queues are other ones. -/
theorem GroupFrame.setTask {k k' : Task} (hk : s.task = some k) (h : { k' with sq := k.sq, vq := k.vq } = k) : GroupFrame sp s (s.setTask k') := by
  have hr : (s.setTask k').rs = { s.rs with task := some k' } := s.setRs_rs _
  have hs : s.rs.task = some k := hk
  refine ⟨fun r hr => vset_get_ne _ _ _ _ (Ne.symm hr), by rw [hr], fun _ => ⟨by rw [hr], by rw [hr]⟩, ?_⟩
  rw [hr, hs]
  exact congrArg some h

/-- SPFLAG and the granule records are other ones. -/
theorem GroupFrame.setAccess (f : Word) (g : Table Granule) : GroupFrame True s (s.setRs { s.rs with spflag := f, granules := g }) := by
  have hr := s.setRs_rs { s.rs with spflag := f, granules := g }
  refine ⟨fun r hr => vset_get_ne _ _ _ _ (Ne.symm hr), by rw [hr], fun h => absurd trivial h, ?_⟩
  rw [hr]
  cases s.rs.task <;> rfl

theorem DeviceFrame.of_core (s : State) (x : Vector Stream 4) (y : Vector Residency 4) (c : Core) :
    DeviceFrame s { s with streams := x, res := y, core := c } :=
  ⟨⟨rfl, rfl, rfl, rfl, rfl, rfl, rfl, rfl⟩, rfl, rfl, rfl⟩

theorem DeviceFrame.trans (h : DeviceFrame s t) (g : DeviceFrame t u) : DeviceFrame s u := by
  obtain ⟨⟨a1, a2, a3, a4, a5, a6, a7, a8⟩, a9, a10, a11⟩ := h
  obtain ⟨⟨b1, b2, b3, b4, b5, b6, b7, b8⟩, b9, b10, b11⟩ := g
  exact ⟨⟨b1.trans a1, b2.trans a2, b3.trans a3, b4.trans a4, b5.trans a5, b6.trans a6, b7.trans a7, b8.trans a8⟩, b9.trans a9, b10.trans a10,
    b11.trans a11⟩

theorem StreamFrame.sameRi {xs vs : Reg → Prop} {ms os : Fin 8 → Prop} {fl qm : Prop} (h : StreamFrame xs vs ms os fl qm s t) : t.ri = s.ri := by
  obtain ⟨-, -, hres, -, -⟩ := h.identity
  exact hres

end

/-! ## Where an instruction has come to -/

/-- t is s but for the registers named, FFLAGS where fl, the entries of the task's queues, where sp SPFLAG and the granule records, where the stream goes
on, and the core, of which Q holds. -/
structure Within (xs vs : Reg → Prop) (ms : Fin 8 → Prop) (fl sp : Prop) (Q : Core → Prop) (s t : State) : Prop where
  stream : StreamFrame xs vs ms noIx fl False s t
  group : GroupFrame sp s t
  device : DeviceFrame s t
  core : Q t.core

/-- The stream of t still stands where it stands in s. -/
def Standing (s t : State) : Prop := t.st.pc = s.st.pc ∧ t.st.loops = s.st.loops

section
variable {xs vs : Reg → Prop} {ms : Fin 8 → Prop} {fl sp : Prop} {Q : Core → Prop} {s t u : State}

theorem Within.start (h : Q s.core) : Within xs vs ms fl sp Q s s :=
  ⟨.of_sameStreams (.rfl s), .of_res rfl rfl, .of_core s _ _ _, h⟩

theorem Within.trans (h : Within xs vs ms fl sp Q s t) (g : Within xs vs ms fl sp Q t u) : Within xs vs ms fl sp Q s u :=
  ⟨h.stream.trans g.stream, h.group.trans h.stream.sameRi g.group, h.device.trans g.device, g.core⟩

theorem Within.setCore {c : Core} (h : Q c) : Within xs vs ms fl sp Q s { s with core := c } :=
  ⟨.of_sameStreams ⟨rfl, rfl⟩, .of_res rfl rfl, .of_core s _ _ _, h⟩

/-- A stream that differs from the current one where the frame allows takes its place. -/
theorem Within.setSt (x : Stream) (h : StreamFrame xs vs ms noIx fl False s (s.setSt x)) (hq : Q s.core) : Within xs vs ms fl sp Q s (s.setSt x) :=
  ⟨h, .of_res rfl h.sameRi, .of_core s _ _ _, hq⟩

theorem Within.marked (pc : Word) (ls : List Loop) (w : Nat) (b : Bool) (hq : Q s.core) :
    Within xs vs ms fl sp Q s (s.setSt { s.st with pc := pc, loops := ls, wait := w, stalled := b }) :=
  .setSt _ (.marked pc ls w b s) hq

theorem Within.setTask {k k' : Task} (hk : s.task = some k) (h : { k' with sq := k.sq, vq := k.vq } = k) (hq : Q s.core) :
    Within xs vs ms fl sp Q s (s.setTask k') :=
  ⟨.of_sameStreams ⟨rfl, rfl⟩, .setTask hk h, .of_core s _ _ _, hq⟩

/-! ## Operands -/

theorem popX_within {r : Reg} {x : Word} (h : popX r s = some (x, t)) (hq : Q s.core) : Within xs vs ms fl sp Q s t := by
  obtain ⟨-, ⟨-, -, rfl⟩ | ⟨q, k, rest, -, hk, -, rfl⟩⟩ := popX_cases h
  · exact .start hq
  · exact .setTask hk rfl hq

theorem popV_within {r : Reg} {x : VWord} (h : popV r s = some (x, t)) (hq : Q s.core) : Within xs vs ms fl sp Q s t := by
  obtain ⟨-, -, rfl⟩ | ⟨q, k, rest, -, hk, -, rfl⟩ := popV_cases h
  · exact .start hq
  · exact .setTask hk rfl hq

theorem popX_standing {r : Reg} {x : Word} (h : popX r s = some (x, t)) : Standing s t := by
  obtain ⟨e, -⟩ := popX_st h
  exact ⟨by rw [e], by rw [e]⟩

theorem popV_standing {r : Reg} {x : VWord} (h : popV r s = some (x, t)) : Standing s t := by
  obtain ⟨e, -⟩ := popV_st h
  exact ⟨by rw [e], by rw [e]⟩

theorem Standing.trans (h : Standing s t) (g : Standing t u) : Standing s u := ⟨g.1.trans h.1, g.2.trans h.2⟩

/-! ## Destinations -/

theorem writeX_within {a : Reg} (ha : xs a) (v : Word) (hq : Q s.core) : Within xs vs ms fl sp Q s (writeX a v s) := by
  have hs : StreamFrame xs vs ms noIx fl False s (writeX a v s) := .writeX ha v s
  obtain ⟨-, e⟩ | ⟨q, -, ⟨-, e⟩ | ⟨k, hk, e⟩⟩ := writeX_cases a v s <;> rw [e] at hs ⊢
  · exact .setSt _ hs hq
  · exact .start hq
  · exact .setTask hk rfl hq

theorem writeV_within {a : Reg} (ha : vs a) (v : VWord) (hq : Q s.core) : Within xs vs ms fl sp Q s (writeV a v s) := by
  have hs : StreamFrame xs vs ms noIx fl False s (writeV a v s) := .writeV ha v s
  obtain ⟨-, e⟩ | ⟨q, -, ⟨-, e⟩ | ⟨k, hk, e⟩⟩ := writeV_cases a v s <;> rw [e] at hs ⊢
  · exact .setSt _ hs hq
  · exact .start hq
  · exact .setTask hk rfl hq

theorem writeX_standing (a : Reg) (v : Word) (s : State) : Standing s (writeX a v s) := by
  obtain ⟨hpc, hls, -⟩ := writeX_frame a v s
  exact ⟨hpc, hls⟩

theorem writeV_standing (a : Reg) (v : VWord) (s : State) : Standing s (writeV a v s) := by
  obtain ⟨hpc, hls, -⟩ := writeV_frame a v s
  exact ⟨hpc, hls⟩

/-- FFLAGS alone changes. -/
theorem StreamFrame.orFlags {os : Fin 8 → Prop} {qm : Prop} (hf : fl) (f : BitVec 5) (s : State) :
    StreamFrame xs vs ms os fl qm s (orFlags f s) := by
  have e : (Machine.orFlags f s).st = { s.st with fflags := s.st.fflags ||| f } := s.setSt_st _
  exact
    { scalars := fun _ _ => by rw [e]; rfl
      vectors := fun _ _ => by rw [e]
      masks := fun _ _ => by rw [e]
      extensions := fun _ _ => by rw [e]
      flags := fun h => absurd hf h
      modes := by rw [e]; exact ⟨rfl, fun _ => rfl⟩
      exceptions := by rw [e]; exact ⟨rfl, rfl, rfl, rfl, rfl, rfl, rfl, rfl, rfl, rfl⟩
      identity := by rw [e]; exact ⟨rfl, rfl, rfl, rfl, rfl⟩
      others := fun j hj => vset_get_ne _ _ _ _ (Ne.symm hj) }

/-- One mask register alone changes. -/
theorem StreamFrame.writeM {os : Fin 8 → Prop} {qm : Prop} {i : Fin 8} (hi : ms i) (v : BitVec 16) (s : State) :
    StreamFrame xs vs ms os fl qm s (writeM i v s) := by
  have e : (Machine.writeM i v s).st = s.st.putM i v := s.setSt_st _
  have hm : ∃ m, s.st.putM i v = { s.st with m := m } ∧ ∀ k, ¬ ms k → m[k] = s.st.m[k] := by
    unfold Stream.putM
    split
    · exact ⟨s.st.m, rfl, fun _ _ => rfl⟩
    · exact ⟨_, rfl, fun k hk => vset_get_ne _ _ _ _ fun h => hk (h ▸ hi)⟩
  obtain ⟨m, hm, hk⟩ := hm
  rw [hm] at e
  exact
    { scalars := fun _ _ => by rw [e]; rfl
      vectors := fun _ _ => by rw [e]
      masks := fun k h => by rw [e]; exact hk k h
      extensions := fun _ _ => by rw [e]
      flags := fun _ => by rw [e]
      modes := by rw [e]; exact ⟨rfl, fun _ => rfl⟩
      exceptions := by rw [e]; exact ⟨rfl, rfl, rfl, rfl, rfl, rfl, rfl, rfl, rfl, rfl⟩
      identity := by rw [e]; exact ⟨rfl, rfl, rfl, rfl, rfl⟩
      others := fun j hj => vset_get_ne _ _ _ _ (Ne.symm hj) }

theorem orFlags_within (hf : fl) (f : BitVec 5) (hq : Q s.core) : Within xs vs ms fl sp Q s (orFlags f s) := .setSt _ (.orFlags hf f s) hq

theorem writeM_within {i : Fin 8} (hi : ms i) (v : BitVec 16) (hq : Q s.core) : Within xs vs ms fl sp Q s (writeM i v s) :=
  .setSt _ (.writeM hi v s) hq

theorem orFlags_standing (f : BitVec 5) (s : State) : Standing s (orFlags f s) := by
  unfold Machine.orFlags
  exact ⟨by rw [State.setSt_st], by rw [State.setSt_st]⟩

theorem writeM_standing (i : Fin 8) (v : BitVec 16) (s : State) : Standing s (writeM i v s) := by
  unfold Machine.writeM Stream.putM
  refine ⟨?_, ?_⟩ <;> rw [State.setSt_st] <;> split <;> rfl

/-! ## Answers -/

/-- An answer that goes on is within the frame. -/
def StaysWithin (xs vs : Reg → Prop) (ms : Fin 8 → Prop) (fl sp : Prop) (Q : Core → Prop) (s : State) (o : Res) : Prop :=
  ∀ u, o = .next u → Within xs vs ms fl sp Q s u

/-- What an instruction that has come to t can rely on: t is within the frame, and still stands at the instruction. -/
structure Along (xs vs : Reg → Prop) (ms : Fin 8 → Prop) (fl sp : Prop) (Q : Core → Prop) (s t : State) : Prop extends Within xs vs ms fl sp Q s t where
  standing : Standing s t

theorem Along.start (hq : Q s.core) : Along xs vs ms fl sp Q s s := ⟨.start hq, rfl, rfl⟩

theorem Along.step (h : Along xs vs ms fl sp Q s t) (g : Within xs vs ms fl sp Q t u) (hs : Standing t u) : Along xs vs ms fl sp Q s u :=
  ⟨h.toWithin.trans g, h.standing.trans hs⟩

theorem Along.popX (h : Along xs vs ms fl sp Q s t) {r : Reg} {x : Word} (e : popX r t = some (x, u)) : Along xs vs ms fl sp Q s u :=
  h.step (popX_within e h.core) (popX_standing e)

theorem Along.popV (h : Along xs vs ms fl sp Q s t) {r : Reg} {x : VWord} (e : popV r t = some (x, u)) : Along xs vs ms fl sp Q s u :=
  h.step (popV_within e h.core) (popV_standing e)

theorem Along.writeX (h : Along xs vs ms fl sp Q s t) {a : Reg} (ha : xs a) (v : Word) : Along xs vs ms fl sp Q s (writeX a v t) :=
  h.step (writeX_within ha v h.core) (writeX_standing a v t)

theorem Along.writeV (h : Along xs vs ms fl sp Q s t) {a : Reg} (ha : vs a) (v : VWord) : Along xs vs ms fl sp Q s (writeV a v t) :=
  h.step (writeV_within ha v h.core) (writeV_standing a v t)

theorem Along.orFlags (h : Along xs vs ms fl sp Q s t) (hf : fl) (f : BitVec 5) : Along xs vs ms fl sp Q s (orFlags f t) :=
  h.step (orFlags_within hf f h.core) (orFlags_standing f t)

theorem Along.writeM (h : Along xs vs ms fl sp Q s t) {i : Fin 8} (hi : ms i) (v : BitVec 16) : Along xs vs ms fl sp Q s (writeM i v t) :=
  h.step (writeM_within hi v h.core) (writeM_standing i v t)

theorem Along.setCore (h : Along xs vs ms fl sp Q s t) {c : Core} (hc : Q c) : Along xs vs ms fl sp Q s { t with core := c } :=
  h.step (.setCore hc) ⟨rfl, rfl⟩

theorem stall_within (hq : Q s.core) : StaysWithin xs vs ms fl sp Q s (stall s) := by
  intro u e
  cases e
  exact .marked s.st.pc s.st.loops s.st.wait true hq

/-- An instruction that does not straddle a loop's end completes, and changes where its stream goes on. -/
theorem retire_of_fits {i : Instr} (hf : fits i.len t) : retire i t = .next (past i.len t) := by
  obtain ⟨ls, pc, e⟩ : ∃ ls pc, fallThrough t.st.pc i.len t.st.loops = (ls, pc, false) := ⟨_, _, Prod.ext rfl (Prod.ext rfl hf)⟩
  simp only [Machine.retire, past, e]

theorem Along.retire (h : Along xs vs ms fl sp Q s t) {i : Instr} (hf : fits i.len s) : StaysWithin xs vs ms fl sp Q s (retire i t) := by
  obtain ⟨hpc, hls⟩ := h.standing
  intro u e
  rw [retire_of_fits (by unfold fits; rw [hpc, hls]; exact hf)] at e
  cases e
  exact h.toWithin.trans (.marked _ _ 0 false h.core)

theorem Along.finishX (h : Along xs vs ms fl sp Q s t) {i : Instr} (hf : fits i.len s) {a : Reg} (ha : xs a) (v : Word) :
    StaysWithin xs vs ms fl sp Q s (finishX i a v t) :=
  (h.writeX ha v).retire hf

theorem Along.finishV (h : Along xs vs ms fl sp Q s t) {i : Instr} (hf : fits i.len s) {a : Reg} (ha : vs a) (v : VWord) :
    StaysWithin xs vs ms fl sp Q s (finishV i a v t) :=
  (h.writeV ha v).retire hf

theorem Along.withX (hq : Q s.core) (h : Along xs vs ms fl sp Q s t) {r : Reg} {k : Word → State → Res}
    (hk : ∀ x u, Along xs vs ms fl sp Q s u → StaysWithin xs vs ms fl sp Q s (k x u)) : StaysWithin xs vs ms fl sp Q s (withX r s t k) :=
  withX_cases (stall_within hq) fun x u e => hk x u (h.popX e)

theorem Along.withV (hq : Q s.core) (h : Along xs vs ms fl sp Q s t) {r : Reg} {k : VWord → State → Res}
    (hk : ∀ x u, Along xs vs ms fl sp Q s u → StaysWithin xs vs ms fl sp Q s (k x u)) : StaysWithin xs vs ms fl sp Q s (withV r s t k) :=
  withV_cases (stall_within hq) fun x u e => hk x u (h.popV e)

theorem withRoomX_within (hq : Q s.core) {a : Reg} {k : Res} (hk : StaysWithin xs vs ms fl sp Q s k) :
    StaysWithin xs vs ms fl sp Q s (withRoomX a s t k) :=
  withRoomX_cases (stall_within hq) fun _ => hk

theorem withRoomV_within (hq : Q s.core) {a : Reg} {k : Res} (hk : StaysWithin xs vs ms fl sp Q s k) :
    StaysWithin xs vs ms fl sp Q s (withRoomV a s t k) :=
  withRoomV_cases (stall_within hq) fun _ => hk

end

end Sys2Proof.Spec
end

section
/-! The frames of the scalar and vector instructions that reach registers and queues alone (R93, R128). -/

namespace Sys2Proof.Spec

open Sys2Proof.Machine

section
variable {xs vs : Reg → Prop} {ms : Fin 8 → Prop} {fl : Prop} {s t : State} {i : Instr}

/-- The claim of the frames of registers: the core is as it was. -/
def CoreKept (s : State) (c : Core) : Prop := c = s.core

theorem coreKept_refl (s : State) : CoreKept s s.core := rfl

theorem Along.here (s : State) : Along xs vs ms fl False (CoreKept s) s s := .start (coreKept_refl s)

theorem RegisterFrame.of_within (h : Within xs vs ms fl False (CoreKept s) s t) : RegisterFrame xs vs ms noIx fl False s t :=
  have hc : t.core = s.core := h.core
  ⟨h.stream, h.group, fun _ => by rw [hc], hc, h.device⟩

/-! ## Shapes of instructions -/

theorem binary_within {a b c : Reg} (hf : fits i.len s) (f : Word → Word → Word) :
    StaysWithin (· = a) vs ms fl False (CoreKept s) s (binary i a b c f s) :=
  (Along.here s).withX (coreKept_refl s) fun _ _ h1 => h1.withX (coreKept_refl s) fun _ _ h2 => withRoomX_within (coreKept_refl s) (h2.finishX hf rfl _)

theorem unary_within {a b : Reg} (hf : fits i.len s) (f : Word → Word) :
    StaysWithin (· = a) vs ms fl False (CoreKept s) s (unary i a b f s) :=
  (Along.here s).withX (coreKept_refl s) fun _ _ h1 => withRoomX_within (coreKept_refl s) (h1.finishX hf rfl _)

theorem roomFinishX_within {a : Reg} (hf : fits i.len s) (v : Word) :
    StaysWithin (· = a) vs ms fl False (CoreKept s) s (withRoomX a s s (finishX i a v s)) :=
  withRoomX_within (coreKept_refl s) ((Along.here s).finishX hf (xs := (· = a)) rfl v)

/-- Two vector sources and a vector destination. -/
theorem vector2_within {a b c : Reg} (hf : fits i.len s) (f : VWord → VWord → State → VWord) :
    StaysWithin xs (· = a) ms fl False (CoreKept s) s
      (withV b s s fun x s1 => withV c s s1 fun y s2 => withRoomV a s s2 (finishV i a (f x y s2) s2)) :=
  (Along.here s).withV (coreKept_refl s) fun _ _ h1 => h1.withV (coreKept_refl s) fun _ _ h2 => withRoomV_within (coreKept_refl s) (h2.finishV hf rfl _)

/-- One vector source and a vector destination. -/
theorem vector1_within {a b : Reg} (hf : fits i.len s) (f : VWord → State → VWord) :
    StaysWithin xs (· = a) ms fl False (CoreKept s) s (withV b s s fun x s1 => withRoomV a s s1 (finishV i a (f x s1) s1)) :=
  (Along.here s).withV (coreKept_refl s) fun _ _ h1 => withRoomV_within (coreKept_refl s) (h1.finishV hf rfl _)

theorem Along.finishFp {Q : Core → Prop} {sp : Prop} (h : Along xs vs ms fl sp Q s t) (hf : fits i.len s) {a : Reg} (ha : vs a) (hfl : fl)
    (m : MaskField) (r : List (Nat × BitVec 5)) : StaysWithin xs vs ms fl sp Q s (finishFp i a m r t) :=
  (h.orFlags hfl _).finishV hf ha _

theorem fpBinary_within {a b c : Reg} (hfl : fl) (hf : fits i.len s) (m : MaskField) (f : RMode → Nat → Nat → Nat × BitVec 5) :
    StaysWithin xs (· = a) ms fl False (CoreKept s) s (fpBinary i a b c m f s) :=
  (Along.here s).withV (coreKept_refl s) fun _ _ h1 => h1.withV (coreKept_refl s) fun _ _ h2 => withRoomV_within (coreKept_refl s) (h2.finishFp hf rfl hfl m _)

theorem fpUnary_within {a b : Reg} (hfl : fl) (hf : fits i.len s) (m : MaskField) (f : RMode → Nat → Nat × BitVec 5) :
    StaysWithin xs (· = a) ms fl False (CoreKept s) s (fpUnary i a b m f s) :=
  (Along.here s).withV (coreKept_refl s) fun _ _ h1 => withRoomV_within (coreKept_refl s) (h1.finishFp hf rfl hfl m _)

theorem fpFused_within {a b c : Reg} (hfl : fl) (hf : fits i.len s) (m : MaskField) (f : RMode → Nat → Nat → Nat → Nat × BitVec 5) :
    StaysWithin xs (· = a) ms fl False (CoreKept s) s (fpFused i a b c m f s) :=
  (Along.here s).withV (coreKept_refl s) fun _ _ h1 => h1.withV (coreKept_refl s) fun _ _ h2 => h2.withV (coreKept_refl s) fun _ _ h3 => withRoomV_within (coreKept_refl s) (h3.finishFp hf rfl hfl m _)

theorem vecCompare_within {a b c : Reg} (hf : fits i.len s) (w : Nat) (m : MaskField) (f : Nat → Nat → Bool) :
    StaysWithin xs vs (· = reg8 a) fl False (CoreKept s) s (vecCompare i a b c w m f s) :=
  (Along.here s).withV (coreKept_refl s) fun _ _ h1 => h1.withV (coreKept_refl s) fun _ _ h2 => (h2.writeM rfl _).retire hf

theorem fpCompare_within {a b c : Reg} (hfl : fl) (hf : fits i.len s) (m : MaskField) (f : Nat → Nat → Bool × BitVec 5) :
    StaysWithin xs vs (· = reg8 a) fl False (CoreKept s) s (fpCompare i a b c m f s) :=
  (Along.here s).withV (coreKept_refl s) fun _ _ h1 => h1.withV (coreKept_refl s) fun _ _ h2 => ((h2.orFlags hfl _).writeM rfl _).retire hf

theorem setSt_self (s : State) : s.setSt s.st = s := by
  have h : vset s.streams s.cur s.st = s.streams := Vector.set_getElem_self _
  rw [State.setSt, h]

theorem orFlags_zero (s : State) : orFlags 0 s = s := by
  unfold Machine.orFlags
  rw [show s.st.fflags ||| 0 = s.st.fflags from BitVec.or_zero]
  exact setSt_self s

theorem reduceOnce_flags {f : Nat → Nat → Nat × BitVec 5} (hz : ∀ x y, (f x y).2 = 0) (l : List (Option Nat)) : (reduceOnce f l).2 = 0 := by
  fun_induction reduceOnce f l with
  | case1 x y rest v r ih => simp only [v, r, hz, ih, BitVec.or_self]
  | case2 x rest r ih => exact ih
  | case3 y rest r ih => exact ih
  | case4 l => rfl

theorem reduceTree_flags {f : Nat → Nat → Nat × BitVec 5} (hz : ∀ x y, (f x y).2 = 0) (k : Nat) :
    ∀ l : List (Option Nat), (reduceTree f k l).2 = 0 := by
  induction k with
  | zero => exact fun _ => rfl
  | succ k ih => exact fun l => by simp only [reduceTree, reduceOnce_flags hz, ih, BitVec.or_self]

theorem reduceElems_flags {f : Nat → Nat → Nat × BitVec 5} (hz : ∀ x y, (f x y).2 = 0) (w : Nat) (g : BitVec 16) (x : VWord) (e : Nat) :
    (reduceElems w g x e f).2 = 0 := by
  unfold reduceElems
  dsimp only
  split <;> exact reduceTree_flags hz _ _

/-- A reduction that raises no flag leaves FFLAGS. -/
theorem reduction_within {a b : Reg} (hf : fits i.len s) (w : Nat) (m : MaskField) (e : Nat) (f : RMode → Nat → Nat → Nat × BitVec 5)
    (hfl : fl ∨ ∀ r x y, (f r x y).2 = 0) : StaysWithin xs (· = a) ms fl False (CoreKept s) s (reduction i a b w m e f s) := by
  refine (Along.here s).withV (coreKept_refl s) fun x t h1 => withRoomV_within (coreKept_refl s) ?_
  rcases hfl with hfl | hz
  · exact (h1.orFlags hfl _).finishV hf rfl _
  · dsimp only
    rw [reduceElems_flags (hz t.rm), orFlags_zero]
    exact h1.finishV hf rfl _

theorem writeMask_within {a : Reg} (hf : fits i.len s) (v : BitVec 16) :
    StaysWithin xs vs (· = reg8 a) fl False (CoreKept s) s (retire i (writeM (reg8 a) v s)) :=
  ((Along.here s).writeM (ms := (· = reg8 a)) rfl v).retire hf

end

end Sys2Proof.Spec
end

section
/-! The frames of the scalar instructions, and of the vector and mask instructions that access no memory (R93, R128). -/

namespace Sys2Proof.Spec

open Sys2Proof.Machine

section
variable {i : Instr} {s t : State} {a : Reg}

/-! ## The shape of each instruction of a rule -/

theorem exec_of_aluResult {b c : Reg} {f : Word → Word → Word} (h : aluResult i = some (a, b, c, f)) (s : State) :
    ∃ g, exec i s = binary i a b c g s := by
  unfold aluResult at h
  split at h <;> cases h <;> exact ⟨_, rfl⟩

theorem exec_of_oneSourceResult {b : Reg} {f : Word → Word} (h : oneSourceResult i = some (a, b, f)) (s : State) :
    ∃ g, exec i s = unary i a b g s := by
  unfold oneSourceResult at h
  split at h <;> cases h <;> exact ⟨_, rfl⟩

theorem exec_of_laneRule2 {b c : Reg} {w : Nat} {m : MaskField} {f : Nat → Nat → Int} (h : laneRule2 i = some (a, b, c, w, m, f)) (s : State) :
    ∃ g, exec i s = vecBinary i a b c w m g s := by
  unfold laneRule2 at h
  split at h <;> cases h
  exacts [⟨_, (rfl : execVadd _ _ _ _ _ s = _)⟩, ⟨_, (rfl : execVsub _ _ _ _ _ s = _)⟩, ⟨_, (rfl : execVmul _ _ _ _ _ s = _)⟩,
    ⟨_, (rfl : execVmulh _ _ _ _ _ s = _)⟩, ⟨_, (rfl : execVand _ _ _ _ _ s = _)⟩, ⟨_, (rfl : execVor _ _ _ _ _ s = _)⟩,
    ⟨_, (rfl : execVxor _ _ _ _ _ s = _)⟩, ⟨_, (rfl : execVsll _ _ _ _ _ s = _)⟩, ⟨_, (rfl : execVsrl _ _ _ _ _ s = _)⟩,
    ⟨_, (rfl : execVsra _ _ _ _ _ s = _)⟩, ⟨_, (rfl : execVmin _ _ _ _ _ s = _)⟩, ⟨_, (rfl : execVmax _ _ _ _ _ s = _)⟩,
    ⟨_, (rfl : execVminz _ _ _ _ _ s = _)⟩, ⟨_, (rfl : execVmaxz _ _ _ _ _ s = _)⟩]

theorem exec_of_laneRule1 {b : Reg} {w : Nat} {m : MaskField} {f : Nat → Int} (h : laneRule1 i = some (a, b, w, m, f)) (s : State) :
    ∃ g, exec i s = vecUnary i a b w m g s := by
  unfold laneRule1 at h
  split at h <;> cases h
  exacts [⟨_, (rfl : execVabs _ _ _ _ s = _)⟩, ⟨_, (rfl : execVsat _ _ _ _ _ s = _)⟩]

theorem exec_of_moveRule2 {b c : Reg} {w : Nat} {m : MaskField} {f : VWord → VWord → Nat → Nat} (h : moveRule2 i = some (a, b, c, w, m, f))
    (s : State) : ∃ g : VWord → VWord → Nat → Nat, exec i s = withV b s s fun x s1 => withV c s s1 fun y s2 =>
      withRoomV a s s2 (finishV i a (mergeElems w (512 / w) (s2.mask m) (oldV a s2) (g x y)) s2) := by
  unfold moveRule2 at h
  split at h <;> cases h
  · exact ⟨_, (rfl : execVshuf _ _ _ _ _ s = _)⟩
  · exact ⟨_, (rfl : execVzip _ _ _ _ _ s = _)⟩
  · exact ⟨_, (rfl : execVuzp _ _ _ _ _ s = _)⟩

theorem exec_of_compareRule {b c : Reg} {w : Nat} {m : MaskField} {p : Nat → Nat → Prop} (h : compareRule i = some (a, b, c, w, m, p)) (s : State) :
    ∃ g, exec i s = vecCompare i a b c w m g s := by
  unfold compareRule at h
  split at h <;> cases h
  exacts [⟨_, (rfl : execVceq _ _ _ _ _ s = _)⟩, ⟨_, (rfl : execVclt _ _ _ _ _ s = _)⟩, ⟨_, (rfl : execVclo _ _ _ _ _ s = _)⟩]

theorem exec_of_maskRule {f : Stream → BitVec 16} (h : maskRule i = some (a, f)) (s : State) : ∃ v, exec i s = retire i (writeM (reg8 a) v s) := by
  unfold maskRule at h
  split at h <;> cases h <;> exact ⟨_, rfl⟩

theorem exec_of_floatCompareRule {b c : Reg} {m : MaskField} {f : Nat → Nat → Bool × BitVec 5} (h : floatCompareRule i = some (a, b, c, m, f))
    (s : State) : exec i s = fpCompare i a b c m f s := by
  unfold floatCompareRule at h
  split at h <;> cases h <;> rfl

theorem exec_of_floatRule {rs : List Reg} {m : MaskField} {f : RMode → List Nat → Nat × BitVec 5} (h : floatRule i = some (a, rs, m, f)) (s : State) :
    (∃ b g, exec i s = fpUnary i a b m g s) ∨ (∃ b c g, exec i s = fpBinary i a b c m g s) ∨ ∃ b c g, exec i s = fpFused i a b c m g s := by
  unfold floatRule at h
  split at h <;> cases h
  exacts [.inr (.inl ⟨_, _, _, (rfl : execVfadd _ _ _ _ s = _)⟩), .inr (.inl ⟨_, _, _, (rfl : execVfsub _ _ _ _ s = _)⟩),
    .inr (.inl ⟨_, _, _, (rfl : execVfmul _ _ _ _ s = _)⟩), .inr (.inr ⟨_, _, _, (rfl : execVfma _ _ _ _ s = _)⟩),
    .inr (.inr ⟨_, _, _, (rfl : execVfms _ _ _ _ s = _)⟩), .inr (.inl ⟨_, _, _, (rfl : execVfmin _ _ _ _ s = _)⟩),
    .inr (.inl ⟨_, _, _, (rfl : execVfmax _ _ _ _ s = _)⟩), .inl ⟨_, _, (rfl : execVfabs _ _ _ s = _)⟩, .inl ⟨_, _, (rfl : execVfneg _ _ _ s = _)⟩,
    .inl ⟨_, _, (rfl : execVfrcp _ _ _ s = _)⟩, .inl ⟨_, _, (rfl : execVfrsq _ _ _ s = _)⟩, .inl ⟨_, _, (rfl : execVfexp _ _ _ s = _)⟩]

/-! ## Lengths -/

theorem len_of_laneRule2 {x} (h : laneRule2 i = some x) : i.len = 4 := by
  unfold laneRule2 at h
  split at h <;> cases h <;> rfl

theorem len_of_laneRule1 {x} (h : laneRule1 i = some x) : i.len = 4 := by
  unfold laneRule1 at h
  split at h <;> cases h <;> rfl

theorem len_of_moveRule2 {x} (h : moveRule2 i = some x) : i.len = 4 := by
  unfold moveRule2 at h
  split at h <;> cases h <;> rfl

theorem len_of_compareRule {x} (h : compareRule i = some x) : i.len = 4 := by
  unfold compareRule at h
  split at h <;> cases h <;> rfl

theorem len_of_maskRule {x} (h : maskRule i = some x) : i.len = 4 := by
  unfold maskRule at h
  split at h <;> cases h <;> rfl

theorem len_of_floatCompareRule {x} (h : floatCompareRule i = some x) : i.len = 4 := by
  unfold floatCompareRule at h
  split at h <;> cases h <;> rfl

theorem len_of_floatRule {x} (h : floatRule i = some x) : i.len = 4 := by
  unfold floatRule at h
  split at h <;> cases h <;> rfl

/-! ## Scalar instructions -/

theorem scalarDest_within (h : scalarDest i = some a) (hf : fits i.len s) : StaysWithin (· = a) noReg noIx False False (CoreKept s) s (exec i s) := by
  unfold scalarDest at h
  split at h
  · rename_i e
    cases h
    obtain ⟨g, e⟩ := exec_of_aluResult e s
    rw [e]
    exact binary_within hf g
  · rename_i e
    cases h
    obtain ⟨g, e⟩ := exec_of_oneSourceResult e s
    rw [e]
    exact unary_within hf g
  · split at h <;> cases h <;> exact roomFinishX_within hf _

end

theorem scalarFrames : ScalarFrames := fun _ _ _ t h hf e => .of_within (scalarDest_within h hf t e)

/-! ## Vector and mask instructions -/

section
variable {i : Instr} {s t : State} {a : Reg}

/-- The instructions whose only destination is vector register a, and which raise no flag. -/
theorem vectorDest_within (h : (∃ b c w m f, laneRule2 i = some (a, b, c, w, m, f)) ∨ (∃ b w m f, laneRule1 i = some (a, b, w, m, f))
      ∨ (∃ b c w m f, moveRule2 i = some (a, b, c, w, m, f)) ∨ (∃ b c m, i = .vsel a b c m) ∨ (∃ b w m, i = .vbcast a b w m)
      ∨ (∃ b c w m, i = .vslide a b c w m) ∨ (∃ b w m, i = .vreds a b w m) ∨ (∃ b w m, i = .vredm a b w m)) (hf : fits i.len s) :
    StaysWithin noReg (· = a) noIx False False (CoreKept s) s (exec i s) := by
  rcases h with ⟨b, c, w, m, f, h⟩ | ⟨b, w, m, f, h⟩ | ⟨b, c, w, m, f, h⟩ | ⟨b, c, m, rfl⟩ | ⟨b, w, m, rfl⟩ | ⟨b, c, w, m, rfl⟩ | ⟨b, w, m, rfl⟩ | ⟨b, w, m, rfl⟩
  · obtain ⟨g, e⟩ := exec_of_laneRule2 h s
    rw [e]
    exact vector2_within hf _
  · obtain ⟨g, e⟩ := exec_of_laneRule1 h s
    rw [e]
    exact vector1_within hf _
  · obtain ⟨g, e⟩ := exec_of_moveRule2 h s
    rw [e]
    exact vector2_within hf _
  · exact vector2_within (i := .vsel a b c m) hf fun x y s2 => mergeElems 32 16 (s2.mask m) y (fun j => elem x 32 j)
  · exact (Along.here s).withX (coreKept_refl s) fun _ _ h1 => withRoomV_within (coreKept_refl s) (h1.finishV (i := .vbcast a b w m) hf rfl _)
  · exact (Along.here s).withV (coreKept_refl s) fun _ _ h1 => h1.withX (coreKept_refl s) fun _ _ h2 =>
      withRoomV_within (coreKept_refl s) (h2.finishV (i := .vslide a b c w m) hf rfl _)
  · exact (reduction_within hf _ m _ _ (.inr fun _ _ _ => rfl) : StaysWithin _ _ _ _ _ _ s (execVreds a b w m s))
  · exact (reduction_within hf _ m _ _ (.inr fun _ _ _ => rfl) : StaysWithin _ _ _ _ _ _ s (execVredm a b w m s))

/-- The floating instructions with vector destination a. -/
theorem floatDest_within (h : (∃ rs m f, floatRule i = some (a, rs, m, f)) ∨ (∃ b m, i = .vfreds a b m) ∨ (∃ b m, i = .vfredm a b m))
    (hf : fits i.len s) : StaysWithin noReg (· = a) noIx True False (CoreKept s) s (exec i s) := by
  rcases h with ⟨rs, m, f, h⟩ | ⟨b, m, rfl⟩ | ⟨b, m, rfl⟩
  · obtain ⟨b, g, e⟩ | ⟨b, c, g, e⟩ | ⟨b, c, g, e⟩ := exec_of_floatRule h s <;> rw [e]
    · exact fpUnary_within trivial hf m g
    · exact fpBinary_within trivial hf m g
    · exact fpFused_within trivial hf m g
  · exact (reduction_within hf _ m _ _ (.inl trivial) : StaysWithin _ _ _ _ _ _ s (execVfreds a b m s))
  · exact (reduction_within hf _ m _ _ (.inl trivial) : StaysWithin _ _ _ _ _ _ s (execVfredm a b m s))

/-- The instructions whose only destination is mask register a, and which raise no flag. -/
theorem maskDest_within (h : (∃ b c w m p, compareRule i = some (a, b, c, w, m, p)) ∨ (∃ f, maskRule i = some (a, f)) ∨ (∃ b, i = .mset a b))
    (hf : fits i.len s) : StaysWithin noReg noReg (· = reg8 a) False False (CoreKept s) s (exec i s) := by
  rcases h with ⟨b, c, w, m, p, h⟩ | ⟨f, h⟩ | ⟨b, rfl⟩
  · obtain ⟨g, e⟩ := exec_of_compareRule h s
    rw [e]
    exact vecCompare_within hf w m g
  · obtain ⟨v, e⟩ := exec_of_maskRule h s
    rw [e]
    exact writeMask_within hf v
  · exact (Along.here s).withX (coreKept_refl s) fun _ _ h1 => (h1.writeM rfl _).retire (i := .mset a b) hf

/-- The two instructions that move from vectors and masks to scalar register a. -/
theorem moveDest_within (h : (∃ b c w, i = .vmvx a b c w) ∨ (∃ b, i = .mpop a b)) (hf : fits i.len s) :
    StaysWithin (· = a) noReg noIx False False (CoreKept s) s (exec i s) := by
  rcases h with ⟨b, c, w, rfl⟩ | ⟨b, rfl⟩
  · exact (Along.here s).withV (coreKept_refl s) fun _ _ h1 => h1.withX (coreKept_refl s) fun _ _ h2 =>
      withRoomX_within (coreKept_refl s) (h2.finishX (i := .vmvx a b c w) hf rfl _)
  · exact roomFinishX_within (i := .mpop a b) hf _

theorem floatCompare_within {b c : Reg} {m : MaskField} {f : Nat → Nat → Bool × BitVec 5} (h : floatCompareRule i = some (a, b, c, m, f))
    (hf : fits i.len s) : StaysWithin noReg noReg (· = reg8 a) True False (CoreKept s) s (exec i s) := by
  rw [exec_of_floatCompareRule h s]
  exact fpCompare_within trivial hf m f

theorem vectorDest_len (h : (∃ b c w m f, laneRule2 i = some (a, b, c, w, m, f)) ∨ (∃ b w m f, laneRule1 i = some (a, b, w, m, f))
      ∨ (∃ b c w m f, moveRule2 i = some (a, b, c, w, m, f)) ∨ (∃ b c m, i = .vsel a b c m) ∨ (∃ b w m, i = .vbcast a b w m)
      ∨ (∃ b c w m, i = .vslide a b c w m) ∨ (∃ b w m, i = .vreds a b w m) ∨ (∃ b w m, i = .vredm a b w m)) : i.len = 4 := by
  rcases h with ⟨b, c, w, m, f, h⟩ | ⟨b, w, m, f, h⟩ | ⟨b, c, w, m, f, h⟩ | ⟨b, c, m, rfl⟩ | ⟨b, w, m, rfl⟩ | ⟨b, c, w, m, rfl⟩ | ⟨b, w, m, rfl⟩ | ⟨b, w, m, rfl⟩
  exacts [len_of_laneRule2 h, len_of_laneRule1 h, len_of_moveRule2 h, rfl, rfl, rfl, rfl, rfl]

theorem floatDest_len (h : (∃ rs m f, floatRule i = some (a, rs, m, f)) ∨ (∃ b m, i = .vfreds a b m) ∨ (∃ b m, i = .vfredm a b m)) :
    i.len = 4 := by
  rcases h with ⟨rs, m, f, h⟩ | ⟨b, m, rfl⟩ | ⟨b, m, rfl⟩
  exacts [len_of_floatRule h, rfl, rfl]

theorem maskDest_len (h : (∃ b c w m p, compareRule i = some (a, b, c, w, m, p)) ∨ (∃ f, maskRule i = some (a, f)) ∨ (∃ b, i = .mset a b)) :
    i.len = 4 := by
  rcases h with ⟨b, c, w, m, p, h⟩ | ⟨f, h⟩ | ⟨b, rfl⟩
  exacts [len_of_compareRule h, len_of_maskRule h, rfl]

theorem floatCompare_len {b c : Reg} {m : MaskField} {f : Nat → Nat → Bool × BitVec 5} (h : floatCompareRule i = some (a, b, c, m, f)) : i.len = 4 :=
  len_of_floatCompareRule h

theorem moveDest_len (h : (∃ b c w, i = .vmvx a b c w) ∨ (∃ b, i = .mpop a b)) : i.len = 4 := by
  rcases h with ⟨b, c, w, rfl⟩ | ⟨b, rfl⟩ <;> rfl

end

end Sys2Proof.Spec
end

section
/-! An access to the scratchpad that goes through (R120 to R125): its checks answer nothing, and the rest of the instruction runs on the state that has
recorded it. With it, what loads, stores and atomics answer (R112 to R118). -/

namespace Sys2Proof.Spec

open Sys2Proof.Machine

/-! ## The checks -/

section
variable {s t : State} {read write : Bool} {offs : List Int}

theorem lockMeets_of_lockHit {ls : Vector (Option Lock) 8} {b : Nat} (h : (lockHit ls write b).isSome = true) : lockMeets ls write b := by
  obtain ⟨k, -, hk⟩ := List.find?_isSome.mp h
  cases hl : ls[k] with
  | none =>
    rw [hl] at hk
    cases hk
  | some l =>
    rw [hl] at hk
    simp only [Bool.and_eq_true, Bool.or_eq_true, decide_eq_true_eq, Lock.meets, List.any_eq_true] at hk
    obtain ⟨⟨hspace, hmode⟩, r, hr, hlo, hhi⟩ := hk
    exact ⟨k, l, hl, hspace, hmode, r, hr, by omega, hhi⟩

theorem rlockInfo_eq_none {ls : Vector (Option Lock) 8} {c base : Nat} {ins : List Nat} (h : ∀ o ∈ ins, ¬ lockMeets ls write (base + o)) :
    rlockInfo ls write c base ins = none := by
  unfold rlockInfo
  rw [List.filter_eq_nil_iff.mpr fun o ho hit => h o ho (lockMeets_of_lockHit hit)]
  rfl

theorem other_reader {r : BitVec 4} {c : BitVec 2} (h : r &&& ~~~(1#4 <<< c.toNat) ≠ 0) : ∃ k : BitVec 2, k ≠ c ∧ r.getLsbD k.toNat = true := by
  revert r c
  decide

theorem raceMeets_of_raceFails {gs : Table Granule} {c : BitVec 2} {o : Nat} (h : raceFails gs c write (o / 256) = true) : raceMeets gs c write o := by
  simp only [raceFails, Bool.or_eq_true, decide_eq_true_eq, Bool.and_eq_true] at h
  rcases h with ⟨hsome, hne⟩ | ⟨hw, ho⟩
  · cases hx : (Table.get Granule.none gs (o / 256)).writer with
    | none => exact absurd hx hsome
    | some k => exact .inl ⟨k, hx, fun e => hne (e ▸ hx)⟩
  · obtain ⟨k, hk, hr⟩ := other_reader ho
    exact .inr ⟨hw, k, hk, hr⟩

theorem localRace_eq_none {ins : List Nat} (h : s.rs.quadMapped = true → ∀ o ∈ ins, ¬ raceMeets s.rs.granules s.coreInQuad write o) :
    localRace s write ins = none := by
  unfold localRace
  split
  · rename_i hq
    rw [List.find?_eq_none]
    intro g hg hf
    obtain ⟨o, ho, rfl⟩ := mem_granulesOf.mp hg
    exact h hq o ho (raceMeets_of_raceFails hf)
  · rfl

theorem badByte_none_of_sound {bad : List Nat} {base : Nat} {ins : List Nat} (h : ∀ o ∈ ins, (base + o) / 8 ∉ bad) : badByte bad base ins = none := by
  unfold badByte
  split
  · rfl
  · rw [List.filter_eq_nil_iff.mpr fun o ho hit => h o ho (of_decide_eq_true hit)]
    rfl

/-- A local access whose checks pass goes on with the state that has recorded it. -/
theorem localAccess_of_goes (h : LocalGoes read write offs t) (s0 : State) (k : State → Res) :
    localAccess s0 read write offs t k = k (accessed write offs t) := by
  have hin {P : Nat → Prop} (hP : ∀ o ∈ offs, inside t o → P o.toNat) : ∀ o ∈ inOffsets t.rs.spsize.toNat offs, P o := by
    intro o ho
    obtain ⟨p, hp, hr, rfl⟩ := mem_inOffsets.mp ho
    exact hP p hp (inRange_iff_inside.mp hr)
  have hlock : rlockInfo t.core.locks write t.coreInQuad.toNat t.rs.spbase.toNat (inOffsets t.rs.spsize.toNat offs) = none :=
    rlockInfo_eq_none (hin h.locks)
  have hrace : localRace t write (inOffsets t.rs.spsize.toNat offs) = none := localRace_eq_none fun hq => hin (h.races hq)
  have hsound : (if read then badByte t.core.spadBad t.rs.spbase.toNat (inOffsets t.rs.spsize.toNat offs) else none) = none := by
    split
    · exact badByte_none_of_sound (hin (h.sound ‹_›))
    · rfl
  simp only [localAccess, h.fence, hlock, hrace, hsound, Bool.false_eq_true, if_false]
  rfl

end

/-! ## Loads, stores and atomics that go through -/

section
variable {i : Instr} {s t : State} {off : Int} {n : Nat}

theorem exec_of_loadRule {a b : Reg} {o : BitVec 12} {f : Nat → Word} (h : loadRule i = some (a, b, o, n, f)) (s : State) :
    ∃ sg, exec i s = load i a b o n sg s := by
  unfold loadRule at h
  split at h <;> cases h <;> exact ⟨_, rfl⟩

theorem exec_of_storeRule {a b : Reg} {o : BitVec 12} (h : storeRule i = some (a, b, o, n)) (s : State) : exec i s = store i a b o n s := by
  unfold storeRule at h
  split at h <;> cases h <;> rfl

theorem exec_of_atomicRule {a b c : Reg} {cas : Bool} {f : Nat → Nat → Nat → Nat} (h : atomicRule i = some (a, b, c, n, cas, f)) (s : State) :
    ∃ g, exec i s = amo i g n a b c s ∧ (g = .cas ↔ cas = true) := by
  unfold atomicRule at h
  split at h <;> cases h <;> exact ⟨_, rfl, by decide⟩

theorem withX_eq {r : Reg} {s0 u : State} {x : Word} (h : popX r u = some (x, t)) (k : Word → State → Res) : withX r s0 u k = k x t := by
  simp only [withX, h]

theorem withV_eq {r : Reg} {s0 u : State} {x : VWord} (h : popV r u = some (x, t)) (k : VWord → State → Res) : withV r s0 u k = k x t := by
  simp only [withV, h]

theorem withRoomX_eq {r : Reg} {s0 u : State} (h : roomX r u = true) (k : Res) : withRoomX r s0 u k = k := by simp only [withRoomX, h, if_true]

theorem withRoomV_eq {r : Reg} {s0 u : State} (h : roomV r u = true) (k : Res) : withRoomV r s0 u k = k := by simp only [withRoomV, h, if_true]

/-- What a load that goes through answers. -/
theorem exec_of_loads {a : Reg} {f : Nat → Word} (h : loads i a off n f s t) :
    ∃ sg, exec i s = (if spansBanks (accessed false (byteRange off n) t) off n
      then retire i (firstHalf off n false 0 a sg (accessed false (byteRange off n) t))
      else finishX i a (loaded sg n (spadRd (accessed false (byteRange off n) t) off n)) (accessed false (byteRange off n) t)) := by
  obtain ⟨b, o, x, hi, hb, hroom, rfl, hgo, -⟩ := h
  obtain ⟨sg, e⟩ := exec_of_loadRule hi s
  refine ⟨sg, ?_⟩
  rw [e, load, withX_eq hb, loadX, withRoomX_eq hroom]
  exact localAccess_of_goes hgo _ _

/-- What a store that goes through answers. -/
theorem exec_of_stores {v : Nat} (h : stores i off n v s t) :
    exec i s = (if spansBanks (accessed true (byteRange off n) t) off n
      then retire i (firstHalf off n true (BitVec.ofNat 64 v) 0 false (accessed true (byteRange off n) t))
      else retire i (mendSpad (spadWr (accessed true (byteRange off n) t) off n v) (byteRange off n))) := by
  obtain ⟨a, b, o, x, w, s1, hi, hb, ha, rfl, rfl, hgo, -⟩ := h
  rw [exec_of_storeRule hi s, store, withX_eq hb, withX_eq ha, storeX]
  exact localAccess_of_goes hgo _ _

/-- An atomic's answer by what it stores. -/
theorem finished_or {a : Reg} {u : State} {w : Nat → State} (v : Word) (o : Option Nat) :
    (match o with
      | none => finishX i a v u
      | some new => finishX i a v (w new)) = finishX i a v u ∨ ∃ new, (match o with
      | none => finishX i a v u
      | some new => finishX i a v (w new)) = finishX i a v (w new) := by
  cases o with
  | none => exact .inl rfl
  | some new => exact .inr ⟨new, rfl⟩

/-- What an atomic that goes through answers: it stores a value or nothing, and writes another to rd. -/
theorem exec_of_atomics {a : Reg} {y e : Nat} {f : Nat → Nat → Nat → Nat} (h : atomics i a off n y e f s t) :
    ∃ v, exec i s = finishX i a v (accessed true (byteRange off n) t)
      ∨ ∃ new, exec i s = finishX i a v (mendSpad (spadWr (accessed true (byteRange off n) t) off n new) (byteRange off n)) := by
  obtain ⟨b, c, cas, x, w, z, s1, s2, hi, hb, hc, hz, hroom, rfl, -, -, hgo, -⟩ := h
  obtain ⟨g, hex, hg⟩ := exec_of_atomicRule hi s
  have hoff : x.toNat - x.toNat % n = n * (x.toNat / n) := by
    have := Nat.div_add_mod x.toNat n
    omega
  rw [hex, amo]
  dsimp only
  rw [withX_eq hb, withX_eq hc]
  by_cases hcas : g = .cas
  · rw [if_pos (hg.mp hcas)] at hz
    rw [if_pos hcas, withX_eq hz, withRoomX_eq hroom, hoff, localAccess_of_goes hgo]
    exact ⟨_, finished_or _ _⟩
  · rw [if_neg (mt hg.mpr hcas)] at hz
    obtain ⟨-, rfl⟩ := hz
    rw [if_neg hcas, withRoomX_eq hroom, hoff, localAccess_of_goes hgo]
    exact ⟨_, finished_or _ _⟩

end

end Sys2Proof.Spec
end

section
/-! The frames of loads, stores and atomics that go through (R19, R27, R113, R118, R120): the access records change SPFLAG and granules, a load of two
banks leaves its half among the remote accesses, and stores write the bytes of their range alone. It settles O10. -/

namespace Sys2Proof.Spec

open Sys2Proof.Machine

section
variable {xs vs : Reg → Prop} {ms : Fin 8 → Prop} {fl sp : Prop} {Q : Core → Prop} {s t u : State} {off : Int} {n : Nat}

/-! ## The access and its place -/

theorem Along.accessed (h : Along xs vs ms fl True Q s t) (write : Bool) (offs : List Int) :
    Along xs vs ms fl True Q s (accessed write offs t) := by
  obtain ⟨f, g, e⟩ := accessed_eq write (inOffsets t.rs.spsize.toNat offs) (outOffsets t.rs.spsize.toNat offs) t
  unfold Spec.accessed
  rw [e]
  exact h.step ⟨.of_sameStreams ⟨rfl, rfl⟩, .setAccess f g, .of_core t _ _ _, h.core⟩ ⟨rfl, rfl⟩

theorem Within.place (h : Within xs vs ms fl sp Q s t) : t.rs.spbase = s.rs.spbase ∧ t.rs.spsize = s.rs.spsize := by
  have hb := congrArg Residency.spbase h.group.own
  have hz := congrArg Residency.spsize h.group.own
  exact ⟨hb, hz⟩

theorem Within.inside_iff (h : Within xs vs ms fl sp Q s t) (o : Int) : inside t o ↔ inside s o := by
  rw [inside, inside, h.place.2]

theorem Within.physical_eq (h : Within xs vs ms fl sp Q s t) (o : Int) : physical t o = physical s o := by
  rw [physical, physical, h.place.1]

/-! ## Accesses that span two banks -/

theorem firstPart_lt_iff {o size : Nat} : firstPart o n size < n ↔ nextBank o < o + n ∧ nextBank o < size := by
  unfold firstPart nextBank
  dsimp only
  split <;> omega

theorem spansBanks_iff : spansBanks t off n = true ↔ crosses off n t := by
  rw [spansBanks, Bool.and_eq_true, decide_eq_true_eq, decide_eq_true_eq, firstPart_lt_iff, crosses]

theorem accessed_size (write : Bool) (offs : List Int) (t : State) : (accessed write offs t).rs.spsize = t.rs.spsize := by rw [accessed_rs]

theorem spansBanks_accessed (write : Bool) (offs : List Int) : spansBanks (accessed write offs t) off n = true ↔ crosses off n t := by
  rw [spansBanks_iff, crosses, crosses, accessed_size]

/-- The access that a load or store of two banks becomes, before any of it is performed (R112). -/
def unbegun (t : State) (off : Int) (n : Nat) (write : Bool) (data : Word) (rd : Reg) (sg : Bool) : Remote where
  slot := t.cur
  res := t.ri
  target := t.coreInQuad
  off := BitVec.ofInt 64 off
  n := n
  write := write
  data := data
  rd := rd
  signed := sg
  done := 0
  low := 0
  queued := (t.xQueue rd).isSome
  fenced := false
  gang := t.rs.gang
  size := t.rs.spsize.toNat
  at_ := t.core.cycle

theorem firstHalf_eq (off : Int) (n : Nat) (write : Bool) (data : Word) (rd : Reg) (sg : Bool) (t : State) :
    firstHalf off n write data rd sg t = performRemote t.core.remote.length (awaiting (unbegun t off n write data rd sg) t) := rfl

/-- The list of the accesses that have issued is another one. -/
def withRemote (l : List Remote) (t : State) : State := { t with core := { t.core with remote := l } }

/-- The first bank of an access of two: what it stores there is stored, and the access goes on to await its second. -/
theorem performRemote_first {e : Remote} (hd : e.done = 0) (hk : firstPart e.off.toNat e.n e.size < e.n) :
    ∃ l, performRemote t.core.remote.length (awaiting e t)
      = withRemote l (if e.write then targetWr e e.off.toNat (firstPart e.off.toNat e.n e.size) e.data.toNat (awaiting e t) else awaiting e t) := by
  unfold performRemote awaiting
  simp only [List.getElem?_concat_length, hd, Nat.add_zero, Nat.sub_zero, Nat.zero_add, hk, if_true, Nat.mul_zero, Nat.pow_zero, Nat.div_one]
  exact ⟨_, rfl⟩

theorem unbegun_spans {write : Bool} {data : Word} {rd : Reg} {sg : Bool} (hs : spansBanks t off n = true) (h64 : off.toNat < 2 ^ 64) :
    (unbegun t off n write data rd sg).off.toNat = off.toNat ∧ firstPart off.toNat n t.rs.spsize.toNat < n := by
  rw [spansBanks, Bool.and_eq_true, decide_eq_true_eq, decide_eq_true_eq] at hs
  refine ⟨?_, hs.2⟩
  show (BitVec.ofInt 64 off).toNat = _
  rw [BitVec.toNat_ofInt]
  omega

/-! ## Where bytes are stored -/

/-- The bytes of the scratchpad that an access of n bytes at an offset stores. -/
def BytesOf (off : Int) (n : Nat) (s : State) (p : Nat) : Prop := ∃ k < n, inside s (off + k) ∧ p = physical s (off + k)

/-- The scratchpad memory m is that of s but for the bytes of a set. -/
def SpadBut (D : Nat → Prop) (s : State) (m : Mem) : Prop :=
  Memory.wf m = true ∧ ∀ p, ¬ D p → readByte m p = readByte s.core.spad p

theorem SpadBut.writeByte {D : Nat → Prop} {m : Mem} (h : SpadBut D s m) {p : Nat} (hp : D p) (b : Byte) : SpadBut D s (writeByte m p b) :=
  ⟨Memory.wf_writeByte m p b h.1, fun q hq => (readByte_writeByte_ne m p q b h.1 fun e => hq (e ▸ hp)).trans (h.2 q hq)⟩

/-- The scratchpad is another one. -/
def withSpad (m : Mem) (t : State) : State := { t with core := { t.core with spad := m } }

theorem spadWr_eq {D : Nat → Prop} (n : Nat) : ∀ (off : Int) (v : Nat) {m : Mem}, SpadBut D s m →
    (∀ k < n, inside t (off + k) → D (physical t (off + k))) → ∃ m', spadWr (withSpad m t) off n v = withSpad m' t ∧ SpadBut D s m' := by
  induction n with
  | zero => exact fun off v m hm _ => ⟨m, rfl, hm⟩
  | succ n ih =>
    intro off v m hm hD
    have hput : ∃ m', spadPut (withSpad m t) off (BitVec.ofNat 8 v) = withSpad m' t ∧ SpadBut D s m' := by
      unfold spadPut
      split
      · rename_i hin
        have h0 := hD 0 n.succ_pos
        rw [Int.natCast_zero, Int.add_zero] at h0
        exact ⟨_, rfl, hm.writeByte (h0 (inRange_iff_inside.mp hin)) _⟩
      · exact ⟨m, rfl, hm⟩
    obtain ⟨m', e, hm'⟩ := hput
    unfold spadWr
    rw [e]
    refine ih (off + 1) _ hm' fun k hk hin => ?_
    have hk' := hD (k + 1) (Nat.succ_lt_succ hk)
    rw [show off + 1 + (k : Int) = off + ((k + 1 : Nat) : Int) by omega] at hin ⊢
    exact hk' hin

theorem ownWr_eq {D : Nat → Prop} (n : Nat) : ∀ (off v : Nat) {m : Mem}, SpadBut D s m →
    (∀ k < n, inside t ((off + k : Nat) : Int) → D (physical t ((off + k : Nat) : Int))) →
    ∃ m', ownWr t.ri off n v (withSpad m t) = withSpad m' t ∧ SpadBut D s m' := by
  induction n with
  | zero => exact fun off v m hm _ => ⟨m, rfl, hm⟩
  | succ n ih =>
    intro off v m hm hD
    unfold ownWr
    have hrec : ∀ k < n, inside t ((off + 1 + k : Nat) : Int) → D (physical t ((off + 1 + k : Nat) : Int)) := fun k hk hin => by
      have := hD (k + 1) (Nat.succ_lt_succ hk)
      rw [show off + 1 + k = off + (k + 1) by omega] at hin ⊢
      exact this hin
    split
    · rename_i hlt
      have h0 : inside t ((off + 0 : Nat) : Int) := ⟨Int.natCast_nonneg _, Int.ofNat_lt.mpr hlt⟩
      exact ih (off + 1) _ (hm.writeByte (hD 0 n.succ_pos h0) _) hrec
    · exact ih (off + 1) _ hm hrec

/-- The uncorrectable words of the scratchpad are other ones. -/
def withBad (b : List Nat) (t : State) : State := { t with core := { t.core with spadBad := b } }

theorem mendSpad_eq (offs : List Int) (t : State) : ∃ b, mendSpad t offs = withBad b t := by
  unfold mendSpad
  split
  · exact ⟨_, rfl⟩
  · exact ⟨_, rfl⟩

theorem spadWr_stores {D : Nat → Prop} (h : SpadBut D s t.core.spad) (n : Nat) (off : Int) (v : Nat)
    (hD : ∀ k < n, inside t (off + k) → D (physical t (off + k))) (offs : List Int) :
    ∃ m b, mendSpad (spadWr t off n v) offs = withBad b (withSpad m t) ∧ SpadBut D s m := by
  obtain ⟨m, e, hm⟩ := spadWr_eq n off v h hD
  have e' : spadWr t off n v = withSpad m t := e
  obtain ⟨b, eb⟩ := mendSpad_eq offs (withSpad m t)
  exact ⟨m, b, by rw [e', eb], hm⟩

/-- The part of an access that lies in its own core's scratchpad is stored there. -/
theorem targetWr_stores {D : Nat → Prop} {e : Remote} (ht : e.target = t.coreInQuad) (hr : e.res = t.ri) (h : SpadBut D s t.core.spad) (off k v : Nat)
    (hD : ∀ j < k, inside t ((off + j : Nat) : Int) → D (physical t ((off + j : Nat) : Int))) :
    ∃ m b, targetWr e off k v t = withBad b (withSpad m t) ∧ SpadBut D s m := by
  have hown : e.own t = true := decide_eq_true ht
  obtain ⟨m, em, hm⟩ := ownWr_eq (e.kept off k) off v h fun j hj => hD j (hj.trans_le (Nat.min_le_left _ _))
  have em' : ownWr t.ri off (e.kept off k) v t = withSpad m t := em
  rw [targetWr, if_pos hown, hr, ownStore, em']
  exact ⟨m, _, rfl, hm⟩

/-! ## The frames -/

/-- The core is that of s but for the accesses that have issued. -/
def LoadedCore (s : State) (c : Core) : Prop := { c with remote := s.core.remote } = s.core

/-- The core is that of s but for the accesses that have issued and the bytes of a set. -/
def StoredCore (D : Nat → Prop) (s : State) (c : Core) : Prop :=
  { c with spad := s.core.spad, spadBad := s.core.spadBad, remote := s.core.remote } = s.core ∧ SpadBut D s c.spad

/-- The core is that of s but for the bytes of a set. -/
def StoredHere (D : Nat → Prop) (s : State) (c : Core) : Prop :=
  { c with spad := s.core.spad, spadBad := s.core.spadBad } = s.core ∧ SpadBut D s c.spad

theorem SpadBut.refl (D : Nat → Prop) (h : s.memoriesWf) : SpadBut D s s.core.spad := ⟨h.1, fun _ _ => rfl⟩

/-- The bytes of an access at t are those of the access at s. -/
theorem Within.bytesOf (h : Within xs vs ms fl sp Q s t) {k : Nat} (hk : k < n) (hin : inside t (off + k)) :
    BytesOf off n s (physical t (off + k)) :=
  ⟨k, hk, (h.inside_iff _).mp hin, h.physical_eq _⟩

/-- The first bank of a load of two is read. -/
theorem Along.firstLoad (h : Along xs vs ms fl sp (LoadedCore s) s t) {rd : Reg} {sg : Bool} (hs : spansBanks t off n = true)
    (h64 : off.toNat < 2 ^ 64) : Along xs vs ms fl sp (LoadedCore s) s (firstHalf off n false 0 rd sg t) := by
  obtain ⟨ho, hk⟩ := unbegun_spans (write := false) (data := 0) (rd := rd) (sg := sg) hs h64
  obtain ⟨l, el⟩ := performRemote_first (t := t) (e := unbegun t off n false 0 rd sg) rfl (by rw [ho]; exact hk)
  rw [firstHalf_eq, el]
  exact h.setCore (c := { t.core with remote := l }) h.core

/-- The first bank of a store of two is stored. -/
theorem Along.firstStore (h : Along xs vs ms fl sp (StoredCore (BytesOf off n s) s) s t) {data : Word} (hs : spansBanks t off n = true)
    (h0 : 0 ≤ off) (h64 : off.toNat < 2 ^ 64) : Along xs vs ms fl sp (StoredCore (BytesOf off n s) s) s (firstHalf off n true data 0 false t) := by
  obtain ⟨ho, hk⟩ := unbegun_spans (write := true) (data := data) (rd := 0) (sg := false) hs h64
  obtain ⟨l, el⟩ := performRemote_first (t := t) (e := unbegun t off n true data 0 false) rfl (by rw [ho]; exact hk)
  have hkept : SpadBut (BytesOf off n s) s (awaiting (unbegun t off n true data 0 false) t).core.spad := h.core.2
  obtain ⟨m, b, em, hm⟩ := targetWr_stores (t := awaiting (unbegun t off n true data 0 false) t) (e := unbegun t off n true data 0 false) rfl rfl hkept (unbegun t off n true data 0 false).off.toNat
    (firstPart (unbegun t off n true data 0 false).off.toNat n t.rs.spsize.toNat) data.toNat fun j hj hin => by
      rw [ho] at hj hin ⊢
      have hb : BytesOf off n s (physical t (off + j)) := h.bytesOf (hj.trans hk) (by
        rwa [show ((off.toNat + j : Nat) : Int) = off + j by omega] at hin)
      rwa [show ((off.toNat + j : Nat) : Int) = off + j by omega]
  rw [firstHalf_eq, el]
  refine (congrArg (fun x => Along xs vs ms fl sp (StoredCore (BytesOf off n s) s) s (withRemote l x)) em).mpr ?_
  exact h.setCore (c := { t.core with spad := m, spadBad := b, remote := l }) ⟨h.core.1, hm⟩

/-- A store of one bank. -/
theorem Along.storeHere (h : Along xs vs ms fl sp (StoredHere (BytesOf off n s) s) s t) (v : Nat) (offs : List Int) :
    Along xs vs ms fl sp (StoredHere (BytesOf off n s) s) s (mendSpad (spadWr t off n v) offs) := by
  obtain ⟨m, b, e, hm⟩ := spadWr_stores h.core.2 n off v (fun k hk hin => h.bytesOf hk hin) offs
  rw [e]
  exact h.setCore (c := { t.core with spad := m, spadBad := b }) ⟨h.core.1, hm⟩

end

section
variable {i : Instr} {s t u : State} {off : Int} {n : Nat}

theorem loads_along {a : Reg} {f : Nat → Word} {Q : Core → Prop} (hq : Q s.core) (h : loads i a off n f s t) :
    Along (· = a) noReg noIx False True Q s (accessed false (byteRange off n) t) ∧ fits i.len s ∧ off.toNat < 2 ^ 64 := by
  obtain ⟨b, o, x, -, hb, -, rfl, -, hf⟩ := h
  exact ⟨((Along.start hq).popX hb).accessed false _, hf, BitVec.isLt _⟩

theorem stores_along {v : Nat} {Q : Core → Prop} (hq : Q s.core) (h : stores i off n v s t) :
    Along noReg noReg noIx False True Q s (accessed true (byteRange off n) t) ∧ fits i.len s ∧ off.toNat < 2 ^ 64 := by
  obtain ⟨a, b, o, x, w, s1, -, hb, ha, -, rfl, -, hf⟩ := h
  exact ⟨(((Along.start hq).popX hb).popX ha).accessed true _, hf, BitVec.isLt _⟩

theorem atomics_along {a : Reg} {y e : Nat} {f : Nat → Nat → Nat → Nat} {Q : Core → Prop} (hq : Q s.core) (h : atomics i a off n y e f s t) :
    Along (· = a) noReg noIx False True Q s (accessed true (byteRange off n) t) ∧ fits i.len s := by
  obtain ⟨b, c, cas, x, w, z, s1, s2, -, hb, hc, hz, -, -, -, -, -, hf⟩ := h
  have h2 : Along (· = a) noReg noIx False True Q s s2 := ((Along.start hq).popX hb).popX hc
  refine ⟨Along.accessed ?_ true _, hf⟩
  split at hz
  · exact h2.popX hz
  · rw [hz.2]
    exact h2

/-- A load of one bank, and a load of two. -/
theorem loads_within {a : Reg} {f : Nat → Word} (h : loads i a off n f s t) :
    (¬ crosses off n t → StaysWithin (· = a) noReg noIx False True (CoreKept s) s (exec i s))
    ∧ (crosses off n t → StaysWithin (· = a) noReg noIx False True (LoadedCore s) s (exec i s)) := by
  obtain ⟨sg, e⟩ := exec_of_loads h
  rw [e]
  constructor
  · intro hc
    obtain ⟨ht, hf, -⟩ := loads_along (coreKept_refl s) h
    rw [if_neg (mt (spansBanks_accessed _ _).mp hc)]
    exact (ht.writeX (a := a) rfl _).retire hf
  · intro hc
    obtain ⟨ht, hf, h64⟩ := loads_along (Q := LoadedCore s) rfl h
    have hs := (spansBanks_accessed false (byteRange off n)).mpr hc
    rw [if_pos hs]
    exact (ht.firstLoad hs h64).retire hf

/-- A store of one bank, and a store of two. -/
theorem stores_within {v : Nat} (hw : s.memoriesWf) (h : stores i off n v s t) :
    (¬ crosses off n t → StaysWithin noReg noReg noIx False True (StoredHere (BytesOf off n s) s) s (exec i s))
    ∧ (crosses off n t → StaysWithin noReg noReg noIx False True (StoredCore (BytesOf off n s) s) s (exec i s)) := by
  rw [exec_of_stores h]
  constructor
  · intro hc
    obtain ⟨ht, hf, -⟩ := stores_along (Q := StoredHere (BytesOf off n s) s) ⟨rfl, .refl _ hw⟩ h
    rw [if_neg (mt (spansBanks_accessed _ _).mp hc)]
    exact (ht.storeHere v _).retire hf
  · intro hc
    obtain ⟨ht, hf, h64⟩ := stores_along (Q := StoredCore (BytesOf off n s) s) ⟨rfl, .refl _ hw⟩ h
    have hs := (spansBanks_accessed true (byteRange off n)).mpr hc
    rw [if_pos hs]
    exact (ht.firstStore hs hc.1 h64).retire hf

theorem atomics_within {a : Reg} {y e : Nat} {f : Nat → Nat → Nat → Nat} (hw : s.memoriesWf) (h : atomics i a off n y e f s t) :
    StaysWithin (· = a) noReg noIx False True (StoredHere (BytesOf off n s) s) s (exec i s) := by
  obtain ⟨ht, hf⟩ := atomics_along (Q := StoredHere (BytesOf off n s) s) ⟨rfl, .refl _ hw⟩ h
  obtain ⟨v, e | ⟨new, e⟩⟩ := exec_of_atomics h <;> rw [e]
  · exact (ht.writeX (a := a) rfl v).retire hf
  · exact ((ht.storeHere new _).writeX (a := a) rfl v).retire hf

end

/-- Settles O10: the frames of the shared operations, and the bytes that an access of each kind stores. -/
theorem localFrames : Obligations.LocalFrames := by
  refine ⟨fun i a off n f s t u h e => ?_, fun i off n v s t u hw h e => ?_, fun i a off n y z f s t u hw h e => ?_⟩
  · obtain ⟨hone, htwo⟩ := loads_within h
    by_cases hc : crosses off n t
    · obtain ⟨hst, hg, hd, hcore⟩ := htwo hc u e
      have hcore : { u.core with remote := s.core.remote } = s.core := hcore
      have hspad := congrArg Core.spad hcore
      have hspad : u.core.spad = s.core.spad := hspad
      exact ⟨hst, hg, hd, hcore, fun hn => absurd hc hn, fun p => by rw [hspad]⟩
    · obtain ⟨hst, hg, hd, hcore⟩ := hone hc u e
      have hcore : u.core = s.core := hcore
      exact ⟨hst, hg, hd, by rw [hcore], fun _ => hcore, fun p => by rw [hcore]⟩
  · obtain ⟨hone, htwo⟩ := stores_within hw h
    by_cases hc : crosses off n t
    · obtain ⟨hst, hg, hd, hcore, hm⟩ := htwo hc u e
      exact ⟨hst, hg, hd, hcore, fun hn => absurd hc hn, fun p hp => hm.2 p hp⟩
    · obtain ⟨hst, hg, hd, hcore, hm⟩ := hone hc u e
      have hrem := congrArg Core.remote hcore
      have hrem : u.core.remote = s.core.remote := hrem
      exact ⟨hst, hg, hd, by rw [← hrem]; exact hcore, fun _ => hrem, fun p hp => hm.2 p hp⟩
  · obtain ⟨hst, hg, hd, hcore, hm⟩ := atomics_within hw h u e
    exact ⟨hst, hg, hd, hcore, fun p hp => hm.2 p hp⟩

end Sys2Proof.Spec
end

section
/-! The frames of the vector loads and stores that go through, up to their first bank access (R128, R132), and with them those of all scalar and vector
instructions. It settles O20. -/

namespace Sys2Proof.Spec

open Sys2Proof.Machine

/-! ## The bytes of the bank accesses -/

theorem mem_byteRange {o : Int} {n : Nat} : ∀ {a : Int}, o ∈ byteRange a n ↔ ∃ k < n, o = a + (k : Nat) := by
  induction n with
  | zero => simp [byteRange]
  | succ n ih =>
    intro a
    rw [byteRange, List.mem_cons, ih]
    constructor
    · rintro (rfl | ⟨k, hk, rfl⟩)
      · exact ⟨0, by omega, by omega⟩
      · exact ⟨k + 1, by omega, by omega⟩
    · rintro ⟨k, hk, rfl⟩
      cases k with
      | zero => exact .inl (by omega)
      | succ k => exact .inr ⟨k, by omega, by omega⟩

theorem mem_of_bankGroups {l p : List VecCell} (h : p ∈ bankGroups l) {c : VecCell} (hc : c ∈ p) : c ∈ l := by
  obtain ⟨b, -, rfl⟩ := List.mem_map.mp h
  exact (List.mem_filter.mp hc).1

/-- The bytes of a memory element are those that its access touches. -/
theorem mem_cells {h : VecShape} {v i : Nat} {o : Int} {c : Int × Byte × Byte} (hc : c ∈ h.cells v i o) : c.1 ∈ byteRange o h.ebytes := by
  unfold VecShape.cells at hc
  unfold VecShape.ebytes
  rw [mem_byteRange]
  split at hc
  · rename_i he
    rw [List.mem_singleton.mp hc]
    exact ⟨0, by rw [he]; decide, (Int.add_zero o).symm⟩
  · obtain ⟨j, hj, rfl⟩ := List.mem_map.mp hc
    exact ⟨j, (List.mem_range.mp hj).trans_le (Nat.le_max_left _ _), rfl⟩

theorem mem_cellsInside {size : Nat} {l : List (Int × Byte × Byte)} {c : VecCell} (hc : c ∈ cellsInside size l) :
    c.1 < size ∧ ∃ d ∈ l, d.1 = c.1 := by
  obtain ⟨d, hd, rfl⟩ := List.mem_map.mp hc
  obtain ⟨hl, hin⟩ := List.mem_filter.mp hd
  obtain ⟨h0, h1⟩ := inRange_iff.mp hin
  exact ⟨by dsimp only; omega, d, hl, by dsimp only; omega⟩

/-- Every byte of a bank access lies in the reservation, and is a byte of an active element. -/
theorem mem_pieces {h : VecShape} {g : BitVec 16} {size : Nat} {val : Nat → Nat} {p : List VecCell} (hp : p ∈ h.pieces g size val) {c : VecCell}
    (hc : c ∈ p) : c.1 < size ∧ (c.1 : Int) ∈ h.offs g := by
  have hcell : ∃ e ∈ h.active g, c ∈ cellsInside size (h.cells (val e.1) e.1 e.2) := by
    unfold VecShape.pieces at hp
    dsimp only at hp
    split at hp
    · exact List.mem_flatMap.mp (mem_of_bankGroups hp hc)
    · obtain ⟨e, he, hp⟩ := List.mem_flatMap.mp hp
      exact ⟨e, he, mem_of_bankGroups hp hc⟩
  obtain ⟨e, he, hc⟩ := hcell
  obtain ⟨hlt, d, hd, ed⟩ := mem_cellsInside hc
  exact ⟨hlt, List.mem_flatMap.mpr ⟨e, he, ed ▸ mem_cells hd⟩⟩

/-! ## The first bank access -/

section
variable {xs vs : Reg → Prop} {ms : Fin 8 → Prop} {fl sp : Prop} {Q : Core → Prop} {s t : State} {q : VecRun}

theorem setCur_self (h : t.cur = s.cur) : { t with cur := s.cur } = t := by rw [← h]

/-- The end of a vector access of the current slot: a load writes its destination, and the flags of the conversions join FFLAGS. -/
theorem Along.vecEnd (h : Along xs vs ms fl sp Q s t) (hfl : fl) (hq : q.slot = t.cur) (hd : ∀ d, q.dest = some d → vs d.reg)
    (hQ : Q { t.core with vecRun := none }) : Along xs vs ms fl sp Q s (vecEnd q t) := by
  have h1 : Along xs vs ms fl sp Q s (noRun t) := h.setCore hQ
  have e1 : ({ t with core := { t.core with vecRun := none }, cur := q.slot } : State) = noRun t := by rw [hq]; rfl
  unfold Machine.vecEnd
  rw [e1]
  cases e : q.dest with
  | none =>
    rw [setCur_self (s := t) (t := Machine.orFlags q.flags (noRun t)) rfl]
    exact h1.orFlags hfl _
  | some d =>
    dsimp only
    rw [setCur_self (s := t)]
    · exact (h1.orFlags hfl _).writeV (hd d e) _
    · exact (writeV_frame _ _ _).2.2.1

/-- A bank access of a load reads alone; one of a store writes its own bytes. -/
theorem vecPiece_load {p : List VecCell} (hd : q.dest.isSome = true) :
    (vecPiece q p t).2 = t ∧ (vecPiece q p t).1.slot = q.slot ∧ (vecPiece q p t).1.dest = q.dest := by
  unfold vecPiece
  dsimp only
  rw [if_pos hd]
  exact ⟨rfl, rfl, rfl⟩

theorem SpadBut.foldl {D : Nat → Prop} {put : Mem → VecCell → Mem} {p : List VecCell}
    (h : ∀ c ∈ p, ∀ m, SpadBut D s m → SpadBut D s (put m c)) : ∀ {m : Mem}, SpadBut D s m → SpadBut D s (p.foldl put m) := by
  intro m hm
  exact List.foldlRecOn p put hm fun m hm c hc => h c hc m hm

theorem vecPiece_store {D : Nat → Prop} {p : List VecCell} (hd : q.dest = none) (hq : q.slot = t.cur) (hm : SpadBut D s t.core.spad)
    (hD : ∀ c ∈ p, D (physical t (c.1 : Int))) :
    (vecPiece q p t).1 = q ∧ ∃ m b, (vecPiece q p t).2 = withBad b (withSpad m t) ∧ SpadBut D s m := by
  have hbase : t.res[t.streams[q.slot].res].spbase = t.rs.spbase :=
    congrArg (fun k : SlotIx => t.res[t.streams[k].res].spbase) hq
  unfold vecPiece
  dsimp only
  rw [hd, hbase, if_neg (by decide)]
  exact ⟨rfl, _, _, rfl, SpadBut.foldl (fun c hc m hm => hm.writeByte (hD c hc) _) hm⟩

/-- The core is that of s but for the vector access under way. -/
def RunningCore (s : State) (c : Core) : Prop := { c with vecRun := s.core.vecRun } = s.core

/-- The core is that of s but for the vector access under way and the bytes of a set. -/
def StoringCore (D : Nat → Prop) (s : State) (c : Core) : Prop :=
  { c with spad := s.core.spad, spadBad := s.core.spadBad, vecRun := s.core.vecRun } = s.core ∧ SpadBut D s c.spad

/-- A vector access with the first of its bank accesses performed. -/
theorem startVec_eq (q : VecRun) (t : State) : startVec q t = match q.pieces with
    | [] => vecEnd q { t with core := { t.core with vecRun := some q } }
    | p :: ps =>
      let a := vecPiece q p { t with core := { t.core with vecRun := some q } }
      if ps = [] then vecEnd a.1 a.2 else { a.2 with core := { a.2.core with vecRun := some { a.1 with pieces := ps } } } := rfl

theorem Along.startLoad (h : Along xs vs ms fl sp (RunningCore s) s t) (hfl : fl) (hq : q.slot = t.cur) {d : VecDest} (hd : q.dest = some d)
    (hvs : vs d.reg) : Along xs vs ms fl sp (RunningCore s) s (startVec q t) := by
  have h1 : Along xs vs ms fl sp (RunningCore s) s { t with core := { t.core with vecRun := some q } } := h.setCore h.core
  have hdest (r : VecRun) (hr : r.dest = q.dest) : ∀ d, r.dest = some d → vs d.reg := fun d' e => by
    rw [hr, hd] at e
    cases e
    exact hvs
  rw [startVec_eq]
  split
  · exact h1.vecEnd hfl hq (hdest q rfl) h.core
  · rename_i p ps _
    obtain ⟨e2, eslot, edest⟩ := vecPiece_load (q := q) (p := p) (t := { t with core := { t.core with vecRun := some q } }) (by rw [hd]; rfl)
    dsimp only
    rw [e2]
    split
    · exact h1.vecEnd hfl (eslot.trans hq) (hdest _ edest) h.core
    · exact h1.setCore h.core

theorem Along.startStore {D : Nat → Prop} (h : Along xs vs ms fl sp (StoringCore D s) s t) (hfl : fl) (hq : q.slot = t.cur) (hd : q.dest = none)
    (hD : ∀ p ∈ q.pieces, ∀ c ∈ p, D (physical t (c.1 : Int))) : Along xs vs ms fl sp (StoringCore D s) s (startVec q t) := by
  have h1 : Along xs vs ms fl sp (StoringCore D s) s { t with core := { t.core with vecRun := some q } } := h.setCore h.core
  have hdest : ∀ d, q.dest = some d → vs d.reg := fun d e => by
    rw [hd] at e
    cases e
  rw [startVec_eq]
  split
  · exact h1.vecEnd hfl hq hdest h.core
  · rename_i p ps e
    obtain ⟨e1, m, b, e2, hm⟩ := vecPiece_store (t := { t with core := { t.core with vecRun := some q } }) (D := D) hd hq h.core.2
      (hD p (by rw [e]; exact List.mem_cons_self))
    have h2 : Along xs vs ms fl sp (StoringCore D s) s (withBad b (withSpad m { t with core := { t.core with vecRun := some q } })) :=
      h1.setCore ⟨h.core.1, hm⟩
    dsimp only
    rw [e1, e2]
    split
    · exact h2.vecEnd hfl hq hdest ⟨h.core.1, hm⟩
    · exact h2.setCore ⟨h.core.1, hm⟩

end

section
variable {i : Instr} {a : Reg} {et : BitVec 4} {m : MaskField} {base : Int} {k : VecKind} {s t u : State}

/-! ## What a vector access that goes through answers -/

theorem vecLoad_of_goes (hroom : roomV a t = true) (hfmt : vecFormatFault t (vecShape t et base k) (t.mask m) = none)
    (hgo : LocalGoes true false ((vecShape t et base k).offs (t.mask m)) t) (i : Instr) (s0 : State) :
    ∃ q d, q.slot = (accessed false ((vecShape t et base k).offs (t.mask m)) t).cur ∧ q.dest = some d ∧ d.reg = a
      ∧ vecLoad i a et m base k s0 t = retire i (startVec q (accessed false ((vecShape t et base k).offs (t.mask m)) t)) := by
  unfold vecLoad
  rw [withRoomV_eq hroom]
  simp only [hgo.fence, hfmt, Bool.false_eq_true, if_false]
  exact ⟨_, ⟨a, et, t.mask m, vecShape t et base k⟩, rfl, rfl, rfl, localAccess_of_goes hgo _ _⟩

theorem vecStore_of_goes {v : VWord} (hfmt : vecFormatFault t (vecShape t et base k) (t.mask m) = none)
    (hgo : LocalGoes (decide ((vecShape t et base k).ebits = 4)) true ((vecShape t et base k).offs (t.mask m)) t) (i : Instr) (s0 : State) :
    ∃ q val, q.slot = (accessed true ((vecShape t et base k).offs (t.mask m)) t).cur ∧ q.dest = none
      ∧ q.pieces = (vecShape t et base k).pieces (t.mask m) (accessed true ((vecShape t et base k).offs (t.mask m)) t).rs.spsize.toNat val
      ∧ vecStore i et m base k v s0 t = retire i (startVec q (accessed true ((vecShape t et base k).offs (t.mask m)) t)) := by
  unfold vecStore
  simp only [hgo.fence, hfmt, Bool.false_eq_true, if_false]
  rw [localAccess_of_goes hgo]
  refine ⟨_, fun j => (((List.range (vecShape t et base k).n).map
    (storeElem (accessed true ((vecShape t et base k).offs (t.mask m)) t).rm et (vecShape t et base k) v)).getD j (0, 0)).1, ?slot, ?dest, ?pieces, rfl⟩ <;> rfl

theorem exec_of_vectorLoad (h : vectorLoad i a et m base k s t) : exec i s = vecLoad i a et m base k s t ∧ i.len = 4 := by
  rcases h with ⟨b, c, x, rfl, hb, rfl, rfl⟩ | ⟨b, c, x, y, s1, rfl, hb, hc, rfl, rfl⟩ | ⟨b, c, x, y, s1, rfl, hb, hc, rfl, rfl⟩
  · exact ⟨withX_eq hb _, rfl⟩
  · exact ⟨(withX_eq hb _).trans (withX_eq hc _), rfl⟩
  · exact ⟨(withX_eq hb _).trans (withV_eq hc _), rfl⟩

theorem exec_of_vectorStore {v : VWord} (h : vectorStore i a et m base k v s t) : exec i s = vecStore i et m base k v s t ∧ i.len = 4 := by
  rcases h with ⟨b, c, x, s1, rfl, hb, ha, rfl, rfl⟩ | ⟨b, c, x, y, s1, s2, rfl, hb, hc, ha, rfl, rfl⟩
    | ⟨b, c, x, y, s1, s2, rfl, hb, hc, ha, rfl, rfl⟩
  · exact ⟨(withX_eq hb _).trans (withV_eq ha _), rfl⟩
  · exact ⟨(withX_eq hb _).trans ((withX_eq hc _).trans (withV_eq ha _)), rfl⟩
  · exact ⟨(withX_eq hb _).trans ((withV_eq hc _).trans (withV_eq ha _)), rfl⟩

section
variable {xs vs : Reg → Prop} {ms : Fin 8 → Prop} {fl sp : Prop} {Q : Core → Prop}

theorem vectorLoad_along (hq : Q s.core) (h : vectorLoad i a et m base k s t) : Along xs vs ms fl sp Q s t := by
  rcases h with ⟨b, c, x, -, hb, -, -⟩ | ⟨b, c, x, y, s1, -, hb, hc, -, -⟩ | ⟨b, c, x, y, s1, -, hb, hc, -, -⟩
  · exact (Along.start hq).popX hb
  · exact ((Along.start hq).popX hb).popX hc
  · exact ((Along.start hq).popX hb).popV hc

theorem vectorStore_along {v : VWord} (hq : Q s.core) (h : vectorStore i a et m base k v s t) : Along xs vs ms fl sp Q s t := by
  rcases h with ⟨b, c, x, s1, -, hb, ha, -, -⟩ | ⟨b, c, x, y, s1, s2, -, hb, hc, ha, -, -⟩ | ⟨b, c, x, y, s1, s2, -, hb, hc, ha, -, -⟩
  · exact ((Along.start hq).popX hb).popV ha
  · exact (((Along.start hq).popX hb).popX hc).popV ha
  · exact (((Along.start hq).popX hb).popV hc).popV ha

end

theorem vectorLoad_within (h : vectorLoad i a et m base k s t) (hroom : roomV a t = true) (hf : fits 4 s)
    (hfmt : vecFormatFault t (vecShape t et base k) (t.mask m) = none) (hgo : LocalGoes true false ((vecShape t et base k).offs (t.mask m)) t) :
    StaysWithin noReg (· = a) noIx True True (RunningCore s) s (exec i s) := by
  obtain ⟨e, hlen⟩ := exec_of_vectorLoad h
  obtain ⟨q, d, hq, hd, hda, eq⟩ := vecLoad_of_goes hroom hfmt hgo i s
  have ht : Along noReg (· = a) noIx True True (RunningCore s) s t := vectorLoad_along rfl h
  rw [e, eq]
  exact ((ht.accessed false _).startLoad trivial hq hd hda).retire (by rw [hlen]; exact hf)

/-- The bytes of the active elements of a vector access that lie in the reservation. -/
def LaneBytes (offs : List Int) (s : State) (p : Nat) : Prop := ∃ o ∈ offs, inside s o ∧ p = physical s o

theorem vectorStore_within {v : VWord} (h : vectorStore i a et m base k v s t) (hf : fits 4 s) (hw : s.memoriesWf)
    (hfmt : vecFormatFault t (vecShape t et base k) (t.mask m) = none)
    (hgo : LocalGoes (decide ((vecShape t et base k).ebits = 4)) true ((vecShape t et base k).offs (t.mask m)) t) :
    StaysWithin noReg noReg noIx True True (StoringCore (LaneBytes ((vecShape t et base k).offs (t.mask m)) s) s) s (exec i s) := by
  obtain ⟨e, hlen⟩ := exec_of_vectorStore h
  obtain ⟨q, val, hq, hd, hp, eq⟩ := vecStore_of_goes (v := v) hfmt hgo i s
  have ht : Along noReg noReg noIx True True (StoringCore (LaneBytes ((vecShape t et base k).offs (t.mask m)) s) s) s t :=
    vectorStore_along ⟨rfl, .refl _ hw⟩ h
  have ha := ht.accessed true ((vecShape t et base k).offs (t.mask m))
  rw [e, eq]
  refine (ha.startStore trivial hq hd fun p hpm c hc => ?_).retire (by rw [hlen]; exact hf)
  rw [hp] at hpm
  obtain ⟨hlt, ho⟩ := mem_pieces hpm hc
  exact ⟨_, ho, (ha.inside_iff _).mp ⟨Int.natCast_nonneg _, Int.ofNat_lt.mpr hlt⟩, ha.physical_eq _⟩

end

theorem vectorFrames : VectorFrames := by
  refine ⟨fun i a s t h hf e => .of_within (vectorDest_within h (by rw [vectorDest_len h]; exact hf) t e),
    fun i a s t h hf e => .of_within (floatDest_within h (by rw [floatDest_len h]; exact hf) t e),
    fun i a s t h hf e => .of_within (maskDest_within h (by rw [maskDest_len h]; exact hf) t e),
    fun i a s t ⟨b, c, m, f, h⟩ hf e => .of_within (floatCompare_within h (by rw [floatCompare_len h]; exact hf) t e),
    fun i a s t h hf e => .of_within (moveDest_within h (by rw [moveDest_len h]; exact hf) t e),
    fun i a et m base k s t u h hroom hf hfmt hgo e => ?_, fun i a et m base k v s t u h hf hw hfmt hgo e => ?_⟩
  · obtain ⟨hst, hg, hd, hcore⟩ := vectorLoad_within h hroom hf hfmt hgo u e
    have hcore : { u.core with vecRun := s.core.vecRun } = s.core := hcore
    have hspad := congrArg Core.spad hcore
    have hspad : u.core.spad = s.core.spad := hspad
    exact ⟨hst, hg, hd, hcore, fun p => by rw [hspad]⟩
  · obtain ⟨hst, hg, hd, hcore, hm⟩ := vectorStore_within h hf hw hfmt hgo u e
    exact ⟨hst, hg, hd, hcore, fun p hp => hm.2 p hp⟩

/-- Settles O20: each instruction is one of a few shapes, and each shape keeps the frame. -/
theorem registerFrames : Obligations.RegisterFrames := ⟨scalarFrames, vectorFrames⟩

end Sys2Proof.Spec
end

section
/-! The words of a task record, and what TNEW, TDEC and TARM do to them (R39, R212, R213). It settles O30. -/

namespace Sys2Proof.Machine

/-! ## Doublewords of a memory -/

theorem readLE_lt (m : Mem) (n : Nat) : ∀ a, readLE m a n < 2 ^ (8 * n) := by
  induction n with
  | zero => exact fun _ => Nat.one_pos
  | succ n ih =>
    intro a
    have hb := (readByte m a).isLt
    have hr := ih (a + 1)
    rw [readLE, Nat.mul_succ, Nat.pow_add, Nat.mul_comm (2 ^ (8 * n))]
    omega

theorem readLE_writeLE_ne (m : Mem) (a n v : Nat) (h : Memory.wf m = true) (k : Nat) : ∀ b, b + k ≤ a ∨ a + n ≤ b →
    readLE (writeLE m a n v) b k = readLE m b k := by
  induction k with
  | zero => exact fun _ _ => rfl
  | succ k ih =>
    intro b hb
    rw [readLE, readLE, ih (b + 1) (by omega), readByte_writeLE_ne m a n v b h (by omega)]

/-! ## Words of a record -/

section
variable {s t : State} {r : ResIx} {off off' v : Nat}

theorem recWord_lt (s : State) (r : ResIx) (off : Nat) : recWord s r off < 2 ^ 64 := readLE_lt _ 8 _

theorem recWord_congr (hm : t.core.spad = s.core.spad) (hb : t.res[r].spbase = s.res[r].spbase) : recWord t r off = recWord s r off := by
  rw [recWord, recWord, hm, hb]

theorem recWord_setRecWord (h : Memory.wf s.core.spad = true) (hv : v < 2 ^ 64) : recWord (setRecWord s r off v) r off = v :=
  (readLE_writeLE _ _ 8 v h).trans (Nat.mod_eq_of_lt hv)

theorem recWord_setRecWord_ne (h : Memory.wf s.core.spad = true) (hd : off' + 8 ≤ off ∨ off + 8 ≤ off') :
    recWord (setRecWord s r off v) r off' = recWord s r off' :=
  readLE_writeLE_ne _ _ 8 v h 8 _ (by dsimp only [setRecWord]; omega)

theorem setRecWord_wf (h : Memory.wf s.core.spad = true) : Memory.wf (setRecWord s r off v).core.spad = true := Memory.wf_writeLE _ _ 8 _ h

theorem setRecBit_wf (h : Memory.wf s.core.spad = true) (bit : Nat) (b : Bool) : Memory.wf (setRecBit s r off bit b).core.spad = true :=
  setRecWord_wf h

theorem recWord_setRecBit_ne (h : Memory.wf s.core.spad = true) (bit : Nat) (b : Bool) (hd : off' + 8 ≤ off ∨ off + 8 ≤ off') :
    recWord (setRecBit s r off bit b) r off' = recWord s r off' := recWord_setRecWord_ne h hd

theorem recWord_setRecBit (h : Memory.wf s.core.spad = true) {bit : Nat} {b : Bool}
    (hv : recWord s r off - recWord s r off / 2 ^ bit % 2 * 2 ^ bit + b.toNat * 2 ^ bit < 2 ^ 64) :
    recWord (setRecBit s r off bit b) r off = recWord s r off - recWord s r off / 2 ^ bit % 2 * 2 ^ bit + b.toNat * 2 ^ bit :=
  recWord_setRecWord h hv

/-- Clearing a record's ARM bit, and setting ARM, Q and RA, stay within a doubleword. -/
theorem clearBit_le (w bit : Nat) : w - w / 2 ^ bit % 2 * 2 ^ bit ≤ w := Nat.sub_le _ _

theorem setArm_lt {w : Nat} (h : w < 2 ^ 64) : w - w / 2 ^ 48 % 2 * 2 ^ 48 + 2 ^ 48 < 2 ^ 64 := by omega

theorem setQueued_lt {w : Nat} (h : w < 2 ^ 64) : w - w / 2 ^ 49 % 2 * 2 ^ 49 + 2 ^ 49 < 2 ^ 64 := by omega

theorem setRearm_lt {w : Nat} (h : w < 2 ^ 64) : w - w / 2 ^ 50 % 2 * 2 ^ 50 + 2 ^ 50 < 2 ^ 64 := by omega

theorem recWord_clearBit (h : Memory.wf s.core.spad = true) (bit : Nat) :
    recWord (setRecBit s r off bit false) r off = recWord s r off - recWord s r off / 2 ^ bit % 2 * 2 ^ bit := by
  have e : recWord s r off - recWord s r off / 2 ^ bit % 2 * 2 ^ bit + false.toNat * 2 ^ bit = recWord s r off - recWord s r off / 2 ^ bit % 2 * 2 ^ bit := by
    rw [Bool.toNat_false, Nat.zero_mul, Nat.add_zero]
  exact (recWord_setRecBit h (by rw [e]; exact (clearBit_le _ _).trans_lt (recWord_lt s r off))).trans e

theorem recWord_setBit (h : Memory.wf s.core.spad = true) {bit : Nat}
    (hv : recWord s r off - recWord s r off / 2 ^ bit % 2 * 2 ^ bit + 2 ^ bit < 2 ^ 64) :
    recWord (setRecBit s r off bit true) r off = recWord s r off - recWord s r off / 2 ^ bit % 2 * 2 ^ bit + 2 ^ bit := by
  have e : true.toNat * 2 ^ bit = 2 ^ bit := by rw [Bool.toNat_true, Nat.one_mul]
  refine (recWord_setRecBit h ?_).trans ?_ <;> rw [e]
  exact hv

/-! ## The overflow chain (R39) -/

/-- The LINK of the record at off becomes v. -/
def relink (r : ResIx) (off v : Nat) (s : State) : State := setRecWord s r (off + 8) (recWord s r (off + 8) / 2 ^ 16 * 2 ^ 16 + v)

theorem relink_wf (h : Memory.wf s.core.spad = true) : Memory.wf (relink r off v s).core.spad = true := setRecWord_wf h

theorem recWord_relink (h : Memory.wf s.core.spad = true) (hv : v < 2 ^ 16) : recWord (relink r off v s) r (off + 8) % 2 ^ 16 = v := by
  have hlt := recWord_lt s r (off + 8)
  rw [relink, recWord_setRecWord h (by omega)]
  omega

theorem recWord_relink_ne (h : Memory.wf s.core.spad = true) (hd : off' + 8 ≤ off + 8 ∨ off + 8 + 8 ≤ off') :
    recWord (relink r off v s) r off' = recWord s r off' := recWord_setRecWord_ne h hd

/-- The end of a residency's overflow chain names the record at off as the next. -/
def linkTail (r : ResIx) (off : Nat) (s : State) : State :=
  match s.res[r].ovTail with
  | none => s
  | some t => relink r t off s

/-- The record at off is the end of the chain. -/
def chained (r : ResIx) (off : Nat) (s : State) : State :=
  s.setRes r { s.res[r] with ovHead := some (s.res[r].ovHead.getD off), ovTail := some off }

theorem enqueueReady_room (h : s.core.readyQ.length < 16 ∧ s.res[r].ovHead = none) :
    enqueueReady r off s = { s with core := { s.core with readyQ := s.core.readyQ ++ [⟨r, off, s.core.cycle.toNat⟩] } } := if_pos h

theorem enqueueReady_chain (h : ¬ (s.core.readyQ.length < 16 ∧ s.res[r].ovHead = none)) :
    enqueueReady r off s = chained r off (relink r off 0xFFFF (linkTail r off s)) := (if_neg h).trans rfl

theorem linkTail_wf (h : Memory.wf s.core.spad = true) : Memory.wf (linkTail r off s).core.spad = true := by
  unfold linkTail
  split
  · exact h
  · exact relink_wf h

theorem linkTail_same (r : ResIx) (off : Nat) (s : State) : (linkTail r off s).res = s.res ∧ (linkTail r off s).core.readyQ = s.core.readyQ := by
  unfold linkTail
  split <;> exact ⟨rfl, rfl⟩

/-- The words that linking does not reach. -/
theorem recWord_linkTail_ne (h : Memory.wf s.core.spad = true) (hd : ∀ o, s.res[r].ovTail = some o → off' + 8 ≤ o + 8 ∨ o + 8 + 8 ≤ off') :
    recWord (linkTail r off s) r off' = recWord s r off' := by
  unfold linkTail
  split
  · rfl
  · exact recWord_relink_ne h (hd _ ‹_›)

theorem chained_res (s : State) (r : ResIx) (off : Nat) :
    (chained r off s).res[r] = { s.res[r] with ovHead := some (s.res[r].ovHead.getD off), ovTail := some off } := vset_get _ _ _

theorem recWord_chained (s : State) (r : ResIx) (off off' : Nat) : recWord (chained r off s) r off' = recWord s r off' :=
  recWord_congr rfl (by rw [chained_res])

end

end Sys2Proof.Machine

namespace Sys2Proof.Spec

open Sys2Proof.Machine

section
variable {s t u : State} {r : ResIx} {off k : Nat}

theorem recordField_eq (s : State) (off k : Nat) : recordField s off k = recWord s s.ri (off + k) := by
  rw [recordField, recWord, Nat.add_assoc]
  rfl

/-- The overflow chain of a residency ends at a record. -/
def ChainAligned (r : ResIx) (s : State) : Prop := ∀ o, s.res[r].ovTail = some o → o % 64 = 0

/-- A record joins the ready queue or the end of its overflow chain: what its words then are, and those of the chain's old end. -/
theorem enqueueReady_words (h : Memory.wf s.core.spad = true) (ha : off % 64 = 0) (h16 : off < 2 ^ 16)
    (ht : ChainAligned r s) :
    recWord (enqueueReady r off s) r off = recWord s r off
    ∧ (s.core.readyQ.length < 16 ∧ s.res[r].ovHead = none →
      (enqueueReady r off s).core.readyQ = s.core.readyQ ++ [⟨r, off, s.core.cycle.toNat⟩] ∧ (enqueueReady r off s).res[r].ovHead = none)
    ∧ (¬ (s.core.readyQ.length < 16 ∧ s.res[r].ovHead = none) → (enqueueReady r off s).core.readyQ = s.core.readyQ
      ∧ (enqueueReady r off s).res[r].ovHead = some (s.res[r].ovHead.getD off) ∧ (enqueueReady r off s).res[r].ovTail = some off
      ∧ recWord (enqueueReady r off s) r (off + 8) % 2 ^ 16 = 0xFFFF
      ∧ ∀ o, s.res[r].ovTail = some o → o ≠ off → recWord (enqueueReady r off s) r (o + 8) % 2 ^ 16 = off) := by
  by_cases hq : s.core.readyQ.length < 16 ∧ s.res[r].ovHead = none
  · rw [enqueueReady_room hq]
    exact ⟨rfl, fun _ => ⟨rfl, hq.2⟩, fun hn => absurd hq hn⟩
  · have hwf := linkTail_wf (r := r) (off := off) h
    obtain ⟨hres, hready⟩ := linkTail_same r off s
    have hget : (enqueueReady r off s).res[r] = { s.res[r] with ovHead := some (s.res[r].ovHead.getD off), ovTail := some off } := by
      rw [enqueueReady_chain hq]
      refine (chained_res _ r off).trans ?_
      show ({ (linkTail r off s).res[r] with ovHead := some ((linkTail r off s).res[r].ovHead.getD off), ovTail := some off } : Residency) = _
      rw [hres]
    refine ⟨?_, fun hn => absurd hn hq, fun _ => ⟨?_, by rw [hget], by rw [hget], ?_, fun o ho hne => ?_⟩⟩
    · rw [enqueueReady_chain hq, recWord_chained, recWord_relink_ne hwf (by omega), recWord_linkTail_ne h]
      intro o ho
      have := ht o ho
      omega
    · rw [enqueueReady_chain hq]
      exact hready
    · rw [enqueueReady_chain hq, recWord_chained, recWord_relink hwf (by decide)]
    · have hao := ht o ho
      have htail : linkTail r off s = relink r o off s := by simp only [linkTail, ho]
      rw [enqueueReady_chain hq, recWord_chained, recWord_relink_ne hwf (by omega), htail, recWord_relink h h16]

theorem enqueueReady_armed (r : ResIx) (off : Nat) (s : State) : (enqueueReady r off s).res[r].armed = s.res[r].armed := by
  by_cases hq : s.core.readyQ.length < 16 ∧ s.res[r].ovHead = none
  · rw [enqueueReady_room hq]
  · rw [enqueueReady_chain hq, chained_res]
    show (linkTail r off s).res[r].armed = _
    rw [(linkTail_same r off s).1]

/-- The record at off is no longer armed. -/
def disarmed (r : ResIx) (off : Nat) (s : State) : State := s.setRes r { s.res[r] with armed := s.res[r].armed.filter (· ≠ off) }

theorem disarmed_res (s : State) (r : ResIx) (off : Nat) :
    (disarmed r off s).res[r] = { s.res[r] with armed := s.res[r].armed.filter (· ≠ off) } := vset_get _ _ _

theorem recWord_disarmed (s : State) (r : ResIx) (off off' : Nat) : recWord (disarmed r off s) r off' = recWord s r off' :=
  recWord_congr rfl (by rw [disarmed_res])

theorem not_mem_disarmed (s : State) (r : ResIx) (off : Nat) : off ∉ (disarmed r off s).res[r].armed := by
  rw [disarmed_res]
  simp

theorem readyRecord_eq (r : ResIx) (off : Nat) (s : State) : readyRecord r off s =
    if bits (recWord s r off) 49 1 = 1 then setRecBit (disarmed r off s) r off 50 true
    else enqueueReady r off (setRecBit (disarmed r off s) r off 49 true) := by
  rw [← recWord_disarmed s r off off]
  rfl

theorem rs_of_ri (h : t.ri = r) : t.rs = t.res[r] := by
  subst h
  rfl

theorem readied_of {w : Nat} (ht : t.ri = r) (hu : u.ri = r) (harmed : off ∉ u.res[r].armed)
    (hqueued : w / 2 ^ 49 % 2 = 1 → recWord u r off = w - w / 2 ^ 50 % 2 * 2 ^ 50 + 2 ^ 50 ∧ u.core.readyQ = t.core.readyQ)
    (hnew : w / 2 ^ 49 % 2 = 0 → (∀ o, t.res[r].ovTail = some o → o % 64 = 0) → recWord u r off = w + 2 ^ 49
      ∧ (t.core.readyQ.length < 16 ∧ t.res[r].ovHead = none →
        u.core.readyQ = t.core.readyQ ++ [⟨r, off, t.core.cycle.toNat⟩] ∧ u.res[r].ovHead = none)
      ∧ (¬ (t.core.readyQ.length < 16 ∧ t.res[r].ovHead = none) → u.core.readyQ = t.core.readyQ
        ∧ u.res[r].ovHead = some (t.res[r].ovHead.getD off) ∧ u.res[r].ovTail = some off ∧ recWord u r (off + 8) % 2 ^ 16 = 0xFFFF
        ∧ ∀ o, t.res[r].ovTail = some o → o ≠ off → recWord u r (o + 8) % 2 ^ 16 = off)) : readied r off w t u := by
  unfold readied
  simp only [recordField_eq, rs_of_ri ht, rs_of_ri hu, hu, Nat.add_zero]
  exact ⟨harmed, hqueued, hnew⟩

theorem ri_of_sameStreams (h : SameStreams s t) : t.ri = s.ri := congrArg Stream.res h.st

/-- A record that becomes ready. -/
theorem readyRecord_readied (h : Memory.wf s.core.spad = true) (hr : s.ri = r) (ha : off % 64 = 0) (h16 : off < 2 ^ 16) :
    readied r off (recWord s r off) s (readyRecord r off s) := by
  have hwf : Memory.wf (disarmed r off s).core.spad = true := h
  have hw := recWord_disarmed s r off off
  have hd := disarmed_res s r off
  have hu : (readyRecord r off s).ri = r := (ri_of_sameStreams (readyRecord_sameStreams r off s)).trans hr
  rw [readyRecord_eq] at hu ⊢
  by_cases hq : recWord s r off / 2 ^ 49 % 2 = 1
  · rw [if_pos (show bits (recWord s r off) 49 1 = 1 from hq)] at hu ⊢
    refine readied_of hr hu (not_mem_disarmed s r off) (fun _ => ⟨?_, rfl⟩) (fun hn => absurd (hq.symm.trans hn) Nat.one_ne_zero)
    rw [← hw]
    exact recWord_setBit hwf (setRearm_lt (recWord_lt _ _ _))
  · have hbit : recWord (setRecBit (disarmed r off s) r off 49 true) r off = recWord s r off + 2 ^ 49 := by
      rw [recWord_setBit hwf (setQueued_lt (recWord_lt _ _ _)), hw, show recWord s r off / 2 ^ 49 % 2 = 0 from (Nat.mod_two_eq_zero_or_one _).resolve_right hq,
        Nat.zero_mul, Nat.sub_zero]
    have hres : (setRecBit (disarmed r off s) r off 49 true).res[r] = { s.res[r] with armed := s.res[r].armed.filter (· ≠ off) } := hd
    rw [if_neg (show ¬ bits (recWord s r off) 49 1 = 1 from hq)] at hu ⊢
    refine readied_of hr hu ?_ (fun hn => absurd hn hq) fun _ ht => ?_
    · rw [enqueueReady_armed, hres]
      simp
    · have haligned : ChainAligned r (setRecBit (disarmed r off s) r off 49 true) := fun o ho => ht o (by rw [hres] at ho; exact ho)
      have hwords := enqueueReady_words (setRecBit_wf hwf 49 true) ha h16 haligned
      simp only [hres, hbit] at hwords
      exact hwords

/-! ## What each operation does to a record in range -/

/-- Two states have the same ready queue, clock and overflow chain of the current residency. -/
def SameQueues (s t : State) : Prop :=
  t.core.readyQ = s.core.readyQ ∧ t.core.cycle = s.core.cycle ∧ t.rs.ovHead = s.rs.ovHead ∧ t.rs.ovTail = s.rs.ovTail ∧ t.ri = s.ri

theorem setRecWord_sameQueues (s : State) (r : ResIx) (off v : Nat) : SameQueues s (setRecWord s r off v) := ⟨rfl, rfl, rfl, rfl, rfl⟩

theorem setRecBit_sameQueues (s : State) (r : ResIx) (off bit : Nat) (b : Bool) : SameQueues s (setRecBit s r off bit b) := setRecWord_sameQueues s r off _

theorem SameQueues.trans (h : SameQueues s t) (g : SameQueues t u) : SameQueues s u := by
  obtain ⟨a1, a2, a3, a4, a5⟩ := h
  obtain ⟨b1, b2, b3, b4, b5⟩ := g
  exact ⟨b1.trans a1, b2.trans a2, b3.trans a3, b4.trans a4, b5.trans a5⟩

/-- A record that becomes ready after its words have been written. -/
theorem readyRecord_after {w : Nat} (hq : SameQueues s t) (h : Memory.wf t.core.spad = true) (hr : s.ri = r) (ha : off % 64 = 0) (h16 : off < 2 ^ 16)
    (hw : recWord t r off = w) : readied r off w s (readyRecord r off t) := by
  obtain ⟨hready, hcycle, hhead, htail, hri⟩ := hq
  have hd := readyRecord_readied h (hri.trans hr) ha h16
  unfold readied at hd ⊢
  rwa [hw, hready, hcycle, hhead, htail] at hd

/-- A count after a subtraction that saturates. -/
theorem counted_eq {w k : Nat} : w - w % 2 ^ 32 + (w % 2 ^ 32 - k) = w / 2 ^ 32 * 2 ^ 32 + (w % 2 ^ 32 - k) := by omega

theorem counted_lt {w k : Nat} (h : w < 2 ^ 64) : w - w % 2 ^ 32 + (w % 2 ^ 32 - k) < 2 ^ 64 := by omega

/-- TDEC once its record is in range: the count goes down, and an armed record that thereby reaches zero becomes ready. -/
theorem decRecord_eq (hin : off + 64 ≤ s.res[r].spsize.toNat) (k w : Nat) (hw : recWord s r off = w) :
    decRecord r off k s = if w / 2 ^ 48 % 2 = 1 ∧ 0 < w % 2 ^ 32 ∧ w % 2 ^ 32 - k = 0
      then readyRecord r off (setRecBit (setRecWord s r off (w - w % 2 ^ 32 + (w % 2 ^ 32 - k))) r off 48 false)
      else setRecWord s r off (w - w % 2 ^ 32 + (w % 2 ^ 32 - k)) := by
  have hold : bits w 0 32 = w % 2 ^ 32 := by rw [bits, Nat.pow_zero, Nat.div_one]
  unfold decRecord
  rw [if_neg (Nat.not_lt.mpr hin)]
  dsimp only
  rw [hw, hold]
  rfl

theorem decRecord_counts (h : Memory.wf s.core.spad = true) (hin : off + 64 ≤ s.res[r].spsize.toNat) {k : Nat}
    (hk : recWord s r off / 2 ^ 48 % 2 = 0 ∨ recWord s r off % 2 ^ 32 = 0 ∨ k < recWord s r off % 2 ^ 32) :
    recWord (decRecord r off k s) r off = recWord s r off / 2 ^ 32 * 2 ^ 32 + (recWord s r off % 2 ^ 32 - k) := by
  have hlt := recWord_lt s r off
  rw [decRecord_eq hin k _ rfl, if_neg, recWord_setRecWord h (counted_lt hlt), counted_eq]
  generalize recWord s r off = w at hk
  omega

theorem decRecord_readies (h : Memory.wf s.core.spad = true) (hr : s.ri = r) (hin : off + 64 ≤ s.res[r].spsize.toNat) (ha : off % 64 = 0)
    (h16 : off < 2 ^ 16) {k : Nat} (harm : recWord s r off / 2 ^ 48 % 2 = 1) (hpos : 0 < recWord s r off % 2 ^ 32)
    (hk : recWord s r off % 2 ^ 32 ≤ k) :
    readied r off (recWord s r off - recWord s r off % 2 ^ 32 - 2 ^ 48) s (decRecord r off k s) := by
  have hlt := recWord_lt s r off
  obtain ⟨w, hw⟩ : ∃ w, recWord s r off = w := ⟨_, rfl⟩
  rw [hw] at harm hpos hk hlt ⊢
  have hwf := setRecWord_wf (r := r) (off := off) (v := w - w % 2 ^ 32 + (w % 2 ^ 32 - k)) h
  have hword : recWord (setRecBit (setRecWord s r off (w - w % 2 ^ 32 + (w % 2 ^ 32 - k))) r off 48 false) r off = w - w % 2 ^ 32 - 2 ^ 48 := by
    rw [recWord_clearBit hwf, recWord_setRecWord h (counted_lt hlt)]
    omega
  rw [decRecord_eq hin k w hw, if_pos ⟨harm, hpos, Nat.sub_eq_zero_of_le hk⟩]
  exact readyRecord_after ((setRecWord_sameQueues _ _ _ _).trans (setRecBit_sameQueues _ _ _ _ _)) (setRecBit_wf hwf 48 false) hr ha h16 hword

theorem tarmEffect_armed (hr : s.ri = r) (hz : recWord s r off % 2 ^ 32 ≠ 0) :
    tarmEffect off s = (setRecBit s r off 48 true).setRes r { s.res[r] with armed := insertNat off s.res[r].armed } := by
  subst hr
  exact if_neg (by rwa [bits, Nat.pow_zero, Nat.div_one])

theorem recWord_setRes (t : State) (r : ResIx) (off : Nat) {x : Residency} (hb : x.spbase = t.res[r].spbase) :
    recWord (t.setRes r x) r off = recWord t r off := by
  have hget : (t.setRes r x).res[r] = x := vset_get _ _ _
  exact recWord_congr rfl (by rw [hget, hb])

/-- TARM of a record whose count is not zero: the record is armed, and its ARM bit is set. -/
theorem tarmEffect_words (h : Memory.wf s.core.spad = true) (hr : s.ri = r) (hz : recWord s r off % 2 ^ 32 ≠ 0) :
    off ∈ (tarmEffect off s).res[r].armed
    ∧ recWord (tarmEffect off s) r off = recWord s r off - recWord s r off / 2 ^ 48 % 2 * 2 ^ 48 + 2 ^ 48 := by
  have hget : ((setRecBit s r off 48 true).setRes r { s.res[r] with armed := insertNat off s.res[r].armed }).res[r]
      = { s.res[r] with armed := insertNat off s.res[r].armed } := vset_get _ _ _
  rw [tarmEffect_armed hr hz]
  constructor
  · rw [hget]
    exact mem_insertNat.mpr (.inl rfl)
  · exact (recWord_setRes (setRecBit s r off 48 true) r off (by rfl)).trans (recWord_setBit h (setArm_lt (recWord_lt s r off)))

theorem tarmEffect_readies (h : Memory.wf s.core.spad = true) (hr : s.ri = r) (ha : off % 64 = 0) (h16 : off < 2 ^ 16)
    (hz : recWord s r off % 2 ^ 32 = 0) :
    readied r off (recWord s r off - recWord s r off / 2 ^ 48 % 2 * 2 ^ 48) s (tarmEffect off s) := by
  have e : tarmEffect off s = readyRecord r off (setRecBit s r off 48 false) := by
    subst hr
    exact if_pos (by rwa [bits, Nat.pow_zero, Nat.div_one])
  rw [e]
  exact readyRecord_after (setRecBit_sameQueues _ _ _ _ _) (setRecBit_wf h 48 false) hr ha h16 (recWord_clearBit h 48)

/-- The four doublewords that TNEW writes beyond the first (R213). -/
def newWords (r : ResIx) (off v : Nat) (s : State) : State :=
  setRecWord (setRecWord (setRecWord (setRecWord s r (off + 16) v) r (off + 24) 0) r (off + 32) 0) r (off + 40) 0

theorem newWords_words (h : Memory.wf s.core.spad = true) {v : Nat} (hv : v < 2 ^ 64) :
    recWord (newWords r off v s) r off = recWord s r off ∧ recWord (newWords r off v s) r (off + 16) = v
    ∧ recWord (newWords r off v s) r (off + 24) = 0 ∧ recWord (newWords r off v s) r (off + 32) = 0 ∧ recWord (newWords r off v s) r (off + 40) = 0 := by
  have h1 := setRecWord_wf (r := r) (off := off + 16) (v := v) h
  have h2 := setRecWord_wf (r := r) (off := off + 24) (v := 0) h1
  have h3 := setRecWord_wf (r := r) (off := off + 32) (v := 0) h2
  unfold newWords
  refine ⟨?_, ?_, ?_, ?_, recWord_setRecWord h3 (by decide)⟩
  · rw [recWord_setRecWord_ne h3 (by omega), recWord_setRecWord_ne h2 (by omega), recWord_setRecWord_ne h1 (by omega),
      recWord_setRecWord_ne h (by omega)]
  · rw [recWord_setRecWord_ne h3 (by omega), recWord_setRecWord_ne h2 (by omega), recWord_setRecWord_ne h1 (by omega), recWord_setRecWord h hv]
  · rw [recWord_setRecWord_ne h3 (by omega), recWord_setRecWord_ne h2 (by omega), recWord_setRecWord h1 (by decide)]
  · rw [recWord_setRecWord_ne h3 (by omega), recWord_setRecWord h2 (by decide)]

/-- The first doubleword of a new record. -/
def newCount (d : BitVec 128) (w : Nat) : Nat := w / 2 ^ 49 * 2 ^ 49 + fld d 32 16 * 2 ^ 32 + fld d 0 32

theorem newCount_lt (d : BitVec 128) {w : Nat} (h : w < 2 ^ 64) : newCount d w < 2 ^ 64 := by
  unfold newCount fld bits
  omega

theorem newCount_eq (d : BitVec 128) (w : Nat) :
    newCount d w = w / 2 ^ 49 * 2 ^ 49 + d.toNat / 2 ^ 32 % 2 ^ 16 * 2 ^ 32 + d.toNat % 2 ^ 32 := by
  rw [newCount, fld, fld, bits, bits, Nat.pow_zero, Nat.div_one]

/-- A new record whose LINK is cleared, unless it stands in the queue. -/
def newHead (d : BitVec 128) (r : ResIx) (off : Nat) (s : State) : State :=
  if bits (recWord s r off) 49 1 = 0 then relink r off 0xFFFF (setRecWord s r off (newCount d (recWord s r off)))
  else setRecWord s r off (newCount d (recWord s r off))

theorem tnewEffect_eq (hr : s.ri = r) (d : BitVec 128) :
    tnewEffect d off s = disarmed r off (newWords r off (fld d 64 64) (newHead d r off s)) := by
  subst hr
  rfl

theorem newHead_word (h : Memory.wf s.core.spad = true) (d : BitVec 128) :
    Memory.wf (newHead d r off s).core.spad = true ∧ recWord (newHead d r off s) r off = newCount d (recWord s r off) := by
  have hwf := setRecWord_wf (r := r) (off := off) (v := newCount d (recWord s r off)) h
  have hword := recWord_setRecWord (r := r) (off := off) h (newCount_lt d (recWord_lt s r off))
  unfold newHead
  split
  · exact ⟨relink_wf hwf, (recWord_relink_ne hwf (by omega)).trans hword⟩
  · exact ⟨hwf, hword⟩

/-- The words that TNEW writes (R213). -/
theorem tnewEffect_words (h : Memory.wf s.core.spad = true) (hr : s.ri = r) (d : BitVec 128) :
    recWord (tnewEffect d off s) r off = newCount d (recWord s r off)
    ∧ recWord (tnewEffect d off s) r (off + 16) = d.toNat / 2 ^ 64 ∧ recWord (tnewEffect d off s) r (off + 24) = 0
    ∧ recWord (tnewEffect d off s) r (off + 32) = 0 ∧ recWord (tnewEffect d off s) r (off + 40) = 0 := by
  obtain ⟨hwf, hhead⟩ := newHead_word (r := r) (off := off) h d
  have hv : fld d 64 64 = d.toNat / 2 ^ 64 := by
    have := d.isLt
    unfold fld bits
    omega
  have hw := newWords_words (r := r) (off := off) hwf (v := fld d 64 64) (Nat.mod_lt _ (by decide))
  rw [hhead, hv] at hw
  rw [tnewEffect_eq hr, hv]
  simpa only [recWord_disarmed] using hw

/-! ## The instructions -/

/-- A record operation that goes through runs on the state that has recorded its access (R28, R213). -/
theorem recordOp_of_goes {i : Instr} {x : Word} (hgo : LocalGoes true true (byteRange ((64 * (x.toNat / 64) : Nat) : Int) 64) t) (s0 : State)
    (f : Nat → State → State) : recordOp i x s0 t f = retire i
      (if (accessed true (byteRange ((64 * (x.toNat / 64) : Nat) : Int) 64) t).rs.spsize.toNat < 64 * (x.toNat / 64) + 64
        then accessed true (byteRange ((64 * (x.toNat / 64) : Nat) : Int) 64) t
        else f (64 * (x.toNat / 64)) (accessed true (byteRange ((64 * (x.toNat / 64) : Nat) : Int) 64) t)) := by
  unfold recordOp
  rw [Nat.mul_comm (x.toNat / 64) 64]
  exact localAccess_of_goes hgo _ _

theorem tnewBadBit_eq_none {d : BitVec 128} (htask : d.toNat / 2 ^ 32 % 2 ^ 16 < t.rs.role.tasks.length) (hres : d.toNat / 2 ^ 48 % 2 ^ 16 = 0) :
    tnewBadBit t d = none := by
  unfold tnewBadBit
  exact (if_neg (Nat.not_le.mpr htask)).trans (if_neg (not_not.mpr hres))

/-- The state that has recorded an access has the core, the ready queue, the overflow chain and the place of the one before. -/
theorem accessed_keeps (write : Bool) (offs : List Int) (t : State) :
    (accessed write offs t).core = t.core ∧ (accessed write offs t).ri = t.ri ∧ (accessed write offs t).st = t.st
    ∧ (accessed write offs t).rs.spsize = t.rs.spsize ∧ SameQueues t (accessed write offs t)
    ∧ ∀ off, recWord (accessed write offs t) t.ri off = recWord t t.ri off := by
  have hrs := accessed_rs write offs t
  obtain ⟨f, g, e⟩ := accessed_eq write (inOffsets t.rs.spsize.toNat offs) (outOffsets t.rs.spsize.toNat offs) t
  have e : accessed write offs t = t.setRs { t.rs with spflag := f, granules := g } := e
  have hcore : (accessed write offs t).core = t.core := by rw [e]; rfl
  have hri : (accessed write offs t).ri = t.ri := by rw [e]; rfl
  refine ⟨hcore, hri, by rw [e]; rfl, by rw [hrs], ⟨by rw [hcore], by rw [hcore], by rw [hrs], by rw [hrs], hri⟩, fun off => ?_⟩
  refine recWord_congr (by rw [hcore]) ?_
  rw [← rs_of_ri hri, hrs]
  rfl

/-- The state in which a record operation works. -/
def atRecord (x : Word) (t : State) : State := accessed true (byteRange ((64 * (x.toNat / 64) : Nat) : Int) 64) t

/-- A record operation that goes through completes, in range or out of it. -/
theorem recordOp_next {i : Instr} {b : Reg} {x : Word} {f : Nat → State → State} (hi : i.len = 4) (hx : popX b s = some (x, t)) (hf : fits 4 s)
    (hgo : LocalGoes true true (byteRange ((64 * (x.toNat / 64) : Nat) : Int) 64) t) (hst : ∀ off u, (f off u).st = u.st) :
    (t.rs.spsize.toNat < 64 * (x.toNat / 64) + 64 → recordOp i x s t f = .next (past 4 (atRecord x t)))
    ∧ (64 * (x.toNat / 64) + 64 ≤ t.rs.spsize.toNat → recordOp i x s t f = .next (past 4 (f (64 * (x.toNat / 64)) (atRecord x t)))) := by
  obtain ⟨-, -, hast, hsize, -, -⟩ := accessed_keeps true (byteRange ((64 * (x.toNat / 64) : Nat) : Int) 64) t
  have hfits {u : State} (hu : u.st = t.st) : retire i u = .next (past 4 u) := by
    rw [retire_of_fits, hi]
    unfold fits
    rw [hi, hu, (popX_st hx).1]
    exact hf
  rw [recordOp_of_goes hgo]
  refine ⟨fun hout => ?_, fun hin => ?_⟩
  · rw [hsize, if_pos hout]
    exact hfits hast
  · rw [hsize, if_neg (Nat.not_lt.mpr hin)]
    exact hfits ((hst _ _).trans hast)

theorem setRecWord_st (u : State) (r : ResIx) (off v : Nat) : (setRecWord u r off v).st = u.st := rfl

theorem setRecBit_st (u : State) (r : ResIx) (off bit : Nat) (b : Bool) : (setRecBit u r off bit b).st = u.st := setRecWord_st u r off _

theorem newHead_st (d : BitVec 128) (r : ResIx) (off : Nat) (u : State) : (newHead d r off u).st = u.st := by
  unfold newHead relink
  split
  · rw [setRecWord_st, setRecWord_st]
  · rw [setRecWord_st]

theorem disarmed_newWords_st (r : ResIx) (off v : Nat) (u : State) : (disarmed r off (newWords r off v u)).st = u.st := by
  rw [disarmed, State.setRes_st, newWords, setRecWord_st, setRecWord_st, setRecWord_st, setRecWord_st]

theorem tnewEffect_st (d : BitVec 128) (off : Nat) (u : State) : (tnewEffect d off u).st = u.st := by
  rw [tnewEffect_eq rfl, disarmed_newWords_st, newHead_st]

theorem decRecord_st (r : ResIx) (off k : Nat) (u : State) : (decRecord r off k u).st = u.st := by
  unfold decRecord
  dsimp only
  split
  · rfl
  · split
    · rw [(readyRecord_sameStreams r off _).st, setRecBit_st, setRecWord_st]
    · rw [setRecWord_st]

theorem tarmEffect_st (off : Nat) (u : State) : (tarmEffect off u).st = u.st := by
  unfold tarmEffect
  dsimp only
  split
  · rw [(readyRecord_sameStreams _ off _).st, setRecBit_st]
  · rw [State.setRes_st, setRecBit_st]

/-- A word whose ARM bit has been set. -/
theorem armed_word (w : Nat) : (w - w / 2 ^ 48 % 2 * 2 ^ 48 + 2 ^ 48) / 2 ^ 48 % 2 = 1
    ∧ (w - w / 2 ^ 48 % 2 * 2 ^ 48 + 2 ^ 48) % 2 ^ 48 = w % 2 ^ 48 ∧ (w - w / 2 ^ 48 % 2 * 2 ^ 48 + 2 ^ 48) / 2 ^ 49 = w / 2 ^ 49 := by
  omega

/-- readied speaks of nothing in the state before that the record of the access changes. -/
theorem readied_of_sameQueues {w : Nat} (h : SameQueues t u) {v : State} (hd : readied r off w u v) : readied r off w t v := by
  obtain ⟨hready, hcycle, hhead, htail, -⟩ := h
  unfold readied at hd ⊢
  rwa [hready, hcycle, hhead, htail] at hd

end

/-- Settles O30: each operation by the words that it writes, and a record that becomes ready by the queue or the chain that it joins. -/
theorem taskRecords : Obligations.TaskRecords := by
  intro b s t x hx hw hf off hgo
  have hwt : Memory.wf t.core.spad = true := (popX_memoriesWf hx hw).1
  obtain ⟨hcore, hri, -, hsize, hq, hword⟩ := accessed_keeps true (byteRange (off : Int) 64) t
  have hwA : Memory.wf (atRecord x t).core.spad = true := by
    rw [show (atRecord x t).core = t.core from hcore]
    exact hwt
  have hriA : (atRecord x t).ri = t.ri := hri
  have hsizeA : (atRecord x t).res[t.ri].spsize = t.rs.spsize := by rw [← rs_of_ri hriA]; exact hsize
  have hwordA : recWord (atRecord x t) t.ri off = recordField t off 0 := (hword off).trans (recordField_eq t off 0).symm
  have ha : off % 64 = 0 := Nat.mul_mod_right 64 _
  have h16 (hin : off + 64 ≤ t.rs.spsize.toNat) : off < 2 ^ 16 := by
    have := t.rs.spsize.isLt
    omega
  have hfield {u : State} (hu : u.st = (atRecord x t).st) (k : Nat) : recordField u off k = recWord u t.ri (off + k) := by
    rw [recordField_eq, show u.ri = t.ri from (congrArg Stream.res hu).trans hriA]
  have htnew (c : Reg) (hbit : tnewBadBit t (t.oxv c) = none) : exec (.tnew b c) s = recordOp (.tnew b c) x s t (tnewEffect (t.oxv c)) := by
    show execTnew b c s = _
    rw [execTnew, withX_eq hx]
    simp only [hbit]
  have htdec (k : BitVec 3) : exec (.tdec b k) s = recordOp (.tdec b k) x s t fun off u => decRecord u.ri off (k.toNat + 1) u := withX_eq hx _
  have htarm : exec (.tarm b) s = recordOp (.tarm b) x s t tarmEffect := withX_eq hx _
  have hnew (c : Reg) := recordOp_next (i := .tnew b c) rfl hx hf hgo (tnewEffect_st (t.oxv c))
  have hdec (k : BitVec 3) := recordOp_next (i := .tdec b k) rfl hx hf hgo fun off u => decRecord_st u.ri off (k.toNat + 1) u
  have harm := recordOp_next (i := .tarm b) rfl hx hf hgo tarmEffect_st
  refine ⟨fun c d hd htask hres hin => ?_, fun c hbit hout => ?_, fun k hin hk => ?_, fun k hin hkarm hpos hk => ?_, fun hin hz => ?_, fun hin hz => ?_,
    fun hout => ⟨fun k => ?_, ?_⟩⟩
  · subst hd
    obtain ⟨h0, h16', h24, h32, h40⟩ := tnewEffect_words (off := off) hwA hriA (t.oxv c)
    refine ⟨_, (htnew c (tnewBadBit_eq_none htask hres)).trans ((hnew c).2 hin), ?_⟩
    rw [hwordA, newCount_eq] at h0
    have hst := tnewEffect_st (t.oxv c) off (atRecord x t)
    exact ⟨(hfield hst 0).trans h0, (hfield hst 16).trans h16', (hfield hst 24).trans h24, (hfield hst 32).trans h32, (hfield hst 40).trans h40⟩
  · exact ⟨_, (htnew c hbit).trans ((hnew c).1 hout), hcore⟩
  · refine ⟨_, (htdec k).trans ((hdec k).2 hin), ?_⟩
    rw [hfield (decRecord_st _ _ _ _), hriA, Nat.add_zero, ← hwordA]
    exact decRecord_counts hwA (by rw [hsizeA]; exact hin) (by rwa [hwordA])
  · refine ⟨_, (htdec k).trans ((hdec k).2 hin), ?_⟩
    refine readied_of_sameQueues hq ?_
    rw [← hwordA] at hkarm hpos hk ⊢
    rw [hriA]
    exact decRecord_readies hwA hriA (by rw [hsizeA]; exact hin) ha (h16 hin) hkarm hpos hk
  · refine ⟨_, htarm.trans (harm.2 hin), ?_⟩
    rw [← hwordA] at hz ⊢
    have hu := tarmEffect_st off (atRecord x t)
    obtain ⟨hmem, harmed⟩ := tarmEffect_words hwA hriA hz
    obtain ⟨hbit, hlow, hhigh⟩ := armed_word (recWord (atRecord x t) t.ri off)
    have hword' := (hfield hu 0).trans harmed
    refine ⟨?_, ?_, ?_, ?_⟩
    · rw [rs_of_ri (show (tarmEffect off (atRecord x t)).ri = t.ri from (congrArg Stream.res hu).trans hriA)]
      exact hmem
    · rw [hword']
      exact hbit
    · rw [hword']
      exact hlow
    · rw [hword']
      exact hhigh
  · refine ⟨_, htarm.trans (harm.2 hin), readied_of_sameQueues hq ?_⟩
    rw [← hwordA] at hz ⊢
    exact tarmEffect_readies hwA hriA ha (h16 hin) hz
  · exact ⟨_, (htdec k).trans ((hdec k).1 hout), hcore⟩
  · exact ⟨_, htarm.trans (harm.1 hout), hcore⟩

end Sys2Proof.Spec
end

section
/-! The system registers (R24 to R27, R215): what a read gives for each listed number, and what the three kinds of write do to each.
It settles O31. -/

namespace Sys2Proof.Spec

open Sys2Proof.Machine

section
variable {s t : State} {a b : Reg} {n : BitVec 12} {x v : Word}

/-! ## What a read gives -/

theorem slotWord_eq (s : State) : slotWord s = BitVec.ofNat 64 ((if s.st.qm then 2 ^ 8 else 0) + (groupSize s - 1) % 4 * 2 ^ 4
    + (match s.st.kind with
      | .L => 0
      | .A => 4
      | .E => 8) + s.cur.val) := by
  unfold slotWord groupSize
  dsimp only
  cases s.task <;> cases s.st.qm <;> cases s.st.kind <;> rfl

theorem sendCount_eq (s : State) : sendCount s = ((buffer s).filter fun e => match e with
    | .fence _ => false
    | _ => true).length := by
  unfold sendCount buffer
  cases s.task with
  | none => rfl
  | some k =>
    have h (l : List BufEntry) : l.filter BufEntry.counts = l.filter fun e => match e with
        | .fence _ => false
        | _ => true :=
      List.filter_congr fun e _ => by cases e <;> rfl
    simp only [h]
    rfl

theorem budget_eq (s : State) : (s.task.map Task.budget).getD 0 = s.task.elim 0 Task.budget := by cases s.task <;> rfl

/-- A number without an entry of its own: a bank's format, or nothing. -/
theorem sysRead_other {k : Nat} (h : sysRead s k = (if 0x020 ≤ k ∧ k ≤ 0x02F then some (bfmtView s (k - 0x020))
    else if 0x042 ≤ k ∧ k ≤ 0x045 then some (Machine.recordField s.st.traps[0] (k - 0x042))
    else if 0x046 ≤ k ∧ k ≤ 0x049 then some (Machine.recordField s.st.traps[1] (k - 0x046)) else none))
    (h0 : ¬ (0x042 ≤ k ∧ k ≤ 0x045)) (h1 : ¬ (0x046 ≤ k ∧ k ≤ 0x049)) :
    sysRead s k = if 0x020 ≤ k ∧ k ≤ 0x02F then some (bfmtView s (k - 0x020)) else none := by
  rw [h, if_neg h0, if_neg h1]

/-- A read gives what the list of R24 says. -/
theorem sysRead_eq (s : State) (k : Nat) : sysRead s k = systemValue s k := by
  unfold systemValue
  split
  case h_4 => exact congrArg some (slotWord_eq s)
  case h_5 => exact congrArg some (budget_eq s)
  case h_6 => exact congrArg (fun c => some (BitVec.ofNat 64 c)) (sendCount_eq s)
  case h_34 =>
    refine (sysRead_other ?_ ?_ ?_).trans rfl
    · unfold sysRead
      split
      case h_26 => rfl
      all_goals contradiction
    · simp only [imp_false] at *
      omega
    · simp only [imp_false] at *
      omega
  all_goals rfl

/-- Which numbers are listed does not depend on the state. -/
theorem systemValue_none_iff (s t : State) (k : Nat) : systemValue s k = none ↔ systemValue t k = none := by
  unfold systemValue
  split
  case h_34 => split <;> simp
  all_goals simp

/-! ## What an access answers -/

theorem sysAccess_of_listed {i : Instr} {f : SysFn} (hv : systemValue t n.toNat = some v) (hroom : roomX a t = true)
    (hbusy : ¬ (n = 0x030 ∧ (multBusy t = true ∨ t.behindCommands = true))) (s0 : State) :
    sysAccess i f a n x s0 t = retire i (writeX a v (sysEffect f n.toNat v x t)) := by
  simp only [sysAccess, sysRead_eq, hv, withRoomX_eq hroom, if_neg hbusy]
  rfl

theorem sysAccess_of_unlisted {i : Instr} {f : SysFn} (hv : systemValue t n.toNat = none) (hbusy : s.sliceBusy = false) :
    sysAccess i f a n x s t = .next (takeTrap 0x01 s.st.pc (n.setWidth 64) s) := by
  simp only [sysAccess, sysRead_eq, hv]
  exact if_neg (by rw [hbusy]; decide)

theorem not_multBusy (hwork : s.core.slew.work = []) (hjm : s.core.jm ≠ 2) (hport : s.core.portQ = []) :
    ¬ (multBusy s = true ∨ s.behindCommands = true) := by
  simp only [multBusy, State.behindCommands, hwork, hport, ne_eq, not_true, decide_false, Bool.false_or, decide_eq_false hjm, Bool.false_and,
    Bool.false_eq_true, or_self, not_false_eq_true]

end

/-! ## What a write does to each register -/

section
variable {s t : State} {a b : Reg} {n : BitVec 12} {x v : Word}

theorem clearSticky_other {k : Nat} (h0 : k ≠ 0x013) (h1 : k ≠ 0x080) (x : Word) (s : State) : clearSticky k x s = s := by
  unfold clearSticky
  rw [if_neg h0, if_neg h1, ite_self]

/-- A register that no write changes, and no sticky bit clears. -/
theorem sysWrite_readOnly {k : Nat} (h : k < 0x013 ∨ k = 0x040 ∨ 0x051 ≤ k) (v : Word) (s : State) : sysWrite k v s = s := by
  unfold sysWrite
  split
  case h_8 => rw [if_neg (by omega), if_neg (by omega), if_neg (by omega)]
  all_goals omega

/-- Bits set in the doubleword that a field was read into are set in the field. -/
theorem setWidth_field_or {w : Nat} (hw : w ≤ 64) (f : BitVec w) (x : Word) : (f.setWidth 64 ||| x).setWidth w = f ||| x.setWidth w := by
  rw [BitVec.setWidth_or, BitVec.setWidth_setWidth_of_le f hw, BitVec.setWidth_eq]

/-- Bits cleared in the doubleword that a field was read into are cleared in the field. -/
theorem setWidth_field_andNot {w : Nat} (hw : w ≤ 64) (f : BitVec w) (x : Word) :
    (f.setWidth 64 &&& ~~~x).setWidth w = f &&& ~~~(x.setWidth w) := by
  rw [BitVec.setWidth_and, BitVec.setWidth_not hw, BitVec.setWidth_setWidth_of_le f hw, BitVec.setWidth_eq]

/-- The format of logical bank k of the reservation written: beyond the reservation the write is discarded (R27). -/
def withBankFormat (k : Nat) (s : State) (w : Word) : State :=
  if s.rs.spsize.toNat ≤ k * 3072 then s else { s with core := { s.core with
    bfmt := vset s.core.bfmt ⟨(s.rs.spbase.toNat / 3072 + k) % 16, Nat.mod_lt _ (by decide)⟩ (w.setWidth 10) } }

theorem sysWrite_bank {k : Nat} (hk : k < 16) {num : Nat} (hn : num = 0x020 + k) (w : Word) (s : State) :
    sysWrite num w s = withBankFormat k s w := by
  subst hn
  have hsub : 0x020 + k - 0x020 = k := Nat.add_sub_cancel_left _ _
  unfold sysWrite
  split
  case h_8 =>
    rw [if_pos (by omega), hsub]
    rfl
  all_goals omega

theorem sysWrite_budget {k : Task} (hk : s.task = some k) (w : Word) :
    sysWrite 0x050 w s = if w.toNat < k.budget.toNat then s.setTask { k with budget := w } else s := by
  unfold sysWrite writeBudget
  simp only [hk]

/-- A write with bit 63 set clears SPFLAG. -/
theorem clearSticky_spflag (h : x.getLsbD 63 = true) (s : State) : clearSticky 0x013 x s = s.setRs { s.rs with spflag := 0 } := by
  have hsel : sel x 63 1 = 1 := by
    rw [BitVec.getLsbD, Nat.testBit_eq_decide_div_mod_eq, decide_eq_true_eq] at h
    exact h
  unfold clearSticky
  rw [if_neg (by rw [hsel]; decide), if_pos rfl]

theorem sysWrite_standing (k : Nat) (v : Word) (s : State) : Standing s (sysWrite k v s) := by
  have hset (x : Stream) (h : x.pc = s.st.pc ∧ x.loops = s.st.loops) : Standing s (s.setSt x) := by
    unfold Standing
    rw [State.setSt_st]
    exact h
  have hsame {u : State} (h : u.st = s.st) : Standing s u := ⟨by rw [h], by rw [h]⟩
  unfold sysWrite
  split
  case h_1 =>
    unfold writeGuardcfg
    split
    · exact hsame rfl
    · exact hsame rfl
  case h_7 =>
    unfold writeBudget
    split
    · exact hsame rfl
    · split
      · exact hsame rfl
      · exact hsame rfl
  case h_8 =>
    split
    · split
      · exact hsame rfl
      · exact hsame rfl
    · split
      · exact hset _ ⟨rfl, rfl⟩
      · split
        · exact hset _ ⟨rfl, rfl⟩
        · exact hsame rfl
  all_goals exact hset _ ⟨rfl, rfl⟩

theorem clearSticky_st (k : Nat) (x : Word) (s : State) : (clearSticky k x s).st = s.st := by
  unfold clearSticky
  split
  · rfl
  · split
    · rfl
    · split <;> rfl

theorem sysEffect_standing (f : SysFn) (k : Nat) (v x : Word) (s : State) : Standing s (sysEffect f k v x s) := by
  have hclear (u : State) (h : Standing s u) : Standing s (clearSticky k x u) := by
    unfold Standing
    rw [clearSticky_st]
    exact h
  cases f with
  | srd => exact ⟨rfl, rfl⟩
  | swr => exact hclear _ (sysWrite_standing k x s)
  | sset => exact hclear _ (sysWrite_standing k (v ||| x) s)
  | sclr => exact sysWrite_standing k _ s

/-- An access to a listed register that goes through completes with its old value in rd. -/
theorem sysAccess_next {i : Instr} {f : SysFn} (hi : i.len = 4) (hs : Standing s t) (hf : fits 4 s) (hv : systemValue t n.toNat = some v)
    (hroom : roomX a t = true) (hbusy : ¬ (n = 0x030 ∧ (multBusy t = true ∨ t.behindCommands = true))) (s0 : State) :
    sysAccess i f a n x s0 t = .next (past 4 (writeX a v (sysEffect f n.toNat v x t))) := by
  obtain ⟨hpc, hls⟩ := (hs.trans (sysEffect_standing f n.toNat v x t)).trans (writeX_standing a v _)
  rw [sysAccess_of_listed hv hroom hbusy, retire_of_fits, hi]
  unfold fits
  rw [hi, hpc, hls]
  exact hf

/-- What the three writes answer for a register whose write is put: SWR the value itself, SSET and SCLR the old one with bits set and cleared. -/
def Writes (a b : Reg) (n : BitVec 12) (s : State) (x v : Word) (put : Word → State) : Prop :=
  exec (.swr a n b) s = .next (past 4 (writeX a v (put x))) ∧ exec (.sset a n b) s = .next (past 4 (writeX a v (put (v ||| x))))
    ∧ exec (.sclr a n b) s = .next (past 4 (writeX a v (put (v &&& ~~~x))))

/-- Each write that goes through runs its effect. -/
theorem writes_effects (hx : popX b s = some (x, t)) (hv : systemValue t n.toNat = some v) (hroom : roomX a t = true) (hf : fits 4 s)
    (hn : n ≠ 0x030) : exec (.swr a n b) s = .next (past 4 (writeX a v (sysEffect .swr n.toNat v x t)))
      ∧ exec (.sset a n b) s = .next (past 4 (writeX a v (sysEffect .sset n.toNat v x t)))
      ∧ exec (.sclr a n b) s = .next (past 4 (writeX a v (sysEffect .sclr n.toNat v x t))) := by
  have hgo {i : Instr} {f : SysFn} (hi : i.len = 4) := sysAccess_next (f := f) hi (popX_standing hx) hf hv hroom (fun h => hn h.1) (x := x) s
  exact ⟨(withX_eq hx _).trans (hgo rfl), (withX_eq hx _).trans (hgo rfl), (withX_eq hx _).trans (hgo rfl)⟩

theorem writes_of_put {put : Word → State} (hx : popX b s = some (x, t)) (hv : systemValue t n.toNat = some v) (hroom : roomX a t = true)
    (hf : fits 4 s) (hn : n ≠ 0x030) (h0 : n.toNat ≠ 0x013) (h1 : n.toNat ≠ 0x080) (hput : ∀ w, sysWrite n.toNat w t = put w) :
    Writes a b n s x v put := by
  have h := writes_effects hx hv hroom hf hn
  simp only [sysEffect, clearSticky_other h0 h1, hput] at h
  exact h

end

/-- Settles O31: the reads are the list of R24, and each write is the effect of its register. -/
theorem systemRegisters : Obligations.SystemRegisters := by
  refine ⟨fun a n s v hv hroom hbusy hf => ?_, fun a b n s t x v hx hv hroom hf => ⟨?_, ?_, ⟨?_, ?_, ?_, ?_, ?_⟩, ?_, ?_⟩,
    fun a b n s t x hv hidle => ?_⟩
  · refine sysAccess_next rfl ⟨rfl, rfl⟩ hf hv hroom (fun h => ?_) s
    obtain ⟨hwork, hjm, hport⟩ := hbusy h.1
    exact not_multBusy hwork hjm hport h.2
  · rintro rfl
    have hw := writes_of_put (put := fun w => t.setSt { t.st with fmode := w.setWidth 2 }) hx hv hroom hf
      (by decide) (by decide) (by decide) fun _ => rfl
    have hold : v = t.st.fmode.setWidth 64 := (Option.some.inj hv).symm
    rw [Writes] at hw
    subst hold
    rw [setWidth_field_or (by decide), setWidth_field_andNot (by decide)] at hw
    exact hw
  · rintro rfl
    have hw := writes_of_put (put := fun w => t.setSt { t.st with fflags := w.setWidth 5 }) hx hv hroom hf
      (by decide) (by decide) (by decide) fun _ => rfl
    have hold : v = t.st.fflags.setWidth 64 := (Option.some.inj hv).symm
    rw [Writes] at hw
    subst hold
    rw [setWidth_field_or (by decide), setWidth_field_andNot (by decide)] at hw
    exact hw
  · rintro rfl
    exact writes_of_put hx hv hroom hf (by decide) (by decide) (by decide) fun _ => rfl
  · rintro rfl
    exact writes_of_put hx hv hroom hf (by decide) (by decide) (by decide) fun _ => rfl
  · rintro rfl
    exact writes_of_put hx hv hroom hf (by decide) (by decide) (by decide) fun _ => rfl
  · rintro k hk rfl
    exact writes_of_put (put := fun w => if w.toNat < k.budget.toNat then t.setTask { k with budget := w } else t) hx hv hroom hf (by decide)
      (by decide) (by decide) fun w => sysWrite_budget hk w
  · intro k hk hn
    have h30 : n ≠ 0x030 := by
      rintro rfl
      have : 0x030 = 0x020 + k := hn
      omega
    exact writes_of_put (put := withBankFormat k t) hx hv hroom hf h30 (by omega) (by omega) fun w => sysWrite_bank hk hn w t
  · intro hn
    have hplain : n.toNat ≠ 0x013 ∧ n.toNat ≠ 0x080 ∧ n ≠ 0x030 ∧ ∀ w, sysWrite n.toNat w t = t := by
      rcases hn with rfl | rfl | rfl | rfl | rfl | rfl | rfl | rfl | rfl | rfl | rfl | rfl | rfl | rfl | rfl | rfl <;>
        exact ⟨by decide, by decide, by decide, fun w => sysWrite_readOnly (by decide) w t⟩
    obtain ⟨h0, h1, hn', hput⟩ := hplain
    exact writes_of_put (put := fun _ => t) hx hv hroom hf hn' h0 h1 hput
  · rintro rfl hset
    obtain ⟨hswr, -, hsclr⟩ := writes_effects hx hv hroom hf (by decide)
    exact ⟨by rw [hswr]; exact congrArg (fun u => Host.Outcome.next (past 4 (writeX a v u))) (clearSticky_spflag hset t), hsclr⟩
  · have htrap {u : State} {i : Instr} {f : SysFn} {y : Word} : sysAccess i f a n y s u = .next (takeTrap 0x01 s.st.pc (n.setWidth 64) s) :=
      sysAccess_of_unlisted ((systemValue_none_iff s u n.toNat).mp hv) hidle
    exact ⟨htrap, fun hx => ⟨(withX_eq hx _).trans htrap, (withX_eq hx _).trans htrap, (withX_eq hx _).trans htrap⟩⟩

end Sys2Proof.Spec
end

section
/-! The end of a stream (R15, R37, R38, R204, R218): what END leaves of the stream, of its task and of the residency.
It settles the first half of O35. -/

namespace Sys2Proof.Spec

open Sys2Proof.Machine

section
variable {s t u : State} {r : ResIx}

/-! ## The last stream -/

/-- The streams of a residency that run, named by their slots. -/
theorem hasStream_iff : hasStream s r = true ↔ ∃ j : SlotIx, s.streams[j].active = true ∧ s.streams[j].res = r := by
  unfold hasStream
  rw [List.any_eq_true]
  constructor
  · rintro ⟨t, ht, h⟩
    obtain ⟨j, hj, rfl⟩ := List.getElem_of_mem ht
    rw [Vector.length_toList] at hj
    rw [Bool.and_eq_true, decide_eq_true_eq] at h
    exact ⟨⟨j, hj⟩, h⟩
  · rintro ⟨j, ha, hr⟩
    exact ⟨s.streams[j], Vector.mem_toList_iff.mpr (Vector.getElem_mem j.isLt), by rw [ha, decide_eq_true hr]; rfl⟩

theorem gangFlag_iff : gangFlag s s.ri = true ↔ gangMarked s := by
  unfold gangFlag gangMarked
  rw [Bool.or_eq_true, List.any_eq_true]
  refine or_congr Iff.rfl (exists_congr fun m => and_congr Iff.rfl ?_)
  rw [List.any_eq_true]
  refine exists_congr fun x => and_congr Iff.rfl ?_
  rw [Bool.and_eq_true, decide_eq_true_eq]
  rfl

/-! ## The end of a task -/

/-- u is s but for residency r and the core's queues: what the end of a task leaves alone. -/
structure TaskSide (s u : State) : Prop extends SameStreams s u where
  vault : u.vault = s.vault
  spad : u.core.spad = s.core.spad

theorem TaskSide.trans (h : TaskSide s t) (g : TaskSide t u) : TaskSide s u :=
  ⟨h.toSameStreams.trans g.toSameStreams, g.vault.trans h.vault, g.spad.trans h.spad⟩

theorem TaskSide.setRes (h : TaskSide s t) (r : ResIx) (x : Residency) : TaskSide s (t.setRes r x) := ⟨h.toSameStreams.setRes r x, h.vault, h.spad⟩

theorem setRx_spad (c : Core) (vn : Nat) (q : List RxEntry) : (c.setRx vn q).spad = c.spad := by
  unfold Core.setRx
  split
  · rfl
  · split <;> rfl

/-- A trigger that leaves its queue gives back at most its sink. -/
theorem removeTrigger_side (r : ResIx) (m : Msg) (s : State) : TaskSide s (removeTrigger r m s) ∧ (removeTrigger r m s).net = s.net
    ∧ ∃ n, (removeTrigger r m s).res[r] = { s.res[r] with sinks := n } := by
  unfold removeTrigger
  dsimp only
  split
  · exact ⟨⟨⟨rfl, rfl⟩, rfl, setRx_spad _ _ _⟩, rfl, _, vset_get _ _ _⟩
  · exact ⟨⟨⟨rfl, rfl⟩, rfl, setRx_spad _ _ _⟩, rfl, s.res[r].sinks, rfl⟩

theorem releaseBuffer_side (r : ResIx) (b : List BufEntry) (ages : List Word) (s : State) : TaskSide s (releaseBuffer r b ages s) :=
  ⟨⟨rfl, rfl⟩, rfl, rfl⟩

theorem releaseBuffer_res (r : ResIx) (b : List BufEntry) (ages : List Word) (s : State) : (releaseBuffer r b ages s).res[r] =
    { s.res[r] with journal := { s.res[r].journal with gate := s.res[r].journal.gate ++ b.filter emission } } := by
  have h : b.filter BufEntry.isEmit = b.filter emission := List.filter_congr fun e _ => by cases e <;> rfl
  rw [← h]
  exact vset_get _ _ _

theorem releaseBuffer_outbound (r : ResIx) (b : List BufEntry) (ages : List Word) (s : State) : (releaseBuffer r b ages s).net.outbound =
    s.net.outbound ++ (b.zipIdx.filter fun e => !emission e.1).map fun e => ⟨r, s.res[r].gang, s.net.nextId, e.1, ages.getD e.2 s.core.cycle⟩ := by
  have h : ((fun e : BufEntry × Word => !e.1.isEmit) ∘ fun e : BufEntry × Nat => (e.1, ages.getD e.2 s.core.cycle)) = fun e => !emission e.1 := by
    funext e
    obtain ⟨e, n⟩ := e
    cases e <;> rfl
  unfold releaseBuffer
  simp only [State.setRes_net, List.filter_map, h, List.map_map]
  rfl

theorem handOver_side (r : ResIx) (k : Option SlotIx) (s : State) : TaskSide s (handOver r k s) := ⟨⟨rfl, rfl⟩, rfl, rfl⟩

theorem handOver_res (r : ResIx) (s : State) : (handOver r none s).res[r] =
    { s.res[r] with handedOver := s.res[r].handedOver ++ s.res[r].appended, appended := [] } := vset_get _ _ _

/-- What the end of a task does: the residency has none, its messages, emissions and records go their ways (R192, R204, R228). -/
structure TaskOver (r : ResIx) (k : Task) (s u : State) : Prop extends TaskSide s u where
  task : u.res[r].task = none
  aborts : u.res[r].abortCount = 0
  appended : u.res[r].appended = []
  handedOver : u.res[r].handedOver = s.res[r].handedOver ++ s.res[r].appended
  gate : u.res[r].journal.gate = s.res[r].journal.gate ++ k.sendBuf.filter emission
  outbound : u.net.outbound = s.net.outbound ++ (k.sendBuf.zipIdx.filter fun e => !emission e.1).map fun e =>
    ⟨r, s.res[r].gang, s.net.nextId, e.1, k.ages.getD e.2 s.core.cycle⟩

theorem endTask_over {k : Task} (hk : s.res[r].task = some k) : TaskOver r k s (endTask r s) := by
  have hside := (releaseBuffer_side r k.sendBuf k.ages s).trans (handOver_side r none _)
  have hres : (handOver r none (releaseBuffer r k.sendBuf k.ages s)).res[r] = { s.res[r] with
      journal := { s.res[r].journal with gate := s.res[r].journal.gate ++ k.sendBuf.filter emission }
      handedOver := s.res[r].handedOver ++ s.res[r].appended, appended := [] } := by
    rw [handOver_res, releaseBuffer_res]
  have hout : (handOver r none (releaseBuffer r k.sendBuf k.ages s)).net.outbound = _ := releaseBuffer_outbound r k.sendBuf k.ages s
  have hover {v : State} {n : Nat} (hv : TaskSide s v) (hn : v.net = (handOver r none (releaseBuffer r k.sendBuf k.ages s)).net)
      (hr : v.res[r] = { (handOver r none (releaseBuffer r k.sendBuf k.ages s)).res[r] with sinks := n }) :
      TaskOver r k s (v.setRes r { v.res[r] with task := none, abortCount := 0 }) := by
    have hget : (v.setRes r { v.res[r] with task := none, abortCount := 0 }).res[r] = { v.res[r] with task := none, abortCount := 0 } :=
      vset_get _ _ _
    rw [hr, hres] at hget
    refine ⟨hv.setRes r _, ?_, ?_, ?_, ?_, ?_, ?_⟩
    · rw [hr, hres, hget]
    · rw [hr, hres, hget]
    · rw [hr, hres, hget]
    · rw [hr, hres, hget]
    · rw [hr, hres, hget]
    · rw [State.setRes_net, hn, hout]
  unfold endTask
  simp only [hk]
  split
  · rename_i m _
    obtain ⟨hm, hnet, n, hn⟩ := removeTrigger_side r m (handOver r none (releaseBuffer r k.sendBuf k.ages s))
    exact hover (hside.trans hm) hnet hn
  · exact hover hside rfl rfl

theorem endTask_side (r : ResIx) (s : State) : TaskSide s (endTask r s) := by
  cases hk : s.res[r].task with
  | none =>
    unfold endTask
    rw [hk]
    exact ⟨⟨rfl, rfl⟩, rfl, rfl⟩
  | some k => exact (endTask_over hk).toTaskSide

/-! ## The end of a stream -/

/-- The current stream's slot is free, before its task ends with it. -/
def stopped (s : State) : State :=
  let s1 := { s with core := forgetSlot s.core (fun i => decide (i = s.cur)) }
  let s2 := s1.setRes s.ri { s1.res[s.ri] with
    copyOwner := s1.res[s.ri].copyOwner.filter (fun e => decide (bits e.2.toNat 0 2 ≠ s.cur.val)), freeSince := s1.core.cycle }
  s2.setSt { s2.st with active := false, loops := [], qm := false, stalled := false }

theorem endOfStream_eq (s : State) : endOfStream s = if hasStream (stopped s) s.ri then stopped s else endTask s.ri (stopped s) := rfl

theorem stopped_st (s : State) : (stopped s).st = { s.st with active := false, loops := [], qm := false, stalled := false } := vset_get _ _ _

theorem stopped_ri (s : State) : (stopped s).ri = s.ri := by
  unfold State.ri
  rw [stopped_st]

theorem stopped_other {j : SlotIx} (hj : j ≠ s.cur) : (stopped s).streams[j] = s.streams[j] := vset_get_ne _ _ _ _ hj.symm

theorem stopped_res (s : State) : ∃ own since, (stopped s).res[s.ri] = { s.res[s.ri] with copyOwner := own, freeSince := since } :=
  ⟨_, _, vset_get _ _ _⟩

theorem hasStream_stopped_iff : hasStream (stopped s) s.ri = true ↔ ¬ lastStream s := by
  rw [hasStream_iff, lastStream]
  push Not
  refine exists_congr fun j => ?_
  by_cases hj : j = s.cur
  · have hoff : (stopped s).streams[j].active = false := by
      subst hj
      exact congrArg Stream.active (stopped_st s)
    rw [hoff]
    exact ⟨fun h => absurd h.1 Bool.false_ne_true, fun h => absurd hj h.1⟩
  · rw [stopped_other hj]
    exact ⟨fun h => ⟨hj, h⟩, fun h => h.2⟩

/-- An END that ends its stream. -/
theorem endStreamOp_next (hw : endWaits s = false) (he : ¬ earlyEnd s) : endStreamOp s = .next (endOfStream s) := by
  unfold endStreamOp
  rw [hw]
  refine (if_neg Bool.false_ne_true).trans (if_neg fun h => he ?_)
  obtain ⟨hq, hl, hg⟩ := h
  exact ⟨hq, hl, gangFlag_iff.mp hg⟩

theorem endStreamOp_early (hw : endWaits s = false) (he : earlyEnd s) : endStreamOp s = .next (takeTrap 0x17 s.st.pc 0 s) := by
  obtain ⟨hq, hl, hg⟩ := he
  have hidle : s.sliceBusy = false := by
    unfold endWaits at hw
    simp only [Bool.or_eq_false_iff] at hw
    exact hw.1.2
  unfold endStreamOp
  rw [hw]
  refine (if_neg Bool.false_ne_true).trans ((if_pos ⟨hq, hl, gangFlag_iff.mpr hg⟩).trans ?_)
  unfold trap raise
  exact if_neg (by rw [hidle]; exact Bool.false_ne_true)

end

/-- The first half of O35: END stops its stream, and its task when it is the last; NOP and QMAP complete. -/
theorem streamEnd : StreamEnd := by
  refine ⟨fun i s hi hw he => ?_, fun i s hi hw he => ?_, fun i s hi hf => ?_, fun q s hf => ?_⟩
  · have h : exec i s = endStreamOp s := by rcases hi with rfl | rfl <;> rfl
    rw [h, endStreamOp_early hw he]
  · have h : exec i s = .next (endOfStream s) := by
      rw [← endStreamOp_next hw he]
      rcases hi with rfl | rfl <;> rfl
    refine ⟨endOfStream s, h, ?_⟩
    rw [endOfStream_eq]
    obtain ⟨own, since, hres⟩ := stopped_res s
    have hrs : (stopped s).rs = { s.rs with copyOwner := own, freeSince := since } := (rs_of_ri (stopped_ri s)).trans hres
    by_cases hlast : lastStream s
    · rw [if_neg (mt hasStream_stopped_iff.mp (not_not.mpr hlast))]
      have hside := endTask_side s.ri (stopped s)
      have hst : (endTask s.ri (stopped s)).st = (stopped s).st := hside.toSameStreams.st
      have hri : (endTask s.ri (stopped s)).ri = s.ri := (congrArg Stream.res hst).trans (stopped_ri s)
      refine ⟨by rw [hst, stopped_st], fun j hj => by rw [hside.streams, stopped_other hj], fun h => absurd hlast h, fun k _ hk => ?_,
        hside.vault, fun p => by rw [hside.spad]; rfl⟩
      have hk' : (stopped s).res[s.ri].task = some k := by
        rw [hres]
        exact hk
      obtain ⟨-, htask, haborts, happended, hhanded, hgate, hout⟩ := endTask_over hk'
      rw [rs_of_ri hri]
      rw [hres] at hhanded hgate hout
      exact ⟨htask, haborts, happended, hhanded, hgate, hout⟩
    · rw [if_pos (hasStream_stopped_iff.mpr hlast)]
      refine ⟨congrArg Stream.active (stopped_st s), fun j hj => stopped_other hj, fun _ => ⟨?_, rfl⟩, fun k h => absurd h hlast, rfl, fun _ => rfl⟩
      rw [hrs]
  · rcases hi with rfl | rfl
    · exact retire_of_fits hf
    · exact retire_of_fits hf
  · refine retire_of_fits ?_
    unfold fits
    rw [State.setSt_st]
    exact hf

end Sys2Proof.Spec
end

section
/-! The journal instructions (R226 to R230, R377): a record staged, a batch closed, an emission appended, and the Philox blocks. It settles O35. -/

namespace Sys2Proof.Spec

open Sys2Proof.Machine

section
variable {s t u : State} {a b : Reg}

/-! ## An instruction that goes on to the next -/

theorem fits_of_standing (h : Standing s t) {n : Nat} (hf : fits n s) : fits n t := by
  obtain ⟨hpc, hls⟩ := h
  unfold fits
  rw [hpc, hls]
  exact hf

theorem finishX_next {i : Instr} (hi : i.len = 4) (h : Standing s t) (hf : fits 4 s) (v : Word) :
    finishX i a v t = .next (past 4 (writeX a v t)) := by
  unfold finishX
  rw [retire_of_fits, hi]
  rw [hi]
  exact fits_of_standing (h.trans (writeX_standing a v t)) hf

/-! ## Fields of a descriptor -/

theorem ofNat_bits (x lo n : Nat) : BitVec.ofNat n (bits x lo n) = BitVec.ofNat n (x / 2 ^ lo) :=
  BitVec.eq_of_toNat_eq (by rw [BitVec.toNat_ofNat, BitVec.toNat_ofNat, bits, Nat.mod_mod])

theorem fld_low (d : BitVec 128) (n : Nat) : BitVec.ofNat n (fld d 0 n) = d.setWidth n := by
  unfold fld
  rw [ofNat_bits, pow_zero, Nat.div_one, BitVec.ofNat_toNat]

theorem fld_top (d : BitVec 128) : fld d 127 1 = d.toNat / 2 ^ 127 := Nat.mod_eq_of_lt (by
  have := d.isLt
  omega)

/-! ## Staging a record (R226, R377) -/

theorem jrecBadBit_none {d : BitVec 128} (h0 : d.toNat % 2 ^ 16 % 16 = 0) (h1 : 16 ≤ 16 * (d.toNat / 2 ^ 16 % 2 ^ 8))
    (h2 : 16 * (d.toNat / 2 ^ 16 % 2 ^ 8) ≤ 64) (h3 : d.toNat / 2 ^ 24 % 2 ^ 8 = 0) (h4 : d.toNat / 2 ^ 64 = 0) : jrecBadBit d = none := by
  have e0 : fld d 0 16 % 16 = 0 := by
    unfold fld bits
    rw [pow_zero, Nat.div_one]
    exact h0
  have e1 : ¬ (fld d 16 8 = 0 ∨ 4 < fld d 16 8) := by
    unfold fld bits
    omega
  have e3 : fld d 24 8 = 0 := h3
  have e4 : fld d 64 64 = 0 := by
    unfold fld bits
    rw [h4, Nat.zero_mod]
  unfold jrecBadBit
  rw [if_neg (not_not.mpr e0), if_neg e1, if_neg (not_not.mpr e3), if_neg (not_not.mpr e4)]

theorem accessed_setRs (write : Bool) (offs : List Int) (t : State) :
    ∃ f g, accessed write offs t = t.setRs { t.rs with spflag := f, granules := g } :=
  accessed_eq write (inOffsets t.rs.spsize.toNat offs) (outOffsets t.rs.spsize.toNat offs) t

theorem spadRd_setRs {x : Residency} (hsize : x.spsize = s.rs.spsize) (hbase : x.spbase = s.rs.spbase) (off : Int) (n : Nat) :
    spadRd (s.setRs x) off n = spadRd s off n := by
  induction n generalizing off with
  | zero => rfl
  | succ n ih =>
    rw [spadRd, spadRd, ih, spadByte, spadByte, State.setRs_rs, hsize, hbase]
    rfl

/-- A record of the descriptor d, under the JID j, joins the unsealed records of the current residency with the next number. -/
def staged (j : BitVec 16) (d : BitVec 128) (s : State) : State :=
  s.setRs { s.rs with
    jseq := s.rs.jseq + 1
    journal := { s.rs.journal with
      unsealed := s.rs.journal.unsealed ++ [⟨s.rs.jseq, BitVec.ofNat 32 (d.toNat / 2 ^ 32), j,
        BitVec.ofNat 7 (16 * (d.toNat / 2 ^ 16 % 2 ^ 8)),
        BitVec.ofNat 512 (spadRd s ((d.toNat % 2 ^ 16 : Nat) : Int) (16 * (d.toNat / 2 ^ 16 % 2 ^ 8)))⟩]
      lastStaged := s.mgr.tick } }

theorem exec_jrec_eq (hroom : roomX a s = true) (hbad : jrecBadBit (s.oxv b) = none) : exec (.jrec a b) s =
    if 256 ≤ s.rs.jseq.toNat - s.rs.journal.covered.toNat then finishX (.jrec a b) a (BitVec.allOnes 64) s
    else if stagingFull s then stall s
    else localAccess s true false (byteRange (((s.oxv b).toNat % 2 ^ 16 : Nat) : Int) (16 * ((s.oxv b).toNat / 2 ^ 16 % 2 ^ 8))) s fun s1 =>
      finishX (.jrec a b) a s1.rs.jseq (staged s.rs.journal.jid (s.oxv b) s1) := by
  have hlow : fld (s.oxv b) 0 16 = (s.oxv b).toNat % 2 ^ 16 := by
    unfold fld bits
    rw [pow_zero, Nat.div_one]
  have hsid : BitVec.ofNat 32 (fld (s.oxv b) 32 32) = BitVec.ofNat 32 ((s.oxv b).toNat / 2 ^ 32) := ofNat_bits _ _ _
  change execJrec a b s = _
  unfold execJrec
  simp only [hbad, withRoomX_eq hroom, hlow, hsid]
  rfl

/-- What staging after the access does to the state before the access. -/
theorem staged_accessed (j : BitVec 16) (d : BitVec 128) (offs : List Int) (s : State) :
    (staged j d (accessed false offs s)).rs.jseq = s.rs.jseq + 1
    ∧ (staged j d (accessed false offs s)).rs.journal.unsealed = s.rs.journal.unsealed ++ [⟨s.rs.jseq, BitVec.ofNat 32 (d.toNat / 2 ^ 32), j,
      BitVec.ofNat 7 (16 * (d.toNat / 2 ^ 16 % 2 ^ 8)),
      BitVec.ofNat 512 (spadRd s ((d.toNat % 2 ^ 16 : Nat) : Int) (16 * (d.toNat / 2 ^ 16 % 2 ^ 8)))⟩]
    ∧ (staged j d (accessed false offs s)).streams = s.streams ∧ (staged j d (accessed false offs s)).core = s.core
    ∧ (accessed false offs s).rs.jseq = s.rs.jseq := by
  obtain ⟨f, g, e⟩ := accessed_setRs false offs s
  rw [e]
  unfold staged
  simp only [State.setRs_rs, spadRd_setRs (s := s) (x := { s.rs with spflag := f, granules := g }) rfl rfl, true_and, and_true]
  exact ⟨rfl, rfl⟩

/-! ## Closing a batch (R227) -/

theorem exec_jseal_eq (hroom : roomX a s = true) : exec (.jseal a) s =
    finishX (.jseal a) a (s.rs.journal.unsealed.getLast?.elim (BitVec.allOnes 64) JSlot.num) (sealBatch s.ri s) := by
  change execJseal a s = _
  unfold execJseal
  rw [withRoomX_eq hroom]
  cases s.rs.journal.unsealed.getLast? <;> rfl

theorem sealBatch_of_none (h : s.rs.journal.unsealed = []) : sealBatch s.ri s = s := by
  have h : s.res[s.ri].journal.unsealed = [] := h
  unfold sealBatch
  exact if_pos (by rw [h]; rfl)

theorem sealBatch_of_some (h : s.rs.journal.unsealed ≠ []) : sealBatch s.ri s = s.setRs { s.rs with journal := { s.rs.journal with
    batches := s.rs.journal.batches ++ [⟨s.rs.journal.unsealed, s.rs.journal.lastStaged⟩], unsealed := [] } } := by
  unfold sealBatch
  exact if_neg (mt List.isEmpty_iff.mp h)

theorem sealBatch_standing (r : ResIx) (s : State) : Standing s (sealBatch r s) := by
  unfold sealBatch
  dsimp only
  split <;> exact ⟨rfl, rfl⟩

/-! ## Appending an emission (R228) -/

theorem emitBadBit_none {d : BitVec 128} (hlen : d.toNat / 2 ^ 120 % 2 ^ 7 ≤ 64) (hdep : d.toNat / 2 ^ 127 = 1 ∨ d.toNat % 2 ^ 64 < t.rs.jseq.toNat) :
    emitBadBit t d = none := by
  have hlow : fld d 0 64 = d.toNat % 2 ^ 64 := by
    unfold fld bits
    rw [pow_zero, Nat.div_one]
  have hlen' : ¬ 64 < fld d 120 7 := Nat.not_lt.mpr hlen
  unfold emitBadBit
  rw [fld_top, hlow, if_neg (by omega), if_neg hlen']

theorem sendChecks_of_room {n r : Nat} (h : sendRoom n r t) (s0 : State) (k : Res) : sendChecks n r false s0 t k = k := by
  obtain ⟨-, hn, hr⟩ := h
  unfold sendChecks
  rw [if_neg (Nat.not_lt.mpr hn), if_neg (Nat.not_lt.mpr hr)]
  exact if_neg Bool.false_ne_true

theorem appendEntries_appended (h : t.task ≠ none) (es : List BufEntry) : Appended es t (appendEntries es t) := by
  obtain ⟨k, hk⟩ := Option.ne_none_iff_exists'.mp h
  refine ⟨k, hk, ?_⟩
  unfold appendEntries
  simp only [hk]
  have hs (k' : Task) : (t.setTask k').rs.sinks = t.rs.sinks := by
    unfold State.setTask
    rw [State.setRs_rs]
  rw [hs]
  rfl

theorem appendEntries_st (es : List BufEntry) (t : State) : (appendEntries es t).st = t.st := by
  unfold appendEntries
  split <;> rfl

/-- The entry that EMIT appends, from its descriptor and its data. -/
def emitted (d : BitVec 128) (p : VWord) (t : State) : BufEntry :=
  .emit (newMsg t (BitVec.ofNat 32 (d.toNat / 2 ^ 64)) 0 false (BitVec.ofNat 16 (d.toNat / 2 ^ 96)) (BitVec.ofNat 8 (d.toNat / 2 ^ 112)) 0
    (d.toNat / 2 ^ 120 % 2 ^ 7) p.toNat) (decide (d.toNat / 2 ^ 127 = 1)) (d.setWidth 64)

theorem exec_emit_eq {c : Reg} {p : VWord} (hp : popV c s = some (p, t)) (hlen : (t.oxv b).toNat / 2 ^ 120 % 2 ^ 7 ≤ 64)
    (hdep : (t.oxv b).toNat / 2 ^ 127 = 1 ∨ (t.oxv b).toNat % 2 ^ 64 < t.rs.jseq.toNat) (hsend : sendRoom 1 0 t) :
    exec (.emit b c) s = retire (.emit b c) (appendEntries [emitted (t.oxv b) p t] t) := by
  have hdest : BitVec.ofNat 32 (fld (t.oxv b) 64 32) = BitVec.ofNat 32 ((t.oxv b).toNat / 2 ^ 64) := ofNat_bits _ _ _
  have hseq : BitVec.ofNat 16 (fld (t.oxv b) 96 16) = BitVec.ofNat 16 ((t.oxv b).toNat / 2 ^ 96) := ofNat_bits _ _ _
  have hhidx : BitVec.ofNat 8 (fld (t.oxv b) 112 8) = BitVec.ofNat 8 ((t.oxv b).toNat / 2 ^ 112) := ofNat_bits _ _ _
  change execEmit b c s = _
  unfold execEmit
  rw [withV_eq hp]
  simp only [emitBadBit_none hlen hdep, sendChecks_of_room hsend, hdest, hseq, hhidx, fld_low, fld_top]
  rfl

/-! ## Random numbers (R230) -/

theorem writeOx_standing (r : Reg) (v : BitVec 128) (s : State) : Standing s (writeOx r v s) := by
  unfold Standing writeOx
  rw [State.setSt_st]
  exact ⟨rfl, rfl⟩

theorem philoxBlock_lt (key ctr : BitVec 128) (i : Nat) : philoxBlock key ctr i < 2 ^ 128 := by
  have h (a b c d : BitVec 32) : a.toNat + b.toNat * 2 ^ 32 + c.toNat * 2 ^ 64 + d.toNat * 2 ^ 96 < 2 ^ 128 := by
    have := a.isLt
    have := b.isLt
    have := c.isLt
    have := d.isLt
    omega
  exact h _ _ _ _

theorem packElems_lt (w : Nat) (xs : List Nat) : packElems w xs < 2 ^ (w * xs.length) := by
  induction xs with
  | nil => exact Nat.one_pos
  | cons x xs ih =>
    have hx : x % 2 ^ w < 2 ^ w := Nat.mod_lt _ (Nat.two_pow_pos w)
    calc packElems w (x :: xs) < 2 ^ w * (packElems w xs + 1) := by rw [packElems, Nat.mul_add]; omega
      _ ≤ 2 ^ w * 2 ^ (w * xs.length) := Nat.mul_le_mul_left _ ih
      _ = 2 ^ (w * (x :: xs).length) := by rw [← Nat.pow_add, List.length_cons, Nat.mul_add, Nat.mul_one, Nat.add_comm]

theorem packElems_lt_of_le {w n : Nat} {xs : List Nat} (h : w * xs.length ≤ n) : packElems w xs < 2 ^ n :=
  Nat.lt_of_lt_of_le (packElems_lt w xs) (Nat.pow_le_pow_right Nat.two_pos h)

theorem packElems_digit {w : Nat} {xs : List Nat} {j : Nat} (hj : j < xs.length) : packElems w xs / 2 ^ (w * j) % 2 ^ w = xs[j] % 2 ^ w := by
  induction xs generalizing j with
  | nil => exact absurd hj (Nat.not_lt_zero j)
  | cons x xs ih =>
    cases j with
    | zero => rw [Nat.mul_zero, pow_zero, Nat.div_one, packElems, Nat.add_mul_mod_self_left, Nat.mod_mod, List.getElem_cons_zero]
    | succ j =>
      have hdiv : packElems w (x :: xs) / 2 ^ w = packElems w xs := by
        rw [packElems, Nat.add_mul_div_left _ _ (Nat.two_pow_pos w), Nat.div_eq_of_lt (Nat.mod_lt _ (Nat.two_pow_pos w)), Nat.zero_add]
      rw [Nat.mul_succ, Nat.add_comm (w * j), Nat.pow_add, ← Nat.div_div_eq_div_mul, hdiv, ih (Nat.lt_of_succ_lt_succ hj), List.getElem_cons_succ]

/-- An element of a vector that is packed from a list. -/
theorem elem_packed {w : Nat} {xs : List Nat} (hw : w * xs.length ≤ 512) {j : Nat} (hj : j < xs.length) (hx : xs[j] < 2 ^ w) :
    elem (BitVec.ofNat 512 (packElems w xs)) w j = xs[j] := by
  have htoNat {n : Nat} (hn : w * xs.length ≤ n) : (BitVec.ofNat n (packElems w xs)).toNat = packElems w xs :=
    Nat.mod_eq_of_lt (packElems_lt_of_le hn)
  rw [elem, bits, htoNat hw, packElems_digit hj, Nat.mod_eq_of_lt hx]

end

/-- The second half of O35. -/
theorem journalInstructions : JournalInstructions := by
  refine ⟨fun a b s hroom hf h0 h1 h2 h3 h4 => ?_, fun a s hroom hf => ⟨fun hnone => ?_, fun l x hl => ?_⟩, fun b c s t p hp hf hlen hdep hsend => ?_,
    fun a b s hroom hf => ?_⟩
  · rw [exec_jrec_eq hroom (jrecBadBit_none h0 h1 h2 h3 h4)]
    refine ⟨fun hfull => ?_, fun hroom' hst => ?_, fun hroom' hst hgo => ?_⟩
    · rw [if_pos hfull]
      exact finishX_next rfl ⟨rfl, rfl⟩ hf _
    · rw [if_neg (Nat.not_le.mpr hroom'), if_pos hst]
    · obtain ⟨hseq, hrec, hstreams, hcore, hnum⟩ := staged_accessed s.rs.journal.jid (s.oxv b)
        (byteRange (((s.oxv b).toNat % 2 ^ 16 : Nat) : Int) (16 * ((s.oxv b).toNat / 2 ^ 16 % 2 ^ 8))) s
      rw [if_neg (Nat.not_le.mpr hroom'), if_neg (by rw [hst]; exact Bool.false_ne_true), localAccess_of_goes hgo]
      refine ⟨_, ?_, hseq, hrec, hstreams, hcore⟩
      rw [hnum]
      refine finishX_next (i := .jrec a b) rfl ?_ hf _
      obtain ⟨f, g, e⟩ := accessed_setRs false (byteRange (((s.oxv b).toNat % 2 ^ 16 : Nat) : Int) (16 * ((s.oxv b).toNat / 2 ^ 16 % 2 ^ 8))) s
      rw [e]
      exact ⟨rfl, rfl⟩
  · rw [exec_jseal_eq hroom, hnone, sealBatch_of_none hnone]
    exact finishX_next rfl ⟨rfl, rfl⟩ hf _
  · have hsome : s.rs.journal.unsealed ≠ [] := by
      rw [hl]
      exact List.append_ne_nil_of_right_ne_nil l (List.cons_ne_nil x [])
    refine ⟨sealBatch s.ri s, ?_, ?_⟩
    · rw [exec_jseal_eq hroom, hl, List.getLast?_concat]
      exact finishX_next (i := .jseal a) rfl (sealBatch_standing s.ri s) hf _
    · rw [sealBatch_of_some hsome, State.setRs_rs]
      exact ⟨rfl, by rw [List.map_append]; rfl, rfl, rfl, rfl⟩
  · refine ⟨_, ?_, appendEntries_appended hsend.1 _⟩
    refine (exec_emit_eq hp hlen hdep hsend).trans (retire_of_fits ?_)
    obtain ⟨hpc, hls⟩ := popV_standing hp
    exact fits_of_standing ⟨by rw [appendEntries_st, hpc], by rw [appendEntries_st, hls]⟩ hf
  · have hone : ∀ j < 4, elem (BitVec.ofNat 512 (packElems 128 ((List.range 4).map (philoxBlock (s.oxv b) (s.oxv (b + 1)))))) 128 j
        = philoxBlock (s.oxv b) (s.oxv (b + 1)) j := by
      intro j hj
      rw [elem_packed (by simp) (by simpa using hj) (by simpa using philoxBlock_lt _ _ _), List.getElem_map, List.getElem_range]
    refine ⟨_, ?_, hone⟩
    change execRngb a b s = _
    unfold execRngb
    rw [withRoomV_eq hroom]
    exact retire_of_fits (fits_of_standing ((writeOx_standing _ _ _).trans (writeV_standing a _ _)) hf)

/-- Settles O35. -/
theorem endAndJournal : Obligations.EndAndJournal := ⟨streamEnd, journalInstructions⟩

end Sys2Proof.Spec
end

section
/-! Traps that come from outside the program (R83, R303, R304): an entry at rest, and the watchdog. -/

namespace Sys2Proof.Spec

open Sys2Proof.Machine

section
variable {s t u : State} {r : ResIx} {k : SlotIx}

/-! ## A trap taken at rest -/

theorem trap_of_idle (h : s.sliceBusy = false) (cause : Nat) (info : Word) : trap cause info s = .next (takeTrap cause s.st.pc info s) := by
  unfold trap raise
  exact if_neg (by rw [h]; exact Bool.false_ne_true)

theorem performFirst_of_none {p : Remote → Bool} (h : ∀ e ∈ s.core.remote, p e = false) : performFirst p s = s := by
  have hnone : s.core.remote.findIdx? p = none := List.findIdx?_eq_none_iff.mpr h
  simp only [performFirst, hnone]

theorem performAll_of_none {p : Remote → Bool} (h : ∀ e ∈ s.core.remote, p e = false) : performAll p s = s := by
  unfold performAll
  induction List.range (2 * s.core.remote.length) with
  | nil => rfl
  | cons n l ih => rw [List.foldl_cons, performFirst_of_none h, ih]

/-- A stream at rest has no result in flight to wait for. -/
theorem drainRemote_of_atRest (h : atRest s) : drainRemote s = s := by
  obtain ⟨hslots, hvec⟩ := h
  have hall : performAll (fun e => decide (e.slot = s.cur)) s = s := performAll_of_none fun e he => decide_eq_false (hslots e he)
  unfold drainRemote
  rw [hall]
  simp only [finishVec, hvec]

theorem vectorOf_setTask (x : Task) (cause : Nat) : vectorOf (s.setTask x) cause = vectorOf s cause := by
  unfold vectorOf State.setTask
  rw [State.setRs_rs]
  rfl

/-- A trap at level 0 or 1 whose cause has a vector enters its handler (R303). -/
theorem takeTrap_enters (hrest : atRest s) {n : Fin 2} (hn : s.st.tlevel.toNat = n.val) {cause : Nat} {h : Word} (hv : vectorOf s cause = some h)
    (epc info : Word) : ∃ t : Stream, takeTrap cause epc info s = s.setSt t ∧ t.tlevel = s.st.tlevel + 1 ∧ t.pc = h
      ∧ t.traps[n] = ⟨BitVec.ofNat 64 cause, epc &&& 0x7FFE, info, s.rs.tmsg⟩ := by
  have hbank : (if s.st.tlevel = 0 then (0 : Fin 2) else 1) = n := by
    by_cases h0 : s.st.tlevel = 0
    · rw [if_pos h0]
      rw [h0] at hn
      exact Fin.ext hn
    · rw [if_neg h0]
      have h1 : s.st.tlevel.toNat ≠ 0 := fun e => h0 (BitVec.eq_of_toNat_eq e)
      refine Fin.ext ?_
      have := n.isLt
      change 1 = n.val
      omega
  have hlow : ¬ 2 ≤ s.st.tlevel.toNat := by omega
  unfold takeTrap
  rw [drainRemote_of_atRest hrest]
  simp only [if_neg hlow, hv, hbank]
  exact ⟨_, rfl, rfl, rfl, vset_get _ _ _⟩

/-! ## The watchdog (R304, R305) -/

/-- No expiry is noted while the task has time left, or the grace for the expiry before it is not given. -/
theorem noteExpiry_of_live {x : Task} (hx : s.res[r].task = some x) (h : x.budget ≠ 0 ∨ x.graces ≠ x.expiries) : noteExpiry r s = s := by
  simp only [noteExpiry, hx]
  exact if_neg (by tauto)

theorem not_owes {x : Task} {j : SlotIx} (hexp : x.expiries < 3) (h : x.owed.getLsbD j.val = false ∧ x.owedAgain.getLsbD j.val = false) :
    x.owes j = false := by
  unfold Task.owes
  rw [decide_eq_false (Nat.not_le.mpr hexp), h.1, h.2]
  rfl

theorem wdogRank_of_not_owes {x : Task} {j : SlotIx} (h : x.owes j = false) : wdogRank s r x j = none := by
  unfold wdogRank
  exact if_neg fun hc => by
    obtain ⟨-, -, ho, -⟩ := hc
    rw [h] at ho
    exact Bool.false_ne_true ho

/-- Of a stream that enters a handler the rank is 0. -/
theorem wdogRank_of_enters {x : Task} {h : Word} (hlow : ¬ 2 ≤ s.streams[k].tlevel.toNat) (hv : vectorOf { s with cur := k } 0x1C = some h) {n : Nat}
    (hn : wdogRank s r x k = some n) : n = 0 := by
  unfold wdogRank at hn
  dsimp only at hn
  split at hn
  · have hst : ({ s with cur := k } : State).st = s.streams[k] := rfl
    rw [hst, if_neg hlow, hv] at hn
    cases hn
    rfl
  · cases hn

/-- Where no other stream owes a WDOG and this one enters its handler, this one is the first. -/
theorem wdogFirst_eq {x : Task} {h : Word} (hexp : x.expiries < 3)
    (hothers : ∀ j : SlotIx, j ≠ k → x.owed.getLsbD j.val = false ∧ x.owedAgain.getLsbD j.val = false)
    (hlow : ¬ 2 ≤ s.streams[k].tlevel.toNat) (hv : vectorOf { s with cur := k } 0x1C = some h) : wdogFirst s r x k = k := by
  have hnone (n : Nat) (hn : n ≠ 0) : (List.finRange 4).find? (fun i => decide (wdogRank s r x i = some n)) = none := by
    refine List.find?_eq_none.mpr fun i _ => ?_
    rw [decide_eq_true_eq]
    intro hi
    by_cases hik : i = k
    · subst hik
      exact hn (wdogRank_of_enters hlow hv hi)
    · rw [wdogRank_of_not_owes (not_owes hexp (hothers i hik))] at hi
      cases hi
  unfold wdogFirst
  dsimp only
  rw [hnone 2 (by decide), hnone 1 (by decide)]
  rfl

theorem takeOwed_of_owed {x : Task} (h : x.owed.getLsbD k.val = true) :
    (x.takeOwed k).owed.getLsbD k.val = false ∧ (x.takeOwed k).budget = if x.graces = 0 then 512 else x.budget := by
  have hbit : (x.owed &&& ~~~(1#4 <<< k.val)).getLsbD k.val = false := by simp
  unfold Task.takeOwed
  simp only [h, if_true]
  by_cases hg : x.graces = 0
  · rw [if_pos (by rw [hg]; exact Nat.one_pos), if_pos hg]
    exact ⟨hbit, rfl⟩
  · rw [if_neg (by omega), if_neg hg]
    exact ⟨hbit, rfl⟩

/-- A WDOG of a stream that is at an issue opportunity is taken where it is owed. -/
theorem exec_wdog_eq {x : Task} (hactive : s.streams[k].active = true) (hdue : s.streams[k].due = none) (harea : s.streams[k].area = none)
    (hx : (noteExpiry s.streams[k].res s).res[s.streams[k].res].task = some x) (howes : x.owes k = true) :
    exec (.wdog k) s = takeWdog k x (noteExpiry s.streams[k].res s) := by
  have hmid : s.streams[k].midway = false := by
    unfold Stream.midway
    rw [hdue, harea]
    rfl
  change execWdog k s = _
  simp only [execWdog, hactive, hmid, hx, howes, and_self, if_true]

/-- A WDOG that is owed and due alone enters its handler, and the task gets its grace (R304). -/
theorem wdog_enters {x : Task} {h : Word} {n : Fin 2} (hactive : s.streams[k].active = true) (hx : s.res[s.streams[k].res].task = some x)
    (howed : x.owed.getLsbD k.val = true) (hexp : x.expiries < 3) (hlive : x.budget ≠ 0 ∨ x.graces ≠ x.expiries)
    (hothers : ∀ j : SlotIx, j ≠ k → x.owed.getLsbD j.val = false ∧ x.owedAgain.getLsbD j.val = false)
    (hdue : s.streams[k].due = none) (harea : s.streams[k].area = none) (hidle : ({ s with cur := k } : State).sliceBusy = false)
    (hrest : atRest { s with cur := k }) (hn : s.streams[k].tlevel.toNat = n.val) (hv : vectorOf { s with cur := k } 0x1C = some h) :
    ∃ u, exec (.wdog k) s = .next u ∧ u.streams[k].tlevel = s.streams[k].tlevel + 1 ∧ u.streams[k].pc = h
      ∧ u.streams[k].traps[n].cause = 0x1C ∧ u.streams[k].traps[n].epc = s.streams[k].pc &&& 0x7FFE
      ∧ ∃ y, u.res[s.streams[k].res].task = some y ∧ y.owed.getLsbD k.val = false ∧ y.budget = if x.graces = 0 then 512 else x.budget := by
  have hnote := noteExpiry_of_live hx hlive
  have howes : x.owes k = true := by
    unfold Task.owes
    rw [howed, Bool.or_true, Bool.true_or]
  have hfirst : wdogFirst s s.streams[k].res x k = k := wdogFirst_eq hexp hothers (by omega) hv
  obtain ⟨hfree, hbudget⟩ := takeOwed_of_owed howed
  obtain ⟨t, ht, hlevel, hpc, htrap⟩ := takeTrap_enters (s := ({ s with cur := k } : State).setTask (x.takeOwed k)) (n := n) hrest hn
    ((vectorOf_setTask _ _).trans hv) s.streams[k].pc 0
  have hexec : exec (.wdog k) s = .next ((({ s with cur := k } : State).setTask (x.takeOwed k)).setSt t) := by
    rw [exec_wdog_eq hactive hdue harea (by rw [hnote]; exact hx) howes, hnote, ← ht]
    unfold takeWdog
    rw [if_neg (Nat.not_le.mpr hexp), hfirst]
    exact if_neg (by rw [hidle]; exact Bool.false_ne_true)
  have hst : ((({ s with cur := k } : State).setTask (x.takeOwed k)).setSt t).streams[k] = t := vset_get _ _ _
  refine ⟨_, hexec, ?_, ?_, ?_, ?_, _, congrArg Residency.task (vset_get s.res s.streams[k].res _), hfree, hbudget⟩
  · rw [hst]
    exact hlevel
  · rw [hst]
    exact hpc
  · rw [hst, htrap]
    rfl
  · rw [hst, htrap]

end

end Sys2Proof.Spec
end

section
/-! Kills (R308): what one that is carried out leaves, the kill of the third expiry (R304), and KILL. -/

namespace Sys2Proof.Spec

open Sys2Proof.Machine

section
variable {s t u : State} {r : ResIx} {k : SlotIx}

/-! ## The streams of a residency stop -/

/-- t differs from s in no stream but that of slot k, and the manager is that of s; a vector access in t is of slot k. -/
structure SlotOnly (k : SlotIx) (s t : State) : Prop where
  others : ∀ j : SlotIx, j ≠ k → t.streams[j] = s.streams[j]
  mgr : t.mgr = s.mgr
  run : ∀ q, t.core.vecRun = some q → q.slot = k

theorem vecPiece_slotOnly (p : List VecCell) {q : VecRun} (h : SlotOnly k s t) :
    SlotOnly k s (vecPiece q p t).2 ∧ (vecPiece q p t).1.slot = q.slot := by
  unfold vecPiece
  dsimp only
  split
  · exact ⟨h, rfl⟩
  · exact ⟨⟨h.others, h.mgr, h.run⟩, rfl⟩

theorem SlotOnly.setSt (h : SlotOnly k s t) (hk : t.cur = k) (x : Stream) : SlotOnly k s (t.setSt x) :=
  ⟨fun j hj => (vset_get_ne _ _ _ _ (hk.trans_ne hj.symm)).trans (h.others j hj), h.mgr, h.run⟩

theorem writeV_core (a : Reg) (v : VWord) (s : State) : (writeV a v s).core = s.core := by
  obtain ⟨-, e⟩ | ⟨q, -, ⟨-, e⟩ | ⟨x, -, e⟩⟩ := writeV_cases a v s <;> rw [e] <;> rfl

theorem SlotOnly.writeV (h : SlotOnly k s t) (hk : t.cur = k) (a : Reg) (v : VWord) : SlotOnly k s (Machine.writeV a v t) := by
  obtain ⟨-, e⟩ | ⟨q, -, ⟨-, e⟩ | ⟨x, -, e⟩⟩ := writeV_cases a v t
  · rw [e]
    exact h.setSt hk _
  · rw [e]
    exact h
  · rw [e]
    exact ⟨h.others, h.mgr, h.run⟩

/-- The end of a vector access writes its own stream alone. -/
theorem vecEnd_slotOnly {q : VecRun} (hq : q.slot = k) (h : SlotOnly k s t) : SlotOnly k s (vecEnd q t) := by
  have h1 : SlotOnly k s { t with core := { t.core with vecRun := none }, cur := q.slot } := ⟨h.others, h.mgr, nofun⟩
  have hend {v : State} (hv : SlotOnly k s v) : SlotOnly k s { v with cur := t.cur } := ⟨hv.others, hv.mgr, hv.run⟩
  unfold vecEnd
  cases q.dest with
  | none =>
    dsimp only
    exact hend (h1.setSt hq _)
  | some d =>
    dsimp only
    exact hend ((h1.setSt hq _).writeV hq _ _)

theorem vecEnd_vecRun (q : VecRun) (t : State) : (vecEnd q t).core.vecRun = none := by
  unfold vecEnd
  cases q.dest with
  | none => rfl
  | some d =>
    dsimp only
    rw [writeV_core]
    rfl

theorem vecStep_slotOnly (h : SlotOnly k s t) : SlotOnly k s (vecStep t) := by
  unfold vecStep
  split
  · exact h
  · rename_i q e
    have hq := h.run q e
    split
    · exact vecEnd_slotOnly hq h
    · rename_i p ps _
      obtain ⟨hpiece, hslot⟩ := vecPiece_slotOnly p (q := q) h
      dsimp only
      split
      · exact vecEnd_slotOnly (hslot.trans hq) hpiece
      · exact ⟨hpiece.others, hpiece.mgr, fun q' e' => by
          cases e'
          exact hslot.trans hq⟩

theorem finishVec_slotOnly (h : SlotOnly k s t) : SlotOnly k s (finishVec t) := by
  unfold finishVec
  split
  · exact h
  · exact List.foldlRecOn _ _ h fun u hu _ _ => vecStep_slotOnly hu

/-- t is s but for the streams of residency r, and no kill was reported. -/
structure Beside (r : ResIx) (s t : State) : Prop where
  others : ∀ j : SlotIx, s.streams[j].res ≠ r → t.streams[j] = s.streams[j]
  reports : t.mgr.killQueue = s.mgr.killQueue

theorem Beside.of_sameStreams (h : Beside r s t) (g : SameStreams t u) (hr : u.mgr.killQueue = t.mgr.killQueue) : Beside r s u :=
  ⟨fun j hj => by rw [g.streams]; exact h.others j hj, hr.trans h.reports⟩

theorem finishVec_beside (hany : s.core.vecRun.any (fun q => decide (s.streams[q.slot].res = r)) = true) : Beside r s (finishVec s) := by
  obtain ⟨q, hrun⟩ : ∃ q, s.core.vecRun = some q := Option.ne_none_iff_exists'.mp fun e => by
    rw [e] at hany
    exact Bool.false_ne_true hany
  rw [hrun] at hany
  have hres : s.streams[q.slot].res = r := of_decide_eq_true hany
  have hfin : SlotOnly q.slot s (finishVec s) := finishVec_slotOnly ⟨fun _ _ => rfl, rfl, fun q' e => by
    rw [hrun] at e
    cases e
    rfl⟩
  exact ⟨fun j hj => hfin.others j fun e => hj (by rw [e]; exact hres), congrArg Mgr.killQueue hfin.mgr⟩

/-- The streams of a residency stop. -/
def halted (r : ResIx) (t : State) : State :=
  { t with
    core := forgetSlot t.core (fun i => t.streams[i].active && decide (t.streams[i].res = r))
    streams := t.streams.map (fun x =>
      if x.active ∧ x.res = r then { x with active := false, loops := [], due := none, area := none, stalled := false, qm := false } else x) }

theorem Beside.halted (h : Beside r s t) : Beside r s (halted r t) := by
  refine ⟨fun j hj => ?_, h.reports⟩
  have e := h.others j hj
  have hres : t.streams[j].res ≠ r := by
    rw [e]
    exact hj
  rw [← e]
  refine (Vector.getElem_map _ _).trans (if_neg fun hc => hres hc.2)

theorem stopStreams_eq (r : ResIx) (s : State) : stopStreams r s =
    halted r (if s.core.vecRun.any (fun q => decide (s.streams[q.slot].res = r)) then finishVec s else s) := rfl

theorem stopStreams_beside (r : ResIx) (s : State) : Beside r s (stopStreams r s) := by
  rw [stopStreams_eq]
  refine Beside.halted ?_
  split
  · exact finishVec_beside ‹_›
  · exact ⟨fun _ _ => rfl, rfl⟩

theorem removeTrigger_mgr (r : ResIx) (m : Msg) (s : State) : (removeTrigger r m s).mgr = s.mgr := by
  unfold removeTrigger
  dsimp only
  split <;> rfl

theorem dropWaiting_reports (r : ResIx) (vn : Nat) (s : State) : (dropWaiting r vn s).mgr.killQueue = s.mgr.killQueue := by
  have hfold (l : List RxEntry) (t : State) : (l.foldl (fun t (e : RxEntry) => deadLetter 7 e.m t) t).mgr.killQueue = t.mgr.killQueue := by
    induction l generalizing t with
    | nil => rfl
    | cons e l ih => exact ih _
  unfold dropWaiting
  dsimp only
  split
  · exact hfold _ _
  · exact hfold _ _

/-- The trigger of the task that a kill ends leaves its queue. -/
theorem endTrigger_reports (tr : Option Trigger) (r : ResIx) (s : State) :
    (match tr with
      | some (.message m) => removeTrigger r m s
      | _ => s).mgr.killQueue = s.mgr.killQueue := by
  cases tr with
  | none => rfl
  | some x => cases x with
    | message m => exact congrArg Mgr.killQueue (removeTrigger_mgr r m s)
    | _ => rfl

/-- What a kill that is carried out leaves (R308, R309). -/
structure Killed (r : ResIx) (s u : State) : Prop where
  killed : u.res[r].killed = true
  task : u.res[r].task = none
  stopped : ∀ j : SlotIx, s.streams[j].res = r → u.streams[j].active = false
  others : ∀ j : SlotIx, s.streams[j].res ≠ r → u.streams[j] = s.streams[j]
  reported : u.mgr.killQueue.length = s.mgr.killQueue.length + 1
  unready : ∀ e ∈ u.core.readyQ, e.res ≠ r

theorem killNow_killed (r : ResIx) (slot : Option SlotIx) (reason cause : Nat) (epc info : Word) (s : State) :
    Killed r s (killNow r slot reason cause epc info s) := by
  refine ⟨congrArg Residency.killed (vset_get _ _ _), congrArg Residency.task (vset_get _ _ _),
    (killNow_stopped r slot reason cause epc info s).inactive, ?_, ?_, fun e he => of_decide_eq_true (List.mem_filter.mp he).2⟩
  all_goals
    unfold killNow
    extract_lets report trigger s1 s2 s3
    have h1 : Beside r s s1 := (stopStreams_beside r s).of_sameStreams ⟨rfl, rfl⟩ rfl
    have h2 : Beside r s s2 := h1.of_sameStreams (endTrigger_sameStreams trigger r s1) (endTrigger_reports trigger r s1)
    have h3 : Beside r s s3 :=
      h2.of_sameStreams (((dropWaiting_sameStreams r 0 s2).trans (dropWaiting_sameStreams r 1 _)).trans (dropWaiting_sameStreams r 2 _))
        (((dropWaiting_reports r 2 _).trans (dropWaiting_reports r 1 _)).trans (dropWaiting_reports r 0 s2))
    clear_value s3
  · exact h3.others
  · change (s3.mgr.killQueue ++ [report]).length = _
    rw [List.length_append, h3.reports]
    rfl

theorem killResidency_killed (hw : s.workOf r = false) (slot : Option SlotIx) (reason cause : Nat) (epc info : Word) :
    Killed r s (killResidency r slot reason cause epc info s) :=
  killResidency_cases (P := Killed r s) (fun h => by rw [hw] at h; cases h) (fun _ => killNow_killed r slot reason cause epc info s)

/-- The task of a residency whose BUDGET has stood at 0 for the third time. -/
def thirdExpiry (r : ResIx) (x : Task) (s : State) : Task := { x with owedAgain := runningSlots s r, expiries := 3 }

theorem noteExpiry_third {x : Task} (hx : s.res[r].task = some x) (hbudget : x.budget = 0) (hgraces : x.graces = 2) (hexp : x.expiries = 2) :
    noteExpiry r s = s.setRes r { s.res[r] with task := some (thirdExpiry r x s) } := by
  simp only [noteExpiry, hx]
  rw [if_pos ⟨hbudget, hgraces.trans hexp.symm⟩, if_neg (by rw [hexp]; decide)]
  simp only [hexp]
  rfl

theorem takeWdog_third {x : Task} (h : 3 ≤ x.expiries) :
    ∃ k' epc, takeWdog k x s = .next (killResidency s.streams[k].res k' 4 0x1C epc 0 { s with cur := k }) :=
  ⟨_, _, if_pos h⟩

/-- The third expiry of a task's BUDGET kills its context (R304, R308). -/
theorem wdog_third {x : Task} (hactive : s.streams[k].active = true) (hx : s.res[s.streams[k].res].task = some x) (hdue : s.streams[k].due = none)
    (harea : s.streams[k].area = none) (hbudget : x.budget = 0) (hgraces : x.graces = 2) (hexp : x.expiries = 2)
    (hw : s.workOf s.streams[k].res = false) :
    ∃ u, exec (.wdog k) s = .next u ∧ u.res[s.streams[k].res].killed = true ∧ u.mgr.killQueue.length = s.mgr.killQueue.length + 1 := by
  have hnote := noteExpiry_third hx hbudget hgraces hexp
  obtain ⟨u, hu⟩ : ∃ u, u = noteExpiry s.streams[k].res s := ⟨_, rfl⟩
  rw [hnote] at hu
  have htask : u.res[s.streams[k].res].task = some (thirdExpiry s.streams[k].res x s) := by
    rw [hu]
    exact congrArg Residency.task (vset_get _ _ _)
  have hwork : ({ u with cur := k } : State).workOf s.streams[k].res = false := by
    rw [hu]
    exact hw
  have hres : u.streams[k].res = s.streams[k].res := by
    rw [hu]
    rfl
  have hmgr : u.mgr = s.mgr := by
    rw [hu]
    rfl
  obtain ⟨k', epc, htake⟩ := takeWdog_third (k := k) (s := u) (x := thirdExpiry s.streams[k].res x s) (Nat.le_refl 3)
  have hexec : exec (.wdog k) s = takeWdog k (thirdExpiry s.streams[k].res x s) u := by
    rw [exec_wdog_eq hactive hdue harea (x := thirdExpiry s.streams[k].res x s) (by rw [hnote, ← hu]; exact htask) rfl, hnote, ← hu]
  rw [hres] at htake
  have hkill := killResidency_killed hwork k' 4 0x1C epc 0
  refine ⟨_, hexec.trans htake, hkill.killed, ?_⟩
  rw [hkill.reported, ← hmgr]

/-- KILL of a context whose slice work goes on is kept until it has ended (R162). -/
theorem kill_waits (hstate : s.res[r].state ≠ .free) (halive : s.res[r].killed = false) (hw : s.workOf r = true) :
    ∃ u, exec (.kill r) s = .next u ∧ u.res[r].killDue ≠ none ∧ u.res[r].killed = false ∧ u.streams = s.streams ∧ u.core = s.core := by
  have hexec : exec (.kill r) s = .next (killResidency r (reportSlot r 3 s) 3 0 0 0 s) := if_pos ⟨hstate, halive⟩
  have hdue : killResidency r (reportSlot r 3 s) 3 0 0 0 s = s.setRes r { s.res[r] with
      killDue := some (s.res[r].killDue.getD ⟨reportSlot r 3 s, 3, 0, 0, 0⟩) } := if_pos hw
  have hget (x : Residency) : (s.setRes r x).res[r] = x := vset_get _ _ _
  rw [hdue] at hexec
  refine ⟨_, hexec, ?_, ?_, rfl, rfl⟩
  · rw [hget]
    exact Option.some_ne_none _
  · rw [hget]
    exact halive

/-- KILL of a context without slice work is carried out (R308). -/
theorem kill_now (hstate : s.res[r].state ≠ .free) (halive : s.res[r].killed = false) (hw : s.workOf r = false) :
    ∃ u, exec (.kill r) s = .next u ∧ Killed r s u :=
  ⟨_, if_pos ⟨hstate, halive⟩, killResidency_killed hw _ _ _ _ _⟩

end

end Sys2Proof.Spec
end

section
/-! Residencies (R36, R37, R39): the release of one without work, the end of a clearing, and the move of an overflow chain's head. -/

namespace Sys2Proof.Spec

open Sys2Proof.Machine

section
variable {s t u : State} {r : ResIx}

/-! ## Release -/

/-- The residency of index r holds nothing: no reservation, no slots and no task. -/
structure Vacant (r : ResIx) (s : State) : Prop where
  state : s.res[r].state = .free
  spsize : s.res[r].spsize = 0
  task : s.res[r].task = none
  slots : s.res[r].slots = 0

theorem Vacant.of_res (h : Vacant r s) (hr : t.res[r] = s.res[r]) : Vacant r t := by
  obtain ⟨hstate, hsize, htask, hslots⟩ := h
  exact ⟨by rw [hr, hstate], by rw [hr, hsize], by rw [hr, htask], by rw [hr, hslots]⟩

/-- Another residency, or this one with what it holds, is written. -/
theorem Vacant.setRes (h : Vacant r s) (k : ResIx) {x : Residency} (hstate : x.state = s.res[k].state) (hsize : x.spsize = s.res[k].spsize)
    (htask : x.task = s.res[k].task) (hslots : x.slots = s.res[k].slots) : Vacant r (s.setRes k x) := by
  by_cases hk : k = r
  · subst hk
    have e : (s.setRes k x).res[k] = x := vset_get _ _ _
    exact ⟨by rw [e, hstate, h.state], by rw [e, hsize, h.spsize], by rw [e, htask, h.task], by rw [e, hslots, h.slots]⟩
  · exact h.of_res (vset_get_ne _ _ _ _ hk)

theorem Vacant.setRecWord (h : Vacant r s) (k : ResIx) (off v : Nat) : Vacant r (setRecWord s k off v) := h.of_res rfl

theorem Vacant.setRecBit (h : Vacant r s) (k : ResIx) (off bit : Nat) (b : Bool) : Vacant r (setRecBit s k off bit b) := h.of_res rfl

theorem Vacant.readyRecord (h : Vacant r s) (k : ResIx) (off : Nat) : Vacant r (readyRecord k off s) := by
  have h1 : Vacant r (s.setRes k { s.res[k] with armed := s.res[k].armed.filter (· ≠ off) }) := h.setRes k rfl rfl rfl rfl
  have henqueue {v : State} (hv : Vacant r v) : Vacant r (enqueueReady k off v) := by
    unfold enqueueReady
    split
    · exact hv.of_res rfl
    · dsimp only
      refine Vacant.setRes ?_ k rfl rfl rfl rfl
      split
      · exact hv.setRecWord k _ _
      · exact (hv.setRecWord k _ _).setRecWord k _ _
  unfold Machine.readyRecord
  dsimp only
  split
  · exact h1.setRecBit k off 50 true
  · exact henqueue (h1.setRecBit k off 49 true)

theorem Vacant.decRecord (h : Vacant r s) (k : ResIx) (off n : Nat) : Vacant r (decRecord k off n s) := by
  unfold Machine.decRecord
  split
  · exact h
  · dsimp only
    split
    · exact ((h.setRecWord k off _).setRecBit k off 48 false).readyRecord k off
    · exact h.setRecWord k off _

theorem Vacant.continueAt (h : Vacant r s) (gang : BitVec 16) (scope : BitVec 3) (off : Word) : Vacant r (continueAt gang scope off s) := by
  unfold Machine.continueAt
  split
  · rename_i k _
    have h1 : Vacant r (s.setRes k { s.res[k] with arrivals := s.res[k].arrivals.filter (fun a => decide (a.1 ≠ scope)) }) :=
      h.setRes k rfl rfl rfl rfl
    dsimp only
    split
    · exact h1
    · split
      · exact h1.of_res rfl
      · exact h1.decRecord k _ _
  · split
    · exact h
    · dsimp only
      split
      · exact h.of_res rfl
      · exact h.of_res rfl

theorem Vacant.advancePhase (h : Vacant r s) (gang : BitVec 16) : Vacant r (advancePhase gang s) := by
  refine h.of_res ((Vector.getElem_map _ _).trans (if_neg fun hc => hc.1 h.state))

theorem Vacant.releaseBarrier (h : Vacant r s) (gang : BitVec 16) (scope : BitVec 3) (core : BitVec 32) :
    Vacant r (releaseBarrier gang scope core s) := by
  unfold Machine.releaseBarrier
  split
  · extract_lets mine net s1 s2
    have h1 : Vacant r s1 := h.of_res rfl
    have h2 : Vacant r s2 := by
      simp only [s2]
      split
      · exact h1.advancePhase gang
      · exact h1
    clear_value s2 mine
    split
    · exact h2
    · exact h2.continueAt _ _ _
  · exact h

theorem Vacant.leaveGang (h : Vacant r s) (gang : BitVec 16) (core : BitVec 32) (killed : Bool) : Vacant r (leaveGang gang core killed s) := by
  unfold Machine.leaveGang
  dsimp only
  split
  · exact h.of_res rfl
  · unfold leaveBarriers
    exact List.foldlRecOn _ _ (h.of_res rfl) fun u hu n _ => hu.releaseBarrier _ _ _

theorem returnResidency_vacant (r : ResIx) (s : State) : Vacant r (returnResidency r s) := by
  have hfree (v : State) (x : Residency) : Vacant r (v.setRes r { Residency.free with
      journal := x.journal, jseq := x.jseq, jack := x.jack, asid := x.asid, gen := x.gen }) := by
    have e : (v.setRes r { Residency.free with
      journal := x.journal, jseq := x.jseq, jack := x.jack, asid := x.asid, gen := x.gen }).res[r] = _ := vset_get _ _ _
    exact ⟨by rw [e]; rfl, by rw [e]; rfl, by rw [e]; rfl, by rw [e]; rfl⟩
  unfold returnResidency
  exact (hfree _ _).leaveGang _ _ _

theorem exec_residencyRelease (h : releasable s r = true) : exec (.residencyRelease r) s = .next (returnResidency r s) := by
  change orStay (if releasable s r then some (returnResidency r s) else none) s = _
  rw [if_pos h]
  rfl

/-! ## The end of a clearing -/

theorem clearEnd_clears (hclear : s.res[r].clearing = true) (hscan : s.inScan = false) :
    ∃ u, exec (.reservationClearEnd r) s = .next u ∧ u.res[r].clearing = false
      ∧ (s.res[r].state = .running → s.res[r].launchHeld = true → u.res[r].launchReady = true) := by
  change ∃ u, orStay (tryClearEnd r s) s = .next u ∧ _
  unfold tryClearEnd
  simp only [hclear, hscan, and_self, if_true]
  split
  · exact ⟨_, rfl, congrArg Residency.clearing (vset_get _ _ _), fun _ _ => congrArg Residency.launchReady (vset_get _ _ _)⟩
  · rename_i hn
    exact ⟨_, rfl, congrArg Residency.clearing (vset_get _ _ _), fun h1 h2 => absurd ⟨h1, h2⟩ hn⟩

/-! ## The head of an overflow chain -/

theorem overflowMove_moves {off : Nat} (hhead : s.res[r].ovHead = some off) (hroom : s.core.readyQ.length < 16) (hscan : s.inScan = false) :
    ∃ u, exec (.overflowChainMove r) s = .next u ∧ u.core.readyQ = s.core.readyQ ++ [⟨r, off, s.core.cycle.toNat⟩] ∧ u.core.spad = s.core.spad
      ∧ u.streams = s.streams := by
  change ∃ u, orStay (tryOverflowMove r s) s = .next u ∧ _
  unfold tryOverflowMove
  simp only [hhead]
  rw [if_pos ⟨hroom, hscan⟩]
  exact ⟨_, rfl, rfl, rfl, rfl⟩

end

end Sys2Proof.Spec
end

section
/-! Pending accesses (R112, R120, R126, R127, R132): the bytes that one reads and stores at its target, and the bank accesses of which it is made. -/

namespace Sys2Proof.Spec

open Sys2Proof.Machine

section
variable {s t u : State} {e : Remote}

/-! ## Numbers of bytes -/

/-- The little-endian number of n bytes from an offset. -/
def bytesFrom (b : Nat → Byte) (off : Nat) : Nat → Nat
  | 0 => 0
  | n + 1 => (b off).toNat + 2 ^ 8 * bytesFrom b (off + 1) n

theorem bytesFrom_digit {b : Nat → Byte} {n : Nat} : ∀ {off j : Nat}, j < n → BitVec.ofNat 8 (bytesFrom b off n / 2 ^ (8 * j)) = b (off + j) := by
  induction n with
  | zero => exact fun h => absurd h (Nat.not_lt_zero _)
  | succ n ih =>
    intro off j hj
    have hb := (b off).isLt
    cases j with
    | zero =>
      refine BitVec.eq_of_toNat_eq ?_
      rw [BitVec.toNat_ofNat, Nat.mul_zero, Nat.pow_zero, Nat.div_one, bytesFrom, Nat.add_mul_mod_self_left, Nat.mod_eq_of_lt hb]
      rfl
    | succ j =>
      have hdiv : bytesFrom b off (n + 1) / 2 ^ 8 = bytesFrom b (off + 1) n := by
        rw [bytesFrom]
        omega
      rw [Nat.mul_succ, Nat.add_comm (8 * j), Nat.pow_add, ← Nat.div_div_eq_div_mul, hdiv, ih (Nat.lt_of_succ_lt_succ hj), Nat.add_right_comm]
      rfl

theorem bytesFrom_lt (b : Nat → Byte) (n : Nat) : ∀ off, bytesFrom b off n < 2 ^ (8 * n) := by
  induction n with
  | zero => exact fun _ => Nat.one_pos
  | succ n ih =>
    intro off
    have hb := (b off).isLt
    have hrest := ih (off + 1)
    rw [bytesFrom, Nat.mul_succ, Nat.pow_add]
    omega

/-- The bytes of which some are read as 0: those from the length on. -/
theorem bytesFrom_beyond {b : Nat → Byte} {off n j : Nat} (h : n ≤ j) : BitVec.ofNat 8 (bytesFrom b off n / 2 ^ (8 * j)) = 0 := by
  have hlt : bytesFrom b off n < 2 ^ (8 * j) := Nat.lt_of_lt_of_le (bytesFrom_lt b n off) (Nat.pow_le_pow_right Nat.two_pos (Nat.mul_le_mul_left 8 h))
  rw [Nat.div_eq_of_lt hlt]
  rfl

/-! ## What a pending access reads -/

/-- The byte of a residency's reservation; 0 out of range. -/
def ownByte (s : State) (r : ResIx) (o : Nat) : Byte :=
  if o < s.res[r].spsize.toNat then readByte s.core.spad (s.res[r].spbase.toNat + o) else 0

theorem ownRd_eq (s : State) (r : ResIx) (n : Nat) : ∀ off, ownRd s r off n = bytesFrom (ownByte s r) off n := by
  induction n with
  | zero => exact fun _ => rfl
  | succ n ih =>
    intro off
    have hbyte : (if off < s.res[r].spsize.toNat then (readByte s.core.spad (s.res[r].spbase.toNat + off)).toNat else 0)
        = (ownByte s r off).toNat := by
      unfold ownByte
      split <;> rfl
    rw [ownRd, bytesFrom, hbyte, ih]

theorem mateRd_eq (m : MateRes) (n : Nat) : ∀ off, m.rd off n = bytesFrom m.byte off n := by
  induction n with
  | zero => exact fun _ => rfl
  | succ n ih =>
    intro off
    rw [MateRes.rd, bytesFrom, ih]

/-- The byte that a pending access finds at its target while the offset was in range at its commit. -/
def nowByte (s : State) (e : Remote) (o : Nat) : Byte :=
  if e.target = s.coreInQuad then ownByte s e.res o else (targetMate s e).elim 0 (fun m => m.byte o)

theorem targetRd_eq (s : State) (e : Remote) (off n : Nat) : targetRd s e off n = bytesFrom (nowByte s e) off (e.kept off n) := by
  have hzero (m : Nat) : ∀ off, bytesFrom (fun _ => 0) off m = 0 := by
    induction m with
    | zero => exact fun _ => rfl
    | succ m ih =>
      intro off
      rw [bytesFrom, ih]
      rfl
  unfold targetRd Remote.own
  by_cases h : e.target = s.coreInQuad
  · have hb : nowByte s e = ownByte s e.res := funext fun o => if_pos h
    rw [if_pos (decide_eq_true h), ownRd_eq, hb]
  · have hb : nowByte s e = fun o => (targetMate s e).elim 0 (fun m => m.byte o) := funext fun o => if_neg h
    rw [if_neg (mt of_decide_eq_true h), hb]
    cases targetMate s e with
    | none => exact (hzero _ _).symm
    | some m => exact mateRd_eq m _ _

theorem targetByte_eq (s : State) (e : Remote) (o : Nat) : targetByte s e o = if e.size ≤ o then 0 else nowByte s e o := rfl

/-- A byte of what a pending access reads is that of its target. -/
theorem targetRd_digit (s : State) (e : Remote) {o n j : Nat} (hj : j < n) :
    BitVec.ofNat 8 (targetRd s e o n / 2 ^ (8 * j)) = targetByte s e (o + j) := by
  rw [targetRd_eq, targetByte_eq]
  by_cases hsize : e.size ≤ o + j
  · rw [if_pos hsize, bytesFrom_beyond]
    unfold Remote.kept
    omega
  · rw [if_neg hsize, bytesFrom_digit]
    unfold Remote.kept
    omega

/-! ## What a pending access stores -/

/-- The low n bytes of v put at an offset of a reservation of a size at a base; those out of range are dropped. -/
def putBytes (base size : Nat) (m : Mem) (off : Nat) : Nat → Nat → Mem
  | 0, _ => m
  | n + 1, v => putBytes base size (if off < size then writeByte m (base + off) (BitVec.ofNat 8 v) else m) (off + 1) n (v / 2 ^ 8)

theorem putBytes_wf_step {m : Mem} (h : Memory.wf m = true) (base size off : Nat) (b : Byte) :
    Memory.wf (if off < size then writeByte m (base + off) b else m) = true := by
  split
  · exact Memory.wf_writeByte m _ b h
  · exact h

/-- Bytes before those that are put stay. -/
theorem readByte_putBytes_before {base size n : Nat} : ∀ {m : Mem} {off v p : Nat}, Memory.wf m = true → p < base + off →
    readByte (putBytes base size m off n v) p = readByte m p := by
  induction n with
  | zero => exact fun _ _ => rfl
  | succ n ih =>
    intro m off v p hm hp
    rw [putBytes, ih (putBytes_wf_step hm base size off _) (by omega)]
    split
    · exact readByte_writeByte_ne m _ _ _ hm (by omega)
    · rfl

/-- The bytes that are put. -/
theorem readByte_putBytes {base size n : Nat} : ∀ {m : Mem} {off v j : Nat}, Memory.wf m = true → j < n → off + j < size →
    readByte (putBytes base size m off n v) (base + (off + j)) = BitVec.ofNat 8 (v / 2 ^ (8 * j)) := by
  induction n with
  | zero => exact fun _ h _ => absurd h (Nat.not_lt_zero _)
  | succ n ih =>
    intro m off v j hm hj hsize
    cases j with
    | zero =>
      rw [putBytes, readByte_putBytes_before (putBytes_wf_step hm base size off _) (by omega), Nat.add_zero, if_pos (c := off < size) hsize,
        readByte_writeByte _ _ _ hm, Nat.mul_zero, Nat.pow_zero, Nat.div_one]
    | succ j =>
      have hnext := ih (v := v / 2 ^ 8) (putBytes_wf_step hm base size off (BitVec.ofNat 8 v)) (Nat.lt_of_succ_lt_succ hj)
        (by omega : off + 1 + j < size)
      rw [Nat.div_div_eq_div_mul, ← Nat.pow_add] at hnext
      rw [putBytes, show off + (j + 1) = off + 1 + j by omega, hnext, show 8 * (j + 1) = 8 + 8 * j by omega]

theorem ownWr_putBytes (r : ResIx) (n : Nat) : ∀ (off v : Nat) (s : State), ownWr r off n v s =
    withSpad (putBytes s.res[r].spbase.toNat s.res[r].spsize.toNat s.core.spad off n v) s := by
  induction n with
  | zero => exact fun _ _ _ => rfl
  | succ n ih =>
    intro off v s
    rw [ownWr, ih, putBytes]
    split <;> rfl

theorem mateWr_putBytes (n : Nat) : ∀ (off v : Nat) (m : MateRes), m.wr off n v = { m with mem := putBytes 0 m.spsize.toNat m.mem off n v } := by
  induction n with
  | zero => exact fun _ _ _ => rfl
  | succ n ih =>
    intro off v m
    rw [MateRes.wr, ih, putBytes, Nat.zero_add]
    split <;> rfl

/-- A store at this core's own reservation changes the scratchpad alone. -/
theorem ownStore_spad (r : ResIx) (off n v : Nat) (s : State) : ∃ b, ownStore r off n v s =
    withBad b (withSpad (putBytes s.res[r].spbase.toNat s.res[r].spsize.toNat s.core.spad off n v) s) := by
  unfold ownStore
  rw [ownWr_putBytes]
  exact ⟨_, rfl⟩

theorem mateStore_mem (m : MateRes) (off n v : Nat) : ∃ b, m.store off n v = { m with mem := putBytes 0 m.spsize.toNat m.mem off n v, bad := b } := by
  unfold MateRes.store
  rw [mateWr_putBytes]
  exact ⟨_, rfl⟩

/-- A quad-mate's residency is of a gang and is not killed (R308). -/
def heldBy (gang : BitVec 16) (m : MateRes) : Bool := decide (m.gang = gang) && !m.killed

theorem mateRes_eq (s : State) (k : Fin 4) (gang : BitVec 16) : mateRes s k gang = s.quad.mates[k].residencies.find? (heldBy gang) := rfl

theorem mateRes_gang {k : Fin 4} {gang : BitVec 16} {m : MateRes} (h : mateRes s k gang = some m) :
    m ∈ s.quad.mates[k].residencies ∧ m.gang = gang ∧ m.killed = false := by
  have hp := List.find?_some h
  rw [Bool.and_eq_true, decide_eq_true_eq, Bool.not_eq_true'] at hp
  exact ⟨List.mem_of_find?_eq_some h, hp⟩

/-- The residency of a gang at a quad-mate is the one that was put there. -/
theorem mateRes_setMateRes {k : Fin 4} {gang : BitVec 16} {m m' : MateRes} (h : mateRes s k gang = some m) (hg : m'.gang = m.gang)
    (hk : m'.killed = m.killed) : mateRes (setMateRes s k m') k gang = some m' := by
  obtain ⟨hmem, hgang, halive⟩ := mateRes_gang h
  have hlist : (setMateRes s k m').quad.mates[k].residencies = s.quad.mates[k].residencies.map (fun y => if y.gang = m'.gang then m' else y) :=
    congrArg Mate.residencies (vset_get _ _ _)
  have hnew : heldBy gang m' = true := by
    unfold heldBy
    rw [hg, hgang, hk, halive, decide_eq_true rfl]
    rfl
  have hput : heldBy gang ∘ (fun y => if y.gang = m'.gang then m' else y) = fun y => decide (y.gang = gang) := funext fun y => by
    rw [Function.comp_apply, hg, hgang]
    by_cases hy : y.gang = gang
    · rw [if_pos hy, hnew, decide_eq_true hy]
    · rw [if_neg hy, heldBy, decide_eq_false hy]
      rfl
  have hfirst : ∃ y, s.quad.mates[k].residencies.find? (fun y => decide (y.gang = gang)) = some y :=
    Option.ne_none_iff_exists'.mp fun hnone => List.find?_eq_none.mp hnone m hmem (decide_eq_true hgang)
  obtain ⟨y, hy⟩ := hfirst
  have hyg : y.gang = m'.gang := (of_decide_eq_true (List.find?_some (p := fun y : MateRes => decide (y.gang = gang)) hy)).trans (hg.trans hgang).symm
  rw [mateRes_eq, hlist, List.find?_map, hput, hy]
  exact congrArg some (if_pos hyg)

theorem targetWr_keeps (e : Remote) (off n v : Nat) (s : State) : (targetWr e off n v s).streams = s.streams ∧ (targetWr e off n v s).res = s.res
    ∧ (targetWr e off n v s).core.remote = s.core.remote ∧ (targetWr e off n v s).coreInQuad = s.coreInQuad := by
  unfold targetWr
  split
  · obtain ⟨b, h⟩ := ownStore_spad e.res off (e.kept off n) v s
    rw [h]
    exact ⟨rfl, rfl, rfl, rfl⟩
  · split
    · exact ⟨rfl, rfl, rfl, rfl⟩
    · exact ⟨rfl, rfl, rfl, rfl⟩

/-- What a store puts at its target is read there. -/
theorem targetByte_targetWr {off n v j : Nat} (hm : s.memoriesWf) (hc : s.copiesWf) (hj : j < n) (hold : targetHolds s e (off + j)) :
    targetByte (targetWr e off n v s) e (off + j) = BitVec.ofNat 8 (v / 2 ^ (8 * j)) := by
  obtain ⟨hsize, hin⟩ := hold
  have hkept : j < e.kept off n := by
    unfold Remote.kept
    omega
  have hcore := (targetWr_keeps e off n v s).2.2.2
  rw [targetByte_eq, if_neg (Nat.not_le.mpr hsize), nowByte, hcore]
  unfold targetWr Remote.own
  by_cases h : e.target = s.coreInQuad
  · rw [if_pos h] at hin
    obtain ⟨b, hstore⟩ := ownStore_spad e.res off (e.kept off n) v s
    rw [if_pos h, if_pos (decide_eq_true h), hstore]
    exact (if_pos hin).trans (readByte_putBytes hm.1 hkept hin)
  · rw [if_neg h] at hin
    obtain ⟨m, hmate, hin⟩ := hin
    have hmate' : targetMate s e = some m := hmate
    rw [if_neg h, if_neg (mt of_decide_eq_true h)]
    simp only [hmate']
    obtain ⟨b, hstore⟩ := mateStore_mem m off (e.kept off n) v
    have hnew : targetMate (setMateRes s ⟨e.target.toNat, e.target.isLt⟩ (m.store off (e.kept off n) v)) e = some (m.store off (e.kept off n) v) :=
      mateRes_setMateRes hmate (by rw [hstore]) (by rw [hstore])
    rw [hnew, hstore]
    have hput := readByte_putBytes (base := 0) (v := v) (hc.1 _ m (mateRes_gang hmate).1) hkept hin
    rw [Nat.zero_add] at hput
    exact (if_pos hin).trans hput

/-! ## The bank accesses of a pending access -/

/-- The first of a stream's accesses to its target is performed (R127). -/
theorem exec_quadRemotePerform {i : Nat} (he : s.core.remote[i]? = some e)
    (hfirst : ∀ x ∈ s.core.remote.take i, ¬ (x.slot = e.slot ∧ x.res = e.res ∧ x.target = e.target)) :
    exec (.quadRemotePerform i) s = .next (performRemote i s) := by
  have hnone : ¬ (s.core.remote.take i).any (fun (x : Remote) => decide (x.slot = e.slot ∧ x.res = e.res ∧ x.target = e.target)) = true := by
    rw [List.any_eq_true]
    rintro ⟨x, hx, h⟩
    exact hfirst x hx (of_decide_eq_true h)
  change orStay (tryRemotePerform i s) s = _
  simp only [tryRemotePerform, he]
  rw [if_neg hnone]
  rfl

/-- The bytes that the access has before it in its present bank. -/
def bankPart (e : Remote) : Nat := firstPart (e.off.toNat + e.done) (e.n - e.done) e.size

theorem bankPart_of_last (hdone : e.done < e.n) (h : lastBank e) : e.done + bankPart e = e.n := by
  have hpart : bankPart e = e.n - e.done := if_neg fun hc => h ⟨by
    have := hc.1
    unfold nextBank
    omega, hc.2⟩
  omega

theorem bankPart_of_not_last (h : ¬ lastBank e) :
    e.done + bankPart e = nextBank (e.off.toNat + e.done) - e.off.toNat ∧ e.done + bankPart e < e.n := by
  obtain ⟨hn, hsize⟩ := not_not.mp h
  have hlow : e.off.toNat + e.done < nextBank (e.off.toNat + e.done) := by
    unfold nextBank
    omega
  have hpart : bankPart e = nextBank (e.off.toNat + e.done) - (e.off.toNat + e.done) := if_pos ⟨by
    change nextBank (e.off.toNat + e.done) < _
    omega, hsize⟩
  omega

/-- The state once the bytes of the present bank are stored, if the access is a store. -/
def banked (e : Remote) (s : State) : State :=
  if e.write then targetWr e (e.off.toNat + e.done) (bankPart e) (e.data.toNat / 2 ^ (8 * e.done)) s else s

/-- What the access has read with its present bank. -/
def bankRead (e : Remote) (s : State) : Nat := e.low + 2 ^ (8 * e.done) * targetRd s e (e.off.toNat + e.done) (bankPart e)

theorem banked_keeps (e : Remote) (s : State) :
    (banked e s).streams = s.streams ∧ (banked e s).res = s.res ∧ (banked e s).core.remote = s.core.remote := by
  unfold banked
  split
  · obtain ⟨h1, h2, h3, -⟩ := targetWr_keeps e (e.off.toNat + e.done) (bankPart e) (e.data.toNat / 2 ^ (8 * e.done)) s
    exact ⟨h1, h2, h3⟩
  · exact ⟨rfl, rfl, rfl⟩

theorem performRemote_eq {i : Nat} (he : s.core.remote[i]? = some e) : performRemote i s =
    if e.done + bankPart e < e.n then
      withRemote ((banked e s).core.remote.set i { e with done := e.done + bankPart e, low := bankRead e s }) (banked e s)
    else if e.write then withRemote ((banked e s).core.remote.eraseIdx i) (banked e s)
    else deliverLoad e (bankRead e s) (withRemote ((banked e s).core.remote.eraseIdx i) (banked e s)) := by
  simp only [performRemote, he]
  rfl

theorem performRemote_of_not_last {i : Nat} (he : s.core.remote[i]? = some e) (h : ¬ lastBank e) :
    ∃ low, (performRemote i s).streams = s.streams ∧ (performRemote i s).res = s.res
      ∧ (performRemote i s).core.remote = s.core.remote.set i { e with done := nextBank (e.off.toNat + e.done) - e.off.toNat, low := low } := by
  obtain ⟨hdone, hlt⟩ := bankPart_of_not_last h
  obtain ⟨hstreams, hres, hremote⟩ := banked_keeps e s
  refine ⟨bankRead e s, ?_⟩
  rw [performRemote_eq he, if_pos hlt, ← hdone, ← hremote]
  exact ⟨hstreams, hres, rfl⟩

/-- A load's result of four bytes, sign-extended. -/
theorem wrap_sextNat (v : Nat) : (wrap 64 (sextNat v (8 * 4)) : Word) = (BitVec.ofNat 32 v).signExtend 64 := by
  have h : (BitVec.ofNat 32 v).toInt = sextNat v (8 * 4) := by
    rw [BitVec.toInt_eq_toNat_cond, BitVec.toNat_ofNat]
    rfl
  rw [BitVec.signExtend, h]
  rfl

theorem deliverLoad_core (e : Remote) (v : Nat) (s : State) : (deliverLoad e v s).core = s.core := by
  unfold deliverLoad
  dsimp only
  split
  · split <;> rfl
  · split <;> rfl

theorem deliverLoad_register {v : Nat} (hq : e.queued = false) (ha : s.streams[e.slot].active = true) (hr : s.streams[e.slot].res = e.res)
    (hrd : e.rd ≠ 0) : (deliverLoad e v s).streams[e.slot].getX e.rd = if e.signed then wrap 64 (sextNat v (8 * e.n)) else BitVec.ofNat 64 v := by
  have hwrite (w : Word) : (vset s.streams e.slot (s.streams[e.slot].putX e.rd w))[e.slot].getX e.rd = w := by
    have hget : (vset s.streams e.slot (s.streams[e.slot].putX e.rd w))[e.slot] = s.streams[e.slot].putX e.rd w := vset_get _ _ _
    rw [hget, Stream.getX, if_neg hrd, Stream.putX, if_neg hrd]
    exact vset_get _ _ _
  unfold deliverLoad
  simp only [hq, ha, hr, and_self, if_true, Bool.false_eq_true, if_false]
  exact hwrite _

/-- The state after the last bank access, before a load delivers its value. -/
def lastBanked (i : Nat) (e : Remote) (s : State) : State := withRemote (s.core.remote.eraseIdx i) (banked e s)

theorem performRemote_of_last {i : Nat} (he : s.core.remote[i]? = some e) (hdone : e.done < e.n) (h : lastBank e) :
    performRemote i s = if e.write then lastBanked i e s else deliverLoad e (bankRead e s) (lastBanked i e s) := by
  have hpart := bankPart_of_last hdone h
  rw [performRemote_eq he, if_neg (by omega), lastBanked, (banked_keeps e s).2.2]

theorem performRemote_remote {i : Nat} (he : s.core.remote[i]? = some e) (hdone : e.done < e.n) (h : lastBank e) :
    (performRemote i s).core.remote = s.core.remote.eraseIdx i := by
  rw [performRemote_of_last he hdone h]
  split
  · rfl
  · rw [deliverLoad_core]
    rfl

/-- The value that a load brings with its last bank access. -/
theorem bankRead_of_last (hdone : e.done < e.n) (h : lastBank e) (s : State) :
    bankRead e s = e.low + 2 ^ (8 * e.done) * targetRd s e (e.off.toNat + e.done) (e.n - e.done) := by
  have hpart := bankPart_of_last hdone h
  rw [bankRead, show bankPart e = e.n - e.done by omega]

theorem performRemote_register {i : Nat} (he : s.core.remote[i]? = some e) (hdone : e.done < e.n) (h : lastBank e) (hw : e.write = false)
    (hq : e.queued = false) (ha : s.streams[e.slot].active = true) (hr : s.streams[e.slot].res = e.res) (hrd : e.rd ≠ 0) :
    (performRemote i s).streams[e.slot].getX e.rd =
      if e.signed then wrap 64 (sextNat (bankRead e s) (8 * e.n)) else BitVec.ofNat 64 (bankRead e s) := by
  have hst : (lastBanked i e s).streams = s.streams := (banked_keeps e s).1
  rw [performRemote_of_last he hdone h, if_neg (by rw [hw]; exact Bool.false_ne_true)]
  refine deliverLoad_register hq ?_ ?_ hrd
  · rw [hst]
    exact ha
  · rw [hst]
    exact hr

theorem performRemote_stores {i : Nat} (he : s.core.remote[i]? = some e) (hdone : e.done < e.n) (h : lastBank e) (hw : e.write = true) :
    (performRemote i s).streams = s.streams ∧ (performRemote i s).res = s.res ∧ (s.memoriesWf → s.copiesWf → ∀ j < e.n, e.done ≤ j →
      targetHolds s e (e.off.toNat + j) →
      targetByte (performRemote i s) e (e.off.toNat + j) = BitVec.ofNat 8 (e.data.toNat / 2 ^ (8 * j))) := by
  have hpart := bankPart_of_last hdone h
  obtain ⟨hstreams, hres, -⟩ := banked_keeps e s
  rw [performRemote_of_last he hdone h, if_pos hw]
  refine ⟨hstreams, hres, fun hm hc j hj hdj hold => ?_⟩
  obtain ⟨d, rfl⟩ := Nat.exists_eq_add_of_le hdj
  rw [← Nat.add_assoc] at hold ⊢
  have hbyte := targetByte_targetWr (n := bankPart e) (v := e.data.toNat / 2 ^ (8 * e.done)) (j := d) hm hc (by omega) hold
  rw [Nat.div_div_eq_div_mul, ← Nat.pow_add, ← Nat.mul_add] at hbyte
  rw [← hbyte]
  unfold lastBanked banked
  rw [if_pos hw]
  rfl

/-! ## The vector access in progress -/

theorem exec_vecStep {q : VecRun} (hq : s.core.vecRun = some q) : exec (.quadRemotePerform s.core.remote.length) s = .next (vecStep s) := by
  have hnone : s.core.remote[s.core.remote.length]? = none := List.getElem?_eq_none (Nat.le_refl _)
  change orStay (tryRemotePerform s.core.remote.length s) s = _
  simp only [tryRemotePerform, hnone, hq, Option.isSome_some, and_self, if_true]
  rfl

/-- A bank access of a vector access changes of the access only what a load has got. -/
theorem vecPiece_run (q : VecRun) (p : List VecCell) (s : State) :
    (∃ g, (vecPiece q p s).1 = { q with got := g }) ∧ (vecPiece q p s).2.streams = s.streams := by
  unfold vecPiece
  dsimp only
  split
  · exact ⟨⟨_, rfl⟩, rfl⟩
  · exact ⟨⟨q.got, rfl⟩, rfl⟩

theorem vecStep_goes_on {q : VecRun} (hq : s.core.vecRun = some q) (hlen : 1 < q.pieces.length) :
    ∃ g, (vecStep s).core.vecRun = some { q with pieces := q.pieces.drop 1, got := g } ∧ (vecStep s).streams = s.streams := by
  match hp : q.pieces with
  | [] =>
    rw [hp] at hlen
    exact absurd hlen (Nat.not_lt_zero _)
  | [p] =>
    rw [hp] at hlen
    exact absurd hlen (Nat.lt_irrefl 1)
  | p :: p' :: ps =>
    obtain ⟨⟨g, hg⟩, hst⟩ := vecPiece_run q p s
    unfold vecStep
    simp only [hq, hp]
    rw [if_neg (List.cons_ne_nil p' ps), hg]
    exact ⟨g, rfl, hst⟩

theorem vecStep_ends {q : VecRun} (hq : s.core.vecRun = some q) (hlen : q.pieces.length ≤ 1) : (vecStep s).core.vecRun = none := by
  match hp : q.pieces with
  | [] =>
    simp only [vecStep, hq, hp]
    exact vecEnd_vecRun q s
  | [p] =>
    simp only [vecStep, hq, hp, if_true]
    exact vecEnd_vecRun _ _
  | p :: p' :: ps =>
    rw [hp] at hlen
    exact absurd hlen (by simp)

end

end Sys2Proof.Spec
end

section
/-! The dispatcher (R13, R14, R285, R295, R297): what a task starts with, and which one starts. It settles O37. -/

namespace Sys2Proof.Spec

open Sys2Proof.Machine

section
variable {s t u : State} {r : ResIx} {trigger : Trigger} {d : Descriptor} {hdr : Word} {p : Nat → Word}

/-! ## The streams of a task (R13, R14) -/

/-- The streams of a task stand in slots of their own. -/
theorem taskStreams_nodup (x : Residency) (d : Descriptor) : ((taskStreams x d).map Prod.fst).Nodup := by
  have hzip (l : List SlotIx) (ks : List Kind) : List.Sublist ((l.zip ks).map Prod.fst) l := by
    induction l generalizing ks with
    | nil => exact List.Sublist.slnil
    | cons a l ih => cases ks with
      | nil => exact List.nil_sublist _
      | cons k ks => exact (ih ks).cons_cons a
  have howned : x.owned.Nodup := (List.nodup_finRange 4).filter _
  have hfst : (taskStreams x d).map Prod.fst
      = ((x.owned.zip (kindOrder.filter (fun k => x.kinds.getLsbD k.bit))).filter (fun e => d.kinds.getLsbD e.2.bit)).map Prod.fst := by
    unfold taskStreams
    rw [List.map_map]
    rfl
  rw [hfst]
  exact ((List.filter_sublist.map Prod.fst).trans (hzip _ _)).nodup howned

/-- The streams that a list names are put into their slots. -/
def putStreams {α : Type} (f : SlotIx × α → Stream) (l : List (SlotIx × α)) (s : State) : State :=
  l.foldl (fun s e => { s with streams := vset s.streams e.1 (f e) }) s

theorem putStreams_res {α : Type} (f : SlotIx × α → Stream) (l : List (SlotIx × α)) (s : State) : (putStreams f l s).res = s.res := by
  induction l generalizing s with
  | nil => rfl
  | cons e l ih => exact ih _

theorem putStreams_other {α : Type} {f : SlotIx × α → Stream} {l : List (SlotIx × α)} {k : SlotIx} (hk : k ∉ l.map Prod.fst) (s : State) :
    (putStreams f l s).streams[k] = s.streams[k] := by
  induction l generalizing s with
  | nil => rfl
  | cons e l ih =>
    rw [List.map_cons, List.mem_cons, not_or] at hk
    exact (ih hk.2 _).trans (vset_get_ne _ _ _ _ (Ne.symm hk.1))

theorem putStreams_of_mem {α : Type} {f : SlotIx × α → Stream} {l : List (SlotIx × α)} (hl : (l.map Prod.fst).Nodup) {e : SlotIx × α} (he : e ∈ l)
    (s : State) : (putStreams f l s).streams[e.1] = f e := by
  induction l generalizing s with
  | nil => cases he
  | cons a l ih =>
    rw [List.map_cons, List.nodup_cons] at hl
    rcases List.mem_cons.mp he with rfl | he
    · exact (putStreams_other hl.1 _).trans (vset_get _ _ _)
    · exact ih hl.2 he _

/-- What a register holds at the start of a stream (R14). -/
theorem newStream_getX (r : ResIx) (x : Residency) (kind : Kind) (pc frame : BitVec 16) (hdr : Word) (p : Nat → Word) (a : Reg) :
    (newStream r x kind pc frame hdr p).getX a = if a.toNat = 2 then frame.setWidth 64 else if a.toNat = 3 then hdr
      else if 4 ≤ a.toNat ∧ a.toNat < 8 then p (a.toNat - 4) else 0 := by
  unfold Stream.getX
  by_cases h : a = 0
  · rw [if_pos h, h]
    rfl
  · rw [if_neg h]
    exact Vector.getElem_ofFn _

/-- The marks with which a task starts: none owed, nothing sent. -/
def freshTask (s : State) (r : ResIx) (trigger : Trigger) (d : Descriptor) : Task :=
  { trigger := trigger, slots := BitVec.ofNat 4 (((taskStreams s.res[r] d).map fun e => 2 ^ e.1.val).sum), sendBuf := [], ages := []
    budget := s.res[r].budget, expiries := 0, graces := 0, owed := 0, owedAgain := 0, sq := Vector.replicate 4 [], vq := Vector.replicate 2 [] }

/-- The streams of the task that a descriptor names stand in their slots. -/
def group (r : ResIx) (d : Descriptor) (hdr : Word) (p : Nat → Word) (s : State) : State :=
  putStreams (fun e => newStream r s.res[r] e.2.1 e.2.2 d.frame hdr p) (taskStreams s.res[r] d) s

theorem group_res (r : ResIx) (d : Descriptor) (hdr : Word) (p : Nat → Word) (s : State) : (group r d hdr p s).res = s.res :=
  putStreams_res _ _ s

theorem startTask_eq (r : ResIx) (trigger : Trigger) (d : Descriptor) (hdr : Word) (p : Nat → Word) (s : State) :
    startTask r trigger d hdr p s = (group r d hdr p s).setRes r { (group r d hdr p s).res[r] with task := some (freshTask s r trigger d) } := rfl

theorem startTask_res (r : ResIx) (trigger : Trigger) (d : Descriptor) (hdr : Word) (p : Nat → Word) (s : State) :
    (startTask r trigger d hdr p s).res[r] = { s.res[r] with task := some (freshTask s r trigger d) } := by
  have h : (startTask r trigger d hdr p s).res[r] = { (group r d hdr p s).res[r] with task := some (freshTask s r trigger d) } := vset_get _ _ _
  rw [h, group_res]

theorem startTask_keeps (r : ResIx) (trigger : Trigger) (d : Descriptor) (hdr : Word) (p : Nat → Word) (s : State) :
    (startTask r trigger d hdr p s).res[r].launchHeld = s.res[r].launchHeld ∧ (startTask r trigger d hdr p s).res[r].state = s.res[r].state := by
  rw [startTask_res]
  exact ⟨rfl, rfl⟩

theorem newStream_starts (r : ResIx) (x : Residency) (kind : Kind) (pc frame : BitVec 16) (hdr : Word) (p : Nat → Word) :
    (newStream r x kind pc frame hdr p).getX 2 = frame.setWidth 64 ∧ (newStream r x kind pc frame hdr p).getX 3 = hdr
    ∧ (∀ k < 4, (newStream r x kind pc frame hdr p).getX (BitVec.ofNat 5 (4 + k)) = p k)
    ∧ ∀ a : Reg, a.toNat < 2 ∨ 8 ≤ a.toNat → (newStream r x kind pc frame hdr p).getX a = 0 := by
  refine ⟨(newStream_getX ..).trans rfl, (newStream_getX ..).trans rfl, fun k hk => ?_, fun a ha => ?_⟩
  · have hnum : (BitVec.ofNat 5 (4 + k) : Reg).toNat = 4 + k := Nat.mod_eq_of_lt (by omega)
    rw [newStream_getX, hnum, if_neg (by omega), if_neg (by omega), if_pos (by omega), Nat.add_sub_cancel_left]
  · rw [newStream_getX, if_neg (by omega), if_neg (by omega), if_neg (by omega)]

theorem startTask_started (r : ResIx) (trigger : Trigger) (d : Descriptor) (hdr : Word) (p : Nat → Word) (s : State) :
    started s (startTask r trigger d hdr p s) r trigger d hdr p := by
  refine ⟨⟨freshTask s r trigger d, by rw [startTask_res], rfl, rfl, rfl⟩, fun e he => ?_⟩
  have hst : (startTask r trigger d hdr p s).streams[e.1] = newStream r s.res[r] e.2.1 e.2.2 d.frame hdr p :=
    putStreams_of_mem (taskStreams_nodup _ _) he s
  obtain ⟨h2, h3, hp, h0⟩ := newStream_starts r s.res[r] e.2.1 e.2.2 d.frame hdr p
  dsimp only
  rw [hst]
  exact ⟨rfl, rfl, rfl, rfl, rfl, rfl, rfl, h2, h3, hp, h0⟩

/-- A start is one of the state before when it takes the same group with the same arguments, and what comes after it leaves
the streams and the task. -/
theorem started_of {s' u' : State} {p' : Nat → Word} (h : started s u r trigger d hdr p) (hgroup : taskStreams s'.res[r] d = taskStreams s.res[r] d)
    (hbudget : s'.res[r].budget = s.res[r].budget) (hp : ∀ k < 4, p k = p' k) (hst : u'.streams = u.streams)
    (htask : u'.res[r].task = u.res[r].task) :
    started s' u' r trigger d hdr p' := by
  obtain ⟨hk, hall⟩ := h
  refine ⟨by rw [htask, hbudget]; exact hk, fun e he => ?_⟩
  rw [hgroup] at he
  obtain ⟨h1, h2, h3, h4, h5, h6, h7, h8, h9, hargs, h0⟩ := hall e he
  dsimp only
  rw [hst]
  exact ⟨h1, h2, h3, h4, h5, h6, h7, h8, h9, fun k hk => (hargs k hk).trans (hp k hk), h0⟩

/-! ## The start of a launch task, a record's task and a message's task -/

/-- The launch of a residency is no longer held. -/
def unheld (r : ResIx) (s : State) : State := s.setRes r { s.res[r] with launchHeld := false, launchReady := false }

theorem unheld_res (r : ResIx) (s : State) : (unheld r s).res[r] = { s.res[r] with launchHeld := false, launchReady := false } := vset_get _ _ _

theorem startLaunch_launched (r : ResIx) (s : State) : launched s (startLaunch r s) r ∧ (startLaunch r s).res[r].launchHeld = false
    ∧ (startLaunch r s).res[r].state = s.res[r].state := by
  have hstart := startTask_started r .launch
    (if s.res[r].eh then s.res[r].role.handler s.res[r].hidx.toNat else ⟨0, s.res[r].role.entry.getD 0, 0, 2, 0⟩) 0
    (fun i => s.res[r].args[i % 4]'(Nat.mod_lt _ (by decide))) (unheld r s)
  obtain ⟨hheld, hstate⟩ : (startLaunch r s).res[r].launchHeld = (unheld r s).res[r].launchHeld
      ∧ (startLaunch r s).res[r].state = (unheld r s).res[r].state := startTask_keeps ..
  rw [unheld_res] at hheld hstate
  refine ⟨started_of hstart (by rw [unheld_res]; rfl) (by rw [unheld_res]) (fun k hk => ?_) rfl rfl, hheld, hstate⟩
  rw [dif_pos hk]
  simp only [Nat.mod_eq_of_lt hk]

/-- The streams of a residency have waited for n cycles (R295). -/
def waiting (r : ResIx) (n : Nat) (u : State) : State :=
  { u with streams := u.streams.map (fun t => if t.active ∧ t.res = r then { t with wait := n } else t) }

/-- A start is one whatever the streams have waited. -/
theorem started_waiting (h : started s u r trigger d hdr p) (n : Nat) : started s (waiting r n u) r trigger d hdr p := by
  obtain ⟨hk, hall⟩ := h
  refine ⟨hk, fun e he => ?_⟩
  have hget : (waiting r n u).streams[e.1]
      = if u.streams[e.1].active ∧ u.streams[e.1].res = r then { u.streams[e.1] with wait := n } else u.streams[e.1] := Vector.getElem_map _ _
  obtain ⟨h1, h2, hrest⟩ := hall e he
  rw [if_pos ⟨h1, h2⟩] at hget
  dsimp only
  rw [hget]
  exact ⟨h1, h2, hrest⟩

/-- An ARMED residency runs (R295). -/
def running (r : ResIx) (s : State) : State := s.setRes r { s.res[r] with state := .running }

theorem running_res (r : ResIx) (s : State) : (running r s).res[r] = { s.res[r] with state := .running } := vset_get _ _ _

/-- The launch task of a residency that was ARMED starts. -/
theorem startLaunch_running (r : ResIx) (n : Nat) (s : State) :
    (waiting r n (startLaunch r (running r s))).res[r].state = .running ∧ launched s (waiting r n (startLaunch r (running r s))) r := by
  obtain ⟨hlaunched, -, hstate⟩ := startLaunch_launched r (running r s)
  have hwait := started_waiting hlaunched n
  rw [running_res] at hstate hwait
  exact ⟨hstate, started_of hwait (by rw [running_res]; rfl) (by rw [running_res])
    (fun k hk => by rw [dif_pos hk, dif_pos hk, running_res]) rfl rfl⟩

theorem setRecWord_res (s : State) (r : ResIx) (off v : Nat) : (setRecWord s r off v).res = s.res := rfl

theorem readyRecord_task (r : ResIx) (off : Nat) (s : State) : (readyRecord r off s).res[r].task = s.res[r].task := by
  have hset (v : State) (x : Residency) : (v.setRes r x).res[r].task = x.task := congrArg Residency.task (vset_get _ _ _)
  have henqueue (v : State) : (enqueueReady r off v).res[r].task = v.res[r].task := by
    unfold enqueueReady
    split
    · rfl
    · dsimp only
      rw [hset]
      split
      · rw [setRecWord_res]
      · rw [setRecWord_res, setRecWord_res]
  unfold readyRecord
  dsimp only
  split
  · exact hset s _
  · rw [henqueue]
    exact hset s _

theorem startRecord_started {off : Nat} (hd : s.res[r].role.tasks[recWord s r off / 2 ^ 32 % 2 ^ 16]? = some d) :
    started s (startRecord r off s) r (.record off) d 0 (fun k => BitVec.ofNat 64 (recWord s r (off + 16 + 8 * k))) := by
  unfold startRecord
  dsimp only
  split
  · rename_i hnone
    exact absurd (hnone.symm.trans hd) (Option.some_ne_none d).symm
  · rename_i d' hsome
    obtain rfl : d' = d := Option.some.inj (hsome.symm.trans hd)
    have hstart := startTask_started r (.record off) d' 0 (fun k => BitVec.ofNat 64 (recWord s r (off + 16 + 8 * k)))
      { s with core := { s.core with readyQ := s.core.readyQ.eraseIdx (s.core.readyQ.findIdx (fun (e : ReadyEntry) => decide (e.res = r))) } }
    split
    · exact started_of hstart rfl rfl (fun _ _ => rfl) (readyRecord_sameStreams r off _).streams (readyRecord_task r off _)
    · exact started_of hstart rfl rfl (fun _ _ => rfl) rfl rfl

/-- The message that triggers a task is held in its queue (R198). -/
def holding (r : ResIx) (m : Msg) (s : State) : State :=
  { s with core := s.core.setRx m.vn.toNat ((s.core.rx m.vn.toNat).modify
      ((s.core.rx m.vn.toNat).findIdx (fun (e : RxEntry) => decide (e.res = r) && !e.held)) (fun e => { e with held := true })) }

theorem startMessage_eq (r : ResIx) (m : Msg) (s : State) : startMessage r m s =
    startTask r (.message m) (s.res[r].role.handler m.hidx.toNat) (msgD0 m) (msgPayload m) (holding r m s) := rfl

theorem startMessage_started (r : ResIx) (m : Msg) (s : State) :
    started s (startMessage r m s) r (.message m) (s.res[r].role.handler m.hidx.toNat) (msgD0 m) (msgPayload m) := by
  rw [startMessage_eq]
  exact started_of (startTask_started r _ _ _ _ (holding r m s)) rfl rfl (fun _ _ => rfl) rfl rfl

end

/-- The second half of O37. -/
theorem dispatch_holds : Dispatch := by
  refine ⟨fun s r c hscan hon hc => ?_, fun s r hstate hclear hkilled htask htick hon hscan => ?_, startTask_started⟩
  · have hexec : exec .dispatch s = .next (match c.trigger with
        | .launch => startLaunch r s
        | .record off => startRecord r off s
        | .message m => startMessage r m s) := by
      change orStay (tryDispatch s) s = _
      simp only [tryDispatch, hscan, hon, hc]
      cases c.trigger <;> rfl
    refine ⟨_, hexec, fun ht => ?_, fun off d ht hd => ?_, fun m ht => ?_⟩
    · rw [ht]
      obtain ⟨hlaunched, hheld, -⟩ := startLaunch_launched r s
      exact ⟨hlaunched, hheld⟩
    · rw [ht]
      exact startRecord_started hd
    · rw [ht]
      exact startMessage_started r m s
  · have hexec : ∃ n : Nat, exec (.armedStart r) s = .next (waiting r n (startLaunch r (running r s))) := by
      change ∃ n : Nat, orStay (tryArmedStart r s) s = _
      unfold tryArmedStart
      rw [if_pos ⟨hstate, hclear, hkilled, htask, htick, hon, hscan⟩]
      exact ⟨_, rfl⟩
    obtain ⟨n, hexec⟩ := hexec
    exact ⟨_, hexec, startLaunch_running r n s⟩

/-- The first half of O37. -/
theorem coreSteps : CoreSteps := by
  refine ⟨fun w s hidle => trap_of_idle hidle _ _,
    fun k s x h n ha hx ho he hl hothers hd har hi hr hn hv =>
      wdog_enters ha hx ho he hl hothers hd har hi hr hn hv,
    fun k s x ha hx hd har hb hg he hw => wdog_third ha hx hd har hb hg he hw, fun r s hs hk hw => kill_waits hs hk hw, fun r s hs hk hw => ?_,
    fun r s h => ?_, fun r s hc hscan => clearEnd_clears hc hscan, fun r s off hh hroom hscan => overflowMove_moves hh hroom hscan,
    fun s e o n j hj => targetRd_digit s e hj, fun i s e he hdone hfirst => ⟨fun hlast => ?_, fun hlast => ?_⟩, fun s q hq => ?_⟩
  · obtain ⟨u, hu, hkilled⟩ := kill_now hs hk hw
    exact ⟨u, hu, hkilled.killed, hkilled.task, hkilled.stopped, hkilled.others, hkilled.reported, hkilled.unready⟩
  · obtain ⟨hstate, hsize, htask, hslots⟩ := returnResidency_vacant r s
    exact ⟨_, exec_residencyRelease h, hstate, hsize, htask, hslots⟩
  · obtain ⟨low, hstreams, hres, hremote⟩ := performRemote_of_not_last he hlast
    exact ⟨_, low, exec_quadRemotePerform he hfirst, hstreams, hres, hremote⟩
  · refine ⟨_, exec_quadRemotePerform he hfirst, performRemote_remote he hdone hlast, fun hw hq ha hr hrd => ?_,
      fun hw => performRemote_stores he hdone hlast hw⟩
    have hreg := performRemote_register he hdone hlast hw hq ha hr hrd
    rw [bankRead_of_last hdone hlast] at hreg
    refine ⟨fun hs => ?_, fun hs h4 => ?_⟩
    · rw [hreg, hs]
      rfl
    · rw [hreg, hs, h4, if_pos rfl, wrap_sextNat]
  · exact ⟨exec_vecStep hq, vecStep_goes_on hq, vecStep_ends hq⟩

/-- Settles O37. -/
theorem taskSteps : Obligations.TaskSteps := ⟨coreSteps, dispatch_holds⟩

end Sys2Proof.Spec
end

section
/-! Signed digits (R8, R63, R69, R70): the walk reads the balanced residues of a value, one width after the other. It settles O24. -/

namespace Sys2Proof.Spec

open Sys2Proof.Machine

/-! ## Sign extension as a balanced residue -/

theorem sextNat_eq_bmod (v n : Nat) : sextNat v n = (v : Int).bmod (2 ^ n) := by
  have hu : ((v % 2 ^ n : Nat) : Int) = (v : Int) % ((2 ^ n : Nat) : Int) := by push_cast; rfl
  have hp : ((2 ^ n : Nat) : Int) = 2 ^ n := by push_cast; rfl
  unfold sextNat Int.bmod
  dsimp only
  rw [hu, ← hp]
  generalize (v : Int) % ((2 ^ n : Nat) : Int) = u at hu ⊢
  split <;> split <;> omega

theorem sextNat_emod (z : Int) (w : Nat) : sextNat (z % 2 ^ w).toNat w = z.bmod (2 ^ w) := by
  have hp : (2 ^ w : Int) = ((2 ^ w : Nat) : Int) := by push_cast; rfl
  rw [sextNat_eq_bmod, Int.toNat_of_nonneg (Int.emod_nonneg _ (by positivity)), hp, Int.emod_bmod]

/-- A balanced residue lies in the range of a signed digit. -/
theorem bmod_digit_range {w : Nat} (hw : 0 < w) (z : Int) : -(2 ^ (w - 1)) ≤ z.bmod (2 ^ w) ∧ z.bmod (2 ^ w) < 2 ^ (w - 1) := by
  obtain ⟨k, rfl⟩ := Nat.exists_eq_succ_of_ne_zero hw.ne'
  have hlo := Int.le_bmod (x := z) (m := 2 ^ (k + 1)) (Nat.two_pow_pos _)
  have hhi := Int.bmod_lt (x := z) (m := 2 ^ (k + 1)) (Nat.two_pow_pos _)
  rw [Nat.pow_succ] at hlo hhi ⊢
  push_cast at hlo hhi
  simp only [Nat.succ_eq_add_one, Nat.add_sub_cancel]
  constructor <;> omega

/-- A value in the range of a signed digit is its own balanced residue, whatever stands above it. -/
theorem bmod_digit_of_range {w : Nat} (hw : 0 < w) {q : Int} (hlo : -(2 ^ (w - 1)) ≤ q) (hhi : q < 2 ^ (w - 1)) (z : Int) :
    (q + 2 ^ w * z).bmod (2 ^ w) = q := by
  obtain ⟨k, rfl⟩ := Nat.exists_eq_succ_of_ne_zero hw.ne'
  have hp : (2 ^ (k + 1) : Int) = ((2 ^ (k + 1) : Nat) : Int) := by push_cast; rfl
  rw [Nat.succ_eq_add_one, hp, Int.add_mul_bmod_self_left]
  simp only [Nat.succ_eq_add_one, Nat.add_sub_cancel] at hlo hhi
  have h2 : ((2 ^ (k + 1) : Nat) : Int) = 2 ^ k * 2 := by push_cast; ring
  exact Int.bmod_eq_of_le_mul_two (by omega) (by omega)

/-! ## The walk (R70) -/

theorem digitWalk_succ (w n : Nat) (z : Int) :
    digitWalk w (n + 1) z = z.bmod (2 ^ w) :: digitWalk w n ((z - z.bmod (2 ^ w)) / 2 ^ w) := by
  rw [digitWalk, sextNat_emod]

theorem digitWalk_length (w n : Nat) : ∀ z : Int, (digitWalk w n z).length = n := by
  induction n with
  | zero => exact fun _ => rfl
  | succ n ih => exact fun z => by rw [digitWalk_succ, List.length_cons, ih]

theorem digitWalk_range {w : Nat} (hw : 0 < w) (n : Nat) : ∀ z : Int, ∀ d ∈ digitWalk w n z, -(2 ^ (w - 1)) ≤ d ∧ d < 2 ^ (w - 1) := by
  induction n with
  | zero => exact fun _ _ h => nomatch h
  | succ n ih =>
    intro z d hd
    rw [digitWalk_succ, List.mem_cons] at hd
    rcases hd with rfl | hd
    · exact bmod_digit_range hw z
    · exact ih _ d hd

/-- What stands above a digit, one width down: the borrow is exact. -/
theorem digit_add_rest (w : Nat) (z : Int) : z.bmod (2 ^ w) + 2 ^ w * ((z - z.bmod (2 ^ w)) / 2 ^ w) = z := by
  have hp : (2 ^ w : Int) = ((2 ^ w : Nat) : Int) := by push_cast; rfl
  rw [hp, Int.mul_ediv_cancel' (Int.dvd_self_sub_bmod)]
  ring

theorem digitsValue_digitWalk (w n : Nat) : ∀ z : Int, (2 : Int) ^ (w * n) ∣ z - digitsValue w (digitWalk w n z) := by
  induction n with
  | zero => exact fun z => by simp
  | succ n ih =>
    intro z
    obtain ⟨k, hk⟩ := ih ((z - z.bmod (2 ^ w)) / 2 ^ w)
    refine ⟨k, ?_⟩
    rw [digitWalk_succ, digitsValue]
    calc z - (z.bmod (2 ^ w) + 2 ^ w * digitsValue w (digitWalk w n ((z - z.bmod (2 ^ w)) / 2 ^ w)))
        = 2 ^ w * ((z - z.bmod (2 ^ w)) / 2 ^ w - digitsValue w (digitWalk w n ((z - z.bmod (2 ^ w)) / 2 ^ w))) := by
          linear_combination -(digit_add_rest w z)
      _ = 2 ^ (w * (n + 1)) * k := by rw [hk]; ring

theorem digitWalk_holds : DigitWalk := fun w n z hw =>
  ⟨digitWalk_length w n z, digitWalk_range hw n z, Int.modEq_iff_dvd.mpr (digitsValue_digitWalk w n z)⟩

/-! ## Exact digits (R69) -/

theorem digitWalk_zero (w k : Nat) : digitWalk w k 0 = List.replicate k 0 := by
  induction k with
  | zero => rfl
  | succ k ih => simpa [digitWalk_succ, List.replicate_succ] using ih

theorem digitsExact : DigitsExact := by
  intro w qs k hw
  induction qs with
  | nil => exact fun _ => by simpa [digitsValue] using digitWalk_zero w k
  | cons q qs ih =>
    intro h
    obtain ⟨⟨hlo, hhi⟩, htail⟩ := List.forall_mem_cons.mp h
    have hq := bmod_digit_of_range hw hlo hhi (digitsValue w qs)
    rw [List.length_cons, Nat.add_right_comm, digitWalk_succ, digitsValue, hq, add_sub_cancel_left,
      Int.mul_ediv_cancel_left _ (by positivity), ih htail, List.cons_append]

/-! ## Row-broadcast accumulation (R63) -/

theorem digitsValue_eq_sum (w : Nat) : ∀ (qs : List Int), digitsValue w qs = ∑ j ∈ Finset.range qs.length, qs.getD j 0 * 2 ^ (w * j)
  | [] => rfl
  | q :: qs => by
    rw [digitsValue, digitsValue_eq_sum w qs, List.length_cons, Finset.sum_range_succ', Finset.mul_sum, add_comm]
    congr 1
    · refine Finset.sum_congr rfl fun j _ => ?_
      rw [List.getD_cons_succ]
      ring
    · simp

/-- The digits of a sum of multiples of rows are the sums of the multiples of their digits. -/
theorem sum_mul_digitsValue (w n : Nat) (terms : List (Int × List Int)) (h : ∀ e ∈ terms, e.2.length = n) :
    (terms.map fun e => e.1 * digitsValue w e.2).sum
      = digitsValue w ((List.range n).map fun j => (terms.map fun e => e.1 * e.2.getD j 0).sum) := by
  have hdigit : ∀ j ∈ Finset.range n, ((List.range n).map fun j => (terms.map fun e => e.1 * e.2.getD j 0).sum).getD j 0
      = (terms.map fun e => e.1 * e.2.getD j 0).sum := fun j hj => by
    have hj := Finset.mem_range.mp hj
    simp [List.getD, hj]
  rw [digitsValue_eq_sum, List.length_map, List.length_range, Finset.sum_congr rfl fun j hj => congrArg (· * 2 ^ (w * j)) (hdigit j hj)]
  clear hdigit
  induction terms with
  | nil => simp
  | cons e terms ih =>
    obtain ⟨he, htail⟩ := List.forall_mem_cons.mp h
    simp only [List.map_cons, List.sum_cons, add_mul, Finset.sum_add_distrib]
    rw [ih htail, digitsValue_eq_sum, he, Finset.mul_sum]
    simp only [mul_assoc]

theorem rowBroadcastExact : RowBroadcastExact := by
  intro w n terms hw hlen hfit j hj
  have hwalk := digitsExact w ((List.range n).map fun j => (terms.map fun e => e.1 * e.2.getD j 0).sum) 0 hw fun q hq => by
    obtain ⟨i, hi, rfl⟩ := List.mem_map.mp hq
    exact hfit i (List.mem_range.mp hi)
  simp only [List.length_map, List.length_range, Nat.add_zero, List.replicate_zero, List.append_nil] at hwalk
  rw [sum_mul_digitsValue w n terms hlen, hwalk]
  simp [List.getD, hj]

/-- Settles O24: the walk divides with balanced remainders, and digits in range are their own remainders. -/
theorem exactDigits : Obligations.ExactDigits := ⟨digitWalk_holds, digitsExact, rowBroadcastExact⟩

end Sys2Proof.Spec
end

section
/-! FP32 magnitudes (R45, R52, R55): the exact value of exponent and trailing bits grows with them, and a rounding gives one of the two magnitudes
around a value. -/

namespace Sys2Proof.Spec

open Sys2Proof.Machine

/-! ## The value of a magnitude -/

/-- The exact value of exponent and trailing bits of 24 significant bits on the grid 2^q0 (R45). -/
def magValue (q0 : Int) (k : Nat) : ℚ := number (unpackMag 24 q0 false k)

/-- A significand M on the grid 2^(q0 + Q), normal or on the finest grid; a carry out of the significand moves into the exponent. -/
theorem magValue_pack (q0 : Int) {Q M : Nat} (hM : M ≤ 2 ^ 24) (hn : Q = 0 ∨ 2 ^ 23 ≤ M) :
    magValue q0 (Q * 2 ^ 23 + M) = M * 2 ^ (q0 + Q) := by
  unfold magValue unpackMag
  simp only [Nat.add_one_sub_one]
  rcases Nat.lt_or_ge M (2 ^ 23) with hlt | hge
  · obtain rfl : Q = 0 := by omega
    rw [if_pos (by omega), Nat.mod_eq_of_lt (by omega)]
    simp [number]
  · rcases Nat.lt_or_ge M (2 ^ 24) with hlt | hge'
    · have he : (Q * 2 ^ 23 + M) / 2 ^ 23 = Q + 1 := by omega
      have ht : 2 ^ 23 + (Q * 2 ^ 23 + M) % 2 ^ 23 = M := by omega
      rw [he, ht, if_neg (by omega)]
      simp only [number, Bool.false_eq_true, if_false, one_mul]
      congr 2
      push_cast
      ring
    · obtain rfl : M = 2 ^ 24 := by omega
      have he : (Q * 2 ^ 23 + 2 ^ 24) / 2 ^ 23 = Q + 2 := by omega
      have ht : 2 ^ 23 + (Q * 2 ^ 23 + 2 ^ 24) % 2 ^ 23 = 2 ^ 23 := by omega
      rw [he, ht, if_neg (by omega)]
      have hexp : q0 + ((Q + 2 : Nat) : Int) - 1 = q0 + Q + 1 := by push_cast; ring
      simp only [number, Bool.false_eq_true, if_false, one_mul, hexp]
      rw [zpow_add_one₀ (by norm_num : (2 : ℚ) ≠ 0)]
      push_cast
      ring

theorem magValue_strictMono (q0 : Int) : StrictMono (magValue q0) := by
  refine strictMono_nat_of_lt_succ fun k => ?_
  obtain ⟨Q, M, rfl, hM, hn⟩ : ∃ Q M, k = Q * 2 ^ 23 + M ∧ M < 2 ^ 24 ∧ (Q = 0 ∨ 2 ^ 23 ≤ M) :=
    ⟨k / 2 ^ 23 - 1, k - (k / 2 ^ 23 - 1) * 2 ^ 23, by omega, by omega, by omega⟩
  rw [magValue_pack q0 hM.le hn, Nat.add_assoc, magValue_pack q0 hM (hn.imp id Nat.le_succ_of_le)]
  have : (0 : ℚ) < 2 ^ (q0 + Q) := by positivity
  push_cast
  linarith

theorem magValue_zero (q0 : Int) : magValue q0 0 = 0 := by simpa using magValue_pack q0 (Q := 0) (M := 0) (by norm_num) (.inl rfl)

theorem magValue_nonneg (q0 : Int) (k : Nat) : 0 ≤ magValue q0 k := by
  rw [← magValue_zero q0]
  exact (magValue_strictMono q0).monotone k.zero_le

/-! ## The number of bits of a magnitude -/

theorem lt_two_pow_bitLen (m : Nat) : m < 2 ^ bitLen m := by
  unfold bitLen
  split
  · omega
  · exact Nat.lt_log2_self

theorem two_pow_le_of_bitLen {m : Nat} (hm : m ≠ 0) : 2 ^ (bitLen m - 1) ≤ m := by
  unfold bitLen
  rw [if_neg hm]
  exact Nat.log2_self_le hm

theorem bitLen_pos {m : Nat} (hm : m ≠ 0) : 0 < bitLen m := by
  unfold bitLen
  rw [if_neg hm]
  omega

theorem bitLen_value_lt (m : Nat) (e : Int) : (m : ℚ) * 2 ^ e < 2 ^ (bitLen m + e) := by
  rw [zpow_add₀ (by norm_num), zpow_natCast]
  have : (m : ℚ) < 2 ^ bitLen m := by exact_mod_cast lt_two_pow_bitLen m
  exact mul_lt_mul_of_pos_right this (by positivity)

theorem bitLen_value_le {m : Nat} (hm : m ≠ 0) (e : Int) : (2 : ℚ) ^ (bitLen m + e - 1) ≤ m * 2 ^ e := by
  have h := bitLen_pos hm
  have hexp : (bitLen m : Int) + e - 1 = ((bitLen m - 1 : Nat) : Int) + e := by omega
  rw [hexp, zpow_add₀ (by norm_num), zpow_natCast]
  have : (2 : ℚ) ^ (bitLen m - 1) ≤ m := by exact_mod_cast two_pow_le_of_bitLen hm
  exact mul_le_mul_of_nonneg_right this (by positivity)

/-! ## Which of two neighbours a mode takes -/

/-- A magnitude at a distance below above one neighbour, and above below the next, goes to the latter; odd says that the former is odd (R52). -/
def roundsUp (rm : RMode) (neg : Bool) (odd : Prop) (below above : ℚ) : Prop :=
  match rm with
  | .rne => above < below ∨ (above = below ∧ odd)
  | .rtz => False
  | .rup => neg = false ∧ below ≠ 0
  | .rdn => neg = true ∧ below ≠ 0

theorem not_roundsUp_of_exact {rm : RMode} {neg : Bool} {odd : Prop} {above : ℚ} (h : 0 < above) : ¬ roundsUp rm neg odd 0 above := by
  cases rm <;> simp [roundsUp, h.le, h.ne']

theorem roundShift_iff (rm : RMode) (neg : Bool) (m k : Nat) :
    (roundsUp rm neg (m / 2 ^ k % 2 = 1) ((m % 2 ^ k : Nat) : ℚ) ((2 ^ k - m % 2 ^ k : Nat) : ℚ) → roundShift rm neg m k = m / 2 ^ k + 1)
    ∧ (¬ roundsUp rm neg (m / 2 ^ k % 2 = 1) ((m % 2 ^ k : Nat) : ℚ) ((2 ^ k - m % 2 ^ k : Nat) : ℚ) → roundShift rm neg m k = m / 2 ^ k) := by
  have hr : m % 2 ^ k < 2 ^ k := Nat.mod_lt _ (Nat.two_pow_pos k)
  have hlt : 2 ^ k - m % 2 ^ k < m % 2 ^ k ↔ 2 ^ k < 2 * (m % 2 ^ k) := by omega
  have heq : 2 ^ k - m % 2 ^ k = m % 2 ^ k ↔ 2 * (m % 2 ^ k) = 2 ^ k := by omega
  have hdecides {up : Bool} {p : Prop} (h : up = true ↔ p) : (p → (if up then m / 2 ^ k + 1 else m / 2 ^ k) = m / 2 ^ k + 1)
      ∧ (¬ p → (if up then m / 2 ^ k + 1 else m / 2 ^ k) = m / 2 ^ k) :=
    ⟨fun hp => if_pos (h.mpr hp), fun hp => if_neg (mt h.mp hp)⟩
  cases rm with
  | rne => exact hdecides (by simp [roundsUp, hlt, heq])
  | rtz => exact ⟨False.elim, fun _ => rfl⟩
  | rup => exact hdecides (by simp [roundsUp])
  | rdn => exact hdecides (by simp [roundsUp])

/-! ## A rounded significand (R51, R52) -/

/-- M × 2^q is v rounded to 24 significant bits on a grid no finer than 2^q0, between the neighbours f × 2^q and (f + 1) × 2^q. -/
structure RoundedSig (rm : RMode) (neg : Bool) (q0 : Int) (v : ℚ) (f M : Nat) (q : Int) (inexact : Bool) : Prop where
  grid : q0 ≤ q
  normal : q = q0 ∨ 2 ^ 23 ≤ f
  bits : f < 2 ^ 24
  le : f * 2 ^ q ≤ v
  lt : v < (f + 1) * 2 ^ q
  up : roundsUp rm neg (f % 2 = 1) (v - f * 2 ^ q) ((f + 1) * 2 ^ q - v) → M = f + 1
  down : ¬ roundsUp rm neg (f % 2 = 1) (v - f * 2 ^ q) ((f + 1) * 2 ^ q - v) → M = f
  inexact : inexact = true ↔ f * 2 ^ q ≠ v

theorem roundsUp_scale (rm : RMode) (neg : Bool) (odd : Prop) (below above : ℚ) {c : ℚ} (hc : 0 < c) :
    roundsUp rm neg odd (below * c) (above * c) ↔ roundsUp rm neg odd below above := by
  cases rm <;> simp [roundsUp, hc, hc.ne']

/-- Neighbours on the grid that roundTo takes have 24 bits, and are normal or on the finest grid. -/
theorem significand_bounds {q0 e : Int} {m f : Nat} (hm : m ≠ 0)
    (hle : (f : ℚ) * 2 ^ max q0 (e + bitLen m - 24) ≤ m * 2 ^ e) (hlt : (m : ℚ) * 2 ^ e < (f + 1) * 2 ^ max q0 (e + bitLen m - 24)) :
    f < 2 ^ 24 ∧ (max q0 (e + bitLen m - 24) = q0 ∨ 2 ^ 23 ≤ f) := by
  generalize hq : max q0 (e + bitLen m - 24) = q at hle hlt
  have h2 : (2 : ℚ) ≠ 0 := by norm_num
  have hpos : (0 : ℚ) < 2 ^ q := by positivity
  constructor
  · have hexp : (bitLen m : Int) + e ≤ 24 + q := by omega
    have h : (f : ℚ) * 2 ^ q < 2 ^ (24 : Nat) * 2 ^ q := calc
      (f : ℚ) * 2 ^ q ≤ m * 2 ^ e := hle
      _ < 2 ^ ((bitLen m : Int) + e) := bitLen_value_lt m e
      _ ≤ 2 ^ ((24 : Int) + q) := zpow_le_zpow_right₀ (by norm_num) hexp
      _ = 2 ^ (24 : Nat) * 2 ^ q := by rw [zpow_add₀ h2]; norm_num
    exact_mod_cast lt_of_mul_lt_mul_right h hpos.le
  · by_cases hg : q = q0
    · exact .inl hg
    · have hexp : (bitLen m : Int) + e - 1 = 23 + q := by omega
      have h : (2 : ℚ) ^ (23 : Nat) * 2 ^ q < (f + 1) * 2 ^ q := calc
        (2 : ℚ) ^ (23 : Nat) * 2 ^ q = 2 ^ ((23 : Int) + q) := by rw [zpow_add₀ h2]; norm_num
        _ = 2 ^ ((bitLen m : Int) + e - 1) := by rw [hexp]
        _ ≤ m * 2 ^ e := bitLen_value_le hm e
        _ < (f + 1) * 2 ^ q := hlt
      have h' : 2 ^ 23 < f + 1 := by exact_mod_cast lt_of_mul_lt_mul_right h hpos.le
      exact .inr (Nat.le_of_lt_succ h')

theorem roundTo_rounded (rm : RMode) (q0 : Int) (neg : Bool) {m : Nat} (hm : m ≠ 0) (e : Int) :
    ∃ f, RoundedSig rm neg q0 (m * 2 ^ e) f (roundTo rm 24 q0 neg m e).1 (roundTo rm 24 q0 neg m e).2.1 (roundTo rm 24 q0 neg m e).2.2 := by
  have h2 : (2 : ℚ) ≠ 0 := by norm_num
  have hq0 : q0 ≤ max q0 (e + bitLen m - (24 : Nat)) := le_max_left _ _
  have hbounds {f : Nat} := significand_bounds (q0 := q0) (e := e) (f := f) hm
  unfold roundTo
  dsimp only
  push_cast at hq0 ⊢
  generalize max q0 (e + bitLen m - 24) = q at hq0 hbounds ⊢
  have hpos : (0 : ℚ) < 2 ^ q := by positivity
  by_cases hqe : q ≤ e
  · rw [if_pos hqe]
    have hv : (m : ℚ) * 2 ^ e = ((m * 2 ^ (e - q).toNat : Nat) : ℚ) * 2 ^ q := by
      have hexp : e = ((e - q).toNat : Int) + q := by omega
      conv_lhs => rw [hexp, zpow_add₀ h2, zpow_natCast]
      push_cast
      ring
    rw [hv] at hbounds ⊢
    obtain ⟨hbits, hnormal⟩ := hbounds le_rfl (by linarith)
    have hno : ¬ roundsUp rm neg ((m * 2 ^ (e - q).toNat) % 2 = 1) (((m * 2 ^ (e - q).toNat : Nat) : ℚ) * 2 ^ q - (m * 2 ^ (e - q).toNat : Nat) * 2 ^ q)
        ((((m * 2 ^ (e - q).toNat : Nat) : ℚ) + 1) * 2 ^ q - (m * 2 ^ (e - q).toNat : Nat) * 2 ^ q) := by
      rw [sub_self]
      exact not_roundsUp_of_exact (by linarith)
    exact ⟨_, hq0, hnormal, hbits, le_rfl, by linarith, fun h => absurd h hno, fun _ => rfl, by simp⟩
  · rw [if_neg hqe]
    generalize hk : (q - e).toNat = k
    have hc : (0 : ℚ) < 2 ^ e := by positivity
    have hgrid : (2 : ℚ) ^ q = 2 ^ k * 2 ^ e := by
      rw [← zpow_natCast, ← zpow_add₀ h2]
      congr 1
      omega
    have hr : m % 2 ^ k < 2 ^ k := Nat.mod_lt _ (Nat.two_pow_pos k)
    have hdiv : (m : ℚ) = ((m / 2 ^ k : Nat) : ℚ) * 2 ^ k + ((m % 2 ^ k : Nat) : ℚ) := by exact_mod_cast (Nat.div_add_mod' m (2 ^ k)).symm
    have hbelow : (m : ℚ) * 2 ^ e - ((m / 2 ^ k : Nat) : ℚ) * 2 ^ q = ((m % 2 ^ k : Nat) : ℚ) * 2 ^ e := by
      rw [hgrid]
      linear_combination (2 ^ e) * hdiv
    have habove : (((m / 2 ^ k : Nat) : ℚ) + 1) * 2 ^ q - (m : ℚ) * 2 ^ e = ((2 ^ k - m % 2 ^ k : Nat) : ℚ) * 2 ^ e := by
      rw [hgrid, Nat.cast_sub hr.le]
      push_cast
      linear_combination -(2 ^ e) * hdiv
    have hlow : (0 : ℚ) ≤ ((m % 2 ^ k : Nat) : ℚ) * 2 ^ e := by positivity
    have hhigh : (0 : ℚ) < ((2 ^ k - m % 2 ^ k : Nat) : ℚ) * 2 ^ e := mul_pos (by exact_mod_cast Nat.sub_pos_of_lt hr) hc
    obtain ⟨hbits, hnormal⟩ := hbounds (f := m / 2 ^ k) (by linarith) (by linarith)
    obtain ⟨hup, hdown⟩ := roundShift_iff rm neg m k
    refine ⟨m / 2 ^ k, hq0, hnormal, hbits, by linarith, by linarith, ?_, ?_, ?_⟩
    · rw [hbelow, habove, roundsUp_scale _ _ _ _ _ hc]
      exact hup
    · rw [hbelow, habove, roundsUp_scale _ _ _ _ _ hc]
      exact hdown
    · rw [decide_eq_true_iff, ne_comm (a := ((m / 2 ^ k : Nat) : ℚ) * 2 ^ q), ← sub_ne_zero (a := (m : ℚ) * 2 ^ e), hbelow]
      simp [hc.ne']

/-! ## A rounded magnitude (R45) -/

/-- mag is v rounded among the magnitudes, the greatest of which up to v is F. -/
structure RoundedMag (rm : RMode) (neg : Bool) (q0 : Int) (v : ℚ) (F mag : Nat) (inexact : Bool) : Prop where
  le : magValue q0 F ≤ v
  lt : v < magValue q0 (F + 1)
  up : roundsUp rm neg (F % 2 = 1) (v - magValue q0 F) (magValue q0 (F + 1) - v) → mag = F + 1
  down : ¬ roundsUp rm neg (F % 2 = 1) (v - magValue q0 F) (magValue q0 (F + 1) - v) → mag = F
  inexact : inexact = true ↔ magValue q0 F ≠ v

section
variable {rm : RMode} {neg : Bool} {q0 q : Int} {v : ℚ} {f M : Nat} {b : Bool}

theorem packMag_eq (q0 : Int) (M : Nat) (q : Int) : packMag 24 q0 M q = (q - q0).toNat * 2 ^ 23 + M := rfl

theorem RoundedSig.le_succ (h : RoundedSig rm neg q0 v f M q b) : M = f ∨ M = f + 1 := by
  by_cases hu : roundsUp rm neg (f % 2 = 1) (v - f * 2 ^ q) ((f + 1) * 2 ^ q - v)
  · exact .inr (h.up hu)
  · exact .inl (h.down hu)

theorem RoundedSig.packValue (h : RoundedSig rm neg q0 v f M q b) : magValue q0 (packMag 24 q0 M q) = M * 2 ^ q := by
  have hg := h.grid
  have hq : q0 + ((q - q0).toNat : Int) = q := by omega
  have hn : (q - q0).toNat = 0 ∨ 2 ^ 23 ≤ f := h.normal.imp (fun h => by omega) id
  have := h.bits
  have hval := magValue_pack q0 (Q := (q - q0).toNat) (M := M) (by rcases h.le_succ with rfl | rfl <;> omega)
    (hn.imp id fun hf => by rcases h.le_succ with rfl | rfl <;> omega)
  rwa [hq] at hval

theorem RoundedSig.mag (h : RoundedSig rm neg q0 v f M q b) : ∃ F, RoundedMag rm neg q0 v F (packMag 24 q0 M q) b := by
  have hg := h.grid
  have hq : q0 + ((q - q0).toNat : Int) = q := by omega
  have hn : (q - q0).toNat = 0 ∨ 2 ^ 23 ≤ f := h.normal.imp (fun h => by omega) id
  have hlo := magValue_pack q0 h.bits.le hn
  have hhi := magValue_pack q0 (M := f + 1) h.bits (hn.imp id Nat.le_succ_of_le)
  rw [hq] at hlo hhi
  rw [← Nat.add_assoc] at hhi
  rw [Nat.cast_add_one] at hhi
  have hodd : ((q - q0).toNat * 2 ^ 23 + f) % 2 = f % 2 := by omega
  refine ⟨(q - q0).toNat * 2 ^ 23 + f, ?_, ?_, ?_, ?_, ?_⟩
  · rw [hlo]; exact h.le
  · rw [hhi]; exact h.lt
  · rw [hlo, hhi, hodd]
    intro hu
    rw [packMag_eq, h.up hu, Nat.add_assoc]
  · rw [hlo, hhi, hodd]
    intro hu
    rw [packMag_eq, h.down hu]
  · rw [hlo]; exact h.inexact

end

/-! ## What a rounded magnitude is to the others (R51, R52) -/

/-- The magnitudes of q0 with both signs. -/
def SignedMag (q0 : Int) (t : ℚ) : Prop := ∃ k, t = magValue q0 k ∨ t = -magValue q0 k

section
variable {rm : RMode} {neg : Bool} {q0 : Int} {v t : ℚ} {F mag k : Nat} {b : Bool}

theorem SignedMag.le_of_pos (ht : SignedMag q0 t) (h : 0 < t) : ∃ k, t = magValue q0 k := by
  obtain ⟨k, rfl | rfl⟩ := ht
  · exact ⟨k, rfl⟩
  · have := magValue_nonneg q0 k
    linarith

theorem RoundedMag.le_succ (h : RoundedMag rm neg q0 v F mag b) : mag = F ∨ mag = F + 1 := by
  by_cases hu : roundsUp rm neg (F % 2 = 1) (v - magValue q0 F) (magValue q0 (F + 1) - v)
  · exact .inr (h.up hu)
  · exact .inl (h.down hu)

theorem RoundedMag.of_exact (h : RoundedMag rm neg q0 v F mag b) (hv : magValue q0 F = v) : mag = F := by
  refine h.down ?_
  rw [hv, sub_self]
  exact not_roundsUp_of_exact (by linarith [h.lt])

/-- The value is exact where the rounded magnitude has it. -/
theorem RoundedMag.inexact_iff (h : RoundedMag rm neg q0 v F mag b) : b = true ↔ magValue q0 mag ≠ v := by
  rw [h.inexact]
  refine not_congr ⟨fun hv => by rw [h.of_exact hv, hv], fun hv => ?_⟩
  rcases h.le_succ with rfl | rfl
  · exact hv
  · exact absurd hv h.lt.ne'

theorem RoundedMag.index_le (h : RoundedMag rm neg q0 v F mag b) (hk : magValue q0 k ≤ v) : k ≤ F :=
  Nat.le_of_lt_succ ((magValue_strictMono q0).lt_iff_lt.mp (hk.trans_lt h.lt))

/-- Where a magnitude stands to two neighbours. -/
theorem magValue_beside (q0 : Int) (F k : Nat) :
    k = F ∨ k = F + 1 ∨ magValue q0 k < magValue q0 F ∨ magValue q0 (F + 1) < magValue q0 k := by
  simp only [(magValue_strictMono q0).lt_iff_lt]
  omega

/-- The modes that truncate a magnitude. -/
def truncates (rm : RMode) (neg : Bool) : Prop := rm = .rtz ∨ (rm = .rup ∧ neg = true) ∨ (rm = .rdn ∧ neg = false)

/-- The modes that take the magnitude above. -/
def raises (rm : RMode) (neg : Bool) : Prop := (rm = .rup ∧ neg = false) ∨ (rm = .rdn ∧ neg = true)

theorem RoundedMag.of_truncates (h : RoundedMag rm neg q0 v F mag b) (ht : truncates rm neg) : mag = F := by
  refine h.down ?_
  rcases ht with rfl | ⟨rfl, rfl⟩ | ⟨rfl, rfl⟩ <;> simp [roundsUp]

theorem RoundedMag.of_raises (h : RoundedMag rm neg q0 v F mag b) (hr : raises rm neg) :
    v ≤ magValue q0 mag ∧ ∀ k, v ≤ magValue q0 k → mag ≤ k := by
  by_cases hv : magValue q0 F = v
  · rw [h.of_exact hv]
    exact ⟨hv.ge, fun k hk => (magValue_strictMono q0).le_iff_le.mp (hv.trans_le hk)⟩
  · have hup : mag = F + 1 := by
      refine h.up ?_
      have hne : v - magValue q0 F ≠ 0 := sub_ne_zero.mpr (Ne.symm hv)
      rcases hr with ⟨rfl, rfl⟩ | ⟨rfl, rfl⟩ <;> exact ⟨rfl, hne⟩
    rw [hup]
    exact ⟨h.lt.le, fun k hk => (magValue_strictMono q0).lt_iff_lt.mp ((lt_of_le_of_ne h.le hv).trans_le hk)⟩

/-- In the nearest mode the greater neighbour is taken where it is nearer, or odd at a tie the smaller one. -/
theorem RoundedMag.nearest (h : RoundedMag .rne neg q0 v F mag b) (k : Nat) :
    |magValue q0 mag - v| ≤ |magValue q0 k - v| ∧ (|magValue q0 mag - v| = |magValue q0 k - v| → k ≠ mag → mag % 2 = 0) := by
  have hle := h.le
  have hlt := h.lt
  have hlow : |magValue q0 F - v| = v - magValue q0 F := by rw [abs_sub_comm, abs_of_nonneg (by linarith)]
  have hhigh : |magValue q0 (F + 1) - v| = magValue q0 (F + 1) - v := abs_of_pos (by linarith)
  have hbelow (hk : magValue q0 k < magValue q0 F) : |magValue q0 k - v| = v - magValue q0 k := by
    rw [abs_sub_comm, abs_of_nonneg (by linarith)]
  have habove (hk : magValue q0 (F + 1) < magValue q0 k) : |magValue q0 k - v| = magValue q0 k - v := abs_of_pos (by linarith)
  by_cases hu : roundsUp .rne neg (F % 2 = 1) (v - magValue q0 F) (magValue q0 (F + 1) - v)
  · rw [h.up hu, hhigh]
    rcases magValue_beside q0 F k with rfl | rfl | hk | hk
    · rw [hlow]
      rcases hu with hu | ⟨hu, hodd⟩
      · exact ⟨hu.le, fun heq => absurd heq hu.ne⟩
      · exact ⟨hu.le, fun _ _ => by omega⟩
    · exact ⟨hhigh.ge, fun _ hne => absurd rfl hne⟩
    · have hu' : magValue q0 (F + 1) - v ≤ v - magValue q0 F := hu.elim le_of_lt fun hu => hu.1.le
      rw [hbelow hk]
      exact ⟨by linarith, fun heq => by linarith⟩
    · rw [habove hk]
      exact ⟨by linarith, fun heq => by linarith⟩
  · rw [h.down hu, hlow]
    obtain ⟨hge, htie⟩ := not_or.mp hu
    rw [not_lt] at hge
    rcases magValue_beside q0 F k with rfl | rfl | hk | hk
    · exact ⟨hlow.ge, fun _ hne => absurd rfl hne⟩
    · rw [hhigh]
      exact ⟨hge, fun heq _ => by have := not_and.mp htie heq.symm; omega⟩
    · rw [hbelow hk]
      exact ⟨by linarith, fun heq => by linarith⟩
    · rw [habove hk]
      exact ⟨by linarith, fun heq => by linarith⟩

end

/-! ## FP32 patterns (R45) -/

/-- The sign of a value. -/
def signOf (neg : Bool) : ℚ := if neg then -1 else 1

theorem signOf_false : signOf false = 1 := rfl

theorem number_num (neg : Bool) (m : Nat) (e : Int) : number (.num neg m e) = signOf neg * (m * 2 ^ e) := by
  rw [number, signOf, mul_assoc]

theorem number_unpackMag (neg : Bool) (q0 : Int) (k : Nat) : number (unpackMag 24 q0 neg k) = signOf neg * magValue q0 k := by
  unfold magValue unpackMag
  dsimp only
  split <;> rw [number_num, number_num, signOf_false, one_mul]

theorem fp32Val_eq (y : Nat) : fp32Val y = if y % 2 ^ 31 = 0x7F800000 then .inf (decide (y / 2 ^ 31 % 2 = 1))
    else if 0x7F800000 < y % 2 ^ 31 then .nan (decide (bits (y % 2 ^ 31) 22 1 = 0))
    else unpackMag 24 (-149) (decide (y / 2 ^ 31 % 2 = 1)) (y % 2 ^ 31) := rfl

theorem unpackMag_num (p : Nat) (q0 : Int) (neg : Bool) (k : Nat) : ∃ m e, unpackMag p q0 neg k = .num neg m e := by
  unfold unpackMag
  dsimp only
  split <;> exact ⟨_, _, rfl⟩

/-- The patterns of the finite numbers are those whose magnitude lies below that of the infinities. -/
theorem fp32Val_num_iff (y : Nat) : (∃ n m e, fp32Val y = .num n m e) ↔ y % 2 ^ 31 < 0x7F800000 := by
  rw [fp32Val_eq]
  split_ifs with h1 h2
  · exact ⟨fun ⟨_, _, _, h⟩ => (nomatch h), fun h => absurd h1 h.ne⟩
  · exact ⟨fun ⟨_, _, _, h⟩ => (nomatch h), fun h => absurd h2 (Nat.not_lt_of_gt h)⟩
  · obtain ⟨m, e, h⟩ := unpackMag_num 24 (-149) (decide (y / 2 ^ 31 % 2 = 1)) (y % 2 ^ 31)
    exact ⟨fun _ => by omega, fun _ => ⟨_, m, e, h⟩⟩

theorem fp32Val_of_lt {y : Nat} (h : y % 2 ^ 31 < 0x7F800000) :
    fp32Val y = unpackMag 24 (-149) (decide (y / 2 ^ 31 % 2 = 1)) (y % 2 ^ 31) := by
  rw [fp32Val_eq, if_neg h.ne, if_neg (Nat.not_lt_of_gt h)]

theorem finite32_iff {y : Nat} : finite32 y ↔ y < 2 ^ 32 ∧ y % 2 ^ 31 < 0x7F800000 := and_congr_right' (fp32Val_num_iff y)

theorem number_fp32Val {y : Nat} (h : y % 2 ^ 31 < 0x7F800000) :
    number (fp32Val y) = signOf (decide (y / 2 ^ 31 % 2 = 1)) * magValue (-149) (y % 2 ^ 31) := by
  rw [fp32Val_of_lt h, number_unpackMag]

/-- A finite number is a magnitude below that of the infinities, with a sign. -/
theorem finite32_number {z : Nat} (h : finite32 z) :
    ∃ k < 0x7F800000, number (fp32Val z) = magValue (-149) k ∨ number (fp32Val z) = -magValue (-149) k := by
  obtain ⟨-, hlt⟩ := finite32_iff.mp h
  refine ⟨_, hlt, ?_⟩
  rw [number_fp32Val hlt, signOf]
  split <;> simp

theorem signMag_mod (neg : Bool) {k : Nat} (hk : k < 2 ^ 31) : signMag 32 neg k % 2 ^ 31 = k := by
  cases neg <;> simp [signMag] <;> omega

theorem signMag_sign (neg : Bool) {k : Nat} (hk : k < 2 ^ 31) : signMag 32 neg k < 2 ^ 32 ∧ decide (signMag 32 neg k / 2 ^ 31 % 2 = 1) = neg
    ∧ (2 ^ 31 ≤ signMag 32 neg k ↔ neg = true) := by
  cases neg <;> simp [signMag] <;> omega

theorem signMag_parity (neg : Bool) (k : Nat) : signMag 32 neg k % 2 = k % 2 := by
  unfold signMag
  omega

theorem finite32_signMag {neg : Bool} {k : Nat} (hk : k < 2 ^ 31) : finite32 (signMag 32 neg k) ↔ k < 0x7F800000 := by
  rw [finite32_iff, signMag_mod neg hk, and_iff_right (signMag_sign neg hk).1]

theorem number_signMag (neg : Bool) {k : Nat} (hk : k < 0x7F800000) : number (fp32Val (signMag 32 neg k)) = signOf neg * magValue (-149) k := by
  have hk' : k < 2 ^ 31 := by omega
  rw [number_fp32Val (by rwa [signMag_mod neg hk']), signMag_mod neg hk', (signMag_sign neg hk').2.1]

/-! ## The limits of FP32 (R45, R52) -/

theorem magValue_top : magValue (-149) 0x7F800000 = 2 ^ 128 := by
  rw [show (0x7F800000 : Nat) = 253 * 2 ^ 23 + 2 ^ 24 by norm_num, magValue_pack _ (by norm_num) (by norm_num)]
  norm_num

theorem magValue_largest : magValue (-149) 0x7F7FFFFF = 2 ^ 128 - 2 ^ 104 := by
  rw [show (0x7F7FFFFF : Nat) = 253 * 2 ^ 23 + (2 ^ 24 - 1) by norm_num, magValue_pack _ (by norm_num) (by norm_num)]
  norm_num

/-- The smallest normal number on the finer grid of the test of tininess (R55), and the number before it. -/
theorem magValue_normal : magValue (-1149) (1001 * 2 ^ 23) = 1 / 2 ^ 126 := by
  rw [show 1001 * 2 ^ 23 = 1000 * 2 ^ 23 + 2 ^ 23 by norm_num, magValue_pack _ (by norm_num) (by norm_num)]
  norm_num [zpow_neg]

theorem magValue_before_normal : magValue (-1149) (1001 * 2 ^ 23 - 1) = 1 / 2 ^ 126 - 1 / 2 ^ 150 := by
  rw [show 1001 * 2 ^ 23 - 1 = 999 * 2 ^ 23 + (2 ^ 24 - 1) by norm_num, magValue_pack _ (by norm_num) (by norm_num)]
  norm_num [zpow_neg]

/-! ## Tininess after rounding (R55) -/

theorem RoundedSig.tiny_iff {rm : RMode} {neg : Bool} {v : ℚ} {f M : Nat} {q : Int} {b : Bool} (h : RoundedSig rm neg (-1149) v f M q b) :
    q + bitLen M < -125 ↔ magValue (-1149) (packMag 24 (-1149) M q) < 1 / 2 ^ 126 := by
  have hexp : (1 : ℚ) / 2 ^ 126 = 2 ^ (-126 : Int) := by norm_num [zpow_neg]
  rw [h.packValue, hexp]
  constructor
  · intro hlt
    exact (bitLen_value_lt M q).trans_le (zpow_le_zpow_right₀ (by norm_num) (by omega))
  · intro hlt
    by_cases hM : M = 0
    · have hn := h.normal
      have hf : f = 0 := by rcases h.le_succ with h | h <;> omega
      subst hM
      simp only [bitLen, if_true]
      omega
    · have := (zpow_lt_zpow_iff_right₀ (by norm_num : (1 : ℚ) < 2)).mp ((bitLen_value_le hM q).trans_lt hlt)
      omega

/-- What the test of tininess tells of the value. -/
theorem tinyAfter_bounds (rm : RMode) (neg : Bool) {m : Nat} (hm : m ≠ 0) (e : Int) :
    (tinyAfter rm 24 (-149) neg m e = true → (m : ℚ) * 2 ^ e < 1 / 2 ^ 126)
    ∧ ((m : ℚ) * 2 ^ e < 1 / 2 ^ 126 - 1 / 2 ^ 150 → tinyAfter rm 24 (-149) neg m e = true) := by
  obtain ⟨f, hsig⟩ := roundTo_rounded rm (-1149) neg hm e
  obtain ⟨F, hmag⟩ := hsig.mag
  have htiny : tinyAfter rm 24 (-149) neg m e = true ↔ _ := decide_eq_true_iff.trans hsig.tiny_iff
  have hmono := magValue_strictMono (-1149)
  rw [htiny, ← magValue_before_normal, ← magValue_normal, hmono.lt_iff_lt]
  generalize packMag 24 (-1149) _ _ = mag at hmag ⊢
  have hcases := hmag.le_succ
  constructor
  · intro hlt
    exact hmag.lt.trans_le (hmono.monotone (by omega))
  · intro hlt
    have := hmono.lt_iff_lt.mp (hmag.le.trans_lt hlt)
    omega

/-! ## What a rounding delivers (R52, R54, R55) -/

/-- The values of the finite numbers. -/
def FiniteValue (t : ℚ) : Prop := ∃ k < 0x7F800000, t = magValue (-149) k ∨ t = -magValue (-149) k

theorem FiniteValue.neg {t : ℚ} (h : FiniteValue t) : FiniteValue (-t) := by
  obtain ⟨k, hk, rfl | rfl⟩ := h
  · exact ⟨k, hk, .inr rfl⟩
  · exact ⟨k, hk, .inl (neg_neg _)⟩

theorem signOf_mul_self (neg : Bool) : signOf neg * signOf neg = 1 := by cases neg <;> norm_num [signOf]

theorem FiniteValue.abs {t : ℚ} (h : FiniteValue t) : FiniteValue |t| := by
  rcases abs_choice t with he | he <;> rw [he]
  · exact h
  · exact h.neg

/-- The magnitude k and the flags fl are the positive value v, of a sign, rounded once to FP32. -/
structure Delivered (rm : RMode) (neg : Bool) (v : ℚ) (k : Nat) (fl : BitVec 5) : Prop where
  le_top : k ≤ 0x7F800000
  truncated : truncates rm neg → k < 0x7F800000 ∧ magValue (-149) k ≤ v ∧ ∀ t, FiniteValue t → t ≤ v → t ≤ magValue (-149) k
  raised : raises rm neg → k < 0x7F800000 → v ≤ magValue (-149) k ∧ ∀ t, FiniteValue t → v ≤ t → magValue (-149) k ≤ t
  nearest : rm = .rne → k < 0x7F800000 → ∀ t, FiniteValue t → |magValue (-149) k - v| ≤ |t - v|
    ∧ (|magValue (-149) k - v| = |t - v| → t ≠ magValue (-149) k → k % 2 = 0)
  infinite : k = 0x7F800000 ↔ (rm = .rne ∧ 2 ^ 128 - 2 ^ 103 ≤ v) ∨ (raises rm neg ∧ 2 ^ 128 - 2 ^ 104 < v)
  inexact : fl.getLsbD 0 = true ↔ ¬ (k < 0x7F800000 ∧ magValue (-149) k = v)
  overflow : fl.getLsbD 2 = true ↔ k = 0x7F800000 ∨ 2 ^ 128 ≤ v
  underflow : (fl.getLsbD 1 = true → fl.getLsbD 0 = true ∧ v < 1 / 2 ^ 126)
    ∧ (fl.getLsbD 0 = true → v < 1 / 2 ^ 126 - 1 / 2 ^ 150 → fl.getLsbD 1 = true)
  others : fl.getLsbD 3 = false ∧ fl.getLsbD 4 = false

section
variable {rm : RMode} {neg : Bool} {v : ℚ} {F mag : Nat} {b : Bool}

theorem mode_cases (rm : RMode) (neg : Bool) : rm = .rne ∨ truncates rm neg ∨ raises rm neg := by
  cases rm <;> cases neg <;> simp [truncates, raises]

theorem overflowsToInf_iff (rm : RMode) (neg : Bool) : overflowsToInf rm neg = true ↔ ¬ truncates rm neg := by
  cases rm <;> cases neg <;> simp [truncates, overflowsToInf]

theorem not_truncates_rne (neg : Bool) : ¬ truncates .rne neg := by simp [truncates]

theorem not_raises_rne (neg : Bool) : ¬ raises .rne neg := by simp [raises]

theorem not_raises_of_truncates (h : truncates rm neg) : ¬ raises rm neg := by
  cases rm <;> cases neg <;> simp_all [truncates, raises]

theorem magValue_lt_iff {j k : Nat} : magValue (-149) j < magValue (-149) k ↔ j < k := (magValue_strictMono _).lt_iff_lt

theorem magValue_le_iff {j k : Nat} : magValue (-149) j ≤ magValue (-149) k ↔ j ≤ k := (magValue_strictMono _).le_iff_le

/-- Among the finite values up to v, the greatest magnitude up to v is the greatest. -/
theorem greatest_of_magnitude {k : Nat} (h : ∀ j < 0x7F800000, magValue (-149) j ≤ v → j ≤ k) {t : ℚ} (ht : FiniteValue t) (htv : t ≤ v) :
    t ≤ magValue (-149) k := by
  obtain ⟨j, hj, rfl | rfl⟩ := ht
  · exact magValue_le_iff.mpr (h j hj htv)
  · linarith [magValue_nonneg (-149) j, magValue_nonneg (-149) k]

theorem least_of_magnitude {k : Nat} (hv : 0 < v) (h : ∀ j, v ≤ magValue (-149) j → k ≤ j) {t : ℚ} (ht : FiniteValue t) (htv : v ≤ t) :
    magValue (-149) k ≤ t := by
  obtain ⟨j, -, rfl | rfl⟩ := ht
  · exact magValue_le_iff.mpr (h j htv)
  · linarith [magValue_nonneg (-149) j]

theorem nearest_of_magnitude {k : Nat} (hv : 0 < v)
    (h : ∀ j, |magValue (-149) k - v| ≤ |magValue (-149) j - v| ∧ (|magValue (-149) k - v| = |magValue (-149) j - v| → j ≠ k → k % 2 = 0))
    {t : ℚ} (ht : FiniteValue t) :
    |magValue (-149) k - v| ≤ |t - v| ∧ (|magValue (-149) k - v| = |t - v| → t ≠ magValue (-149) k → k % 2 = 0) := by
  obtain ⟨j, -, rfl | rfl⟩ := ht
  · exact ⟨(h j).1, fun heq hne => (h j).2 heq fun hjk => hne (congrArg _ hjk)⟩
  · have hj := magValue_nonneg (-149) j
    have hz := (h 0).1
    rw [magValue_zero, zero_sub, abs_neg, abs_of_pos hv] at hz
    rw [show -magValue (-149) j - v = -(magValue (-149) j + v) by ring, abs_neg, abs_of_pos (show 0 < magValue (-149) j + v by linarith)]
    refine ⟨by linarith, fun heq hne => ?_⟩
    have hj0 : magValue (-149) j = 0 := by linarith
    refine (h 0).2 ?_ ?_
    · rw [magValue_zero, zero_sub, abs_neg, abs_of_pos hv]
      linarith
    · rintro rfl
      exact hne (by rw [hj0, magValue_zero, neg_zero])

/-- A rounded magnitude that passes the largest one: it was above the middle, or raised. -/
theorem RoundedMag.overflows_iff (h : RoundedMag rm neg (-149) v F mag b) :
    0x7F800000 ≤ mag ↔ (rm = .rne ∧ 2 ^ 128 - 2 ^ 103 ≤ v) ∨ (raises rm neg ∧ 2 ^ 128 - 2 ^ 104 < v) ∨ (truncates rm neg ∧ 2 ^ 128 ≤ v) := by
  rcases mode_cases rm neg with rfl | ht | hr
  · have hsimp : (RMode.rne = .rne ∧ 2 ^ 128 - 2 ^ 103 ≤ v) ∨ (raises .rne neg ∧ 2 ^ 128 - 2 ^ 104 < v) ∨ (truncates .rne neg ∧ 2 ^ 128 ≤ v)
        ↔ 2 ^ 128 - 2 ^ 103 ≤ v := by simp [not_raises_rne, not_truncates_rne]
    rw [hsimp]
    have hle := h.le
    have hlt := h.lt
    rcases Nat.lt_trichotomy F 0x7F7FFFFF with hF | rfl | hF
    · have hv : v < 2 ^ 128 - 2 ^ 104 := by
        rw [← magValue_largest]
        exact hlt.trans_le (magValue_le_iff.mpr hF)
      have hmag : mag ≤ F + 1 := by rcases h.le_succ with rfl | rfl <;> omega
      exact ⟨fun hm => by omega, fun hm => by norm_num at hm hv; linarith⟩
    · have hup := h.up
      have hdown := h.down
      rw [magValue_largest] at hle
      simp only [magValue_largest, show (0x7F7FFFFF + 1 : Nat) = 0x7F800000 from rfl, magValue_top, roundsUp, Nat.reduceMod, and_true] at hup hdown hlt
      constructor
      · intro hm
        by_contra hv
        have := hdown (by rw [not_or]; constructor <;> intro hc <;> norm_num at hc hv <;> linarith)
        omega
      · intro hv
        refine (hup ?_).ge
        rw [← le_iff_lt_or_eq]
        norm_num at hv ⊢
        linarith
    · have hv : 2 ^ 128 ≤ v := by
        rw [← magValue_top]
        exact (magValue_le_iff.mpr hF).trans hle
      have hmag : F ≤ mag := by rcases h.le_succ with rfl | rfl <;> omega
      exact ⟨fun _ => by norm_num at hv ⊢; linarith, fun _ => by omega⟩
  · have hne : rm ≠ .rne := fun h => not_truncates_rne neg (h ▸ ht)
    simp only [hne, ht, not_raises_of_truncates ht, false_and, true_and, false_or]
    rw [h.of_truncates ht, ← magValue_top]
    exact ⟨fun hF => (magValue_le_iff.mpr hF).trans h.le, fun hv => h.index_le hv⟩
  · have hne : rm ≠ .rne := fun h => not_raises_rne neg (h ▸ hr)
    have hnt : ¬ truncates rm neg := fun ht => not_raises_of_truncates ht hr
    simp only [hne, hr, hnt, false_and, true_and, false_or, or_false]
    obtain ⟨hle, hleast⟩ := h.of_raises hr
    rw [← magValue_largest]
    constructor
    · intro hm
      by_contra hv
      have := hleast _ (not_lt.mp hv)
      omega
    · exact fun hv => magValue_lt_iff.mp (hv.trans_le hle)

theorem overflowed_large (h : RoundedMag rm neg (-149) v F mag b) (hm : 0x7F800000 ≤ mag) : 2 ^ 128 - 2 ^ 104 < v := by
  rcases h.overflows_iff.mp hm with ⟨-, hv⟩ | ⟨-, hv⟩ | ⟨-, hv⟩ <;> norm_num at hv ⊢ <;> linarith

/-- A rounding that stays below the infinities delivers the rounded magnitude. -/
theorem RoundedMag.delivered (h : RoundedMag rm neg (-149) v F mag b) (hv : 0 < v) (hm : mag < 0x7F800000) {fl : BitVec 5} {tiny : Bool}
    (hfl : fl = flagIf (b && tiny) flagUF ||| flagIf b flagNX) (htiny : (tiny = true → v < 1 / 2 ^ 126) ∧ (v < 1 / 2 ^ 126 - 1 / 2 ^ 150 → tiny = true)) :
    Delivered rm neg v mag fl := by
  have hno : ¬ 0x7F800000 ≤ mag := Nat.not_le_of_gt hm
  have hover := not_congr h.overflows_iff |>.mp hno
  simp only [not_or] at hover
  obtain ⟨hover1, hover2, -⟩ := hover
  have hsmall : v < 2 ^ 128 := by
    rw [← magValue_top]
    exact h.lt.trans_le (magValue_le_iff.mpr (by rcases h.le_succ with h | h <;> omega))
  have hbits : fl.getLsbD 0 = b ∧ fl.getLsbD 1 = (b && tiny) ∧ fl.getLsbD 2 = false ∧ fl.getLsbD 3 = false ∧ fl.getLsbD 4 = false := by
    subst hfl
    cases b <;> cases tiny <;> decide
  obtain ⟨h0, h1, h2, h3, h4⟩ := hbits
  refine ⟨hm.le, fun ht => ?_, fun hr _ => ?_, ?_, ?_, ?_, ?_, ?_, h3, h4⟩
  · have hF := h.of_truncates ht
    subst hF
    exact ⟨hm, h.le, fun t => greatest_of_magnitude fun j _ => h.index_le⟩
  · obtain ⟨hle, hleast⟩ := h.of_raises hr
    exact ⟨hle, fun t => least_of_magnitude hv hleast⟩
  · rintro rfl _ t
    exact nearest_of_magnitude hv h.nearest
  · exact ⟨fun he => absurd he hm.ne, fun ho => absurd ho (not_or.mpr ⟨hover1, hover2⟩)⟩
  · rw [h0, h.inexact_iff, and_iff_right hm]
  · rw [h2]
    exact ⟨fun hc => (nomatch hc), fun hc => absurd hc (not_or.mpr ⟨hm.ne, not_le.mpr hsmall⟩)⟩
  · rw [h0, h1, Bool.and_eq_true]
    exact ⟨fun hc => ⟨hc.1, htiny.1 hc.2⟩, fun hb hlt => ⟨hb, htiny.2 hlt⟩⟩

/-- A rounding that passes the largest magnitude delivers the infinity, or where it truncates the largest one (R52). -/
theorem RoundedMag.delivered_overflow (h : RoundedMag rm neg (-149) v F mag b) (hm : 0x7F800000 ≤ mag) :
    Delivered rm neg v (if overflowsToInf rm neg then 0x7F800000 else 0x7F800000 - 1) (flagOF ||| flagNX) := by
  have hlarge := overflowed_large h hm
  have hnotsmall : ¬ v < 1 / 2 ^ 126 := by
    norm_num at hlarge ⊢
    linarith
  by_cases ht : truncates rm neg
  · have hne : rm ≠ .rne := fun hc => not_truncates_rne neg (hc ▸ ht)
    have hr := not_raises_of_truncates ht
    have hover := h.overflows_iff.mp hm
    simp only [hne, hr, ht, false_and, true_and, false_or] at hover
    rw [if_neg (by rwa [overflowsToInf_iff, not_not])]
    refine ⟨by norm_num, fun _ => ⟨by norm_num, ?_, fun t => greatest_of_magnitude fun j hj _ => by omega⟩, fun hc => absurd hc hr,
      fun hc => absurd hc hne, ?_, ?_, ?_, ?_, by decide⟩
    · rw [show 0x7F800000 - 1 = 0x7F7FFFFF from rfl, magValue_largest]
      exact hlarge.le
    · simp [hne, hr]
    · rw [show 0x7F800000 - 1 = 0x7F7FFFFF from rfl, magValue_largest]
      exact ⟨fun _ hc => hlarge.ne hc.2, fun _ => rfl⟩
    · exact ⟨fun _ => .inr hover, fun _ => rfl⟩
    · exact ⟨fun hc => absurd hc (by decide), fun _ hc => absurd (hc.trans (by norm_num)) hnotsmall⟩
  · rw [if_pos ((overflowsToInf_iff rm neg).mpr ht)]
    have hover := h.overflows_iff.mp hm
    simp only [ht, false_and, or_false] at hover
    exact ⟨le_rfl, fun hc => absurd hc ht, fun _ hc => absurd hc (lt_irrefl _), fun _ hc => absurd hc (lt_irrefl _),
      ⟨fun _ => hover, fun _ => rfl⟩, ⟨fun _ hc => lt_irrefl _ hc.1, fun _ => rfl⟩, ⟨fun _ => .inl rfl, fun _ => rfl⟩,
      ⟨fun hc => absurd hc (by decide), fun _ hc => absurd (hc.trans (by norm_num)) hnotsmall⟩, by decide⟩

theorem round32_eq (rm : RMode) (neg : Bool) {m : Nat} (hm : m ≠ 0) (e : Int) : round32 rm neg m e =
    if 0x7F800000 ≤ packMag 24 (-149) (roundTo rm 24 (-149) neg m e).1 (roundTo rm 24 (-149) neg m e).2.1 then
      (signMag 32 neg (if overflowsToInf rm neg then 0x7F800000 else 0x7F800000 - 1), flagOF ||| flagNX)
    else (signMag 32 neg (packMag 24 (-149) (roundTo rm 24 (-149) neg m e).1 (roundTo rm 24 (-149) neg m e).2.1),
      flagIf ((roundTo rm 24 (-149) neg m e).2.2 && tinyAfter rm 24 (-149) neg m e) flagUF ||| flagIf (roundTo rm 24 (-149) neg m e).2.2 flagNX) := by
  rw [round32, roundIeee, if_neg hm]
  rfl

theorem round32_delivered (rm : RMode) (neg : Bool) {m : Nat} (hm : m ≠ 0) (e : Int) :
    ∃ k, (round32 rm neg m e).1 = signMag 32 neg k ∧ Delivered rm neg (m * 2 ^ e) k (round32 rm neg m e).2 := by
  have hv : (0 : ℚ) < m * 2 ^ e := mul_pos (by exact_mod_cast Nat.pos_of_ne_zero hm) (by positivity)
  obtain ⟨f, hsig⟩ := roundTo_rounded rm (-149) neg hm e
  obtain ⟨F, hmag⟩ := hsig.mag
  rw [round32_eq rm neg hm]
  split
  · exact ⟨_, rfl, hmag.delivered_overflow ‹_›⟩
  · exact ⟨_, rfl, hmag.delivered hv (Nat.lt_of_not_le ‹_›) rfl (tinyAfter_bounds rm neg hm e)⟩

/-! ## The sign (R55) -/

theorem finite32_value {z : Nat} (h : finite32 z) : FiniteValue (number (fp32Val z)) := finite32_number h

theorem FiniteValue.signOf_mul {t : ℚ} (h : FiniteValue t) (neg : Bool) : FiniteValue (signOf neg * t) := by
  cases neg
  · simpa [signOf] using h
  · simpa [signOf] using h.neg

theorem abs_signOf_mul (neg : Bool) (t : ℚ) : |signOf neg * t| = |t| := by cases neg <;> simp [signOf]

/-- The distance of a number from a value with a sign. -/
theorem abs_sub_signOf_mul (neg : Bool) (s t : ℚ) : |s - signOf neg * t| = |signOf neg * s - t| := by
  cases neg
  · simp [signOf]
  · rw [← abs_neg]
    simp only [signOf, if_true]
    congr 1
    ring

/-- The infinity is delivered where the rule of the mode for the value with its sign asks for it (R52). -/
theorem infinite_rule (rm : RMode) (neg : Bool) (hv : 0 < v) :
    ((rm = .rne ∧ 2 ^ 128 - 2 ^ 103 ≤ v) ∨ (raises rm neg ∧ 2 ^ 128 - 2 ^ 104 < v))
      ↔ ((rm = .rne ∧ 2 ^ 128 - 2 ^ 103 ≤ v) ∨ (rm = .rup ∧ 2 ^ 128 - 2 ^ 104 < signOf neg * v)
        ∨ (rm = .rdn ∧ signOf neg * v < -(2 ^ 128 - 2 ^ 104))) := by
  have hpos : ¬ v < -(2 ^ 128 - 2 ^ 104) := fun hc => by norm_num at hc; linarith
  have hneg : ¬ 2 ^ 128 - 2 ^ 104 < -v := fun hc => by norm_num at hc; linarith
  refine or_congr_right ?_
  cases neg
  · simp only [raises, signOf_false, one_mul, hpos, and_false, or_false, and_true, reduceCtorEq]
  · have hflip : signOf true * v = -v := by simp [signOf]
    simp only [raises, hflip, hneg, and_false, false_or, and_true, reduceCtorEq, neg_lt_neg_iff]

/-- A magnitude and flags that are delivered for v, with their sign. -/
theorem Delivered.roundsTo {k : Nat} {fl : BitVec 5} (h : Delivered rm neg v k fl) (hv : 0 < v) :
    RoundsTo rm (signOf neg * v) (signMag 32 neg k) fl := by
  have hk : k < 2 ^ 31 := h.le_top.trans_lt (by norm_num)
  have hmod := signMag_mod neg hk
  have hfin : finite32 (signMag 32 neg k) ↔ k < 0x7F800000 := finite32_signMag hk
  have habs : |signOf neg * v| = v := by rw [abs_signOf_mul, abs_of_pos hv]
  have hnum (hk : k < 0x7F800000) := number_signMag neg hk
  have hflip (t : ℚ) : signOf true * t = -t := by simp [signOf]
  have hsame (t : ℚ) : signOf false * t = t := one_mul t
  obtain ⟨hlt, -, hsign⟩ := signMag_sign neg hk
  refine ⟨⟨hlt, hmod.trans_le h.le_top, ?_⟩, ?_, ?_, ?_, ?_, ?_, ?_, ?_, ?_, h.others⟩
  · rw [hsign]
    cases neg
    · simp [signOf, hv.le]
    · simp [signOf, hv]
  · rw [hmod, h.infinite, habs]
    exact infinite_rule rm neg hv
  · rintro rfl hy
    rw [hnum (hfin.mp hy)]
    cases neg with
    | false =>
      obtain ⟨-, hle, hgreatest⟩ := h.truncated (.inr (.inr ⟨rfl, rfl⟩))
      rw [hsame, hsame]
      exact ⟨hle, fun z hz => hgreatest _ (finite32_value hz)⟩
    | true =>
      obtain ⟨hle, hleast⟩ := h.raised (.inr ⟨rfl, rfl⟩) (hfin.mp hy)
      rw [hflip, hflip]
      exact ⟨neg_le_neg hle, fun z hz hzx => le_neg.mp (hleast _ (finite32_value hz).neg (le_neg.mp hzx))⟩
  · rintro rfl hy
    rw [hnum (hfin.mp hy)]
    cases neg with
    | false =>
      obtain ⟨hle, hleast⟩ := h.raised (.inl ⟨rfl, rfl⟩) (hfin.mp hy)
      rw [hsame, hsame]
      exact ⟨hle, fun z hz => hleast _ (finite32_value hz)⟩
    | true =>
      obtain ⟨-, hle, hgreatest⟩ := h.truncated (.inr (.inl ⟨rfl, rfl⟩))
      rw [hflip, hflip]
      exact ⟨neg_le_neg hle, fun z hz hzx => neg_le.mp (hgreatest _ (finite32_value hz).neg (neg_le.mp hzx))⟩
  · rintro rfl
    obtain ⟨hk, hle, hgreatest⟩ := h.truncated (.inl rfl)
    rw [hnum hk, habs, abs_signOf_mul, abs_of_nonneg (magValue_nonneg _ _)]
    exact ⟨hle, fun z hz => hgreatest _ (finite32_value hz).abs⟩
  · rintro rfl hy z hz
    have hself : signOf neg * (signOf neg * magValue (-149) k) = magValue (-149) k := by rw [← mul_assoc, signOf_mul_self, one_mul]
    obtain ⟨hle, htie⟩ := h.nearest rfl (hfin.mp hy) _ ((finite32_value hz).signOf_mul neg)
    rw [hnum (hfin.mp hy), signMag_parity, abs_sub_signOf_mul, abs_sub_signOf_mul, hself]
    refine ⟨hle, fun heq hne => htie heq fun hc => hne ?_⟩
    rw [← hc, ← mul_assoc, signOf_mul_self, one_mul]
  · rw [h.inexact, hfin]
    refine not_congr (and_congr_right fun hk => ?_)
    rw [hnum hk]
    cases neg
    · rw [hsame, hsame]
    · rw [hflip, hflip, neg_inj]
  · rw [h.overflow, hmod, habs]
  · rw [habs]
    exact h.underflow

/-- A nonzero value delivered in FP32 is rounded once (R52, R55). -/
theorem round32_roundsTo (rm : RMode) (neg : Bool) {m : Nat} (hm : m ≠ 0) (e : Int) :
    RoundsTo rm (number (.num neg m e)) (round32 rm neg m e).1 (round32 rm neg m e).2 := by
  obtain ⟨k, hk, hd⟩ := round32_delivered rm neg hm e
  rw [number_num, hk]
  exact hd.roundsTo (mul_pos (by exact_mod_cast Nat.pos_of_ne_zero hm) (by positivity))

end

end Sys2Proof.Spec
end

section
/-! The FP32 sum, product and fused operation, and the special cases of the others (R55 to R58). -/

namespace Sys2Proof.Spec

open Sys2Proof.Machine

/-! ## Signs (R45, R56) -/

theorem fp32Val_sign {a m : Nat} {e : Int} {n : Bool} (h : fp32Val a = .num n m e) : n = decide (a / 2 ^ 31 % 2 = 1) := by
  rw [fp32Val_of_lt ((fp32Val_num_iff a).mp ⟨_, _, _, h⟩)] at h
  unfold unpackMag at h
  dsimp only at h
  split at h <;> cases h <;> rfl

theorem sign_of_lt {a : Nat} (h : a < 2 ^ 32) : decide (2 ^ 31 ≤ a) = decide (a / 2 ^ 31 % 2 = 1) := decide_eq_decide.mpr (by omega)

theorem negate_unpackMag (p : Nat) (q0 : Int) (neg : Bool) (k : Nat) : (unpackMag p q0 neg k).negate = unpackMag p q0 (!neg) k := by
  unfold unpackMag
  dsimp only
  split <;> rfl

theorem fp32Val_fneg32 (a : Nat) : fp32Val (fneg32 a) = (fp32Val a).negate := by
  have hmod : fneg32 a % 2 ^ 31 = a % 2 ^ 31 := by
    unfold fneg32 bits
    split <;> omega
  have hsign : decide (fneg32 a / 2 ^ 31 % 2 = 1) = !decide (a / 2 ^ 31 % 2 = 1) := by
    rw [← decide_not]
    refine decide_eq_decide.mpr ?_
    unfold fneg32 bits
    split <;> omega
  rw [fp32Val_eq, fp32Val_eq, hmod, hsign]
  split_ifs
  · rfl
  · rfl
  · exact (negate_unpackMag _ _ _ _).symm

theorem number_negate (x : FVal) : number x.negate = -number x := by
  cases x with
  | num n m e => cases n <;> simp [FVal.negate, number]
  | _ => simp [FVal.negate, number]

theorem number_eq_zero_iff {n : Bool} {m : Nat} {e : Int} : number (.num n m e) = 0 ↔ m = 0 := by
  rw [number_num]
  cases n <;> simp [signOf, zpow_ne_zero]

/-! ## Sums (R55) -/

theorem scaled_value (n : Bool) (m : Nat) {e e0 : Int} (h : e0 ≤ e) : ((scaled n m e e0 : Int) : ℚ) * 2 ^ e0 = number (.num n m e) := by
  have hexp : (2 : ℚ) ^ e = 2 ^ (e - e0).toNat * 2 ^ e0 := by
    rw [← zpow_natCast, ← zpow_add₀ (by norm_num)]
    congr 1
    omega
  rw [number_num, hexp, scaled]
  cases n <;> simp [signOf, mul_assoc]

theorem number_of_int (z e0 : Int) : number (.num (decide (z < 0)) z.natAbs e0) = z * 2 ^ e0 := by
  have habs : ((z.natAbs : Nat) : ℚ) = |(z : ℚ)| := by rw [Nat.cast_natAbs, Int.cast_abs]
  rw [number_num, habs, ← mul_assoc]
  congr 1
  by_cases hz : z < 0
  · rw [decide_eq_true hz, abs_of_neg (by exact_mod_cast hz)]
    simp [signOf]
  · rw [decide_eq_false hz, abs_of_nonneg (by exact_mod_cast not_lt.mp hz)]
    simp [signOf]

/-- A zero with a sign. -/
def signedZero (neg : Bool) : Nat × BitVec 5 := (if neg then 2 ^ 31 else 0, 0)

theorem signMag_zero (neg : Bool) : (signMag 32 neg 0, (0 : BitVec 5)) = signedZero neg := by cases neg <;> rfl

/-- The sum of two finite values: the exact sum rounded once, or the zero that their signs give. -/
theorem sum32_num (r : RMode) (na nb : Bool) (ma mb : Nat) (ea eb : Int) :
    (number (.num na ma ea) + number (.num nb mb eb) ≠ 0 → RoundsTo r (number (.num na ma ea) + number (.num nb mb eb))
      (sum32 r (.num na ma ea) (.num nb mb eb)).1 (sum32 r (.num na ma ea) (.num nb mb eb)).2)
    ∧ (number (.num na ma ea) + number (.num nb mb eb) = 0 →
      sum32 r (.num na ma ea) (.num nb mb eb) = signedZero (if ma = 0 ∧ mb = 0 ∧ na = nb then na else decide (r = .rdn))) := by
  have hsum : ((scaled na ma ea (min ea eb) + scaled nb mb eb (min ea eb) : Int) : ℚ) * 2 ^ min ea eb
      = number (.num na ma ea) + number (.num nb mb eb) := by
    push_cast
    rw [add_mul, scaled_value na ma (min_le_left ea eb), scaled_value nb mb (min_le_right ea eb)]
  unfold sum32
  dsimp only
  rw [← hsum]
  generalize scaled na ma ea (min ea eb) + scaled nb mb eb (min ea eb) = z
  constructor
  · intro hne
    have hz : z ≠ 0 := fun hz => hne (by rw [hz]; simp)
    rw [if_neg hz, ← number_of_int]
    exact round32_roundsTo r _ (Int.natAbs_ne_zero.mpr hz) _
  · intro heq
    have hz : z = 0 := by simpa [zpow_ne_zero] using heq
    rw [if_pos hz]
    split <;> exact signMag_zero _

/-- The rule of R55 for a zero sum, by whether both terms are zero. -/
theorem zero_sum_rule {x y : ℚ} {r : RMode} {p q : Bool} {ma mb : Nat} {both : Prop} [Decidable both] (hsum : x + y = 0) (hx : x = 0 ↔ ma = 0)
    (hy : y = 0 ↔ mb = 0) (hboth : both ↔ x = 0) : signedZero (if ma = 0 ∧ mb = 0 ∧ p = q then p else decide (r = .rdn))
      = if both ∧ p = q then (if p then 2 ^ 31 else 0, (0 : BitVec 5)) else (if r = .rdn then 2 ^ 31 else 0, 0) := by
  have hxy : y = 0 ↔ x = 0 := ⟨fun h => by linarith, fun h => by linarith⟩
  have hcond : (ma = 0 ∧ mb = 0 ∧ p = q) ↔ both ∧ p = q := by
    rw [← hx, ← hy, hxy, hboth, ← and_assoc, and_self]
  simp only [hcond]
  split
  · rfl
  · unfold signedZero
    simp only [decide_eq_true_eq]

/-! ## The operations on finite numbers (R55) -/

section
variable {r : RMode} {a b c ma mb mc : Nat} {na nb nc : Bool} {ea eb ec : Int}

theorem fadd32_num (ha : fp32Val a = .num na ma ea) (hb : fp32Val b = .num nb mb eb) :
    fadd32 r a b = sum32 r (.num na ma ea) (.num nb mb eb) := by
  unfold fadd32
  simp only [ha, hb, FVal.isNan, Bool.or_self, Bool.false_eq_true, if_false]

theorem fsub32_num (ha : fp32Val a = .num na ma ea) (hb : fp32Val b = .num nb mb eb) :
    fsub32 r a b = sum32 r (.num na ma ea) (.num (!nb) mb eb) :=
  fadd32_num ha (by rw [fp32Val_fneg32, hb]; rfl)

theorem fmul32_num (ha : fp32Val a = .num na ma ea) (hb : fp32Val b = .num nb mb eb) : fmul32 r a b = round32 r (na ^^ nb) (ma * mb) (ea + eb) := by
  unfold fmul32
  simp only [ha, hb, product]

theorem ffma32_num (ha : fp32Val a = .num na ma ea) (hb : fp32Val b = .num nb mb eb) (hc : fp32Val c = .num nc mc ec) :
    ffma32 r a b c = sum32 r (.num (na ^^ nb) (ma * mb) (ea + eb)) (.num nc mc ec) := by
  unfold ffma32
  simp only [ha, hb, hc, product, FVal.isNan, Bool.or_self, Bool.false_eq_true, if_false]

theorem number_mul (na nb : Bool) (ma mb : Nat) (ea eb : Int) :
    number (.num na ma ea) * number (.num nb mb eb) = number (.num (na ^^ nb) (ma * mb) (ea + eb)) := by
  rw [number_num, number_num, number_num, zpow_add₀ (by norm_num)]
  push_cast
  cases na <;> cases nb <;> simp [signOf] <;> ring

end

/-- The first part of FloatSpecialCases: exact results, rounded once. -/
theorem arithmetic_finite (r : RMode) (a b c : Nat) (ha : finite32 a) (hb : finite32 b) (hc : finite32 c) :
    let x := number (fp32Val a)
    let y := number (fp32Val b)
    let z := number (fp32Val c)
    let negative := fun (p : Nat) => decide (2 ^ 31 ≤ p)
    let zero := fun (p q : Bool) (both : Prop) [Decidable both] =>
      if both ∧ p = q then (if p then 2 ^ 31 else 0, (0 : BitVec 5)) else (if r = .rdn then 2 ^ 31 else 0, 0)
    (x + y ≠ 0 → RoundsTo r (x + y) (fadd32 r a b).1 (fadd32 r a b).2)
    ∧ (x + y = 0 → fadd32 r a b = zero (negative a) (negative b) (x = 0))
    ∧ (x - y ≠ 0 → RoundsTo r (x - y) (fsub32 r a b).1 (fsub32 r a b).2)
    ∧ (x - y = 0 → fsub32 r a b = zero (negative a) (!negative b) (x = 0))
    ∧ (x * y ≠ 0 → RoundsTo r (x * y) (fmul32 r a b).1 (fmul32 r a b).2)
    ∧ (x * y = 0 → fmul32 r a b = (if negative a = negative b then 0 else 2 ^ 31, 0))
    ∧ (x * y + z ≠ 0 → RoundsTo r (x * y + z) (ffma32 r a b c).1 (ffma32 r a b c).2)
    ∧ (x * y + z = 0 → ffma32 r a b c = zero (negative a ^^ negative b) (negative c) (z = 0)) := by
  obtain ⟨hla, na, ma, ea, ha⟩ := ha
  obtain ⟨hlb, nb, mb, eb, hb⟩ := hb
  obtain ⟨hlc, nc, mc, ec, hc⟩ := hc
  have hsub : number (.num na ma ea) - number (.num nb mb eb) = number (.num na ma ea) + number (.num (!nb) mb eb) := by
    rw [sub_eq_add_neg, ← number_negate]
    rfl
  simp only [sign_of_lt hla, sign_of_lt hlb, sign_of_lt hlc, ← fp32Val_sign ha, ← fp32Val_sign hb, ← fp32Val_sign hc, fadd32_num ha hb, fsub32_num ha hb,
    fmul32_num ha hb, ffma32_num ha hb hc]
  simp only [ha, hb, hc, hsub, number_mul]
  obtain ⟨hadd, hadd0⟩ := sum32_num r na nb ma mb ea eb
  obtain ⟨hsub, hsub0⟩ := sum32_num r na (!nb) ma mb ea eb
  obtain ⟨hfma, hfma0⟩ := sum32_num r (na ^^ nb) nc (ma * mb) mc (ea + eb) ec
  refine ⟨hadd, fun h => ?_, hsub, fun h => ?_, fun h => ?_, fun h => ?_, hfma, fun h => ?_⟩
  · exact (hadd0 h).trans (zero_sum_rule h number_eq_zero_iff number_eq_zero_iff Iff.rfl)
  · exact (hsub0 h).trans (zero_sum_rule h number_eq_zero_iff number_eq_zero_iff Iff.rfl)
  · exact round32_roundsTo r _ (fun h0 => h (number_eq_zero_iff.mpr h0)) _
  · rw [number_eq_zero_iff.mp h]
    cases na <;> cases nb <;> rfl
  · refine (hfma0 h).trans (zero_sum_rule h number_eq_zero_iff number_eq_zero_iff ⟨fun hz => ?_, fun hz => ?_⟩) <;> linarith

/-! ## NaNs, infinities and zeros (R55 to R58) -/

theorem isNan_of_isSignalling {x : FVal} (h : x.isSignalling = true) : x.isNan = true := by
  cases x with
  | nan s => rfl
  | _ => cases h

theorem product_nan {x y : FVal} (h : x.isNan = true ∨ y.isNan = true) : ∃ s, product x y = some (.nan s) := by
  cases x <;> cases y <;> simp_all [product, FVal.isNan]

theorem flagIf_NV (b : Bool) : flagIf b flagNV = if b then 16 else 0 := rfl

/-- A NaN operand gives the quiet NaN, or an unordered comparison, and NV where one signals or the comparison is one of order (R55, R57). -/
theorem arithmetic_nan (r : RMode) {a b : Nat} (h : (fp32Val a).isNan = true ∨ (fp32Val b).isNan = true) :
    (fadd32 r a b).1 = 0x7FC00000 ∧ (fmul32 r a b).1 = 0x7FC00000
    ∧ ((fadd32 r a b).2 = if (fp32Val a).isSignalling || (fp32Val b).isSignalling then 16 else 0)
    ∧ ((fmul32 r a b).2 = if (fp32Val a).isSignalling || (fp32Val b).isSignalling then 16 else 0)
    ∧ fceq32 a b = (false, if (fp32Val a).isSignalling || (fp32Val b).isSignalling then 16 else 0)
    ∧ fcmp32 false a b = (false, 16) ∧ fcmp32 true a b = (false, 16) := by
  have hor : ((fp32Val a).isNan || (fp32Val b).isNan) = true := Bool.or_eq_true_iff.mpr h
  have hno : (!(fp32Val a).isNan && !(fp32Val b).isNan) = false := by rw [← Bool.not_or, hor, Bool.not_true]
  obtain ⟨s, hs⟩ := product_nan h
  have hadd : fadd32 r a b = (nan32, flagIf ((fp32Val a).isSignalling || (fp32Val b).isSignalling) flagNV) := by
    unfold fadd32
    exact if_pos hor
  have hmul : fmul32 r a b = (nan32, flagIf ((fp32Val a).isSignalling || (fp32Val b).isSignalling) flagNV) := by
    unfold fmul32
    simp only [hs]
  have hcmp (le : Bool) : fcmp32 le a b = (false, flagNV) := by
    unfold fcmp32
    exact if_pos hor
  have hceq : fceq32 a b = (false, flagIf ((fp32Val a).isSignalling || (fp32Val b).isSignalling) flagNV) := by
    unfold fceq32
    simp only [hno, Bool.false_and]
  rw [hadd, hmul, hceq, hcmp, hcmp, flagIf_NV]
  exact ⟨rfl, rfl, rfl, rfl, rfl, rfl, rfl⟩

theorem fminmax32_nan (big : Bool) {a b : Nat} (h : (fp32Val a).isNan = true) :
    (fminmax32 big a b).1 = (if (fp32Val b).isNan then 0x7FC00000 else b) ∧ (fminmax32 big b a).1 = (if (fp32Val b).isNan then 0x7FC00000 else b) := by
  unfold fminmax32
  by_cases hb : (fp32Val b).isNan = true <;> simp [h, hb, nan32]

/-- A number less itself is the zero of the mode. -/
theorem fsub32_self (r : RMode) {a m : Nat} {n : Bool} {e : Int} (h : fp32Val a = .num n m e) (hm : 0 < m) :
    fsub32 r a a = (if r = .rdn then 0x80000000 else 0, 0) := by
  have hzero : number (.num n m e) + number (.num (!n) m e) = 0 := by
    rw [show FVal.num (!n) m e = (FVal.num n m e).negate from rfl, number_negate, add_neg_cancel]
  rw [fsub32_num h h, (sum32_num r n (!n) m m e e).2 hzero, if_neg fun hc => hm.ne' hc.1, signedZero]
  simp only [decide_eq_true_eq]
  rfl

theorem ffma32_inf_zero (r : RMode) (q : Nat) : ffma32 r 0x7F800000 0 q = (0x7FC00000, 16) := by
  have hinf : fp32Val 0x7F800000 = .inf false := by decide
  have hzero : fp32Val 0 = .num false 0 (-149) := by decide
  unfold ffma32
  simp only [hinf, hzero, product, if_true]
  rfl

theorem frsq32_negative (r : RMode) {a m : Nat} {e : Int} (h : fp32Val a = .num true m e) (hm : 0 < m) : frsq32 r a = (0x7FC00000, 16) := by
  unfold frsq32
  simp only [h, hm.ne', if_true, if_false]
  rfl

/-- The second half of O16. -/
theorem floatSpecialCases : FloatSpecialCases := by
  refine ⟨arithmetic_finite, fun r a b _ _ => arithmetic_nan r, fun big a b => fminmax32_nan big, fun r => ⟨?_, ?_, ffma32_inf_zero r⟩, ?_, ?_,
    fun r a n m e => fsub32_self r, ?_, ?_, fun r a m e => frsq32_negative r, ?_⟩
  · cases r <;> decide
  · cases r <;> decide
  · rintro r z (rfl | rfl) <;> cases r <;> decide
  all_goals
    intro r
    cases r <;> decide

end Sys2Proof.Spec
end

section
/-! Vector results (R20, R60, R128, R133, R134): the elements that a merge leaves, and what each integer lane computes. It settles O13. -/

namespace Sys2Proof.Spec

open Sys2Proof.Machine

/-! ## The elements of a merge -/

theorem elem_packElems {w : Nat} {xs : List Nat} (hw : w * xs.length ≤ 512) {j : Nat} (hj : j < xs.length) :
    elem (BitVec.ofNat 512 (packElems w xs)) w j = xs[j] % 2 ^ w := by
  have htoNat {n : Nat} (hn : w * xs.length ≤ n) : (BitVec.ofNat n (packElems w xs)).toNat = packElems w xs :=
    Nat.mod_eq_of_lt (packElems_lt_of_le hn)
  rw [elem, bits, htoNat hw, packElems_digit hj]

theorem elem_lt (v : VWord) (w j : Nat) : elem v w j < 2 ^ w := Nat.mod_lt _ (Nat.two_pow_pos w)

theorem elem_mergeElems {w n : Nat} (hw : w * n ≤ 512) (g : BitVec 16) (old : VWord) (f : Nat → Nat) {j : Nat} (hj : j < n) :
    elem (mergeElems w n g old f) w j = if active g w j then f j % 2 ^ w else elem old w j := by
  unfold mergeElems
  rw [elem_packElems (by simpa using hw) (by simpa using hj), List.getElem_map, List.getElem_range]
  split
  · rfl
  · exact Nat.mod_eq_of_lt (elem_lt old w j)

theorem active_iff {g : BitVec 16} {w j : Nat} : active g w j = true ↔ laneOn g w j := by
  unfold active laneOn
  split
  · rw [Bool.and_eq_true]
  · rw [Nat.mul_comm]

theorem merged_mergeElems {w : Nat} {g : BitVec 16} {f : Nat → Nat} {F : Nat → Int} (old : VWord)
    (h : ∀ j < 512 / w, laneOn g w j → (f j : Int) % 2 ^ w = F j % 2 ^ w) : merged w g old (mergeElems w (512 / w) g old f) F := by
  intro j hj
  rw [elem_mergeElems (Nat.mul_div_le 512 w) g old f hj]
  refine ⟨fun hon => ?_, fun hoff => if_neg (mt active_iff.mp hoff)⟩
  rw [if_pos (active_iff.mpr hon), ← h j hj hon]
  push_cast
  rfl

/-! ## Instructions on lanes -/

section
variable {i : Instr} {s s1 t : State} {a b c : Reg} {x y : VWord}

theorem retire_next (hi : i.len = 4) (h : Standing s t) (hf : fits 4 s) : retire i t = .next (past 4 t) := by
  rw [retire_of_fits, hi]
  rw [hi]
  exact fits_of_standing h hf

theorem finishV_next (hi : i.len = 4) (h : Standing s t) (hf : fits 4 s) (v : VWord) : finishV i a v t = .next (past 4 (writeV a v t)) :=
  retire_next hi (h.trans (writeV_standing a v t)) hf

theorem vecBinary_next (hi : i.len = 4) (hx : popV b s = some (x, s1)) (hy : popV c s1 = some (y, t)) (hroom : roomV a t = true) (hf : fits 4 s)
    (w : Nat) (m : MaskField) (f : Nat → Nat → Nat) : vecBinary i a b c w m f s
      = .next (past 4 (writeV a (mergeElems w (512 / w) (t.mask m) (oldV a t) fun j => f (elem x w j) (elem y w j)) t)) := by
  unfold vecBinary
  rw [withV_eq hx, withV_eq hy, withRoomV_eq hroom]
  exact finishV_next hi ((popV_standing hx).trans (popV_standing hy)) hf _

theorem vecUnary_next (hi : i.len = 4) (hx : popV b s = some (x, t)) (hroom : roomV a t = true) (hf : fits 4 s) (w : Nat) (m : MaskField) (f : Nat → Nat) :
    vecUnary i a b w m f s = .next (past 4 (writeV a (mergeElems w (512 / w) (t.mask m) (oldV a t) fun j => f (elem x w j)) t)) := by
  unfold vecUnary
  rw [withV_eq hx, withRoomV_eq hroom]
  exact finishV_next hi (popV_standing hx) hf _

end

/-! ## Lanes modulo 2^w (R60) -/

theorem wrap_emod (w : Nat) (z : Int) : ((wrap w z).toNat : Int) % 2 ^ w = z % 2 ^ w := by
  have hp : ((2 ^ w : Nat) : Int) = 2 ^ w := by push_cast; rfl
  rw [wrap, BitVec.toNat_ofInt, Int.toNat_of_nonneg (Int.emod_nonneg _ (by positivity)), hp, Int.emod_emod_of_dvd z dvd_rfl]

theorem sextNat_of_lt {w x : Nat} (hx : x < 2 ^ w) : sextNat x w = signedLane w x := by
  unfold sextNat signedLane
  dsimp only
  rw [Nat.mod_eq_of_lt hx]

theorem signedLane_emod (w x : Nat) : signedLane w x % 2 ^ w = (x : Int) % 2 ^ w := by
  unfold signedLane
  split
  · rfl
  · exact Int.sub_emod_right _ _

theorem sraNat_emod {w x : Nat} (hx : x < 2 ^ w) (n : Nat) : (sraNat w x n : Int) % 2 ^ w = (signedLane w x / 2 ^ n) % 2 ^ w := by
  rw [sraNat, wrap_emod, sextNat_of_lt hx]

theorem mulh_emod {w x y : Nat} (hx : x < 2 ^ w) (hy : y < 2 ^ w) :
    ((wrap w (sextNat x w * sextNat y w / 2 ^ w)).toNat : Int) % 2 ^ w = (signedLane w x * signedLane w y / 2 ^ w) % 2 ^ w := by
  rw [wrap_emod, sextNat_of_lt hx, sextNat_of_lt hy]

theorem sub_emod {w x y : Nat} (hy : y < 2 ^ w) : ((x + 2 ^ w - y : Nat) : Int) % 2 ^ w = ((x : Int) - y) % 2 ^ w := by
  rw [Nat.cast_sub (by omega), Nat.cast_add, Nat.cast_pow, Nat.cast_ofNat, show (x : Int) + 2 ^ w - y = x - y + 2 ^ w by ring, Int.add_emod_right]

theorem signedMin_emod {w x y : Nat} (hx : x < 2 ^ w) (hy : y < 2 ^ w) :
    ((if sextNat x w ≤ sextNat y w then x else y : Nat) : Int) % 2 ^ w = min (signedLane w x) (signedLane w y) % 2 ^ w := by
  rw [sextNat_of_lt hx, sextNat_of_lt hy, min_def]
  split <;> exact (signedLane_emod w _).symm

theorem signedMax_emod {w x y : Nat} (hx : x < 2 ^ w) (hy : y < 2 ^ w) :
    ((if sextNat x w ≤ sextNat y w then y else x : Nat) : Int) % 2 ^ w = max (signedLane w x) (signedLane w y) % 2 ^ w := by
  rw [sextNat_of_lt hx, sextNat_of_lt hy, max_def]
  split <;> exact (signedLane_emod w _).symm

/-- The value that each instruction of two sources gives a lane is its rule's, modulo 2^w. -/
theorem exec_laneRule2 {i : Instr} {a b c : Reg} {w : Nat} {m : MaskField} {f : Nat → Nat → Int} (h : laneRule2 i = some (a, b, c, w, m, f)) (s : State) :
    ∃ g, exec i s = vecBinary i a b c w m g s ∧ ∀ x y, x < 2 ^ w → y < 2 ^ w → (g x y : Int) % 2 ^ w = f x y % 2 ^ w := by
  unfold laneRule2 at h
  split at h <;> cases h
  case h_1 => exact ⟨_, (rfl : execVadd _ _ _ _ _ s = _), fun x y _ _ => by push_cast; rfl⟩
  case h_2 => exact ⟨_, (rfl : execVsub _ _ _ _ _ s = _), fun x y _ hy => sub_emod hy⟩
  case h_3 => exact ⟨_, (rfl : execVmul _ _ _ _ _ s = _), fun x y _ _ => by push_cast; rfl⟩
  case h_4 => exact ⟨_, (rfl : execVmulh _ _ _ _ _ s = _), fun x y hx hy => mulh_emod hx hy⟩
  case h_5 => exact ⟨_, (rfl : execVand _ _ _ _ _ s = _), fun x y _ _ => rfl⟩
  case h_6 => exact ⟨_, (rfl : execVor _ _ _ _ _ s = _), fun x y _ _ => rfl⟩
  case h_7 => exact ⟨_, (rfl : execVxor _ _ _ _ _ s = _), fun x y _ _ => rfl⟩
  case h_8 => exact ⟨_, (rfl : execVsll _ _ _ _ _ s = _), fun x y _ _ => by rw [shAmt]; push_cast; rfl⟩
  case h_9 => exact ⟨_, (rfl : execVsrl _ _ _ _ _ s = _), fun x y _ _ => by rw [shAmt]; push_cast; rfl⟩
  case h_10 => exact ⟨_, (rfl : execVsra _ _ _ _ _ s = _), fun x y hx _ => sraNat_emod hx _⟩
  case h_11 => exact ⟨_, (rfl : execVmin _ _ _ _ _ s = _), fun x y hx hy => signedMin_emod hx hy⟩
  case h_12 => exact ⟨_, (rfl : execVmax _ _ _ _ _ s = _), fun x y hx hy => signedMax_emod hx hy⟩
  case h_13 => exact ⟨_, (rfl : execVminz _ _ _ _ _ s = _), fun x y _ _ => by push_cast; rfl⟩
  case h_14 => exact ⟨_, (rfl : execVmaxz _ _ _ _ _ s = _), fun x y _ _ => by push_cast; rfl⟩

theorem saturate_signed (k : Nat) (z : Int) : saturate true (k + 1) z = max (-(2 ^ k)) (min (2 ^ k - 1) z) := rfl

theorem exec_laneRule1 {i : Instr} {a b : Reg} {w : Nat} {m : MaskField} {f : Nat → Int} (h : laneRule1 i = some (a, b, w, m, f)) (s : State) :
    ∃ g, exec i s = vecUnary i a b w m g s ∧ ∀ x, x < 2 ^ w → (g x : Int) % 2 ^ w = f x % 2 ^ w := by
  unfold laneRule1 at h
  split at h <;> cases h
  case h_1 => exact ⟨_, (rfl : execVabs _ _ _ _ s = _), fun x hx => by rw [Int.natCast_natAbs, sextNat_of_lt hx]⟩
  case h_2 => exact ⟨_, (rfl : execVsat _ _ _ _ _ s = _), fun x hx => by rw [wrap_emod, sextNat_of_lt hx, saturate_signed]⟩

/-- Settles O13: each instruction merges lanes whose values are its rule's modulo 2^w. -/
theorem vectorResults : Obligations.VectorResults := by
  constructor
  · intro i a b c w m f s x y s1 t hi hx hy hroom hf
    obtain ⟨g, hexec, hg⟩ := exec_laneRule2 hi s
    refine ⟨_, hexec.trans (vecBinary_next (len_of_laneRule2 hi) hx hy hroom hf w m g), merged_mergeElems _ fun j _ _ => ?_⟩
    exact hg _ _ (elem_lt x w j) (elem_lt y w j)
  · intro i a b w m f s x t hi _ hx hroom hf
    obtain ⟨g, hexec, hg⟩ := exec_laneRule1 hi s
    refine ⟨_, hexec.trans (vecUnary_next (len_of_laneRule1 hi) hx hroom hf w m g), merged_mergeElems _ fun j _ _ => ?_⟩
    exact hg _ (elem_lt x w j)

end Sys2Proof.Spec
end

section
/-! Floating vector instructions (R55 to R59, R135): the lanes that a merge takes and the flags that they raise together. With the special cases it
settles O16. -/

namespace Sys2Proof.Spec

open Sys2Proof.Machine

/-! ## Flags raised together (R59) -/

/-- Flags that are gathered over a list, where a condition holds. -/
theorem foldl_flags (p : Nat → Bool) (f : Nat → BitVec 5) (b : Nat) (l : List Nat) : ∀ acc : BitVec 5,
    (l.foldl (fun acc j => if p j then acc ||| f j else acc) acc).getLsbD b = true
      ↔ acc.getLsbD b = true ∨ ∃ j ∈ l, p j = true ∧ (f j).getLsbD b = true := by
  induction l with
  | nil => simp
  | cons j l ih =>
    intro acc
    rw [List.foldl_cons, ih, List.exists_mem_cons_iff, ← or_assoc]
    refine or_congr_left ?_
    split
    · simp [*]
    · simp [*]

theorem raised_gatherFlags (g : BitVec 16) (f : Nat → BitVec 5) : raised g (gatherFlags 32 16 g f) f := by
  intro b _
  unfold gatherFlags
  rw [foldl_flags (fun j => active g 32 j)]
  simp [active_iff]

theorem getD_map_range {α : Type} (h : Nat → α) (d : α) {n j : Nat} (hj : j < n) : ((List.range n).map h).getD j d = h j := by
  simp [List.getD, hj]

/-- Flags are raised together by what the active lanes raise. -/
theorem raised_congr {g : BitVec 16} {fl : BitVec 5} {f f' : Nat → BitVec 5} (h : ∀ j < 16, f j = f' j) (hr : raised g fl f) : raised g fl f' := by
  intro b hb
  rw [hr b hb]
  exact exists_congr fun j => and_congr_right fun hj => by rw [h j hj]

theorem merged_congr {w : Nat} {g : BitVec 16} {old v : VWord} {f f' : Nat → Int} (h : ∀ j < 512 / w, f j = f' j) (hm : merged w g old v f) :
    merged w g old v f' := fun j hj => ⟨fun hon => by rw [← h j hj]; exact (hm j hj).1 hon, (hm j hj).2⟩

/-! ## What an instruction leaves -/

/-- An instruction of vd a comes, from t, to the result h of each lane and the flags that the active lanes raise. -/
def FloatLanes (a : Reg) (m : MaskField) (t : State) (o : Res) (h : Nat → Nat × BitVec 5) : Prop :=
  ∃ v fl, o = .next (past 4 (writeV a v (orFlags fl t))) ∧ merged 32 (t.mask m) (oldV a t) v (fun j => (h j).1)
    ∧ raised (t.mask m) fl (fun j => (h j).2)

section
variable {i : Instr} {s s1 s2 t : State} {a b c : Reg} {x y z : VWord}

theorem finishFp_lanes (hi : i.len = 4) (h : Standing s t) (hf : fits 4 s) (a : Reg) (m : MaskField) (r : Nat → Nat × BitVec 5) :
    FloatLanes a m t (finishFp i a m ((List.range 16).map r) t) r := by
  refine ⟨_, _, finishV_next hi (h.trans (orFlags_standing _ t)) hf _, ?_, ?_⟩
  · refine merged_mergeElems _ fun j hj _ => ?_
    rw [getD_map_range _ _ hj]
  · refine raised_congr (fun j hj => ?_) (raised_gatherFlags _ _)
    rw [getD_map_range _ _ hj]

theorem fpUnary_lanes (hi : i.len = 4) (hx : popV b s = some (x, t)) (hroom : roomV a t = true) (hf : fits 4 s) (m : MaskField)
    (f : RMode → Nat → Nat × BitVec 5) : FloatLanes a m t (fpUnary i a b m f s) fun j => f (rmode t.st.fmode) (elem x 32 j) := by
  unfold fpUnary
  rw [withV_eq hx, withRoomV_eq hroom]
  exact finishFp_lanes hi (popV_standing hx) hf a m _

theorem fpBinary_lanes (hi : i.len = 4) (hx : popV b s = some (x, s1)) (hy : popV c s1 = some (y, t)) (hroom : roomV a t = true) (hf : fits 4 s)
    (m : MaskField) (f : RMode → Nat → Nat → Nat × BitVec 5) :
    FloatLanes a m t (fpBinary i a b c m f s) fun j => f (rmode t.st.fmode) (elem x 32 j) (elem y 32 j) := by
  unfold fpBinary
  rw [withV_eq hx, withV_eq hy, withRoomV_eq hroom]
  exact finishFp_lanes hi ((popV_standing hx).trans (popV_standing hy)) hf a m _

theorem fpFused_lanes (hi : i.len = 4) (hx : popV b s = some (x, s1)) (hy : popV c s1 = some (y, s2)) (hz : popV a s2 = some (z, t))
    (hroom : roomV a t = true) (hf : fits 4 s) (m : MaskField) (f : RMode → Nat → Nat → Nat → Nat × BitVec 5) :
    FloatLanes a m t (fpFused i a b c m f s) fun j => f (rmode t.st.fmode) (elem x 32 j) (elem y 32 j) (elem z 32 j) := by
  unfold fpFused
  rw [withV_eq hx, withV_eq hy, withV_eq hz, withRoomV_eq hroom]
  exact finishFp_lanes hi ((popV_standing hx).trans ((popV_standing hy).trans (popV_standing hz))) hf a m _

end

/-! ## The rules (R56, R135) -/

theorem readsV_one {b : Reg} {s t : State} {vs : List VWord} (h : readsV [b] s vs t) : ∃ x, vs = [x] ∧ popV b s = some (x, t) := by
  cases vs with
  | nil => exact h.elim
  | cons x vs =>
    obtain ⟨s1, hx, hrest⟩ := h
    cases vs with
    | nil => exact ⟨x, rfl, by rw [hx, show t = s1 from hrest]⟩
    | cons y vs => exact hrest.elim

theorem readsV_two {b c : Reg} {s t : State} {vs : List VWord} (h : readsV [b, c] s vs t) :
    ∃ x y s1, vs = [x, y] ∧ popV b s = some (x, s1) ∧ popV c s1 = some (y, t) := by
  cases vs with
  | nil => exact h.elim
  | cons x vs =>
    obtain ⟨s1, hx, hrest⟩ := h
    obtain ⟨y, rfl, hy⟩ := readsV_one hrest
    exact ⟨x, y, s1, rfl, hx, hy⟩

theorem readsV_three {b c d : Reg} {s t : State} {vs : List VWord} (h : readsV [b, c, d] s vs t) :
    ∃ x y z s1 s2, vs = [x, y, z] ∧ popV b s = some (x, s1) ∧ popV c s1 = some (y, s2) ∧ popV d s2 = some (z, t) := by
  cases vs with
  | nil => exact h.elim
  | cons x vs =>
    obtain ⟨s1, hx, hrest⟩ := h
    obtain ⟨y, z, s2, rfl, hy, hz⟩ := readsV_two hrest
    exact ⟨x, y, z, s1, s2, rfl, hx, hy, hz⟩

theorem xor_two_pow_of_lt {k y : Nat} (hy : y < 2 ^ k) : y ^^^ 2 ^ k = 2 ^ k + y := by
  refine Nat.eq_of_testBit_eq fun i => ?_
  rw [Nat.testBit_xor, Nat.testBit_two_pow]
  rcases Nat.lt_trichotomy i k with h | rfl | h
  · rw [Nat.testBit_two_pow_add_gt h, decide_eq_false h.ne', Bool.xor_false]
  · rw [Nat.testBit_two_pow_add_eq, decide_eq_true rfl, Bool.xor_true]
  · have hpow : 2 ^ (k + 1) ≤ 2 ^ i := Nat.pow_le_pow_right (by norm_num) h
    rw [Nat.testBit_lt_two_pow (by omega), Nat.testBit_lt_two_pow (by omega), decide_eq_false h.ne, Bool.xor_false]

/-- VFNEG's change of bit 31 (R56). -/
theorem fneg32_eq_xor {x : Nat} (hx : x < 2 ^ 32) : fneg32 x = x ^^^ 2 ^ 31 := by
  unfold fneg32 bits
  split
  · obtain ⟨y, rfl⟩ : ∃ y, x = 2 ^ 31 + y := ⟨x - 2 ^ 31, by omega⟩
    rw [← xor_two_pow_of_lt (show y < 2 ^ 31 by omega), Nat.xor_assoc, Nat.xor_self, Nat.xor_zero, xor_two_pow_of_lt (by omega), Nat.add_sub_cancel_left]
  · rw [xor_two_pow_of_lt (by omega), Nat.add_comm]

/-- The shape of each floating instruction: the registers that it reads, in order, and what it computes of a lane. -/
theorem exec_floatRule {i : Instr} {a : Reg} {rs : List Reg} {m : MaskField} {f : RMode → List Nat → Nat × BitVec 5}
    (h : floatRule i = some (a, rs, m, f)) (s : State) :
    (∃ b g, rs = [b] ∧ exec i s = fpUnary i a b m g s ∧ ∀ r x, x < 2 ^ 32 → g r x = f r [x])
    ∨ (∃ b c, rs = [b, c] ∧ exec i s = fpBinary i a b c m (fun r x y => f r [x, y]) s)
    ∨ (∃ b c, rs = [b, c, a] ∧ exec i s = fpFused i a b c m (fun r x y z => f r [x, y, z]) s) := by
  unfold floatRule at h
  split at h <;> cases h
  case h_1 => exact .inr (.inl ⟨_, _, rfl, (rfl : execVfadd _ _ _ _ s = _)⟩)
  case h_2 => exact .inr (.inl ⟨_, _, rfl, (rfl : execVfsub _ _ _ _ s = _)⟩)
  case h_3 => exact .inr (.inl ⟨_, _, rfl, (rfl : execVfmul _ _ _ _ s = _)⟩)
  case h_4 => exact .inr (.inr ⟨_, _, rfl, (rfl : execVfma _ _ _ _ s = _)⟩)
  case h_5 => exact .inr (.inr ⟨_, _, rfl, (rfl : execVfms _ _ _ _ s = _)⟩)
  case h_6 => exact .inr (.inl ⟨_, _, rfl, (rfl : execVfmin _ _ _ _ s = _)⟩)
  case h_7 => exact .inr (.inl ⟨_, _, rfl, (rfl : execVfmax _ _ _ _ s = _)⟩)
  case h_8 => exact .inl ⟨_, _, rfl, (rfl : execVfabs _ _ _ s = _), fun r x _ => rfl⟩
  case h_9 => exact .inl ⟨_, _, rfl, (rfl : execVfneg _ _ _ s = _), fun r x hx => by rw [fneg32_eq_xor hx]; rfl⟩
  case h_10 => exact .inl ⟨_, _, rfl, (rfl : execVfrcp _ _ _ s = _), fun r x _ => rfl⟩
  case h_11 => exact .inl ⟨_, _, rfl, (rfl : execVfrsq _ _ _ s = _), fun r x _ => rfl⟩
  case h_12 => exact .inl ⟨_, _, rfl, (rfl : execVfexp _ _ _ s = _), fun r x _ => rfl⟩

/-! ## Comparisons (R57, R134) -/

theorem getLsbD_bits {f : Nat → Bool} {j : Nat} (hj : j < 16) :
    (BitVec.ofNat 16 (packElems 1 ((List.range 16).map fun j => (f j).toNat))).getLsbD j = f j := by
  rw [BitVec.getLsbD_ofNat, decide_eq_true hj, Bool.true_and, Nat.testBit_eq_decide_div_mod_eq]
  have hdigit := packElems_digit (w := 1) (xs := (List.range 16).map fun j => (f j).toNat) (j := j) (by simpa using hj)
  rw [one_mul, pow_one, List.getElem_map, List.getElem_range] at hdigit
  rw [hdigit]
  cases f j <;> rfl

theorem compareMask_32 (g old : BitVec 16) (r : Nat → Bool) {j : Nat} (hj : j < 16) :
    (compareMask 32 g old r).getLsbD j = if g.getLsbD j then r j else old.getLsbD j := by
  unfold compareMask
  dsimp only
  rw [getLsbD_bits hj]
  simp [bitActive]

section
variable {i : Instr} {s s1 t : State} {a b c : Reg} {x y : VWord}

theorem fpCompare_eq (hx : popV b s = some (x, s1)) (hy : popV c s1 = some (y, t)) (m : MaskField) (f : Nat → Nat → Bool × BitVec 5) :
    fpCompare i a b c m f s = retire i (writeM (reg8 a)
      (compareMask 32 (t.mask m) (t.st.getM (reg8 a)) fun j => (((List.range 16).map fun j => f (elem x 32 j) (elem y 32 j)).getD j (false, 0)).1)
      (orFlags (gatherFlags 32 16 (t.mask m) fun j => (((List.range 16).map fun j => f (elem x 32 j) (elem y 32 j)).getD j (false, 0)).2) t)) := by
  unfold fpCompare
  rw [withV_eq hx, withV_eq hy]

theorem fpCompare_next (hi : i.len = 4) (hx : popV b s = some (x, s1)) (hy : popV c s1 = some (y, t)) (hf : fits 4 s) (a : Reg) (m : MaskField)
    (f : Nat → Nat → Bool × BitVec 5) :
    ∃ g fl, fpCompare i a b c m f s = .next (past 4 (writeM (reg8 a) g (orFlags fl t)))
      ∧ (∀ j < 16, g.getLsbD j = if (t.mask m).getLsbD j then (f (elem x 32 j) (elem y 32 j)).1 else (t.st.getM (reg8 a)).getLsbD j)
      ∧ raised (t.mask m) fl (fun j => (f (elem x 32 j) (elem y 32 j)).2) := by
  have hstand (g : BitVec 16) (fl : BitVec 5) : Standing s (writeM (reg8 a) g (orFlags fl t)) :=
    ((popV_standing hx).trans (popV_standing hy)).trans ((orFlags_standing _ t).trans (writeM_standing _ _ _))
  refine ⟨_, _, (fpCompare_eq hx hy m f).trans (retire_next hi (hstand _ _) hf), fun j hj => ?_, raised_congr (fun j hj => ?_) (raised_gatherFlags _ _)⟩
  · rw [compareMask_32 _ _ _ hj, getD_map_range _ _ hj]
  · rw [getD_map_range _ _ hj]

end

/-- The first half of O16. -/
theorem floatResults : FloatResults := by
  constructor
  · intro i a rs m f s vs t hi hreads hroom hf
    have hlen := len_of_floatRule hi
    rcases exec_floatRule hi s with ⟨b, g, rfl, hexec, hg⟩ | ⟨b, c, rfl, hexec⟩ | ⟨b, c, rfl, hexec⟩
    · obtain ⟨x, rfl, hx⟩ := readsV_one hreads
      obtain ⟨v, fl, hnext, hv, hfl⟩ := hexec ▸ fpUnary_lanes hlen hx hroom hf m g
      have hlane (j : Nat) : g (rmode t.st.fmode) (elem x 32 j) = f (rmode t.st.fmode) [elem x 32 j] := hg _ _ (elem_lt x 32 j)
      exact ⟨v, fl, hnext, merged_congr (fun j _ => congrArg (fun p => (p.1 : Int)) (hlane j)) hv, raised_congr (fun j _ => congrArg Prod.snd (hlane j)) hfl⟩
    · obtain ⟨x, y, s1, rfl, hx, hy⟩ := readsV_two hreads
      rw [hexec]
      exact fpBinary_lanes hlen hx hy hroom hf m _
    · obtain ⟨x, y, z, s1, s2, rfl, hx, hy, hz⟩ := readsV_three hreads
      rw [hexec]
      exact fpFused_lanes hlen hx hy hz hroom hf m _
  · intro i a b c m f s x y s1 t hi hx hy hf
    rw [exec_of_floatCompareRule hi s]
    exact fpCompare_next (len_of_floatCompareRule hi) hx hy hf a m f

/-- Settles O16: a rounding takes one of the two magnitudes around the exact result, and a floating instruction merges its lanes. -/
theorem floatRules : Obligations.FloatRules := ⟨floatResults, floatSpecialCases⟩

end Sys2Proof.Spec
end

section
/-! The floating reductions over their tree, and VCVT (R50 to R54, R59, R61, R62, R137, R138). It settles O17. -/

namespace Sys2Proof.Spec

open Sys2Proof.Machine

/-! ## One level of the tree (R61, R62) -/

/-- A node of the tree: both inputs combined, or the active one. -/
def joinPair (f : Nat → Nat → Nat × BitVec 5) (x y : Option Nat) : Option Nat :=
  match x, y with
  | some x, some y => some (f x y).1
  | some x, none => some x
  | none, y => y

/-- The nodes of the level above some leaves. -/
def nextLevel (f : Nat → Nat → Nat × BitVec 5) (leaf : Nat → Option Nat) (i : Nat) : Option Nat := joinPair f (leaf (2 * i)) (leaf (2 * i + 1))

/-- A node of two active inputs raises flag b. -/
def pairFlag (f : Nat → Nat → Nat × BitVec 5) (b : Nat) (p q : Option Nat) : Prop :=
  ∃ x y, p = some x ∧ q = some y ∧ (f x y).2.getLsbD b = true

section
variable (f : Nat → Nat → Nat × BitVec 5) (b : Nat)

theorem treeValue_succ (leaf : Nat → Option Nat) (k i : Nat) :
    treeValue f leaf (k + 1) i = joinPair f (treeValue f leaf k (2 * i)) (treeValue f leaf k (2 * i + 1)) := by
  cases hp : treeValue f leaf k (2 * i) <;> cases hq : treeValue f leaf k (2 * i + 1) <;> simp [treeValue, joinPair, hp, hq]

/-- The tree over some leaves is one level less over the nodes above them. -/
theorem treeValue_nextLevel (leaf : Nat → Option Nat) (k : Nat) : ∀ i, treeValue f leaf (k + 1) i = treeValue f (nextLevel f leaf) k i := by
  induction k with
  | zero => exact fun i => treeValue_succ f leaf 0 i
  | succ k ih => exact fun i => by rw [treeValue_succ, ih, ih, ← treeValue_succ]

theorem treeFlag_succ (leaf : Nat → Option Nat) (k i : Nat) : treeFlag f leaf b (k + 1) i ↔
    treeFlag f leaf b k (2 * i) ∨ treeFlag f leaf b k (2 * i + 1) ∨ pairFlag f b (treeValue f leaf k (2 * i)) (treeValue f leaf k (2 * i + 1)) := Iff.rfl

theorem or_regroup (p q r s t : Prop) : (p ∨ q) ∨ (r ∨ s) ∨ t ↔ (p ∨ r) ∨ q ∨ s ∨ t := by tauto

/-- A flag below node i of level k + 1 is raised on the first level or above it. -/
theorem treeFlag_nextLevel (leaf : Nat → Option Nat) (k : Nat) : ∀ i, treeFlag f leaf b (k + 1) i ↔
    (∃ j, j / 2 ^ k = i ∧ pairFlag f b (leaf (2 * j)) (leaf (2 * j + 1))) ∨ treeFlag f (nextLevel f leaf) b k i := by
  induction k with
  | zero =>
    intro i
    rw [treeFlag_succ]
    simp [treeFlag, treeValue]
  | succ k ih =>
    intro i
    have hsplit (P : Nat → Prop) : (∃ j, j / 2 ^ (k + 1) = i ∧ P j) ↔ (∃ j, j / 2 ^ k = 2 * i ∧ P j) ∨ ∃ j, j / 2 ^ k = 2 * i + 1 ∧ P j := by
      rw [← exists_or]
      refine exists_congr fun j => ?_
      rw [← or_and_right, Nat.pow_succ, ← Nat.div_div_eq_div_mul]
      refine and_congr_left fun _ => ?_
      omega
    rw [treeFlag_succ, ih, ih, hsplit, treeFlag_succ, treeValue_nextLevel, treeValue_nextLevel]
    exact or_regroup _ _ _ _ _

theorem reduceOnce_cons (x y : Option Nat) (l : List (Option Nat)) :
    (reduceOnce f (x :: y :: l)).1 = joinPair f x y :: (reduceOnce f l).1
    ∧ ((reduceOnce f (x :: y :: l)).2.getLsbD b = true ↔ pairFlag f b x y ∨ (reduceOnce f l).2.getLsbD b = true) := by
  cases x <;> cases y <;> simp [reduceOnce, joinPair, pairFlag]

theorem reduceOnce_range (n : Nat) : ∀ leaf : Nat → Option Nat,
    (reduceOnce f ((List.range (2 * n)).map leaf)).1 = (List.range n).map (nextLevel f leaf)
    ∧ ((reduceOnce f ((List.range (2 * n)).map leaf)).2.getLsbD b = true ↔ ∃ j < n, pairFlag f b (leaf (2 * j)) (leaf (2 * j + 1))) := by
  induction n with
  | zero => exact fun leaf => ⟨rfl, by simp [reduceOnce]⟩
  | succ n ih =>
    intro leaf
    have hcons : (List.range (2 * (n + 1))).map leaf = leaf 0 :: leaf 1 :: (List.range (2 * n)).map fun j => leaf (j + 2) := by
      rw [Nat.mul_succ, List.range_succ_eq_map, List.range_succ_eq_map]
      simp
    obtain ⟨hval, hflag⟩ := reduceOnce_cons f b (leaf 0) (leaf 1) ((List.range (2 * n)).map fun j => leaf (j + 2))
    obtain ⟨hval', hflag'⟩ := ih fun j => leaf (j + 2)
    rw [hcons, hval, hflag, hval', hflag']
    constructor
    · rw [List.range_succ_eq_map, List.map_cons, List.map_map]
      rfl
    · rw [Nat.exists_lt_succ_left]
      rfl

/-! ## The tree (R61, R62) -/

theorem reduceTree_range (k n : Nat) : ∀ leaf : Nat → Option Nat,
    (reduceTree f k ((List.range (2 ^ k * n)).map leaf)).1 = (List.range n).map (treeValue f leaf k)
    ∧ ((reduceTree f k ((List.range (2 ^ k * n)).map leaf)).2.getLsbD b = true ↔ ∃ i < n, treeFlag f leaf b k i) := by
  induction k with
  | zero =>
    intro leaf
    rw [pow_zero, one_mul]
    exact ⟨List.map_congr_left fun i _ => rfl, by simp [reduceTree, treeFlag]⟩
  | succ k ih =>
    intro leaf
    obtain ⟨hval, hflag⟩ := reduceOnce_range f b (2 ^ k * n) leaf
    obtain ⟨hval', hflag'⟩ := ih (nextLevel f leaf)
    rw [Nat.pow_succ', Nat.mul_assoc, reduceTree]
    dsimp only
    rw [hval]
    refine ⟨hval'.trans (List.map_congr_left fun i _ => (treeValue_nextLevel f leaf k i).symm), ?_⟩
    rw [BitVec.getLsbD_or, Bool.or_eq_true, hflag, hflag']
    simp only [treeFlag_nextLevel, and_or_left, exists_or]
    refine or_congr_left ⟨fun ⟨j, hj, hp⟩ => ⟨j / 2 ^ k, ?_, j, rfl, hp⟩, fun ⟨i, hi, j, hj, hp⟩ => ⟨j, ?_, hp⟩⟩
    · exact Nat.div_lt_of_lt_mul hj
    · rw [← hj, Nat.div_lt_iff_lt_mul (Nat.two_pow_pos k)] at hi
      rwa [Nat.mul_comm]

theorem joinPair_lt {N : Nat} (hf : ∀ x y, x < N → y < N → (f x y).1 < N) {p q : Option Nat} (hp : ∀ x, p = some x → x < N) (hq : ∀ x, q = some x → x < N)
    {x : Nat} (h : joinPair f p q = some x) : x < N := by
  unfold joinPair at h
  cases p with
  | none => exact hq x h
  | some y =>
    cases q with
    | none => exact hp x h
    | some z =>
      cases h
      exact hf y z (hp y rfl) (hq z rfl)

theorem treeValue_lt {leaf : Nat → Option Nat} {N : Nat} (hleaf : ∀ i x, leaf i = some x → x < N) (hf : ∀ x y, x < N → y < N → (f x y).1 < N) (k : Nat) :
    ∀ i x, treeValue f leaf k i = some x → x < N := by
  induction k with
  | zero => exact hleaf
  | succ k ih =>
    intro i x h
    rw [treeValue_succ] at h
    exact joinPair_lt f hf (ih _) (ih _) h

end

/-! ## The reductions (R137) -/

theorem leaves_lt {g : BitVec 16} {x : VWord} (i v : Nat) (h : leaves g x i = some v) : v < 2 ^ 32 := by
  unfold leaves at h
  split at h <;> cases h
  exact elem_lt x 32 i

/-- A reduction of 32-bit elements is the root of the tree, or its identity, and the flags that its nodes raise. -/
theorem reduceElems_tree (g : BitVec 16) (x : VWord) (e : Nat) (f : Nat → Nat → Nat × BitVec 5) :
    (reduceElems 32 g x e f).1 = (treeValue f (leaves g x) 4 0).getD e
    ∧ ∀ b, (reduceElems 32 g x e f).2.getLsbD b = true ↔ treeFlag f (leaves g x) b 4 0 := by
  have hlevels : bitLen (512 / 32) - 1 = 4 := by decide
  have hleaves : ((List.range (512 / 32)).map fun j => if active g 32 j then some (elem x 32 j) else none) = (List.range (2 ^ 4 * 1)).map (leaves g x) := by
    refine List.map_congr_left fun j _ => ?_
    simp [leaves, active]
  unfold reduceElems
  dsimp only
  rw [hlevels, hleaves]
  have hval := (reduceTree_range f 0 4 1 (leaves g x)).1
  have hflag (b : Nat) := (reduceTree_range f b 4 1 (leaves g x)).2
  simp only [Nat.lt_one_iff, exists_eq_left] at hflag
  rw [hval, List.range_one, List.map_singleton]
  cases treeValue f (leaves g x) 4 0 <;> exact ⟨rfl, hflag⟩

theorem reduction_next {i : Instr} {s t : State} {a b : Reg} {x : VWord} (hi : i.len = 4) (hx : popV b s = some (x, t)) (hroom : roomV a t = true)
    (hf : fits 4 s) (m : MaskField) {e : Nat} (he : e < 2 ^ 32) (f : RMode → Nat → Nat → Nat × BitVec 5)
    (hlt : ∀ x y, x < 2 ^ 32 → y < 2 ^ 32 → (f (rmode t.st.fmode) x y).1 < 2 ^ 32) :
    ∃ v fl, reduction i a b 32 m e f s = .next (past 4 (writeV a v (orFlags fl t))) ∧ v.toNat < 2 ^ 32
      ∧ v.toNat = (treeValue (f (rmode t.st.fmode)) (leaves (t.mask m) x) 4 0).getD e
      ∧ ∀ k < 5, fl.getLsbD k = true ↔ treeFlag (f (rmode t.st.fmode)) (leaves (t.mask m) x) k 4 0 := by
  obtain ⟨hval, hflag⟩ := reduceElems_tree (t.mask m) x e (f (rmode t.st.fmode))
  have hsmall : (reduceElems 32 (t.mask m) x e (f (rmode t.st.fmode))).1 < 2 ^ 32 := by
    rw [hval]
    cases h : treeValue (f (rmode t.st.fmode)) (leaves (t.mask m) x) 4 0 with
    | none => exact he
    | some v => exact treeValue_lt _ leaves_lt hlt 4 0 v h
  have htoNat {n : Nat} (hn : 32 ≤ n) : (BitVec.ofNat n (reduceElems 32 (t.mask m) x e (f (rmode t.st.fmode))).1).toNat
      = (reduceElems 32 (t.mask m) x e (f (rmode t.st.fmode))).1 :=
    Nat.mod_eq_of_lt (hsmall.trans_le (Nat.pow_le_pow_right (by norm_num) hn))
  refine ⟨_, _, ?_, ?_, (htoNat (by norm_num)).trans hval, fun k _ => hflag k⟩
  · unfold reduction
    rw [withV_eq hx, withRoomV_eq hroom]
    exact finishV_next hi ((popV_standing hx).trans (orFlags_standing _ t)) hf _
  · rw [htoNat (by norm_num)]
    exact hsmall

theorem round32_lt (r : RMode) (neg : Bool) (m : Nat) (e : Int) : (round32 r neg m e).1 < 2 ^ 32 := by
  by_cases hm : m = 0
  · subst hm
    unfold round32 roundIeee
    rw [if_pos rfl]
    exact (signMag_sign neg (by decide)).1
  · exact (round32_roundsTo r neg hm e).pattern.1

theorem inf32_lt (neg : Bool) : inf32 neg < 2 ^ 32 := by cases neg <;> decide

theorem nan32_lt : nan32 < 2 ^ 32 := by decide

theorem sum32_lt (r : RMode) (x y : FVal) : (sum32 r x y).1 < 2 ^ 32 := by
  unfold sum32
  split
  · split
    · exact inf32_lt _
    · decide
  · exact inf32_lt _
  · exact inf32_lt _
  · dsimp only
    split
    · split
      · exact (signMag_sign _ (by decide)).1
      · exact (signMag_sign _ (by decide)).1
    · exact round32_lt _ _ _ _
  · decide

theorem fadd32_lt (r : RMode) (x y : Nat) : (fadd32 r x y).1 < 2 ^ 32 := by
  unfold fadd32
  dsimp only
  split
  · exact nan32_lt
  · exact sum32_lt _ _ _

theorem fminmax32_lt (big : Bool) {x y : Nat} (hx : x < 2 ^ 32) (hy : y < 2 ^ 32) : (fminmax32 big x y).1 < 2 ^ 32 := by
  unfold fminmax32
  dsimp only
  split_ifs
  · exact nan32_lt
  all_goals assumption

/-! ## Conversions (R50 to R54, R138) -/

theorem raisedBy_foldl {f : Nat → Nat × BitVec 5} (n : Nat) :
    raisedBy (((List.range n).map f).foldl (fun acc e => acc ||| e.2) 0) n fun j => (f j).2 := by
  intro b _
  have hfold := foldl_flags (fun _ => true) (fun j => (f j).2) b (List.range n) 0
  simp only [if_true, true_and, List.mem_range] at hfold
  rw [List.foldl_map, hfold]
  simp

/-- The field that a conversion takes for a code is the one that the code names. -/
theorem namedFormat_eq (c : BitVec 4) (o : BitVec 128) (lo : Nat) : (if c = 12 then BitVec.ofNat 10 (sel o lo 10) else c.setWidth 10) = namedFormat c o lo := by
  unfold namedFormat sel
  rw [ofNat_bits]

theorem formatBad_twelve {f : BitVec 10} (h : f.toNat % 16 = 12) : formatBad f = true ↔ f.toNat / 2 ^ 4 % 8 = 0 := by
  have h4 : bits f.toNat 0 4 = 12 := by rw [bits, pow_zero, Nat.div_one]; exact h
  rw [formatBad, h4]
  exact decide_eq_true_iff

/-- The test of a conversion's field fails exactly where its code names no format (R138). -/
theorem badField_iff (c : BitVec 4) (o : BitVec 128) (lo : Nat) :
    (c = 12 ∧ (bits (namedFormat c o lo).toNat 0 4 ≠ 12 ∨ formatBad (namedFormat c o lo) = true)) ↔ ¬ namesFormat c o lo := by
  unfold namesFormat
  rw [Classical.not_imp]
  refine and_congr_right fun hc => ?_
  have hfield : (namedFormat c o lo).toNat = o.toNat / 2 ^ lo % 2 ^ 10 := by rw [namedFormat, if_pos hc, BitVec.toNat_ofNat]
  have hcode : bits (namedFormat c o lo).toNat 0 4 = o.toNat / 2 ^ lo % 16 := by
    rw [bits, pow_zero, Nat.div_one, hfield]
    omega
  have hP : (namedFormat c o lo).toNat / 2 ^ 4 % 8 = o.toNat / 2 ^ (lo + 4) % 8 := by
    rw [hfield, Nat.pow_add, ← Nat.div_div_eq_div_mul]
    omega
  rw [hcode, Classical.not_and_iff_not_or_not, not_not, ← hP]
  by_cases h12 : o.toNat / 2 ^ lo % 16 = 12
  · have hbad := formatBad_twelve (f := namedFormat c o lo) (by rw [hfield]; omega)
    simp [h12, hbad]
  · simp [h12]

section
variable {a b : Reg} {d f : BitVec 4} {s t : State} {x : VWord}

/-- The bad field of a conversion is found after its source is read and its destination has room. -/
theorem exec_vcvt_bad (hx : popV b s = some (x, t)) (hroom : roomV a t = true) (hbad : ¬ (namesFormat f t.st.ox[7] 0 ∧ namesFormat d t.st.ox[7] 16)) :
    exec (.vcvt a d f b) s = trap 0x0B (t.st.ox[7].setWidth 64) s := by
  change execVcvt a d f b s = _
  unfold execVcvt
  rw [withV_eq hx, withRoomV_eq hroom]
  dsimp only
  rw [namedFormat_eq, namedFormat_eq,
    if_pos ((Classical.not_and_iff_not_or_not.mp hbad).imp (badField_iff f _ 0).mpr (badField_iff d _ 16).mpr)]

theorem exec_vcvt_good (hx : popV b s = some (x, t)) (hroom : roomV a t = true) (hgood : namesFormat f t.st.ox[7] 0 ∧ namesFormat d t.st.ox[7] 16) :
    exec (.vcvt a d f b) s =
      let r := (List.range (512 / max (formatBits f.toNat) (formatBits d.toNat))).map fun j => convertElem (formatOf (namedFormat f t.st.ox[7] 0))
        (formatOf (namedFormat d t.st.ox[7] 16)) (rmode t.st.fmode) (elem x (formatBits f.toNat) j)
      finishV (.vcvt a d f b) a (BitVec.ofNat 512 (packElems (formatBits d.toNat) (r.map Prod.fst))) (orFlags (r.foldl (fun acc e => acc ||| e.2) 0) t) := by
  change execVcvt a d f b s = _
  unfold execVcvt
  rw [withV_eq hx, withRoomV_eq hroom]
  dsimp only
  rw [namedFormat_eq, namedFormat_eq,
    if_neg fun h => h.elim (fun h => (badField_iff f _ 0).mp h hgood.1) fun h => (badField_iff d _ 16).mp h hgood.2]
  rfl

theorem formatBits_pos {c : BitVec 4} (h : convertCode c = true) : 0 < formatBits c.toNat := by
  revert h
  revert c
  decide

theorem vcvt_converts (hx : popV b s = some (x, t)) (hroom : roomV a t = true) (hf : fits 4 s) (hd : convertCode d = true)
    (hnames : namesFormat f t.st.ox[7] 0 ∧ namesFormat d t.st.ox[7] 16) :
    let n := 512 / max (formatBits f.toNat) (formatBits d.toNat)
    let one := fun j => convertElem (formatOf (namedFormat f t.st.ox[7] 0)) (formatOf (namedFormat d t.st.ox[7] 16)) (rmode t.st.fmode)
      (elem x (formatBits f.toNat) j)
    ∃ v fl, exec (.vcvt a d f b) s = .next (past 4 (writeV a v (orFlags fl t)))
      ∧ (∀ j < n, elem v (formatBits d.toNat) j = (one j).1 % 2 ^ formatBits d.toNat)
      ∧ v.toNat < 2 ^ (formatBits d.toNat * n) ∧ raisedBy fl n (fun j => (one j).2) := by
  intro n one
  have hn : formatBits d.toNat * n ≤ 512 :=
    (Nat.mul_le_mul_left _ (Nat.div_le_div_left (le_max_right _ _) (formatBits_pos hd))).trans (Nat.mul_div_le 512 _)
  refine ⟨_, _, (exec_vcvt_good hx hroom hnames).trans (finishV_next rfl ((popV_standing hx).trans (orFlags_standing _ t)) hf _), fun j hj => ?_, ?_, raisedBy_foldl n⟩
  · rw [elem_packElems (by simpa [n] using hn) (by simpa [n] using hj)]
    simp [one]
  · have htoNat {k : Nat} (l : List Nat) (hl : l.length = n) (hk : formatBits d.toNat * n ≤ k) :
        (BitVec.ofNat k (packElems (formatBits d.toNat) l)).toNat < 2 ^ (formatBits d.toNat * n) := by
      rw [← hl] at hk ⊢
      rw [BitVec.toNat_ofNat, Nat.mod_eq_of_lt (packElems_lt_of_le hk)]
      exact packElems_lt _ _
    exact htoNat _ (by simp [n]) hn

end

/-- R51's examples. -/
theorem convertElem_examples (r : RMode) (inf sat : Bool) :
    let to8 := fun inf sat b => (convertElem (formatOf 11) ⟨12, 4, true, inf, sat⟩ r b).1
    to8 inf sat 0x3C23D70A = 0x0A ∧ to8 false sat 0x43750000 = 0x7F ∧ to8 false false 0x43780000 = 0x80 ∧ to8 false true 0x447A0000 = 0x7F
    ∧ to8 true false 0x447A0000 = 0x7F ∧ to8 true true 0x447A0000 = 0x7E ∧ to8 inf sat 0x80000000 = 0 := by
  revert inf sat
  cases r <;> decide

/-- Settles O17: a list reduced level by level is the tree, and a conversion packs the elements that it converts. -/
theorem floatReductionsAndConversions : Obligations.FloatReductionsAndConversions := by
  refine ⟨fun a b m s x t hx hroom hf => ⟨?_, ?_⟩, fun a b d f s x t hx hroom hf hwf hnf hnd => ?_, fun a b d f s x t hx hroom hbusy hbad => ?_,
    convertElem_examples⟩
  · exact reduction_next (i := .vfreds a b m) rfl hx hroom hf m (by norm_num) fadd32 fun x y _ _ => fadd32_lt _ x y
  · exact reduction_next (i := .vfredm a b m) rfl hx hroom hf m (by norm_num) (fun _ x y => fminmax32 true x y) fun x y => fminmax32_lt true
  · exact vcvt_converts hx hroom hf (Bool.and_eq_true_iff.mp hwf).1 ⟨hnf, hnd⟩
  · rw [exec_vcvt_bad hx hroom hbad, trap_of_idle hbusy]

end Sys2Proof.Spec
end

section
/-! Multiplications (R67 to R69, R156, R157, R160, R161): what one multiply leaves of an accumulator (its value, its count, and each digit's
exponent and special flags), the checks, and the k-steps of MMAR. It settles O23. -/

namespace Sys2Proof.Spec

open Sys2Proof.Machine

/-! ## Reading a rebuilt side vector -/

theorem get_filtered_map {α : Type} [DecidableEq α] (d : α) (g : Nat → α) (a : Nat) : ∀ l : List Nat, l.Pairwise (· < ·) →
    Table.get d ((l.map fun j => (j, g j)).filter fun e => decide (e.2 ≠ d)) a = if a ∈ l then g a else d
  | [], _ => rfl
  | k :: l, h => by
    obtain ⟨hk, hl⟩ := List.pairwise_cons.mp h
    have ih := get_filtered_map d g a l hl
    have hnot (hle : a ≤ k) : a ∉ l := fun ha => Nat.not_lt_of_le hle (hk a ha)
    rw [List.map_cons, List.filter_cons]
    by_cases hgk : g k = d
    · rw [if_neg (by simp [hgk]), ih]
      by_cases hak : a = k
      · simp [hak, hgk]
      · simp [hak]
    · rw [if_pos (by simp [hgk]), Table.get, ih]
      rcases Nat.lt_trichotomy a k with hlt | rfl | hlt
      · simp [hlt, hlt.ne, hnot hlt.le]
      · simp
      · simp [hlt.ne', Nat.not_lt_of_gt hlt]

theorem get_mapDigits (a : Acc) (f : Nat → DigitSide → DigitSide) {j : Nat} (hj : j < 1088) :
    Table.get DigitSide.zero (mapDigits a f) j = f j (a.digit j) := by
  unfold mapDigits
  exact (get_filtered_map _ (fun j => f j (a.digit j)) j _ List.pairwise_lt_range).trans (if_pos (List.mem_range.mpr hj))

/-! ## Special flags (R68) -/

theorem productFlags_n (x y : Code) : (productFlags x y).1 = true ↔ setsN x y := by
  unfold setsN
  cases x <;> cases y <;> decide

theorem productFlags_p (x y : Code) : (productFlags x y).2.1 = true ↔ setsInf x y false := by
  unfold setsInf setsN
  cases x <;> cases y <;> decide

theorem productFlags_m (x y : Code) : (productFlags x y).2.2 = true ↔ setsInf x y true := by
  unfold setsInf setsN
  cases x <;> cases y <;> decide

theorem productFlags_plain {x y : Code} (hx : x.special = false) (hy : y.special = false) : productFlags x y = (false, false, false) := by
  cases x <;> cases hx <;> cases y <;> cases hy <;> rfl

/-- What the product of one digit of an entry does to digit d. -/
def digitStep (ys : List Side) (d : Nat) (e : DigitSide) (x : Side × Nat) : DigitSide :=
  if x.2 ≤ d then (match ys[d - x.2]? with
    | some y => e.addFlags (productFlags x.1.code y.code)
    | none => e) else e

theorem digitFlags_eq (xs ys : List Side) (d : Nat) (e : DigitSide) : digitFlags xs ys d e = xs.zipIdx.foldl (digitStep ys d) e := rfl

theorem digitStep_exp (ys : List Side) (d : Nat) (e : DigitSide) (x : Side × Nat) : (digitStep ys d e x).exp = e.exp := by
  unfold digitStep
  split
  · split <;> rfl
  · rfl

section
variable {field : DigitSide → Bool} {part : Bool × Bool × Bool → Bool} (hadd : ∀ e f, field (e.addFlags f) = (field e || part f))
include hadd

/-- field reads one flag of a digit, and part the flag of a product: a product sets it, or it was set. -/
theorem digitStep_iff (ys : List Side) (d : Nat) (e : DigitSide) (x : Side × Nat) : field (digitStep ys d e x) = true
    ↔ field e = true ∨ (x.2 ≤ d ∧ ∃ y, ys[d - x.2]? = some y ∧ part (productFlags x.1.code y.code) = true) := by
  unfold digitStep
  by_cases hx : x.2 ≤ d
  · rw [if_pos hx]
    cases ys[d - x.2]? <;> simp [hadd, hx]
  · simp [hx]

theorem foldl_digitStep_iff (ys : List Side) (d : Nat) (l : List (Side × Nat)) : ∀ e : DigitSide, field (l.foldl (digitStep ys d) e) = true
    ↔ field e = true ∨ ∃ x ∈ l, x.2 ≤ d ∧ ∃ y, ys[d - x.2]? = some y ∧ part (productFlags x.1.code y.code) = true := by
  induction l with
  | nil => simp
  | cons x l ih => exact fun e => by rw [List.foldl_cons, ih, List.exists_mem_cons_iff, ← or_assoc, digitStep_iff hadd]

/-- The flag of one kind that digitFlags gives. -/
theorem digitFlags_iff {sets : Code → Code → Prop} (hsets : ∀ x y, part (productFlags x y) = true ↔ sets x y) (xs ys : List Side) (d : Nat)
    (e : DigitSide) : field (digitFlags xs ys d e) = true ↔ field e = true
      ∨ ∃ i x y, xs[i]? = some x ∧ i ≤ d ∧ ys[d - i]? = some y ∧ sets x.code y.code := by
  rw [digitFlags_eq, foldl_digitStep_iff hadd]
  simp only [Prod.exists, List.mem_zipIdx_iff_getElem?, hsets]
  exact or_congr_right ⟨fun ⟨x, i, hx, hi, y, hy⟩ => ⟨i, x, y, hx, hi, hy⟩, fun ⟨i, x, y, hx, hi, hy⟩ => ⟨x, i, hx, hi, y, hy⟩⟩

end

theorem digitFlags_exp (xs ys : List Side) (d : Nat) (e : DigitSide) : (digitFlags xs ys d e).exp = e.exp := by
  rw [digitFlags_eq]
  induction xs.zipIdx generalizing e with
  | nil => rfl
  | cons x l ih => rw [List.foldl_cons, ih, digitStep_exp]

/-- A product of the given operands that adds to digit d satisfies p. -/
def anyProduct (steps : List (List Side × List Side)) (d : Nat) (p : Code → Code → Prop) : Prop :=
  ∃ e ∈ steps, ∃ i x y, e.1[i]? = some x ∧ i ≤ d ∧ e.2[d - i]? = some y ∧ p x.code y.code

theorem flagsAfter_iff {steps : List (List Side × List Side)} {d : Nat} {old new : DigitSide} : flagsAfter steps d old new ↔
    (new.n = true ↔ old.n = true ∨ anyProduct steps d setsN) ∧ (new.p = true ↔ old.p = true ∨ anyProduct steps d fun x y => setsInf x y false)
    ∧ (new.m = true ↔ old.m = true ∨ anyProduct steps d fun x y => setsInf x y true) := Iff.rfl

theorem anyProduct_singleton (xs ys : List Side) (d : Nat) (p : Code → Code → Prop) :
    anyProduct [(xs, ys)] d p ↔ ∃ i x y, xs[i]? = some x ∧ i ≤ d ∧ ys[d - i]? = some y ∧ p x.code y.code := by
  simp only [anyProduct, List.mem_singleton, exists_eq_left]

theorem anyProduct_append (l l' : List (List Side × List Side)) (d : Nat) (p : Code → Code → Prop) :
    anyProduct (l ++ l') d p ↔ anyProduct l d p ∨ anyProduct l' d p := by
  simp only [anyProduct, List.mem_append, or_and_right, exists_or]

/-- Flags after one multiply. -/
theorem flagsAfter_digitFlags (xs ys : List Side) (d : Nat) (e : DigitSide) : flagsAfter [(xs, ys)] d e (digitFlags xs ys d e) := by
  simp only [flagsAfter_iff, anyProduct_singleton]
  exact ⟨digitFlags_iff (part := Prod.fst) (fun _ _ => rfl) productFlags_n xs ys d e,
    digitFlags_iff (part := fun f => f.2.1) (fun _ _ => rfl) productFlags_p xs ys d e,
    digitFlags_iff (part := fun f => f.2.2) (fun _ _ => rfl) productFlags_m xs ys d e⟩

/-- Operands without a special code set no flag. -/
theorem flagsAfter_quiet {xs ys : List Side} (hx : ∀ x ∈ xs, x.code.special = false) (hy : ∀ y ∈ ys, y.code.special = false) (d : Nat) (e : DigitSide) :
    flagsAfter [(xs, ys)] d e e := by
  have hnone (sets : Code → Code → Prop) (part : Bool × Bool × Bool → Bool) (hsets : ∀ x y, part (productFlags x y) = true ↔ sets x y)
      (hpart : part (false, false, false) = false) :
      ¬ ∃ i x y, xs[i]? = some x ∧ i ≤ d ∧ ys[d - i]? = some y ∧ sets x.code y.code := by
    rintro ⟨i, x, y, hxi, -, hyi, hs⟩
    rw [← hsets, productFlags_plain (hx x (List.mem_of_getElem? hxi)) (hy y (List.mem_of_getElem? hyi)), hpart] at hs
    cases hs
  simp only [flagsAfter_iff, anyProduct_singleton]
  exact ⟨(or_iff_left (hnone _ Prod.fst productFlags_n rfl)).symm, (or_iff_left (hnone _ (fun f => f.2.1) productFlags_p rfl)).symm,
    (or_iff_left (hnone _ (fun f => f.2.2) productFlags_m rfl)).symm⟩

/-- Flags speak of no exponent. -/
theorem flagsAfter_exp {steps : List (List Side × List Side)} {d : Nat} {old new : DigitSide} (x : Int)
    (h : flagsAfter steps d { old with exp := x } new) : flagsAfter steps d old new := h

theorem flagsAfter_nil (d : Nat) (e : DigitSide) : flagsAfter [] d e e := by simp [flagsAfter_iff, anyProduct]

theorem flagsAfter_append {l l' : List (List Side × List Side)} {d : Nat} {old mid new : DigitSide} (h : flagsAfter l d old mid)
    (h' : flagsAfter l' d mid new) : flagsAfter (l ++ l') d old new := by
  obtain ⟨hn, hp, hm⟩ := h
  obtain ⟨hn', hp', hm'⟩ := h'
  simp only [flagsAfter_iff, anyProduct_append, ← or_assoc]
  exact ⟨hn'.trans (or_congr_left hn), hp'.trans (or_congr_left hp), hm'.trans (or_congr_left hm)⟩

/-! ## One multiply (R156, R157) -/

/-- A digit after one multiply of entry e and row r (R67, R68). -/
def digitAfter (c : Core) (joined : Bool) (e r j : Nat) (d : DigitSide) : DigitSide :=
  let d := { d with exp := (mulExps c joined e r).getD j d.exp }
  if !((entrySides c joined e).any (fun x => x.code.special)) && !((rowSides c r).any (fun y => y.code.special)) then d
  else digitFlags (entrySides c joined e) (rowSides c r) j d

/-- What accumulate leaves in the place of accumulator a. -/
def accAfter (c : Core) (joined : Bool) (e r : Nat) (a : Acc) : Acc :=
  { a with
    value := wrap 4352 (a.value.toInt + entryValue c e * rowValue c r)
    side := mapDigits a (digitAfter c joined e r)
    count := BitVec.ofNat 32 (satCount (a.count.toNat + (if joined then entryDigits c else 1))) }

theorem accumulate_eq (joined : Bool) (n e r : Nat) (s : State) :
    accumulate joined n e r s = setAcc n (accAfter s.core joined e r (accOf s.core n)) s := rfl

section
variable (c : Core) (joined : Bool) (e r : Nat) (a : Acc)

theorem accAfter_value : (accAfter c joined e r a).value = BitVec.ofInt 4352 (a.value.toInt + entryValue c e * rowValue c r) := by
  rw [accAfter, wrap]

theorem accAfter_poison : (accAfter c joined e r a).poison = a.poison := by unfold accAfter; rfl

theorem accAfter_count : (accAfter c joined e r a).count.toNat = min (a.count.toNat + (if joined then entryDigits c else 1)) (2 ^ 32 - 1) := by
  rw [accAfter, satCount]
  exact Nat.mod_eq_of_lt (Nat.lt_of_le_of_lt (Nat.min_le_right _ _) (by decide))

theorem accAfter_digit {j : Nat} (hj : j < 1088) : (accAfter c joined e r a).digit j = digitAfter c joined e r j (a.digit j) := by
  have hside : (accAfter c joined e r a).side = mapDigits a (digitAfter c joined e r) := by dsimp only [accAfter]
  rw [Acc.digit, hside, get_mapDigits a _ hj]

theorem flagsAfter_digitAfter (j : Nat) (d : DigitSide) :
    flagsAfter [(entrySides c joined e, rowSides c r)] j d (digitAfter c joined e r j d) := by
  refine flagsAfter_exp ((mulExps c joined e r).getD j d.exp) ?_
  unfold digitAfter
  dsimp only
  split
  · rename_i hq
    rw [Bool.and_eq_true, Bool.not_eq_true', Bool.not_eq_true', List.any_eq_false, List.any_eq_false] at hq
    exact flagsAfter_quiet (fun x hx => by simpa using hq.1 x hx) (fun y hy => by simpa using hq.2 y hy) j _
  · exact flagsAfter_digitFlags _ _ j _

theorem digitAfter_exp (j : Nat) (d : DigitSide) : (digitAfter c joined e r j d).exp = (mulExps c joined e r).getD j d.exp := by
  unfold digitAfter
  dsimp only
  split
  · rfl
  · exact digitFlags_exp _ _ _ _

end

/-! ## The exponents of a multiply (R67) -/

section
variable {c : Core} {e r j : Nat}

theorem rowSides_map_getD (f : Side → Int) (d : Int) :
    ((rowSides c r).map f).getD j d = if j < rowDigits c then f (ySide c (1024 * r + j * c.sq.toNat)) else d := by
  unfold rowSides
  rw [List.map_map]
  split
  · rename_i hj
    exact getD_map_range _ _ hj
  · rename_i hj
    exact List.getD_eq_default _ _ (by simpa using hj)

theorem mulExps_row (d : Int) : (mulExps c false e r).getD j d
    = if j < rowDigits c then (xSide c (e * entryWidth c / 4)).scale + (ySide c (1024 * r + j * c.sq.toNat)).scale else d := by
  exact rowSides_map_getD (fun y => (xSide c (e * entryWidth c / 4)).scale + y.scale) d

theorem mulExps_joined (h : entryDigits c ≠ 0) (d : Int) : (mulExps c true e r).getD j d
    = if j < accDigits c then (xSide c (e * entryWidth c / 4)).scale + (ySide c (1024 * r)).scale else d := by
  have hhead : (entrySides c true e).headD Side.zero = xSide c (e * entryWidth c / 4) := by
    obtain ⟨k, hk⟩ := Nat.exists_eq_succ_of_ne_zero h
    rw [entrySides, if_pos rfl, hk, List.range_succ_eq_map, List.map_cons, List.headD_cons, Nat.zero_mul, Nat.add_zero]
  unfold mulExps
  rw [if_pos rfl, hhead]
  split
  · rename_i hj
    simp [List.getD, hj]
  · rename_i hj
    exact List.getD_eq_default _ _ (by simpa using hj)

theorem mulExps_row_length : (mulExps c false e r).length = rowDigits c := by
  simp [mulExps, rowSides]

end

/-! ## The checks of a multiplier instruction (R145, R146, R69) -/

section
variable {s t : State} {c : Core}

theorem multCheck_of_goes {ns : List Nat} (h : multGoes ns s) (k : Wide) : multCheck s.ri ns s k = k := by
  obtain ⟨haccs, -, hwork, hquad, hgrant⟩ := h
  have hbusy : multBusy s = false := by simpa [multBusy, hwork] using hquad
  have hin : ungranted s.rs ns = none := List.find?_eq_none.mpr fun n hn => by simpa [granted] using hgrant n hn
  have hrs : s.res[s.ri] = s.rs := rfl
  rw [multCheck, hrs, if_neg haccs, hbusy, hin]
  rfl

/-- Locks on the scratchpad hold back no buffer. -/
theorem bufferHeld_of_spad (h : ∀ k : Fin 8, ∀ l, c.locks[k] = some l → l.space = .spad) {sp : Space} (hsp : sp ≠ .spad) (write : Bool)
    (lo hi : Nat) : bufferHeld c sp write lo hi = false := by
  unfold bufferHeld
  rw [List.any_eq_false]
  intro l hl
  obtain ⟨k, hk, rfl⟩ := List.getElem_of_mem hl
  rw [Vector.length_toList] at hk
  rw [Vector.getElem_toList]
  cases hc : c.locks[k] with
  | none => simp
  | some l => simp [h ⟨k, hk⟩ l hc, hsp.symm]

theorem finishWide_ok {i : Instr} (h : s.core.portQ = []) (u : State) : finishWide i s (.ok u) = retire i u := by
  simp [finishWide, State.behindCommands, h]

theorem countFault_singleton {n inc : Nat}
    (h : c.wx.toNat + c.wy.toNat + ceilLog2 ((accOf c n).count.toNat + inc) + 1 ≤ digitWidth c) : countFault c inc [n] = none := by
  rw [countFault, List.find?_singleton, decide_eq_false (Nat.not_lt_of_le h)]
  rfl

end

/-! ## What differs in the accumulators only -/

/-- The core's accumulators replaced. -/
def withAccs (v : Vector Acc 64) (s : State) : State := { s with core := { s.core with accs := v } }

/-- u is s but for its core's accumulators. -/
def sameButAccs (s u : State) : Prop := ∃ v, u = withAccs v s

/-- u is s but for the accumulators that the keys of l name, and those are as g gives them. -/
def AccsBy (l : List (Nat × Nat)) (g : Nat × Nat → Acc → Acc) (s u : State) : Prop :=
  sameButAccs s u ∧ (∀ e ∈ l, accOf u.core e.1 = g e (accOf s.core e.1)) ∧ ∀ n < 64, n ∉ l.map Prod.fst → accOf u.core n = accOf s.core n

section
variable {s t u : State} {n : Nat} {a : Acc} {l : List (Nat × Nat)} {g h : Nat × Nat → Acc → Acc}

theorem accOf_setAcc : accOf (setAcc n a s).core n = a := Vector.getElem_set_self _

theorem accOf_setAcc_ne {m : Nat} (h : n % 64 ≠ m % 64) : accOf (setAcc n a s).core m = accOf s.core m :=
  Vector.getElem_set_ne (Nat.mod_lt n (by decide)) (Nat.mod_lt m (by decide)) h

theorem AccsBy.refl (l : List (Nat × Nat)) (s : State) : AccsBy l (fun _ a => a) s s := ⟨⟨s.core.accs, rfl⟩, fun _ _ => rfl, fun _ _ _ => rfl⟩

theorem AccsBy.nil (g : Nat × Nat → Acc → Acc) (s : State) : AccsBy [] g s s :=
  ⟨⟨s.core.accs, rfl⟩, List.forall_mem_nil _, fun _ _ _ => rfl⟩

theorem sameButAccs.trans (h : sameButAccs s t) (h' : sameButAccs t u) : sameButAccs s u := by
  obtain ⟨v, rfl⟩ := h
  obtain ⟨w, rfl⟩ := h'
  exact ⟨w, rfl⟩

theorem AccsBy.trans (hg : AccsBy l g s t) (hh : AccsBy l h t u) : AccsBy l (fun e a => h e (g e a)) s u := by
  obtain ⟨hsame, hin, hout⟩ := hg
  obtain ⟨hsame', hin', hout'⟩ := hh
  exact ⟨hsame.trans hsame', fun e he => by rw [hin' e he, hin e he], fun n hn hnot => (hout' n hn hnot).trans (hout n hn hnot)⟩

theorem AccsBy.congr (hg : AccsBy l g s u) (hgh : ∀ e ∈ l, g e = h e) : AccsBy l h s u := by
  obtain ⟨hsame, hin, hout⟩ := hg
  exact ⟨hsame, fun e he => (hin e he).trans (congrFun (hgh e he) _), hout⟩

/-- One accumulator, then others. -/
theorem AccsBy.cons {e : Nat × Nat} (hnot : e.1 ∉ l.map Prod.fst) (he : e.1 < 64) (hlt : ∀ x ∈ l, x.1 < 64) (hg : AccsBy [e] g s t) (hh : AccsBy l g t u) :
    AccsBy (e :: l) g s u := by
  obtain ⟨hsame, hin, hout⟩ := hg
  obtain ⟨hsame', hin', hout'⟩ := hh
  refine ⟨hsame.trans hsame', List.forall_mem_cons.mpr ⟨?_, fun x hx => ?_⟩, fun n hn hne => ?_⟩
  · rw [hout' _ he hnot, hin e List.mem_cons_self]
  · have hne : x.1 ≠ e.1 := fun h => hnot (h ▸ List.mem_map_of_mem hx)
    rw [hin' x hx, hout x.1 (hlt x hx) (by simpa using hne)]
  · rw [List.map_cons, List.mem_cons, not_or] at hne
    rw [hout' n hn hne.2, hout n hn (by simpa using hne.1)]

theorem accAfter_of_sameButAccs (h : sameButAccs s u) (joined : Bool) (e r : Nat) : accAfter u.core joined e r = accAfter s.core joined e r := by
  obtain ⟨v, rfl⟩ := h
  rfl

/-- One multiply (R156, R157). -/
theorem accumulate_accsBy (joined : Bool) (row e r : Nat) (hn : n < 64) (s : State) :
    AccsBy [(n, row)] (fun _ => accAfter s.core joined e r) s (accumulate joined n e r s) := by
  rw [accumulate_eq]
  refine ⟨⟨_, rfl⟩, fun x hx => ?_, fun m hm hne => accOf_setAcc_ne ?_⟩
  · rw [List.mem_singleton.mp hx, accOf_setAcc]
  · rw [Nat.mod_eq_of_lt hn, Nat.mod_eq_of_lt hm]
    exact fun h => hne (by simp [h])

@[simp] theorem accOf_addWork (w : Nat) (slot : Option SlotIx) (r : Option ResIx) (m : Nat) (s : State) :
    accOf (addWork w slot r s).core m = accOf s.core m := rfl

/-- Slice work starts beside what the accumulators take. -/
theorem AccsBy.onlyAccs_addWork (hg : AccsBy l g s u) (w : Nat) (slot : Option SlotIx) (r : Option ResIx) : onlyAccs s (addWork w slot r u) := by
  obtain ⟨⟨v, rfl⟩, -⟩ := hg
  rfl

theorem AccsBy.otherAccs_addWork (hg : AccsBy l g s u) (w : Nat) (slot : Option SlotIx) (r : Option ResIx) :
    otherAccs (l.map Prod.fst) s (addWork w slot r u) := by
  intro q hq
  have hacc (c : Core) : accOf c q.val = c.accs[q] := by simp [accOf, Nat.mod_eq_of_lt q.isLt]
  have := hg.2.2 q.val q.isLt hq
  rwa [hacc, hacc] at this

theorem AccsBy.work_addWork (hg : AccsBy l g s u) (hw : s.core.slew.work = []) (w : Nat) (slot : Option SlotIx) (r : Option ResIx) :
    (addWork w slot r u).core.slew.work = [⟨w, slot, none, r⟩] := by
  obtain ⟨⟨v, rfl⟩, -⟩ := hg
  exact congrArg (· ++ [_]) hw

theorem AccsBy.standing_addWork (hg : AccsBy l g s u) (w : Nat) (slot : Option SlotIx) (r : Option ResIx) : Standing s (addWork w slot r u) := by
  obtain ⟨⟨v, rfl⟩, -⟩ := hg
  exact ⟨rfl, rfl⟩

end

/-! ## MULS and MULJ (R156, R157) -/

/-- The checks that a multiply of entry e and row r into accumulator n passes (R145, R67, R69, R163). -/
structure MulPasses (joined : Bool) (n e r : Nat) (t : State) : Prop where
  goes : multGoes [n] t
  entry : e < entryCount t.core
  config : guardGood t.core = true
  pairs : t.core.jm = 1 → n < 32
  joinable : joined = true → entryDigits t.core ≠ 0 ∧ oneScale (entrySides t.core true e) = true ∧ oneScale (rowSides t.core r) = true
  row : joined = false → t.core.jm ≠ 2 ∧ t.core.wx.toNat ≤ entryWidth t.core
  unlocked : ∀ k : Fin 8, ∀ l, t.core.locks[k] = some l → l.space = .spad
  clean : (accOf t.core n).poison = false
  exponents : (accOf t.core n).count ≠ 0 →
    expMismatch (accExps (accOf t.core n) (mulExps t.core joined e r).length) (mulExps t.core joined e r) = none
  counts : countFault t.core (if joined then entryDigits t.core else 1) [n] = none
  operands : operandBad t.core e r = false

theorem mulOp_of_passes {joined : Bool} {n : Nat} {x : Word} {t : State} (slot : Option SlotIx) (h : MulPasses joined n (sel x 0 12) (sel x 16 6) t) :
    mulOp t.ri joined n x slot t = .ok (addWork 1 slot (some t.ri) (accumulate joined n (sel x 0 12) (sel x 16 6) t)) := by
  unfold mulOp
  rw [multCheck_of_goes h.goes]
  dsimp only
  have hwidth : (if joined = true then decide (entryDigits t.core = 0) else decide (entryWidth t.core < t.core.wx.toNat)) = false := by
    cases hj : joined with
    | false => simpa using (h.row hj).2
    | true => simpa using (h.joinable hj).1
  have hquad : (!joined && decide (t.core.jm = 2)) = false := by
    cases hj : joined with
    | false => simpa using (h.row hj).1
    | true => rfl
  have hscale : ¬ (joined = true ∧ (!(oneScale (entrySides t.core true (sel x 0 12)) && oneScale (rowSides t.core (sel x 16 6)))) = true) := by
    rintro ⟨hj, hbad⟩
    simp [(h.joinable hj).2] at hbad
  have hexp : (if (accOf t.core n).count = 0 then none else expMismatch (accExps (accOf t.core n)
      (mulExps t.core joined (sel x 0 12) (sel x 16 6)).length) (mulExps t.core joined (sel x 0 12) (sel x 16 6))) = none :=
    ite_eq_left_iff.mpr h.exponents
  have hpairs : ¬ (t.core.jm = 1 ∧ 32 ≤ n) := fun hp => Nat.not_le_of_lt (h.pairs hp.1) hp.2
  rw [if_neg (Nat.not_le_of_lt h.entry), h.config, hwidth, hquad, bufferHeld_of_spad h.unlocked (by decide),
    bufferHeld_of_spad h.unlocked (by decide), h.clean, if_neg hscale, hexp, h.counts, h.operands, if_neg hpairs]
  rfl

theorem exec_of_multiplyRule {i : Instr} {joined : Bool} {n : AccNum} {b : Reg} {s t : State} {x : Word} (hi : multiplyRule i = some (joined, n, b))
    (hx : popX b s = some (x, t)) : i.len = 4 ∧ exec i s = finishWide i s (mulOp t.ri joined n.toNat x (some s.cur) t) := by
  cases i <;> cases hi
  case muls => exact ⟨rfl, withX_eq hx _⟩
  case mulj => exact ⟨rfl, withX_eq hx _⟩

/-- The exponents that one multiply leaves (R67). -/
theorem digitAfter_exp_eq {c : Core} {joined : Bool} (h : joined = true → entryDigits c ≠ 0) (e r j : Nat) (old : DigitSide) :
    (j < (if joined then accDigits c else rowDigits c) → (digitAfter c joined e r j old).exp = (xSide c (e * entryWidth c / 4)).scale
      + (ySide c (1024 * r + if joined then 0 else j * c.sq.toNat)).scale)
    ∧ ((if joined then accDigits c else rowDigits c) ≤ j → (digitAfter c joined e r j old).exp = old.exp) := by
  rw [digitAfter_exp]
  cases joined with
  | false =>
    rw [mulExps_row]
    exact ⟨fun hj => if_pos hj, fun hj => if_neg (Nat.not_lt_of_le hj)⟩
  | true =>
    rw [mulExps_joined (h rfl)]
    exact ⟨fun hj => if_pos hj, fun hj => if_neg (Nat.not_lt_of_le hj)⟩

/-- R156, R157: MULS and MULJ. -/
theorem multiplyResults : MultiplyResults := by
  intro i joined n b s x t hi hx hgoes hf e r inc a hentry hconfig hpairs hjoin hrow hunlocked hclean hexp hcount hop
  obtain ⟨hlen, hexec⟩ := exec_of_multiplyRule hi hx
  have he : sel x 0 12 = e := by simp [sel, bits, e]
  have hr : sel x 16 6 = r := rfl
  have hpass : MulPasses joined n.toNat (sel x 0 12) (sel x 16 6) t := by
    rw [he, hr]
    exact ⟨hgoes, hentry, hconfig, hpairs, hjoin, hrow, hunlocked, hclean, hexp, countFault_singleton hcount, hop⟩
  have hport : s.core.portQ = [] := by
    rw [← (popX_device hx).1]
    exact hgoes.2.1
  have hlt : n.toNat < 64 := n.isLt
  have hby := accumulate_accsBy joined 0 e r hlt t
  have hacc : accOf (accumulate joined n.toNat e r t).core n.toNat = accAfter t.core joined e r a := hby.2.1 _ (List.mem_singleton_self _)
  refine ⟨addWork 1 (some s.cur) (some t.ri) (accumulate joined n.toNat e r t), ?_, hby.onlyAccs_addWork _ _ _, hby.otherAccs_addWork _ _ _, ?_⟩
  · rw [hexec, mulOp_of_passes _ hpass, finishWide_ok hport, he, hr]
    exact retire_next hlen ((popX_standing hx).trans (hby.standing_addWork _ _ _)) hf
  · rw [accOf_addWork, hacc]
    refine ⟨accAfter_value .., accAfter_count .., (accAfter_poison ..).trans hclean, fun d hd => ?_, hby.work_addWork hgoes.2.2.1 _ _ _⟩
    rw [accAfter_digit _ _ _ _ _ hd]
    exact ⟨flagsAfter_digitAfter .., digitAfter_exp_eq (fun hj => (hjoin hj).1) e r d _⟩

/-! ## The accumulators of an MMAR (R160) -/

/-- The fields of an MMAR descriptor. -/
theorem mmarFields (d : BitVec 128) : fld d 0 12 = d.toNat % 4096 ∧ fld d 12 6 = d.toNat / 2 ^ 12 % 64 ∧ fld d 24 7 = d.toNat / 2 ^ 24 % 128
    ∧ fld d 32 7 = d.toNat / 2 ^ 32 % 128 ∧ fld d 40 5 = d.toNat / 2 ^ 40 % 32 := by
  simp [fld, bits]

/-- The counts of a descriptor that passes (R160), and the accumulators it names. -/
theorem mmarFault_none {c : Core} {d : BitVec 128} (h : mmarFault c d = none) (hjm : c.jm ≠ 2) :
    1 ≤ fld d 32 7 ∧ (c.jm = 1 ∨ fld d 40 5 + (fld d 24 7 + 1) / 2 ≤ 32) := by
  simp only [mmarFault, Option.map_eq_none_iff, List.find?_eq_none, List.forall_mem_cons, hjm] at h
  obtain ⟨-, -, -, hm, -, hk, -⟩ := h
  rw [Bool.or_eq_true, not_or, decide_eq_true hjm] at hm
  have htop := hm.2
  rw [Bool.true_and, decide_eq_true_eq] at htop
  refine ⟨by simp at hk; omega, or_iff_not_imp_left.mpr fun hone => ?_⟩
  rw [if_neg hone] at htop
  omega

theorem mmarAccs_nodup {c : Core} {d : BitVec 128} (h : mmarFault c d = none) : (mmarAccs c.jm (fld d 40 5) (fld d 24 7)).Nodup := by
  unfold mmarAccs
  split
  · exact List.nodup_nil
  next hjm =>
    obtain ⟨-, hend⟩ := mmarFault_none h hjm
    refine List.Nodup.map_on (fun x hx y hy heq => ?_) List.nodup_range
    rw [List.mem_range] at hx hy
    split at heq
    · omega
    next hone =>
      have hfit := hend.resolve_left hone
      omega

/-! ## The exponents agree (R161) -/

theorem leastNat_eq_none {l : List Nat} : leastNat l = none ↔ l = [] := by
  cases l with
  | nil => simp [leastNat]
  | cons o os => cases hl : leastNat os <;> simp [leastNat, hl]

theorem expMismatch_eq_none {ref now : List Int} (h : expMismatch ref now = none) {j : Nat} (hr : j < ref.length) (hn : j < now.length) :
    now.getD j 0 = ref.getD j 0 := by
  rw [expMismatch, Option.map_eq_none_iff, List.find?_eq_none] at h
  have hj : j < (ref.zip now).length := by simp [hr, hn]
  have := h ((ref.zip now)[j], j) (List.mem_zipIdx_iff_getElem?.mpr (List.getElem?_eq_getElem hj))
  simp at this
  simp [hr, hn, this]

/-- Every k-step of a row gives the digits the exponents of the first. -/
theorem mulExps_of_mmarMismatch {c : Core} {n x0 y0 k : Nat} (h : mmarMismatch c n x0 y0 k = none) {i j : Nat} (hi : i < k) (hj : j < rowDigits c) :
    (mulExps c false (x0 + i) (y0 + i)).getD j 0 = (mulExps c false x0 y0).getD j 0 := by
  rw [mmarMismatch, leastNat_eq_none, List.filterMap_eq_nil_iff, List.forall_mem_map] at h
  generalize href : (if (accOf c n).count = 0 then _ else _) = ref at h
  have hk : k = k - 1 + 1 := by omega
  have hlen : j < ref.length := by
    rw [← href]
    split
    · rw [hk, List.range_succ_eq_map, List.map_cons, List.headD_cons, mulExps_row_length]
      exact hj
    · simpa [accExps] using hj
  have hstep (m : Nat) (hm : m < k) : (mulExps c false (x0 + m) (y0 + m)).getD j 0 = ref.getD j 0 :=
    expMismatch_eq_none (h m (List.mem_range.mpr hm)) hlen (by rwa [mulExps_row_length])
  rw [hstep i hi, ← hstep 0 (by omega), Nat.add_zero, Nat.add_zero]

/-! ## The k-steps of one accumulator (R161) -/

/-- What k multiplies, of the entries from x0 up and the rows from y0 up, leave of an accumulator. -/
def rowAcc (c : Core) (x0 y0 k : Nat) (a : Acc) : Acc := (List.range k).foldl (fun a i => accAfter c false (x0 + i) (y0 + i) a) a

section
variable (c : Core) (x0 y0 k : Nat) (a : Acc)

theorem rowAcc_succ : rowAcc c x0 y0 (k + 1) a = accAfter c false (x0 + k) (y0 + k) (rowAcc c x0 y0 k a) := by
  simp only [rowAcc, List.range_succ, List.foldl_append, List.foldl_cons, List.foldl_nil]

theorem rowAcc_value : (rowAcc c x0 y0 k a).value
    = BitVec.ofInt 4352 (a.value.toInt + ((List.range k).map fun i => entryValue c (x0 + i) * rowValue c (y0 + i)).sum) := by
  induction k with
  | zero => simp [rowAcc]
  | succ k ih =>
    rw [rowAcc_succ, accAfter_value, ih, List.range_succ, List.map_append, List.sum_append, List.map_singleton, List.sum_singleton, ← Int.add_assoc,
      BitVec.ofInt_add, BitVec.ofInt_toInt, ← BitVec.ofInt_add]

theorem rowAcc_count : (rowAcc c x0 y0 k a).count.toNat = min (a.count.toNat + k) (2 ^ 32 - 1) := by
  induction k with
  | zero =>
    have := a.count.isLt
    rw [rowAcc, List.range_zero, List.foldl_nil]
    omega
  | succ k ih =>
    rw [rowAcc_succ, accAfter_count, ih, if_neg Bool.false_ne_true]
    omega

theorem rowAcc_poison : (rowAcc c x0 y0 k a).poison = a.poison := by
  induction k with
  | zero => rfl
  | succ k ih => rw [rowAcc_succ, accAfter_poison, ih]

theorem rowAcc_flags {j : Nat} (hj : j < 1088) : flagsAfter ((List.range k).map fun i => (entrySides c false (x0 + i), rowSides c (y0 + i))) j
    (a.digit j) ((rowAcc c x0 y0 k a).digit j) := by
  induction k with
  | zero => exact flagsAfter_nil j _
  | succ k ih =>
    rw [rowAcc_succ, accAfter_digit _ _ _ _ _ hj, List.range_succ, List.map_append]
    exact flagsAfter_append ih (flagsAfter_digitAfter ..)

variable {c x0 y0 k}

theorem rowAcc_exp_of_le {j : Nat} (hj : j < 1088) (hle : rowDigits c ≤ j) : ((rowAcc c x0 y0 k a).digit j).exp = (a.digit j).exp := by
  induction k with
  | zero => rfl
  | succ k ih => rw [rowAcc_succ, accAfter_digit _ _ _ _ _ hj, digitAfter_exp, mulExps_row, if_neg (Nat.not_lt_of_le hle), ih]

/-- The last k-step leaves the exponents of the first. -/
theorem rowAcc_exp_of_lt {n j : Nat} (h : mmarMismatch c n x0 y0 k = none) (hk : 1 ≤ k) (hj : j < 1088) (hlt : j < rowDigits c) :
    ((rowAcc c x0 y0 k a).digit j).exp = (xSide c (x0 * entryWidth c / 4)).scale + (ySide c (1024 * y0 + j * c.sq.toNat)).scale := by
  obtain ⟨k, rfl⟩ := Nat.exists_eq_add_of_le' hk
  have hlast := mulExps_of_mmarMismatch h (Nat.lt_succ_self k) hlt
  rw [mulExps_row, mulExps_row, if_pos hlt, if_pos hlt] at hlast
  rw [rowAcc_succ, accAfter_digit _ _ _ _ _ hj, digitAfter_exp, mulExps_row, if_pos hlt, hlast]

end

/-! ## The k-steps of every accumulator -/

/-- One k-step: step i into the accumulators that the keys of l name. -/
def kStep (x0 y0 k : Nat) (l : List (Nat × Nat)) (s : State) (i : Nat) : State :=
  l.foldl (fun s e => accumulate false e.1 (x0 + e.2 * k + i) (y0 + i) s) s

section
variable (x0 y0 k : Nat) (s : State) {l : List (Nat × Nat)} (hlt : ∀ e ∈ l, e.1 < 64) (hnd : (l.map Prod.fst).Nodup)
include hlt hnd

theorem kStep_accsBy (i : Nat) : AccsBy l (fun e => accAfter s.core false (x0 + e.2 * k + i) (y0 + i)) s (kStep x0 y0 k l s i) := by
  unfold kStep
  induction l generalizing s with
  | nil => exact .nil _ _
  | cons e l ih =>
    obtain ⟨he, hlt⟩ := List.forall_mem_cons.mp hlt
    obtain ⟨hnot, hnd⟩ := List.nodup_cons.mp hnd
    have hfirst := accumulate_accsBy false e.2 (x0 + e.2 * k + i) (y0 + i) he s
    have hrest := ih (accumulate false e.1 (x0 + e.2 * k + i) (y0 + i) s) hlt hnd
    simp only [accAfter_of_sameButAccs hfirst.1] at hrest
    refine .cons hnot he hlt ?_ hrest
    exact hfirst.congr fun x hx => by rw [List.mem_singleton.mp hx]

theorem kSteps_accsBy (m : Nat) : AccsBy l (fun e => rowAcc s.core (x0 + e.2 * k) y0 m) s ((List.range m).foldl (kStep x0 y0 k l) s) := by
  induction m with
  | zero => exact .refl l s
  | succ m ih =>
    have hstep := kStep_accsBy x0 y0 k ((List.range m).foldl (kStep x0 y0 k l) s) hlt hnd m
    simp only [accAfter_of_sameButAccs ih.1] at hstep
    simp only [List.range_succ, List.foldl_append, List.foldl_cons, List.foldl_nil]
    exact (ih.trans hstep).congr fun e _ => funext fun a => (rowAcc_succ ..).symm

end

/-! ## MMAR -/

/-- The checks that an MMAR passes (R145, R160 to R163). -/
structure MmarPasses (d : BitVec 128) (s : State) : Prop where
  goes : multGoes (mmarAccs s.core.jm (fld d 40 5) (fld d 24 7)) s
  fields : mmarFault s.core d = none
  config : guardGood s.core = true
  single : s.core.jm ≠ 2
  width : s.core.wx.toNat ≤ entryWidth s.core
  unlocked : ∀ k : Fin 8, ∀ l, s.core.locks[k] = some l → l.space = .spad
  clean : poisoned s.core (mmarAccs s.core.jm (fld d 40 5) (fld d 24 7)) = none
  exponents : ∀ e ∈ (mmarAccs s.core.jm (fld d 40 5) (fld d 24 7)).zipIdx,
    mmarMismatch s.core e.1 (fld d 0 12 + e.2 * fld d 32 7) (fld d 12 6) (fld d 32 7) = none
  counts : countFault s.core (fld d 32 7) (mmarAccs s.core.jm (fld d 40 5) (fld d 24 7)) = none
  operands : ∀ i < fld d 32 7, ∀ row < fld d 24 7, operandBad s.core (fld d 0 12 + row * fld d 32 7 + i) (fld d 12 6 + i) = false

theorem mmarOp_of_passes {d : BitVec 128} {s : State} (slot : Option SlotIx) (h : MmarPasses d s) : mmarOp s.ri d slot s
    = .ok (addWork (if s.core.jm = 0 then fld d 32 7 * ((fld d 24 7 + 1) / 2) else fld d 32 7 * fld d 24 7) slot (some s.ri)
      ((List.range (fld d 32 7)).foldl (kStep (fld d 0 12) (fld d 12 6) (fld d 32 7)
        (mmarAccs s.core.jm (fld d 40 5) (fld d 24 7)).zipIdx) s)) := by
  unfold mmarOp
  rw [multCheck_of_goes h.goes, h.fields]
  dsimp only
  have hconfig : (!guardGood s.core || decide (s.core.jm = 2) || decide (entryWidth s.core < s.core.wx.toNat)) = false := by
    rw [h.config, decide_eq_false h.single, decide_eq_false (Nat.not_lt_of_le h.width)]
    rfl
  have hexp : (mmarAccs s.core.jm (fld d 40 5) (fld d 24 7)).zipIdx.findSome? (fun e =>
      (mmarMismatch s.core e.1 (fld d 0 12 + e.2 * fld d 32 7) (fld d 12 6) (fld d 32 7)).map (fun j => e.1 * 2 ^ 16 + j)) = none :=
    List.findSome?_eq_none_iff.mpr fun e he => by rw [h.exponents e he, Option.map_none]
  have hgood : (List.range (fld d 32 7)).takeWhile (fun i => !((List.range (fld d 24 7)).any (fun row =>
      operandBad s.core (fld d 0 12 + row * fld d 32 7 + i) (fld d 12 6 + i)))) = List.range (fld d 32 7) := by
    refine List.takeWhile_eq_self_iff.mpr fun i hi => ?_
    rw [Bool.not_eq_true', List.any_eq_false]
    exact fun row hrow => Bool.not_eq_true _ ▸ h.operands i (List.mem_range.mp hi) row (List.mem_range.mp hrow)
  rw [hconfig, bufferHeld_of_spad h.unlocked (by decide), bufferHeld_of_spad h.unlocked (by decide), h.clean, hexp, h.counts, hgood,
    List.length_range, if_neg (Nat.lt_irrefl _)]
  rfl

/-- R160, R161: MMAR. -/
theorem macroMultiply : MacroMultiply := by
  intro b s c d m k x0 y0 ns hgoes hf hfields hconfig hjm hwidth hunlocked hclean hexp hcount hop
  obtain ⟨hx0, hy0, hm, hk, hab⟩ := mmarFields d
  have hpass : MmarPasses d s := by
    refine ⟨?_, hfields, hconfig, hjm, hwidth, hunlocked, ?_, ?_, ?_, ?_⟩ <;> simp only [hx0, hy0, hm, hk, hab] <;> assumption
  have hnd := mmarAccs_nodup hfields
  have hk1 := (mmarFault_none hfields hjm).1
  have hop := mmarOp_of_passes (some s.cur) hpass
  rw [hx0, hy0, hm, hk, hab] at hop
  rw [hm, hab] at hnd
  rw [hk] at hk1
  have hlt : ∀ e ∈ ns.zipIdx, e.1 < 64 := fun e he => (hgoes.2.2.2.2 e.1 (List.fst_mem_of_mem_zipIdx he)).1
  have hkeys : ns.zipIdx.map Prod.fst = ns := List.zipIdx_map_fst 0 ns
  have hby := kSteps_accsBy x0 y0 k s hlt (by rwa [hkeys]) k
  refine ⟨addWork (if c.jm = 0 then k * ((m + 1) / 2) else k * m) (some s.cur) (some s.ri) ((List.range k).foldl (kStep x0 y0 k ns.zipIdx) s),
    ?_, hby.onlyAccs_addWork _ _ _, ?_, fun e he => ?_, hby.work_addWork hgoes.2.2.1 _ _ _⟩
  · have hexec : exec (.mmar b) s = finishWide (.mmar b) s (mmarOp s.ri d (some s.cur) s) := rfl
    rw [hexec, hop, finishWide_ok hgoes.2.1]
    exact retire_next rfl (hby.standing_addWork _ _ _) hf
  · have := hby.otherAccs_addWork (if c.jm = 0 then k * ((m + 1) / 2) else k * m) (some s.cur) (some s.ri)
    rwa [hkeys] at this
  · rw [accOf_addWork, hby.2.1 e he]
    have hpoison : (accOf c e.1).poison = false := by
      simpa using List.find?_eq_none.mp hclean e.1 (List.fst_mem_of_mem_zipIdx he)
    exact ⟨rowAcc_value .., rowAcc_count .., (rowAcc_poison ..).trans hpoison, fun j hj =>
      ⟨rowAcc_flags _ _ _ _ _ hj, rowAcc_exp_of_lt _ (hexp e he) hk1 hj, rowAcc_exp_of_le _ hj⟩⟩

/-- Settles O23: MULS and MULJ by their one accumulation; MMAR by its k-steps, each a multiply into every accumulator it names, which are distinct. -/
theorem multiplications : Obligations.Multiplications := ⟨multiplyResults, macroMultiply⟩

end Sys2Proof.Spec
end

section
/-! The encoder writes back what the decoder reads (R83): a row of the opcode map tests every bit of the word that its fields leave out, so the row's
fixed bits and its fields together are the word. It settles O51, O52 and O53. -/

namespace Sys2Proof

/-- What a decoder reads from the word w of n bytes, if anything, is an encoded instruction of that length whose word is w. -/
def Rebuilds (n w : Nat) (o : Option Instr) : Prop := ∀ i, o = some i → i.isEvent = false ∧ i.len = n ∧ encode i = w

theorem rebuilds_none (n w : Nat) : Rebuilds n w none := fun _ h => nomatch h

theorem rebuilds_some {n w : Nat} {i : Instr} (he : i.isEvent = false) (hn : i.len = n) (hw : encode i = w) : Rebuilds n w (some i) :=
  fun _ h => Option.some.inj h ▸ ⟨he, hn, hw⟩

/-- A row of the opcode map before the rows that follow it. -/
theorem Rebuilds.row {n w : Nat} {c : Prop} [Decidable c] {o later : Option Instr} (hlater : Rebuilds n w later) (ho : c → Rebuilds n w o) :
    Rebuilds n w (if c then o else later) := by
  split
  · exact ho ‹c›
  · exact hlater

/-- Where the fields of what is read are within their limits, the check passes it on (R83). -/
theorem checkFields_eq_ok {o : Option Instr} {reserved : Bool} {i : Instr} (h : checkFields o reserved = .ok i) : o = some i ∧ i.wellFormed = true := by
  unfold checkFields at h
  split at h
  · cases h
  · split at h
    · cases h
      exact ⟨rfl, ‹_›⟩
    · cases h

/-! ## Cutting a word into fields -/

theorem field_toNat (w lo n : Nat) : (field w lo n).toNat = bits w lo n := rfl

theorem accLow_accField (w hi lo : Nat) : accLow (accField w hi lo) = bits w lo 5 := by
  simp only [accLow, accField, bits, BitVec.toNat_ofNat]
  omega

theorem accHigh_accField (w hi lo : Nat) : accHigh (accField w hi lo) = bits w hi 1 := by
  simp only [accHigh, accField, bits, BitVec.toNat_ofNat]
  omega

/-- A field of m + n bits is its low m bits and its high n bits. -/
theorem bits_cut (w lo m n : Nat) : bits w lo (m + n) = bits w lo m + 2 ^ m * bits w (lo + m) n := by
  simp only [bits, Nat.pow_add, ← Nat.div_div_eq_div_mul]
  exact Nat.mod_mul ..

section
variable {w : Nat} (hw : w < 2 ^ 32) (hodd : w % 2 = 1)

include hw in
/-- The places of op, a and b, and the 15 bits above them (R73). -/
theorem word_eq_fields : w = w % 2 + 2 * bits w 1 6 + 2 ^ 7 * bits w 7 5 + 2 ^ 12 * bits w 12 5 + 2 ^ 17 * bits w 17 15 := by
  unfold bits
  omega

/-! ## The ops of 32-bit words, by the forms of their words (R76) -/

include hw hodd

/-- RR: ALU, MULDIV, QUADMEM and AMO. -/
theorem registerOps_rebuild : (bits w 1 6 = 0x00 → Rebuilds 4 w (decodeOp00 w)) ∧ (bits w 1 6 = 0x01 → Rebuilds 4 w (decodeOp01 w))
    ∧ (bits w 1 6 = 0x12 → Rebuilds 4 w (decodeOp12 w)) ∧ (bits w 1 6 = 0x13 → Rebuilds 4 w (decodeOp13 w)) := by
  have hword := word_eq_fields hw
  have hcut : bits w 17 15 = bits w 17 5 + 2 ^ 5 * bits w 22 10 := bits_cut w 17 5 10
  delta decodeOp00 decodeOp01 decodeOp12 decodeOp13
  refine ⟨fun hop => ?_, fun hop => ?_, fun hop => ?_, fun hop => ?_⟩
  all_goals
    repeat refine .row ?_ fun hrow => rebuilds_some rfl rfl ?_
    · exact rebuilds_none 4 w
    all_goals
      delta encode
      simp only [wordA7B12C17, wordA7B12, field_toNat]
      omega

/-- RI, RU and JP: an op holds one instruction, with fields in all bits above the op. -/
theorem singleOps_rebuild : (bits w 1 6 = 0x02 → Rebuilds 4 w (decodeOp02 w)) ∧ (bits w 1 6 = 0x03 → Rebuilds 4 w (decodeOp03 w))
    ∧ (bits w 1 6 = 0x04 → Rebuilds 4 w (decodeOp04 w)) ∧ (bits w 1 6 = 0x05 → Rebuilds 4 w (decodeOp05 w))
    ∧ (bits w 1 6 = 0x06 → Rebuilds 4 w (decodeOp06 w)) ∧ (bits w 1 6 = 0x07 → Rebuilds 4 w (decodeOp07 w))
    ∧ (bits w 1 6 = 0x08 → Rebuilds 4 w (decodeOp08 w)) ∧ (bits w 1 6 = 0x0A → Rebuilds 4 w (decodeOp0A w))
    ∧ (bits w 1 6 = 0x0B → Rebuilds 4 w (decodeOp0B w)) ∧ (bits w 1 6 = 0x0D → Rebuilds 4 w (decodeOp0D w))
    ∧ (bits w 1 6 = 0x0E → Rebuilds 4 w (decodeOp0E w)) ∧ (bits w 1 6 = 0x14 → Rebuilds 4 w (decodeOp14 w)) := by
  have hword := word_eq_fields hw
  have hcut : bits w 12 20 = bits w 12 5 + 2 ^ 5 * bits w 17 15 := bits_cut w 12 5 15
  delta decodeOp02 decodeOp03 decodeOp04 decodeOp05 decodeOp06 decodeOp07 decodeOp08 decodeOp0A decodeOp0B decodeOp0D decodeOp0E decodeOp14
  refine ⟨?_, ?_, ?_, ?_, ?_, ?_, ?_, ?_, ?_, ?_, ?_, ?_⟩
  all_goals
    refine fun hop => rebuilds_some rfl rfl ?_
    delta encode
    simp only [wordA7B12I17w15, wordA7I12w20, wordA7O12w20, field_toNat]
    omega

/-- SHIFTI, BR, LOOP, LOAD and STORE. -/
theorem offsetOps_rebuild : (bits w 1 6 = 0x09 → Rebuilds 4 w (decodeOp09 w)) ∧ (bits w 1 6 = 0x0C → Rebuilds 4 w (decodeOp0C w))
    ∧ (bits w 1 6 = 0x0F → Rebuilds 4 w (decodeOp0F w)) ∧ (bits w 1 6 = 0x10 → Rebuilds 4 w (decodeOp10 w))
    ∧ (bits w 1 6 = 0x11 → Rebuilds 4 w (decodeOp11 w)) := by
  have hword := word_eq_fields hw
  have hcuts : bits w 17 15 = bits w 17 6 + 2 ^ 6 * bits w 23 9 ∧ bits w 17 15 = bits w 17 3 + 2 ^ 3 * bits w 20 12
      ∧ bits w 17 15 = bits w 17 5 + 2 ^ 5 * bits w 22 10 ∧ bits w 12 10 = bits w 12 5 + 2 ^ 5 * bits w 17 5 :=
    ⟨bits_cut w 17 6 9, bits_cut w 17 3 12, bits_cut w 17 5 10, bits_cut w 12 5 5⟩
  delta decodeOp09 decodeOp0C decodeOp0F decodeOp10 decodeOp11
  refine ⟨fun hop => ?_, fun hop => ?_, fun hop => ?_, fun hop => ?_, fun hop => ?_⟩
  all_goals
    repeat refine .row ?_ fun hrow => rebuilds_some rfl rfl ?_
    · exact rebuilds_none 4 w
    all_goals
      delta encode
      simp only [wordA7N17w6B12, wordA7B12O20w12, wordA7L12w10, wordN22w10L12w10, field_toNat]
      omega

/-- VM and VALU. -/
theorem laneOps_rebuild : (bits w 1 6 = 0x15 → Rebuilds 4 w (decodeOp15 w)) ∧ (bits w 1 6 = 0x16 → Rebuilds 4 w (decodeOp16 w))
    ∧ (bits w 1 6 = 0x17 → Rebuilds 4 w (decodeOp17 w)) := by
  have hword := word_eq_fields hw
  have hcuts : bits w 17 15 = bits w 17 5 + 2 ^ 5 * bits w 22 10 ∧ bits w 22 10 = bits w 22 3 + 2 ^ 3 * bits w 25 7
      ∧ bits w 25 7 = bits w 25 3 + 2 ^ 3 * bits w 28 4 ∧ bits w 25 7 = bits w 25 2 + 2 ^ 2 * bits w 27 5 :=
    ⟨bits_cut w 17 5 10, bits_cut w 22 3 7, bits_cut w 25 3 4, bits_cut w 25 2 5⟩
  delta decodeOp15 decodeOp16 decodeOp17
  refine ⟨fun hop => ?_, fun hop => ?_, fun hop => ?_⟩
  all_goals
    repeat refine .row ?_ fun hrow => rebuilds_some rfl rfl ?_
    · exact rebuilds_none 4 w
    all_goals
      delta encode
      simp only [wordA7B12C17T28w4M22w3, wordA7B12C17W25w2M22w3, wordA7B12W25w2M22w3, wordA7B12C17M22w3, wordA7B12K17W25w2M22w3, field_toNat]
      omega

/-- VEC but VALU: VFPU, VPERM and VMASK. -/
theorem vectorOps_rebuild : (bits w 1 6 = 0x18 → Rebuilds 4 w (decodeOp18 w)) ∧ (bits w 1 6 = 0x19 → Rebuilds 4 w (decodeOp19 w))
    ∧ (bits w 1 6 = 0x1A → Rebuilds 4 w (decodeOp1A w)) := by
  have hword := word_eq_fields hw
  have hcuts : bits w 17 15 = bits w 17 5 + 2 ^ 5 * bits w 22 10 ∧ bits w 17 5 = bits w 17 4 + 2 ^ 4 * bits w 21 1
      ∧ bits w 22 10 = bits w 22 3 + 2 ^ 3 * bits w 25 7 ∧ bits w 22 4 = bits w 22 3 + 2 ^ 3 * bits w 25 1
      ∧ bits w 25 7 = bits w 25 1 + 2 ^ 1 * bits w 26 6 ∧ bits w 26 6 = bits w 26 2 + 2 ^ 2 * bits w 28 4 :=
    ⟨bits_cut w 17 5 10, bits_cut w 17 4 1, bits_cut w 22 3 7, bits_cut w 22 3 1, bits_cut w 25 1 6, bits_cut w 26 2 4⟩
  delta decodeOp18 decodeOp19 decodeOp1A
  refine ⟨fun hop => ?_, fun hop => ?_, fun hop => ?_⟩
  all_goals
    repeat refine .row ?_ fun hrow => rebuilds_some rfl rfl ?_
    · exact rebuilds_none 4 w
    all_goals
      delta encode
      simp only [wordA7B12C17M22w3, wordA7B12M22w3, wordA7B12C17W26w2M22w3, wordA7B12W26w2M22w3, wordA7B12C17W26w2, wordA7D17w4S22w4B12,
        wordA7B12C17, wordA7B12, field_toNat]
      omega

/-- W: the wide multiplier, tiles, rows and copies. -/
theorem wideOps_rebuild : (bits w 1 6 = 0x1B → Rebuilds 4 w (decodeOp1B w)) ∧ (bits w 1 6 = 0x1C → Rebuilds 4 w (decodeOp1C w))
    ∧ (bits w 1 6 = 0x1D → Rebuilds 4 w (decodeOp1D w)) ∧ (bits w 1 6 = 0x1E → Rebuilds 4 w (decodeOp1E w))
    ∧ (bits w 1 6 = 0x1F → Rebuilds 4 w (decodeOp1F w)) ∧ (bits w 1 6 = 0x20 → Rebuilds 4 w (decodeOp20 w))
    ∧ (bits w 1 6 = 0x21 → Rebuilds 4 w (decodeOp21 w)) ∧ (bits w 1 6 = 0x22 → Rebuilds 4 w (decodeOp22 w)) := by
  have hword := word_eq_fields hw
  have hcuts : bits w 7 25 = bits w 7 5 + 2 ^ 5 * bits w 12 20 ∧ bits w 7 15 = bits w 7 5 + 2 ^ 5 * bits w 12 10
      ∧ bits w 12 10 = bits w 12 5 + 2 ^ 5 * bits w 17 5 ∧ bits w 12 20 = bits w 12 5 + 2 ^ 5 * bits w 17 15
      ∧ bits w 17 15 = bits w 17 5 + 2 ^ 5 * bits w 22 10 ∧ bits w 17 7 = bits w 17 5 + 2 ^ 5 * bits w 22 2
      ∧ bits w 22 10 = bits w 22 1 + 2 ^ 1 * bits w 23 9 ∧ bits w 22 10 = bits w 22 2 + 2 ^ 2 * bits w 24 8
      ∧ bits w 22 2 = bits w 22 1 + 2 ^ 1 * bits w 23 1 ∧ bits w 24 8 = bits w 24 1 + 2 ^ 1 * bits w 25 7 :=
    ⟨bits_cut w 7 5 20, bits_cut w 7 5 10, bits_cut w 12 5 5, bits_cut w 12 5 15, bits_cut w 17 5 10, bits_cut w 17 5 2, bits_cut w 22 1 9,
      bits_cut w 22 2 8, bits_cut w 22 1 1, bits_cut w 24 1 7⟩
  delta decodeOp1B decodeOp1C decodeOp1D decodeOp1E decodeOp1F decodeOp20 decodeOp21 decodeOp22
  refine ⟨fun hop => ?_, fun hop => ?_, fun hop => ?_, fun hop => ?_, fun hop => ?_, fun hop => ?_, fun hop => ?_, fun hop => ?_⟩
  all_goals
    repeat refine .row ?_ fun hrow => rebuilds_some rfl rfl ?_
    · exact rebuilds_none 4 w
    all_goals
      delta encode
      simp only [wordB12, wordJ22w1, wordN24w1K17, wordN24w1B12, wordD7N24w1B12X22w1, wordA7N24w1B12, wordD24w1S23w1, wordA7B12, wordB12C17, wordA7,
        field_toNat, accLow_accField, accHigh_accField]
      omega

/-- MSG, SYS and the rest of W: messages, tasks, operand extension, system registers and traps. -/
theorem systemOps_rebuild : (bits w 1 6 = 0x23 → Rebuilds 4 w (decodeOp23 w)) ∧ (bits w 1 6 = 0x24 → Rebuilds 4 w (decodeOp24 w))
    ∧ (bits w 1 6 = 0x25 → Rebuilds 4 w (decodeOp25 w)) ∧ (bits w 1 6 = 0x26 → Rebuilds 4 w (decodeOp26 w))
    ∧ (bits w 1 6 = 0x27 → Rebuilds 4 w (decodeOp27 w)) ∧ (bits w 1 6 = 0x28 → Rebuilds 4 w (decodeOp28 w))
    ∧ (bits w 1 6 = 0x29 → Rebuilds 4 w (decodeOp29 w)) ∧ (bits w 1 6 = 0x2A → Rebuilds 4 w (decodeOp2A w))
    ∧ (bits w 1 6 = 0x2B → Rebuilds 4 w (decodeOp2B w)) ∧ (bits w 1 6 = 0x2C → Rebuilds 4 w (decodeOp2C w)) := by
  have hword := word_eq_fields hw
  have hcuts : bits w 7 25 = bits w 7 5 + 2 ^ 5 * bits w 12 20 ∧ bits w 7 15 = bits w 7 10 + 2 ^ 10 * bits w 17 5
      ∧ bits w 7 10 = bits w 7 5 + 2 ^ 5 * bits w 12 5 ∧ bits w 12 20 = bits w 12 5 + 2 ^ 5 * bits w 17 15
      ∧ bits w 17 15 = bits w 17 5 + 2 ^ 5 * bits w 22 10 ∧ bits w 17 15 = bits w 17 12 + 2 ^ 12 * bits w 29 3
      ∧ bits w 17 7 = bits w 17 5 + 2 ^ 5 * bits w 22 2 ∧ bits w 17 8 = bits w 17 5 + 2 ^ 5 * bits w 22 3
      ∧ bits w 22 10 = bits w 22 1 + 2 ^ 1 * bits w 23 9 ∧ bits w 22 10 = bits w 22 2 + 2 ^ 2 * bits w 24 8
      ∧ bits w 22 10 = bits w 22 3 + 2 ^ 3 * bits w 25 7 ∧ bits w 24 8 = bits w 24 1 + 2 ^ 1 * bits w 25 7 :=
    ⟨bits_cut w 7 5 20, bits_cut w 7 10 5, bits_cut w 7 5 5, bits_cut w 12 5 15, bits_cut w 17 5 10, bits_cut w 17 12 3, bits_cut w 17 5 2,
      bits_cut w 17 5 3, bits_cut w 22 1 9, bits_cut w 22 2 8, bits_cut w 22 3 7, bits_cut w 24 1 7⟩
  delta decodeOp23 decodeOp24 decodeOp25 decodeOp26 decodeOp27 decodeOp28 decodeOp29 decodeOp2A decodeOp2B decodeOp2C
  refine ⟨?_, ?_, ?_, ?_, ?_, ?_, ?_, ?_, ?_, ?_⟩
  all_goals
    intro hop
    repeat refine .row ?_ fun hrow => rebuilds_some rfl rfl ?_
    · exact rebuilds_none 4 w
    all_goals
      delta encode
      simp only [wordA7B12C17V22w2R24w1, wordA7B12V22w2R24w1, wordB12C17, wordA7B12V22w2, wordA7B12R24w1, wordB12C17R24w1, wordA7B12C17R24w1,
        wordB12K22w3, wordB12, wordS22w3, wordS22w3B12C17, wordS22w3B12, wordA7B12, wordA7B12C17, wordA7N17w12, wordA7N17w12B12, wordK22w1, wordC17w8,
        wordQ22w1, wordA7, field_toNat]
      omega

theorem decodeWord32_rebuilds : Rebuilds 4 w (decodeWord32 w) := by
  obtain ⟨op00, op01, op12, op13⟩ := registerOps_rebuild hw hodd
  obtain ⟨op02, op03, op04, op05, op06, op07, op08, op0A, op0B, op0D, op0E, op14⟩ := singleOps_rebuild hw hodd
  obtain ⟨op09, op0C, op0F, op10, op11⟩ := offsetOps_rebuild hw hodd
  obtain ⟨op15, op16, op17⟩ := laneOps_rebuild hw hodd
  obtain ⟨op18, op19, op1A⟩ := vectorOps_rebuild hw hodd
  obtain ⟨op1B, op1C, op1D, op1E, op1F, op20, op21, op22⟩ := wideOps_rebuild hw hodd
  obtain ⟨op23, op24, op25, op26, op27, op28, op29, op2A, op2B, op2C⟩ := systemOps_rebuild hw hodd
  unfold decodeWord32
  split <;> solve_by_elim [rebuilds_none]

end

/-! ## 16-bit words (R82) -/

theorem decodeWord16_rebuilds {w : Nat} (hw : w < 2 ^ 16) (heven : w % 2 = 0) : Rebuilds 2 w (decodeWord16 w) := by
  have hword : w = w % 2 + 2 * bits w 1 4 + 2 ^ 5 * bits w 5 11 := by
    unfold bits
    omega
  have hcuts : bits w 5 11 = bits w 5 5 + 2 ^ 5 * bits w 10 6 ∧ bits w 5 11 = bits w 5 3 + 2 ^ 3 * bits w 8 8
      ∧ bits w 10 6 = bits w 10 5 + 2 ^ 5 * bits w 15 1 :=
    ⟨bits_cut w 5 5 6, bits_cut w 5 3 8, bits_cut w 10 5 1⟩
  unfold decodeWord16
  split
  case h_16 => exact rebuilds_none 2 w
  all_goals
    try refine .row (rebuilds_none 2 w) fun hrow => ?_
    refine rebuilds_some rfl rfl ?_
    delta encode
    simp only [wordD5S10, wordD5I10w6, wordD5N10w6, wordD5K10w6, wordS5K10w6, wordS5w3O8w8, wordO5w11, field_toNat]
    omega

/-- R83: what the decoder accepts is a well-formed encoded instruction, and its word is what was read. -/
theorem encode_of_decodeWord {w : Nat} {i : Instr} (h : decodeWord w = .ok i) :
    i.isEvent = false ∧ i.wellFormed = true ∧ encode i = w % 2 ^ (8 * i.len) := by
  unfold decodeWord at h
  split at h
  case isTrue heven =>
    obtain ⟨hi, hfields⟩ := checkFields_eq_ok h
    obtain ⟨he, hlen, hword⟩ := decodeWord16_rebuilds (Nat.mod_lt _ (by decide)) (by omega) i hi
    exact ⟨he, hfields, by rw [hword, hlen]⟩
  case isFalse hodd =>
    obtain ⟨hi, hfields⟩ := checkFields_eq_ok h
    obtain ⟨he, hlen, hword⟩ := decodeWord32_rebuilds (Nat.mod_lt _ (by decide)) (by omega) i hi
    exact ⟨he, hfields, by rw [hword, hlen]⟩

end Sys2Proof

namespace Sys2Proof.Spec

/-- Settles O51: the decoder reads back the word of every well-formed encoded instruction. -/
theorem decodeOfEncode : Obligations.DecodeOfEncode := fun _ rest he hw => decodeBytes_encode rest he hw

/-- Settles O52: the rows of the opcode map and of the compact forms account for every bit of the words that they accept. -/
theorem encodeOfDecode : Obligations.EncodeOfDecode := fun _ _ h => encode_of_decodeWord h

/-- Settles O53, by evaluating the decoder and the encoder on each word. -/
theorem specWords_hold : Obligations.SpecWords := by
  unfold Obligations.SpecWords
  decide

end Sys2Proof.Spec
end

section
/-! The values of the scalar instructions (R94 to R99): the model computes on bit vectors, the statements speak of the integers that these stand for. -/

namespace Sys2Proof.Spec

open Sys2Proof.Machine

/-! ## Integers of words -/

theorem sshiftRight_eq_ofInt {w : Nat} (x : BitVec w) (n : Nat) : x.sshiftRight n = BitVec.ofInt w (x.toInt / 2 ^ n) := by
  rw [BitVec.sshiftRight_eq, Int.shiftRight_eq_div_pow]
  push_cast
  rfl

theorem sdiv_eq_ofInt {w : Nat} (x y : BitVec w) : x.sdiv y = BitVec.ofInt w (x.toInt.tdiv y.toInt) :=
  BitVec.eq_of_toInt_eq (by rw [BitVec.toInt_sdiv, BitVec.toInt_ofInt])

theorem srem_eq_ofInt {w : Nat} (x y : BitVec w) : x.srem y = BitVec.ofInt w (x.toInt.tmod y.toInt) := by
  rw [← BitVec.toInt_srem, BitVec.ofInt_toInt]

theorem setWidth_div (x y : Word) : (x.setWidth 32 / y.setWidth 32 : BitVec 32) = BitVec.ofNat 32 (x.toNat % 2 ^ 32 / (y.toNat % 2 ^ 32)) := by
  rw [BitVec.udiv_def, BitVec.toNat_setWidth, BitVec.toNat_setWidth]

theorem setWidth_mod (x y : Word) : (x.setWidth 32 % y.setWidth 32 : BitVec 32) = BitVec.ofNat 32 (x.toNat % 2 ^ 32 % (y.toNat % 2 ^ 32)) := by
  rw [BitVec.umod_def, BitVec.toNat_setWidth, BitVec.toNat_setWidth]

theorem product_eq_ofNat (x y : Word) : x * y = BitVec.ofNat 64 (x.toNat * y.toNat) := BitVec.eq_of_toNat_eq (BitVec.toNat_mul x y)

theorem setWidth_product (x y : Word) : (x * y).setWidth 32 = BitVec.ofNat 32 (x.toNat * y.toNat) := by
  rw [product_eq_ofNat, BitVec.setWidth_ofNat_of_le (by decide)]

/-! ## Comparisons -/

theorem boolWord_decide (p : Prop) [Decidable p] : boolWord (decide p) = if p then 1 else 0 := by
  unfold boolWord
  simp only [decide_eq_true_eq]

/-- Which of two values is chosen where they compare equal makes no difference if they are then the same. -/
theorem ite_decide_lt {α : Type} [LinearOrder α] {m n : α} {u v : Word} (h : m = n → u = v) :
    (if decide (m < n) then u else v) = if m ≤ n then u else v := by
  rcases lt_trichotomy m n with hlt | heq | hgt
  · rw [if_pos (decide_eq_true hlt), if_pos hlt.le]
  · rw [h heq, ite_self, ite_self]
  · rw [if_neg (mt of_decide_eq_true hgt.not_gt), if_neg hgt.not_ge]

theorem imm15_toInt (i : BitVec 15) : (imm15 i).toInt = i.toInt := BitVec.toInt_signExtend_of_le (by decide)

/-! ## Leading zeros (R94) -/

/-- The leading zeros of a word end at the place of its highest bit. -/
theorem findIdx_countLead (x : Word) : (List.range 64).findIdx (fun k => x.getLsbD (63 - k)) = countLead x := by
  unfold countLead bitLen
  split
  case isTrue h0 =>
    exact List.findIdx_eq_length_of_false fun k _ => by rw [BitVec.getLsbD, h0, Nat.zero_testBit]
  case isFalse h0 =>
    have htop : x.toNat.log2 < 64 := (Nat.log2_lt h0).mpr x.isLt
    rw [List.findIdx_eq (by rw [List.length_range]; omega)]
    simp only [List.getElem_range, BitVec.getLsbD]
    constructor
    · rw [show 63 - (64 - (x.toNat.log2 + 1)) = x.toNat.log2 by omega]
      exact Nat.testBit_log2 h0
    · intro k hk
      exact Nat.testBit_lt_two_pow ((Nat.log2_lt h0).mp (by omega))

/-! ## The upper immediate (R99) -/

theorem upper_eq (i : BitVec 20) : upper i = BitVec.ofInt 64 (BitVec.ofNat 32 (i.toNat * 2 ^ 12)).toInt := by
  have hshift : (i.setWidth 32 : BitVec 32) <<< 12 = BitVec.ofNat 32 (i.toNat * 2 ^ 12) := by
    apply BitVec.eq_of_toNat_eq
    have := i.isLt
    rw [BitVec.toNat_shiftLeft, BitVec.toNat_setWidth, BitVec.toNat_ofNat, Nat.shiftLeft_eq, Nat.mod_eq_of_lt (a := i.toNat) (by omega)]
  rw [← hshift]
  rfl

/-! ## The value of each instruction of a table -/

section
variable {i : Instr} {a b c : Reg}

theorem exec_aluResult {f : Word → Word → Word} (h : aluResult i = some (a, b, c, f)) (s : State) : exec i s = binary i a b c f s := by
  have cong {g : Word → Word → Word} (hg : ∀ x y, g x y = f x y) : binary i a b c g s = binary i a b c f s :=
    congrArg (fun g => binary i a b c g s) (funext fun x => funext (hg x))
  unfold aluResult at h
  split at h <;> cases h
  case h_8 => exact cong fun x y => sshiftRight_eq_ofInt x _
  case h_9 => exact cong fun x y => boolWord_decide _
  case h_10 => exact cong fun x y => boolWord_decide _
  case h_11 => exact cong fun _ _ => ite_decide_lt BitVec.eq_of_toInt_eq
  case h_12 => exact cong fun _ _ => ite_decide_lt fun h => (BitVec.eq_of_toInt_eq h).symm
  case h_13 => exact cong fun _ _ => ite_decide_lt BitVec.eq_of_toNat_eq
  case h_14 => exact cong fun _ _ => ite_decide_lt fun h => (BitVec.eq_of_toNat_eq h).symm
  case h_19 => exact cong fun x y => congrArg sextWord (sshiftRight_eq_ofInt _ _)
  case h_22 => exact cong product_eq_ofNat
  case h_25 => exact cong fun x y => congrArg sextWord (setWidth_product x y)
  all_goals rfl

theorem exec_oneSourceResult {f : Word → Word} (h : oneSourceResult i = some (a, b, f)) (s : State) : exec i s = unary i a b f s := by
  have cong {g : Word → Word} (hg : ∀ x, g x = f x) : unary i a b g s = unary i a b f s :=
    congrArg (fun g => unary i a b g s) (funext hg)
  unfold oneSourceResult at h
  split at h <;> cases h
  case h_1 => exact cong fun x => congrArg (BitVec.ofNat 64) (findIdx_countLead x).symm
  case h_9 => exact cong fun x => by rw [BitVec.slt_eq_decide, boolWord_decide, imm15_toInt]
  case h_10 => exact cong fun x => boolWord_decide _
  case h_13 => exact cong fun x => sshiftRight_eq_ofInt x _
  case h_16 => exact cong fun x => congrArg sextWord (sshiftRight_eq_ofInt _ _)
  all_goals rfl

theorem exec_divResult {w : Bool} {f : Word → Word → Word} (h : divResult i = some (a, b, c, w, f)) (s : State) :
    exec i s = divide i a b c w f s := by
  have cong {g : Word → Word → Word} (hg : ∀ x y, g x y = f x y) : divide i a b c w g s = divide i a b c w f s :=
    congrArg (fun g => divide i a b c w g s) (funext fun x => funext (hg x))
  unfold divResult at h
  split at h <;> cases h
  case h_1 => exact cong sdiv_eq_ofInt
  case h_2 => exact cong fun x y => BitVec.udiv_def
  case h_3 => exact cong srem_eq_ofInt
  case h_4 => exact cong fun x y => BitVec.umod_def
  case h_5 => exact cong fun x y => congrArg sextWord (sdiv_eq_ofInt _ _)
  case h_6 => exact cong fun x y => congrArg sextWord (setWidth_div x y)
  case h_7 => exact cong fun x y => congrArg sextWord (srem_eq_ofInt _ _)
  case h_8 => exact cong fun x y => congrArg sextWord (setWidth_mod x y)

end

end Sys2Proof.Spec
end

section
/-! How the scalar instructions end when their operands can be read (R18, R21, R93): past themselves with rd written, or with DIVZERO
(R96) or IBOUND (R107). It settles O1 and O4. -/

namespace Sys2Proof.Spec

open Sys2Proof.Machine

section
variable {i : Instr} {s s1 t : State} {a b c : Reg} {x y : Word}

theorem finishX_past (h : Standing s t) (hf : fits i.len s) (v : Word) : finishX i a v t = .next (past i.len (writeX a v t)) :=
  retire_of_fits (fits_of_standing (h.trans (writeX_standing a v t)) hf)

theorem binary_past (h : reads2 a b c s x y t) (hf : fits i.len s) (f : Word → Word → Word) :
    binary i a b c f s = .next (past i.len (writeX a (f x y) t)) := by
  obtain ⟨s1, hx, hy, hroom⟩ := h
  unfold binary
  rw [withX_eq hx, withX_eq hy, withRoomX_eq hroom]
  exact finishX_past ((popX_standing hx).trans (popX_standing hy)) hf _

theorem unary_past (h : reads1 a b s x t) (hf : fits i.len s) (f : Word → Word) : unary i a b f s = .next (past i.len (writeX a (f x) t)) := by
  obtain ⟨hx, hroom⟩ := h
  unfold unary
  rw [withX_eq hx, withRoomX_eq hroom]
  exact finishX_past (popX_standing hx) hf _

theorem roomFinishX_past (hroom : roomX a s = true) (hf : fits i.len s) (v : Word) :
    withRoomX a s s (finishX i a v s) = .next (past i.len (writeX a v s)) := by
  rw [withRoomX_eq hroom]
  exact finishX_past ⟨rfl, rfl⟩ hf v

/-! ## Divisions (R95, R96) -/

/-- A member of the group tests its divisor once both operands are read. -/
theorem divide_eq (h : reads2 a b c s x y t) (w : Bool) (f : Word → Word → Word) :
    divide i a b c w f s = if testedDivisor w y = 0 then trap 0x08 x s else finishX i a (f x y) t := by
  obtain ⟨s1, hx, hy, hroom⟩ := h
  have htest : (if w then y.setWidth 32 = (0 : BitVec 32) else y = 0) ↔ testedDivisor w y = 0 := by
    cases w
    · exact BitVec.toNat_eq
    · exact BitVec.toNat_eq.trans (by rw [BitVec.toNat_setWidth]; rfl)
  unfold divide
  rw [withX_eq hx, withX_eq hy, withRoomX_eq hroom]
  simp only [htest]

/-! ## Literals (R107) -/

theorem execLit_inside {o : BitVec 20} (hin : ¬ s.rs.regionEnd < (target s.st.pc o).toNat + 8) (hsound : s.quad.istoreBad = []) :
    execLit a o s = withRoomX a s s
      (finishX (.lit a o) a (BitVec.ofNat 64 (readLE s.quad.istore (s.rs.istoreAddr (target s.st.pc o).toNat) 8)) s) := by
  refine congrArg (withRoomX a s s) ((if_neg hin).trans ?_)
  rw [hsound]
  rfl

theorem execLit_outside {o : BitVec 20} (hroom : roomX a s = true) (hout : s.rs.regionEnd < (target s.st.pc o).toNat + 8) :
    execLit a o s = trap 0x04 (target s.st.pc o) s := (withRoomX_eq hroom _).trans (if_pos hout)

end

theorem divideResults : DivideResults := by
  intro i a b c w f s x y t hi hr hd hf
  rw [exec_divResult hi, divide_eq hr, if_neg hd]
  obtain ⟨s1, hx, hy, -⟩ := hr
  exact finishX_past ((popX_standing hx).trans (popX_standing hy)) hf _

theorem divideByZeroTraps : DivideByZeroTraps := by
  intro i a b c w f s x y t hi hr hd hb
  rw [exec_divResult hi, divide_eq hr, if_pos hd]
  exact trap_of_idle hb _ _

theorem aluResults : AluResults := by
  intro i a b c f s x y t hi hr hf
  rw [exec_aluResult hi]
  exact binary_past hr hf f

theorem multiplyMembers : MultiplyMembers := by
  intro i a b c f s t x y hi hr hf
  refine aluResults i a b c f s x y t ?_ hr hf
  obtain ⟨rfl, rfl⟩ | ⟨rfl, rfl⟩ | ⟨rfl, rfl⟩ | ⟨rfl, rfl⟩ := hi
  · rw [show (fun x y : Word => x * y) = fun x y => BitVec.ofNat 64 (x.toNat * y.toNat) from funext₂ product_eq_ofNat]
    rfl
  · rfl
  · rfl
  · rfl

/-- Settles O1: a member tests its divisor, and its quotient or remainder is that of the integers, taken modulo the width. -/
theorem divisions : Obligations.Divisions := ⟨divideResults, divideByZeroTraps, multiplyMembers⟩

/-! ## One source, upper immediates and literals (R94, R97 to R99, R107) -/

theorem oneSourceResults : OneSourceResults := by
  intro i a b f s x t hi _ hr hf
  rw [exec_oneSourceResult hi]
  exact unary_past hr hf f

theorem upperImmediates : UpperImmediates := by
  intro a i s hroom hf
  rw [← upper_eq]
  exact ⟨roomFinishX_past (i := .lui a i) hroom hf _, roomFinishX_past (i := .auipc a i) hroom hf _⟩

theorem literals : Literals := by
  intro a o s hroom
  refine ⟨fun hin hsound hf => ?_, fun hout hb => ?_⟩
  · exact (execLit_inside hin.not_gt hsound).trans (roomFinishX_past (i := .lit a o) hroom hf _)
  · exact (execLit_outside hroom hout).trans (trap_of_idle hb _ _)

/-- Settles O4: each instruction has the shape of its table's row, whose value is that of the integers, and goes on past itself. -/
theorem scalarResults : Obligations.ScalarResults := ⟨aluResults, oneSourceResults, upperImmediates, literals⟩

end Sys2Proof.Spec
end

section
/-! Control transfers (R100 to R102): the condition of each branch, and where a branch, JAL and JALR go. It settles O2. -/

namespace Sys2Proof.Spec

open Sys2Proof.Machine

section
variable {i : Instr} {s s1 t : State} {a b : Reg} {x y : Word}

/-! ## Branches (R100) -/

theorem not_slt_iff : (!y.slt x) = true ↔ x.toInt ≤ y.toInt := by rw [Bool.not_eq_true', BitVec.slt_eq_decide, decide_eq_false_iff_not, not_lt]

theorem not_ult_iff : (!y.ult x) = true ↔ x.toNat ≤ y.toNat := by rw [Bool.not_eq_true', BitVec.ult_eq_decide, decide_eq_false_iff_not, not_lt]

/-- Each branch pops field b before field a (R21), and transfers by its offset under its rule's condition. -/
theorem exec_branchRule {o : Word} {p : Word → Word → Prop} (h : branchRule i = some (a, b, o, p)) (s : State) :
    ∃ (n : Nat) (d : BitVec n) (taken : Word → Word → Bool),
      exec i s = branch i b a d taken s ∧ o = d.signExtend 64 * 2 ∧ ∀ x y, taken y x = true ↔ p x y := by
  unfold branchRule at h
  split at h <;> cases h
  case h_1 => exact ⟨_, _, _, (rfl : execBeq _ _ _ s = _), rfl, fun _ _ => decide_eq_true_iff⟩
  case h_2 => exact ⟨_, _, _, (rfl : execBne _ _ _ s = _), rfl, fun _ _ => decide_eq_true_iff⟩
  case h_3 => exact ⟨_, _, _, (rfl : execBlt _ _ _ s = _), rfl, fun _ _ => BitVec.slt_iff_toInt_lt⟩
  case h_4 => exact ⟨_, _, _, (rfl : execBge _ _ _ s = _), rfl, fun _ _ => not_slt_iff⟩
  case h_5 => exact ⟨_, _, _, (rfl : execBlo _ _ _ s = _), rfl, fun _ _ => BitVec.ult_iff_toNat_lt⟩
  case h_6 => exact ⟨_, _, _, (rfl : execBhs _ _ _ s = _), rfl, fun _ _ => not_ult_iff⟩
  case h_7 => exact ⟨_, _, _, (rfl : execCBeq _ _ s = _), rfl, fun _ _ => decide_eq_true_iff.trans eq_comm⟩
  case h_8 => exact ⟨_, _, _, (rfl : execCBne _ _ s = _), rfl, fun _ _ => decide_eq_true_iff.trans ne_comm⟩

theorem branch_eq {n : Nat} (hy : popX b s = some (y, s1)) (hx : popX a s1 = some (x, t)) (d : BitVec n) (taken : Word → Word → Bool) :
    branch i b a d taken s = if taken y x then jumpTo (target s.st.pc d) t else retire i t := by
  obtain ⟨hpc, -⟩ := (popX_standing hy).trans (popX_standing hx)
  unfold branch
  rw [withX_eq hy, withX_eq hx, hpc]

/-! ## Jumps (R101, R102) -/

theorem jumpLink_eq {n : Nat} (hroom : roomX a s = true) (d : BitVec n) :
    jumpLink i a d s = .next (movedTo (s.st.pc + d.signExtend 64 * 2) (writeX a (s.st.pc + BitVec.ofNat 64 i.len) s)) := withRoomX_eq hroom _

theorem xQueue_zero (s : State) : s.xQueue 0 = none := ite_self _

/-- x0 takes a value at any time, and discards it (R19). -/
theorem roomX_zero (s : State) : roomX 0 s = true := roomX_register (by rw [State.inFlight]; rfl) (xQueue_zero s)

theorem writeX_zero (v : Word) (s : State) : writeX 0 v s = s := by rw [writeX_register v (xQueue_zero s), Stream.putX_zero, setSt_self]

theorem execJalr_eq (h : reads1 a b s x t) (d : BitVec 15) :
    execJalr a b d s = if (x + imm15 d).getLsbD 0 then trap 0x03 (x + imm15 d) s else jumpTo (x + imm15 d) (writeX a (s.st.pc + 4) t) := by
  obtain ⟨hx, hroom⟩ := h
  obtain ⟨hpc, -⟩ := popX_standing hx
  unfold execJalr
  rw [withX_eq hx, withRoomX_eq hroom, hpc]

end

theorem branches : Branches := by
  intro i a b o p s x y s1 t hi hy hx
  obtain ⟨n, d, taken, hexec, rfl, htaken⟩ := exec_branchRule hi s
  rw [hexec, branch_eq hy hx]
  constructor
  · intro hp
    rw [if_pos ((htaken x y).mpr hp)]
    rfl
  · intro hp hf
    rw [if_neg (mt (htaken x y).mp hp)]
    exact retire_of_fits (fits_of_standing ((popX_standing hy).trans (popX_standing hx)) hf)

theorem jumps : Jumps := by
  refine ⟨fun a o s hroom => jumpLink_eq hroom o, fun o s => ?_, fun a b d s x t h => ⟨fun heven => ?_, fun hodd hb => ?_⟩⟩
  · exact (jumpLink_eq (roomX_zero s) o).trans (by rw [writeX_zero])
  · exact (execJalr_eq h d).trans (if_neg (by rw [imm15, heven]; exact Bool.false_ne_true))
  · exact ((execJalr_eq h d).trans (if_pos hodd)).trans (trap_of_idle hb _ _)

/-- Settles O2: a branch goes by its rule's condition on the operands that it has popped, a jump once its link is written. -/
theorem controlTransfers : Obligations.ControlTransfers := ⟨branches, jumps⟩

end Sys2Proof.Spec
end

section
/-! Loop levels (R103 to R105): how one is pushed, what the end of a body does to it, and what a transfer keeps. It settles O3. -/

namespace Sys2Proof.Spec

open Sys2Proof.Machine

section
variable {i : Instr} {s t : State} {count : Word} {L : BitVec 10}

/-! ## Entering a loop (R103) -/

/-- The end of the body of a LOOP at pc: L halfwords after the instruction (R103). -/
def bodyEnd (pc : Word) (L : BitVec 10) : Word := pc + 4 + BitVec.ofNat 64 (2 * L.toNat)

/-- A LOOP enters with its count, which it pops or holds. -/
theorem exec_loop_eq (h : (∃ a, i = .loop a L ∧ popX a s = some (count, t))
      ∨ ∃ n : BitVec 10, i = .loopImm n L ∧ count = BitVec.ofNat 64 n.toNat ∧ t = s) :
    exec i s = enterLoop i count L s t := by
  obtain ⟨a, rfl, hx⟩ | ⟨n, rfl, rfl, rfl⟩ := h
  · exact withX_eq hx _
  · rw [BitVec.ofNat_toNat]
    rfl

theorem enterLoop_pushes (hc : count ≠ 0) (hlen : t.st.loops.length < 2) (hin : ∀ lv ∈ t.st.loops, (bodyEnd t.st.pc L).toNat ≤ lv.stop.toNat) :
    enterLoop i count L s t = .next (t.setSt { t.st with
      pc := t.st.pc + 4, loops := ⟨t.st.pc + 4, bodyEnd t.st.pc L, count⟩ :: t.st.loops, wait := 0, stalled := false }) := by
  unfold enterLoop
  refine (if_neg hc).trans (if_neg ?_)
  rintro (hfull | hbeyond)
  · exact hlen.not_ge hfull
  · obtain ⟨lv, hlv, hlt⟩ := List.any_eq_true.mp hbeyond
    exact (hin lv hlv).not_gt (of_decide_eq_true hlt)

theorem enterLoop_traps (hc : count ≠ 0) (h : 2 ≤ t.st.loops.length ∨ ∃ lv ∈ t.st.loops, lv.stop.toNat < (bodyEnd t.st.pc L).toNat) :
    enterLoop i count L s t = trap 0x01 (BitVec.ofNat 64 (encode i)) s := by
  unfold enterLoop
  refine (if_neg hc).trans (if_pos (h.imp_right ?_))
  rintro ⟨lv, hlv, hlt⟩
  exact List.any_eq_true.mpr ⟨lv, hlv, decide_eq_true hlt⟩

theorem enterLoop_skips (hls : t.st.loops = []) :
    enterLoop i 0 L s t = .next (t.setSt { t.st with pc := bodyEnd t.st.pc L, wait := 0, stalled := false }) := by
  unfold enterLoop
  rw [if_pos rfl]
  simp only [hls, fallThrough, BitVec.ofNat_eq_ofNat, BitVec.add_zero]
  rw [← hls]
  rfl

/-! ## The end of a body (R104, R105) -/

section
variable {p : Word} {n : Nat} {lv : Loop} {rest : List Loop}

theorem fallThrough_straddles (h1 : p.toNat < lv.stop.toNat) (h2 : lv.stop.toNat < p.toNat + n) :
    fallThrough p n (lv :: rest) = (rest, p + BitVec.ofNat 64 n, true) := if_pos ⟨h1, h2⟩

theorem fallThrough_inside (h : ¬ (p.toNat < lv.stop.toNat ∧ lv.stop.toNat < p.toNat + n)) (hne : p + BitVec.ofNat 64 n ≠ lv.stop) :
    fallThrough p n (lv :: rest) = (lv :: rest, p + BitVec.ofNat 64 n, false) := (if_neg h).trans (if_pos hne)

theorem fallThrough_atStop (h : ¬ (p.toNat < lv.stop.toNat ∧ lv.stop.toNat < p.toNat + n)) (he : p + BitVec.ofNat 64 n = lv.stop) :
    fallThrough p n (lv :: rest)
      = if 1 < lv.remaining.toNat then ({ lv with remaining := lv.remaining - 1 } :: rest, lv.start, false) else fallThrough p n rest :=
  (if_neg h).trans (if_neg (not_not.mpr he))

end

/-- A straddling instruction goes on behind itself, however many levels it has left. -/
theorem fallThrough_pc_of_straddle {p : Word} {n : Nat} {ls : List Loop} (h : (fallThrough p n ls).2.2 = true) :
    (fallThrough p n ls).2.1 = p + BitVec.ofNat 64 n := by
  fun_induction fallThrough p n ls with
  | case1 => rfl
  | case2 => rfl
  | case3 => rfl
  | case4 => cases h
  | case5 lv rest _ _ _ ih => exact ih h

/-- An instruction that straddles a loop's end raises ILLOP behind itself. -/
theorem retire_of_straddle (h : ¬ fits i.len s) :
    retire i s = raise 0x01 (s.st.pc + BitVec.ofNat 64 i.len) (BitVec.ofNat 64 (encode i)) (past i.len s) := by
  have hs : (fallThrough s.st.pc i.len s.st.loops).2.2 = true := Bool.eq_true_of_not_eq_false h
  rw [← fallThrough_pc_of_straddle hs]
  obtain ⟨ls, pc, e⟩ : ∃ ls pc, fallThrough s.st.pc i.len s.st.loops = (ls, pc, true) := ⟨_, _, Prod.ext rfl (Prod.ext rfl hs)⟩
  simp only [retire, past, e]

end

theorem loops : Loops := by
  intro L count s t i hi
  obtain ⟨hpc, hls⟩ : Standing s t := by
    obtain ⟨a, -, hx⟩ | ⟨n, -, -, rfl⟩ := hi
    · exact popX_standing hx
    · exact ⟨rfl, rfl⟩
  rw [exec_loop_eq hi, ← hpc, ← hls]
  refine ⟨fun hc h0 => ?_, fun lv hc h1 hin => ?_, fun lv hc h1 hbeyond hb => ?_, fun hc h2 hb => ?_, ?_⟩
  · rw [enterLoop_pushes hc (by rw [h0]; decide) (by rw [h0]; nofun), h0]
    rfl
  · rw [enterLoop_pushes hc (by rw [h1]; exact Nat.one_lt_two) (by rw [h1]; exact List.forall_mem_singleton.mpr hin), h1]
    rfl
  · rw [enterLoop_traps hc (.inr ⟨lv, by rw [h1]; exact List.mem_singleton_self lv, hbeyond⟩), hpc]
    exact trap_of_idle hb _ _
  · rw [enterLoop_traps hc (.inl h2), hpc]
    exact trap_of_idle hb _ _
  · rintro rfl h0
    exact enterLoop_skips h0

theorem loopEnds : LoopEnds := by
  refine ⟨fun _ _ => rfl, fun _ _ _ _ h1 h2 => fallThrough_straddles h1 h2, fun _ _ _ _ h hne => fallThrough_inside h hne, fun _ _ _ _ h he => ⟨?_, ?_⟩,
    fun i s h => ⟨?_, ?_⟩, fun _ _ _ => rfl⟩
  · exact fun hmore => (fallThrough_atStop h he).trans (if_pos hmore)
  · exact fun hlast => (fallThrough_atStop h he).trans (if_neg hlast.not_gt)
  · intro hb
    rw [retire_of_straddle h]
    exact if_neg (ne_true_of_eq_false hb)
  · intro hb
    refine ⟨_, (retire_of_straddle h).trans (if_pos hb), ?_, ?_⟩
    · rw [State.setSt_st]
    · rw [State.setSt_st, past, State.setSt_st]

/-- Settles O3: what LOOP answers for its count and the levels that are active, and what the end of an instruction does to the levels. -/
theorem loopRules : Obligations.LoopRules := ⟨loops, loopEnds⟩

end Sys2Proof.Spec
end

section
/-! Loads and stores of this core's own reservation (R6, R28, R112 to R114): the number that an access reads and the bytes that it puts, and the lower
half of an access that spans two banks. It settles O5 and O6. -/

namespace Sys2Proof.Spec

open Sys2Proof.Machine

section
variable {s t w : State} {i : Instr} {write : Bool} {offs : List Int} {n o : Nat}

/-! ## What an access reads (R6, R28) -/

theorem spadRd_eq_bytesFrom (s : State) (off : Int) (n : Nat) : ∀ j : Nat, spadRd s (off + j) n = bytesFrom (fun k => spadByte s (off + k)) j n := by
  induction n with
  | zero => exact fun _ => rfl
  | succ n ih =>
    intro j
    rw [spadRd, bytesFrom, ← ih, Nat.cast_succ, add_assoc]

theorem spadRd_digit (s : State) (off : Int) {n k : Nat} (hk : k < n) : BitVec.ofNat 8 (spadRd s off n / 2 ^ (8 * k)) = spadByte s (off + k) := by
  have h := spadRd_eq_bytesFrom s off n 0
  rw [Nat.cast_zero, add_zero] at h
  rw [h, bytesFrom_digit hk, Nat.zero_add]

theorem spadRd_lt (s : State) (off : Int) (n : Nat) : spadRd s off n < 2 ^ (8 * n) := by
  have h := spadRd_eq_bytesFrom s off n 0
  rw [Nat.cast_zero, add_zero] at h
  rw [h]
  exact bytesFrom_lt _ n 0

theorem spadByte_of_inside {off : Int} (h : inside s off) : spadByte s off = readByte s.core.spad (physical s off) := if_pos (inRange_iff_inside.mpr h)

theorem spadByte_of_outside {off : Int} (h : ¬ inside s off) : spadByte s off = 0 := if_neg (mt inRange_iff_inside.mp h)

/-- A pending access of this core reads its reservation as an instruction does. -/
theorem ownRd_eq_spadRd (s : State) (o n : Nat) : ownRd s s.ri o n = spadRd s o n := by
  have hbyte : ownByte s s.ri = fun k : Nat => spadByte s (0 + k) := funext fun k => by
    rw [zero_add, ownByte, spadByte, inRange, decide_eq_true (Int.natCast_nonneg k), Bool.true_and]
    simp only [decide_eq_true_eq, Nat.cast_lt]
    rfl
  rw [ownRd_eq, hbyte, ← spadRd_eq_bytesFrom, zero_add]

theorem readBytes : ReadBytes := by
  intro s off n k hk
  rw [spadRd_digit s off hk]
  exact ⟨spadByte_of_inside, spadByte_of_outside, spadRd_lt s off n⟩

/-! ## The state that has recorded an access -/

theorem accessed_core (write : Bool) (offs : List Int) (t : State) : (accessed write offs t).core = t.core := by
  obtain ⟨hcore, -⟩ := accessed_keeps write offs t
  exact hcore

theorem accessed_standing (write : Bool) (offs : List Int) (t : State) : Standing t (accessed write offs t) := by
  obtain ⟨-, -, hst, -⟩ := accessed_keeps write offs t
  exact ⟨by rw [hst], by rw [hst]⟩

theorem spadRd_accessed (write : Bool) (offs : List Int) (t : State) (off : Int) (n : Nat) : spadRd (accessed write offs t) off n = spadRd t off n := by
  obtain ⟨f, g, e⟩ := accessed_setRs write offs t
  rw [e]
  exact spadRd_setRs (s := t) (x := { t.rs with spflag := f, granules := g }) rfl rfl off n

theorem halfOf_accessed (write : Bool) (offs : List Int) (t : State) (off : Int) (n : Nat) (st : Bool) (data : Word) (rd : Reg) (sg : Bool) (low : Nat) :
    halfOf (accessed write offs t) off n st data rd sg low = halfOf t off n st data rd sg low := by
  obtain ⟨f, g, e⟩ := accessed_setRs write offs t
  rw [e]
  simp only [halfOf, State.setRs_rs]
  rfl

/-! ## The bytes that an access puts (R28) -/

/-- Bytes outside those that are put stay. -/
theorem readByte_putBytes_ne {base size p : Nat} : ∀ {n : Nat} {m : Mem} {off v : Nat}, Memory.wf m = true →
    (∀ k < n, off + k < size → p ≠ base + (off + k)) → readByte (putBytes base size m off n v) p = readByte m p := by
  intro n
  induction n with
  | zero => exact fun _ _ => rfl
  | succ n ih =>
    intro m off v hm hp
    rw [putBytes, ih (putBytes_wf_step hm base size off _) fun k hk hlt => by
      rw [show off + 1 + k = off + (k + 1) by omega] at hlt ⊢
      exact hp (k + 1) (Nat.succ_lt_succ hk) hlt]
    split
    · exact readByte_writeByte_ne m _ _ _ hm (hp 0 n.succ_pos ‹_›)
    · rfl

theorem spadWr_putBytes (n : Nat) : ∀ (o v : Nat) (t : State),
    spadWr t o n v = withSpad (putBytes t.rs.spbase.toNat t.rs.spsize.toNat t.core.spad o n v) t := by
  induction n with
  | zero => exact fun _ _ _ => rfl
  | succ n ih =>
    intro o v t
    have hput : spadPut t o (BitVec.ofNat 8 v)
        = withSpad (if o < t.rs.spsize.toNat then writeByte t.core.spad (t.rs.spbase.toNat + o) (BitVec.ofNat 8 v) else t.core.spad) t := by
      by_cases h : o < t.rs.spsize.toNat
      · rw [if_pos h]
        exact if_pos (inRange_iff.mpr ⟨Int.natCast_nonneg o, Int.ofNat_lt.mpr h⟩)
      · rw [if_neg h]
        exact if_neg fun hin => h (Int.ofNat_lt.mp (inRange_iff.mp hin).2)
    rw [spadWr, hput, ← Nat.cast_succ, ih, putBytes]
    rfl

theorem mem_of_mem_mendWords {a : Nat} {bad ws : List Nat} (h : a ∈ mendWords bad ws) : a ∈ bad := List.mem_of_mem_filter h

/-- The scratchpad of w with n bytes of v put at offset o of the reservation, and with no more uncorrectable words. -/
def PutAt (o n v : Nat) (w u : State) : Prop :=
  ∃ b, (∀ a ∈ b, a ∈ w.core.spadBad) ∧ u = withBad b (withSpad (putBytes w.rs.spbase.toNat w.rs.spsize.toNat w.core.spad o n v) w)

theorem mendSpad_spadWr_putAt (o n v : Nat) (offs : List Int) (w : State) : PutAt o n v w (mendSpad (spadWr w o n v) offs) := by
  rw [spadWr_putBytes]
  unfold mendSpad
  split
  · exact ⟨w.core.spadBad, fun _ h => h, rfl⟩
  · exact ⟨_, fun _ h => mem_of_mem_mendWords h, rfl⟩

theorem ownStore_putAt (o n v : Nat) (w : State) : PutAt o n v w (ownStore w.ri o n v w) := by
  unfold ownStore
  rw [ownWr_putBytes]
  exact ⟨_, fun _ h => List.mem_of_mem_filter h, rfl⟩

theorem PutAt.standing {v : Nat} {u : State} (h : PutAt o n v w u) : Standing w u := by
  obtain ⟨b, -, rfl⟩ := h
  exact ⟨rfl, rfl⟩

/-- What has been put over the state that has recorded the access is what the access stores. -/
theorem PutAt.stored {v : Nat} {u : State} (h : PutAt o n v (accessed true offs t) u) (hm : Memory.wf t.core.spad = true) :
    StoredOver o n v t (accessed true offs t) u := by
  obtain ⟨b, hb, rfl⟩ := h
  have hspad : (withBad b (withSpad (putBytes (accessed true offs t).rs.spbase.toNat (accessed true offs t).rs.spsize.toNat
      (accessed true offs t).core.spad o n v) (accessed true offs t))).core.spad
      = putBytes t.rs.spbase.toNat t.rs.spsize.toNat t.core.spad o n v := by
    rw [accessed_rs, accessed_core]
    rfl
  have hin (k : Nat) : inside t ((o : Int) + k) ↔ o + k < t.rs.spsize.toNat := by
    unfold inside
    omega
  have hphys (k : Nat) : physical t ((o : Int) + k) = t.rs.spbase.toNat + (o + k) := by
    unfold physical
    omega
  refine ⟨fun k hk hk' => ?_, fun p hp => ?_, fun a ha => ?_, ?_⟩
  · rw [hspad, hphys]
    exact readByte_putBytes hm hk ((hin k).mp hk')
  · rw [hspad]
    refine readByte_putBytes_ne hm fun k hk hlt e => hp ⟨k, hk, (hin k).mpr hlt, ?_⟩
    rw [hphys, e]
  · rw [← accessed_core true offs t]
    exact hb a ha
  · rw [← accessed_core true offs t]
    rfl

/-! ## Accesses that span two banks (R112) -/

theorem bank_bounds (hc : crosses o n t) : o < nextBank o ∧ nextBank o < o + n ∧ nextBank o < t.rs.spsize.toNat := by
  obtain ⟨-, hn, hsize⟩ := hc
  refine ⟨?_, hn, hsize⟩
  unfold nextBank
  omega

section
variable {e : Remote} {data : Word} {rd : Reg} {sg : Bool} (he : e = unbegun t o n write data rd sg) (hc : crosses o n t) (h64 : o < 2 ^ 64)

include he in
theorem unbegun_own : e.own (awaiting e t) = true := by
  rw [he]
  exact decide_eq_true rfl

include he in
theorem unbegun_res : e.res = t.ri := by
  rw [he]
  rfl

include he h64 in
theorem unbegun_off : e.off.toNat = o := by
  rw [he]
  change (BitVec.ofInt 64 o).toNat = o
  rw [BitVec.toNat_ofInt]
  omega

include he hc in
theorem unbegun_kept : e.kept o (nextBank o - o) = nextBank o - o := by
  obtain ⟨-, -, hsize⟩ := bank_bounds hc
  rw [he]
  exact Nat.min_eq_left (Nat.sub_le_sub_right hsize.le o)

include he hc h64

theorem unbegun_bankPart : bankPart e = nextBank o - o := by
  obtain ⟨-, hedge⟩ := bank_bounds hc
  rw [bankPart, unbegun_off he h64, he]
  exact if_pos hedge

/-- What the first bank held. -/
theorem unbegun_bankRead : bankRead e (awaiting e t) = spadRd t o (nextBank o - o) := by
  have hlow : bankRead e (awaiting e t) = 0 + 2 ^ 0 * targetRd (awaiting e t) e e.off.toNat (bankPart e) := by
    rw [he]
    rfl
  have hread : ownRd (awaiting e t) t.ri o (nextBank o - o) = bytesFrom (ownByte t t.ri) o (nextBank o - o) := ownRd_eq _ _ _ _
  rw [hlow, zero_add, pow_zero, one_mul, unbegun_off he h64, unbegun_bankPart he hc h64, targetRd, if_pos (unbegun_own he), unbegun_kept he hc, unbegun_res he,
    hread, ← ownRd_eq, ownRd_eq_spadRd]

/-- What the first bank then holds. -/
theorem unbegun_banked : banked e (awaiting e t) = awaiting e (if write then ownStore t.ri o (nextBank o - o) data.toNat t else t) := by
  have hstored : banked e (awaiting e t)
      = if write then targetWr e e.off.toNat (bankPart e) (data.toNat / 2 ^ 0) (awaiting e t) else awaiting e t := by
    rw [he]
    rfl
  rw [hstored, unbegun_off he h64, unbegun_bankPart he hc h64, targetWr, if_pos (unbegun_own he), unbegun_kept he hc, pow_zero, Nat.div_one,
    unbegun_res he]
  cases write
  · rfl
  · unfold ownStore
    simp only [ownWr_putBytes]
    rfl

end

theorem awaiting_set (e f : Remote) {l : List Remote} (h : t.core.remote = l) :
    withRemote ((awaiting e t).core.remote.set l.length f) (awaiting e t) = awaiting f t := by
  subst h
  have hset : (awaiting e t).core.remote.set t.core.remote.length f = t.core.remote ++ [f] := by
    unfold awaiting
    rw [List.set_append_right _ _ (Nat.le_refl _), Nat.sub_self]
    rfl
  rw [hset]
  rfl

/-- The lower half of an access that spans two banks: a store's bytes are put, and the access awaits its second bank with what the first one held. -/
theorem firstHalf_of_crosses (hc : crosses o n t) (h64 : o < 2 ^ 64) (write : Bool) (data : Word) (rd : Reg) (sg : Bool) :
    firstHalf o n write data rd sg t = awaiting (halfOf t o n write data rd sg (spadRd t o (nextBank o - o)))
      (if write then ownStore t.ri o (nextBank o - o) data.toNat t else t) := by
  generalize he : unbegun t o n write data rd sg = e
  obtain ⟨hlow, hn, -⟩ := bank_bounds hc
  have hpart := unbegun_bankPart he.symm hc h64
  have hmore : e.done + bankPart e < e.n := by
    have hd : e.done = 0 := he ▸ rfl
    have hen : e.n = n := he ▸ rfl
    omega
  have hkeep : (if write then ownStore t.ri o (nextBank o - o) data.toNat t else t).core.remote = t.core.remote := by
    split
    · obtain ⟨b, -, e⟩ := ownStore_putAt o (nextBank o - o) data.toNat t
      rw [e]
      rfl
    · rfl
  rw [firstHalf_eq, he, performRemote_eq List.getElem?_concat_length, if_pos hmore, unbegun_banked he.symm hc h64,
    unbegun_bankRead he.symm hc h64, awaiting_set e _ hkeep, hpart, ← he]
  exact congrArg (fun d => awaiting { halfOf t o n write data rd sg (spadRd t o (nextBank o - o)) with done := d } _) (Nat.zero_add _)

/-! ## Loads and stores that go through -/

theorem retire_past (h : Standing s t) (hf : fits i.len s) : retire i t = .next (past i.len t) := retire_of_fits (fits_of_standing h hf)

/-- A load of this core's own reservation, of one bank or of two. -/
theorem loadX_of_goes (h : Standing s t) (hf : fits i.len s) {a : Reg} (hroom : roomX a t = true) (hgo : LocalGoes true false (byteRange o n) t)
    (h64 : o < 2 ^ 64) (sg : Bool) :
    (¬ crosses o n t → loadX i a o n sg s t = .next (past i.len (writeX a (loaded sg n (spadRd t o n)) (accessed false (byteRange o n) t))))
    ∧ (crosses o n t → loadX i a o n sg s t = .next (past i.len
        (awaiting (halfOf t o n false 0 a sg (spadRd t o (nextBank o - o))) (accessed false (byteRange o n) t)))) := by
  have hst : Standing s (accessed false (byteRange o n) t) := h.trans (accessed_standing _ _ t)
  have hspans := spansBanks_accessed (t := t) (off := o) (n := n) false (byteRange o n)
  rw [loadX, withRoomX_eq hroom, localAccess_of_goes hgo]
  refine ⟨fun hc => ?_, fun hc => ?_⟩
  · rw [if_neg (mt hspans.mp hc), finishX_past hst hf, spadRd_accessed]
  · have hc' : crosses o n (accessed false (byteRange o n) t) := spansBanks_iff.mp (hspans.mpr hc)
    rw [if_pos (hspans.mpr hc), firstHalf_of_crosses hc' h64, halfOf_accessed, spadRd_accessed, if_neg Bool.false_ne_true]
    exact retire_past hst hf

/-- A store to this core's own reservation, of one bank or of two. -/
theorem storeX_of_goes (h : Standing s t) (hf : fits i.len s) (hm : Memory.wf t.core.spad = true) (hgo : LocalGoes false true (byteRange o n) t)
    (h64 : o < 2 ^ 64) (v : Word) : ∃ u, storeX i o n v.toNat s t = .next (past i.len u)
      ∧ (¬ crosses o n t → Stored o n v.toNat t u) ∧ (crosses o n t → StoredHalf o n v t u) := by
  have hst : Standing s (accessed true (byteRange o n) t) := h.trans (accessed_standing _ _ t)
  have hspans := spansBanks_accessed (t := t) (off := o) (n := n) true (byteRange o n)
  rw [storeX, localAccess_of_goes hgo]
  by_cases hc : crosses o n t
  · have hc' : crosses o n (accessed true (byteRange o n) t) := spansBanks_iff.mp (hspans.mpr hc)
    have hput := ownStore_putAt o (nextBank o - o) v.toNat (accessed true (byteRange o n) t)
    rw [if_pos (hspans.mpr hc), firstHalf_of_crosses hc' h64, halfOf_accessed, if_pos rfl, BitVec.ofNat_toNat, BitVec.setWidth_eq]
    exact ⟨_, retire_past (hst.trans hput.standing) hf, fun hn => absurd hc hn, fun _ => ⟨_, _, hput.stored hm, rfl⟩⟩
  · have hput := mendSpad_spadWr_putAt o n v.toNat (byteRange o n) (accessed true (byteRange o n) t)
    rw [if_neg (mt hspans.mp hc)]
    exact ⟨_, retire_past (hst.trans hput.standing) hf, fun _ => hput.stored hm, fun hn => absurd hn hc⟩

theorem popX_spad {r : Reg} {x : Word} (h : popX r s = some (x, t)) : t.core.spad = s.core.spad := by rw [(popX_device h).1]

end

/-! ## The instructions -/

theorem exec_load_of_loadRule {i : Instr} {a b : Reg} {d : BitVec 12} {n : Nat} {f : Nat → Word} (h : loadRule i = some (a, b, d, n, f)) (s : State) :
    exec i s = load i a b d n (signs i) s ∧ loaded (signs i) n = f := by
  unfold loadRule at h
  split at h <;> cases h <;> exact ⟨rfl, rfl⟩

theorem loadResults : LoadResults := by
  intro i a off n f s t h
  obtain ⟨b, d, x, hi, hx, hroom, rfl, hgo, hf⟩ := h
  obtain ⟨hexec, rfl⟩ := exec_load_of_loadRule hi s
  rw [hexec, load, withX_eq hx, Int.toNat_natCast]
  exact loadX_of_goes (popX_standing hx) hf hroom hgo (BitVec.isLt _) _

/-- Settles O5: the lower half of an access of two banks reads as the whole of an access of one does, and the digits of a number are its bytes. -/
theorem localLoads : Obligations.LocalLoads := ⟨loadResults, readBytes⟩

/-- Settles O6: both ways in which a store puts its bytes put them one by one, and only those in range. -/
theorem storeResults : Obligations.StoreResults := by
  intro i off n v s t hm h
  obtain ⟨a, b, d, x, w, s1, hi, hx, hw, rfl, rfl, hgo, hf⟩ := h
  rw [exec_of_storeRule hi s, store, withX_eq hx, withX_eq hw, BitVec.ofNat_toNat, BitVec.setWidth_eq]
  refine storeX_of_goes ((popX_standing hx).trans (popX_standing hw)) hf ?_ hgo (BitVec.isLt _) w
  rw [popX_spad hw, popX_spad hx]
  exact hm.1

end Sys2Proof.Spec
end

section
/-! Atomics (R117, R118): the function of each of them, and what memory then holds. It settles O7. -/

namespace Sys2Proof.Spec

open Sys2Proof.Machine

section
variable {i : Instr} {a b c : Reg} {n : Nat} {cas : Bool} {f : Nat → Nat → Nat → Nat} {s t : State}

theorem exec_amo_of_atomicRule (h : atomicRule i = some (a, b, c, n, cas, f)) : ∃ g, (∀ s, exec i s = amo i g n a b c s) ∧ (g = .cas ↔ cas = true)
    ∧ ∀ old y e, (amoNew g (8 * n) old y e).getD old = f old y e := by
  unfold atomicRule at h
  split at h <;> cases h
  case h_5 | h_6 => exact ⟨.cas, fun _ => rfl, by decide, fun old y e => by rw [amoNew, apply_ite (Option.getD · old)]; rfl⟩
  all_goals exact ⟨_, fun _ => rfl, by decide, fun _ _ _ => rfl⟩

/-- An atomic that stores nothing leaves what a store of the old value would. -/
theorem stored_unchanged (o n : Nat) (t : State) : Stored o n (spadRd t o n) t (accessed true (byteRange o n) t) := by
  have hspad := congrArg Core.spad (accessed_core true (byteRange o n) t)
  have hbad := congrArg Core.spadBad (accessed_core true (byteRange o n) t)
  refine ⟨fun k hk hin => ?_, fun p _ => by rw [hspad], fun a ha => by rwa [hbad] at ha, by rw [← accessed_core true (byteRange o n) t]⟩
  rw [hspad, spadRd_digit t o hk, spadByte_of_inside hin]

/-- How an atomic ends whose function leaves r, or none where a compare fails: rd takes v either way. -/
def amoEnd (i : Instr) (a : Reg) (o n : Nat) (v : Word) (t : State) (r : Option Nat) : Res :=
  r.elim (finishX i a v (accessed true (byteRange o n) t))
    fun new => finishX i a v (mendSpad (spadWr (accessed true (byteRange o n) t) o n new) (byteRange o n))

theorem amoEnd_stored (hst : Standing s t) (hf : fits i.len s) (hm : Memory.wf t.core.spad = true) (o : Nat) (v : Word) (r : Option Nat) :
    ∃ u, amoEnd i a o n v t r = .next (past i.len (writeX a v u)) ∧ Stored o n (r.getD (spadRd t o n)) t u := by
  have hacc : Standing s (accessed true (byteRange o n) t) := hst.trans (accessed_standing _ _ t)
  cases r with
  | none => exact ⟨_, finishX_past hacc hf v, stored_unchanged o n t⟩
  | some w =>
    have hput := mendSpad_spadWr_putAt o n w (byteRange o n) (accessed true (byteRange o n) t)
    exact ⟨_, finishX_past (hacc.trans hput.standing) hf v, hput.stored hm⟩

/-- What rd takes of an atomic: the old value, sign-extended in a word form (R118). -/
def oldWord (n old : Nat) : Word := if n = 4 then (BitVec.ofNat 32 old).signExtend 64 else BitVec.ofNat 64 old

/-- The expected value, which AMOCAS alone reads (R118). -/
theorem withExpected_eq {g : AmoFn} {s2 : State} {z : Word} (hz : if g = .cas then popX a s2 = some (z, t) else z = 0 ∧ t = s2)
    (k : Word → State → Res) : (if g = .cas then withX a s s2 k else k 0 s2) = k z t := by
  split at hz
  · rw [if_pos ‹_›, withX_eq hz]
  · obtain ⟨rfl, rfl⟩ := hz
    rw [if_neg ‹_›]

/-- An atomic whose operands can be read and whose access goes through. -/
theorem amo_of_goes {g : AmoFn} {s1 s2 : State} {x w z : Word} (hx : popX b s = some (x, s1)) (hw : popX c s1 = some (w, s2))
    (hz : if g = .cas then popX a s2 = some (z, t) else z = 0 ∧ t = s2) (hroom : roomX a t = true)
    (hgo : LocalGoes true true (byteRange ((n * (x.toNat / n) : Nat) : Int) n) t) :
    amo i g n a b c s = amoEnd i a (n * (x.toNat / n)) n (oldWord n (spadRd t (n * (x.toNat / n) : Nat) n)) t
      (amoNew g (8 * n) (spadRd t (n * (x.toNat / n) : Nat) n) (w.toNat % 2 ^ (8 * n)) (z.toNat % 2 ^ (8 * n))) := by
  have hoff : x.toNat - x.toNat % n = n * (x.toNat / n) := by
    have := Nat.div_add_mod x.toNat n
    omega
  rw [amo]
  dsimp only
  rw [withX_eq hx, withX_eq hw, withExpected_eq hz, withRoomX_eq hroom, hoff, localAccess_of_goes hgo, spadRd_accessed]
  cases amoNew g (8 * n) (spadRd t (n * (x.toNat / n) : Nat) n) (w.toNat % 2 ^ (8 * n)) (z.toNat % 2 ^ (8 * n)) <;> rfl

end

/-- Settles O7: the function of the number of an atomic is that of its rule, and where it stores nothing memory already holds what it leaves. -/
theorem atomicResults : Obligations.AtomicResults := by
  intro i a off n y e f s t hm h
  obtain ⟨b, c, cas, x, w, z, s1, s2, hi, hx, hw, hz, hroom, rfl, rfl, rfl, hgo, hf⟩ := h
  obtain ⟨g, hexec, hg, hnew⟩ := exec_amo_of_atomicRule hi
  simp only [← hg] at hz
  have hspad : t.core.spad = s.core.spad ∧ Standing s t := by
    have h2 : s2.core.spad = s.core.spad := (popX_spad hw).trans (popX_spad hx)
    have hs2 := (popX_standing hx).trans (popX_standing hw)
    split at hz
    · exact ⟨(popX_spad hz).trans h2, hs2.trans (popX_standing hz)⟩
    · obtain ⟨-, rfl⟩ := hz
      exact ⟨h2, hs2⟩
  obtain ⟨hspad, hst⟩ := hspad
  rw [hexec, amo_of_goes hx hw hz hroom hgo, ← hnew]
  exact amoEnd_stored hst hf (by rw [hspad]; exact hm.1) _ _ _

end Sys2Proof.Spec
end

section
/-! Range locks (R121, R122): the lowest byte of an access that meets an entry, and the lowest entry that this byte meets. It settles O9. -/

namespace Sys2Proof.Spec

open Sys2Proof.Machine

/-! ## The least of a list -/

theorem leastNat_eq_min? (l : List Nat) : leastNat l = l.min? := by
  induction l with
  | nil => rfl
  | cons o l ih =>
    rw [leastNat, ih, List.min?_cons]
    cases l.min? <;> rfl

theorem leastNat_eq_some {l : List Nat} {o : Nat} (ho : o ∈ l) (hle : ∀ p ∈ l, o ≤ p) : leastNat l = some o := by
  rw [leastNat_eq_min?]
  exact List.min?_eq_some_iff.mpr ⟨ho, hle⟩

/-! ## The entries of the table -/

section
variable {ls : Vector (Option Lock) 8} {write : Bool} {b : Nat} {k : Fin 8}

/-- Entry k of the table covers an access of a byte (R121). -/
def covers (ls : Vector (Option Lock) 8) (write : Bool) (b : Nat) (k : Fin 8) : Prop :=
  ∃ l, ls[k] = some l ∧ l.space = .spad ∧ (l.wr = true ∨ write = true) ∧ ∃ r ∈ l.ranges, r.1 ≤ b ∧ b < r.2

/-- What the table's search asks of an entry. -/
def lockCovers (write : Bool) (b : Nat) (l : Lock) : Bool := decide (l.space = .spad) && (l.wr || write) && l.meets b (b + 1)

theorem lockHit_eq_find? (ls : Vector (Option Lock) 8) (write : Bool) (b : Nat) :
    lockHit ls write b = (List.finRange 8).find? (fun k => ls[k].any (lockCovers write b)) := by
  unfold lockHit
  congr 1
  funext k
  cases ls[k] <;> rfl

theorem any_lockCovers_iff : ls[k].any (lockCovers write b) = true ↔ covers ls write b k := by
  simp only [Option.any_eq_true, lockCovers, covers, Lock.meets, Bool.and_eq_true, Bool.or_eq_true, decide_eq_true_eq, List.any_eq_true,
    Nat.lt_add_one_iff, and_assoc]

/-- The search gives the lowest entry that covers the access. -/
theorem lockHit_eq_some (hk : covers ls write b k) (hlow : ∀ j < k, ¬ covers ls write b j) : lockHit ls write b = some k := by
  rw [lockHit_eq_find?]
  refine List.find?_eq_some_iff_getElem.mpr ⟨any_lockCovers_iff.mpr hk, k.val, ?_, List.getElem_finRange _, fun j hj => ?_⟩
  · rw [List.length_finRange]
    exact k.isLt
  · rw [Bool.not_eq_true', Bool.eq_false_iff, List.getElem_finRange]
    exact mt any_lockCovers_iff.mp (hlow _ hj)

/-- TINFO of the RLOCK of an access whose lowest byte that meets the table meets entry k first (R122). -/
theorem rlockInfo_eq_some {ins : List Nat} {core base o : Nat} (ho : o ∈ ins) (hlow : ∀ p ∈ ins, p < o → ¬ lockMeets ls write (base + p))
    (hk : lockHit ls write (base + o) = some k) :
    rlockInfo ls write core base ins = some (BitVec.ofNat 64 ((if write then 2 ^ 24 else 0) + core * 2 ^ 20 + k.val * 2 ^ 16 + o)) := by
  have hleast : leastNat (ins.filter (fun o => (lockHit ls write (base + o)).isSome)) = some o := by
    refine leastNat_eq_some (List.mem_filter.mpr ⟨ho, by rw [hk]; rfl⟩) fun p hp => ?_
    obtain ⟨hp, hit⟩ := List.mem_filter.mp hp
    exact Nat.le_of_not_lt fun hlt => hlow p hp hlt (lockMeets_of_lockHit hit)
  simp only [rlockInfo, hleast, hk]
  cases write <;> simp

end

section
variable {i : Instr} {a : Reg} {s t : State} {read write : Bool} {offs : List Int} {info : Word}

/-! ## The trap -/

/-- An access that no FENCE holds and that meets a range lock takes RLOCK, on the state before any pop (R120, R122). -/
theorem localAccess_of_lock (hfence : fenceHolds t = false) (hbusy : s.sliceBusy = false)
    (hlock : rlockInfo t.core.locks write t.coreInQuad.toNat t.rs.spbase.toNat (inOffsets t.rs.spsize.toNat offs) = some info) (k : State → Res) :
    localAccess s read write offs t k = .next (takeTrap 0x15 s.st.pc info s) := by
  simp only [localAccess, hfence, hlock, Bool.false_eq_true, if_false]
  exact trap_of_idle hbusy _ _

/-- The lowest byte of an access that meets the table, by the offset and by the entry. -/
theorem rlockInfo_of_lowest {o : Nat} {k : Fin 8} (ho : (o : Int) ∈ offs) (hin : inside t o)
    (hlow : ∀ p : Nat, p < o → (p : Int) ∈ offs → ¬ lockMeets t.core.locks write (physical t p))
    (hk : covers t.core.locks write (physical t o) k) (hfirst : ∀ j < k, ¬ covers t.core.locks write (physical t o) j) :
    rlockInfo t.core.locks write t.coreInQuad.toNat t.rs.spbase.toNat (inOffsets t.rs.spsize.toNat offs)
      = some (BitVec.ofNat 64 ((if write then 2 ^ 24 else 0) + t.coreInQuad.toNat * 2 ^ 20 + k.val * 2 ^ 16 + o)) := by
  refine rlockInfo_eq_some (mem_inOffsets.mpr ⟨o, ho, inRange_iff_inside.mpr hin, Int.toNat_natCast o⟩) (fun p hp hlt => ?_) (lockHit_eq_some hk hfirst)
  obtain ⟨q, hq, hqin, rfl⟩ := mem_inOffsets.mp hp
  have hcast : ((q.toNat : Nat) : Int) = q := Int.toNat_of_nonneg (inRange_iff.mp hqin).1
  exact hlow q.toNat hlt (by rwa [hcast])

end

/-- Settles O9: the search for the lowest byte and the search for its entry give what TINFO holds, before anything is committed. -/
theorem rangeLocks : Obligations.RangeLocks := by
  intro i write off n s t o k hi hfence hbusy ho hin _ hlow hk hfirst
  have hfirst' : ∀ j < k, ¬ covers t.core.locks write (physical t o) j := fun j hj ⟨l, hl, hmeets⟩ => hfirst j hj l hl hmeets
  have hinfo := rlockInfo_of_lowest ho hin hlow hk hfirst'
  rcases hi with ⟨rfl, a, b, d, x, f, hi, hx, hroom, rfl⟩ | ⟨rfl, a, b, d, x, w, s1, hi, hx, hw, rfl⟩
  · obtain ⟨hexec, -⟩ := exec_load_of_loadRule hi s
    rw [hexec, load, withX_eq hx, loadX, withRoomX_eq hroom]
    exact localAccess_of_lock hfence hbusy hinfo _
  · rw [exec_of_storeRule hi s, store, withX_eq hx, withX_eq hw, storeX]
    exact localAccess_of_lock hfence hbusy hinfo _

end Sys2Proof.Spec
end

section
/-! Quad-remote accesses as they leave their core (R38, R115, R116, R120, R126): the checks at the target, what a passed access records there and here,
and how LQW, LQD, SQW and SQD end. It settles O11. -/

namespace Sys2Proof.Spec

open Sys2Proof.Machine

section
variable {s t : State} {k : Fin 4} {write : Bool} {offs : List Int}

/-! ## The residencies of a quad-mate -/

theorem setMateRes_residencies (s : State) (k : Fin 4) (m : MateRes) : (setMateRes s k m).quad.mates[k]
    = { s.quad.mates[k] with residencies := s.quad.mates[k].residencies.map (fun y => if y.gang = m.gang then m else y) } := vset_get _ _ _

/-- The residencies of other gangs stay. -/
theorem mateRes_setMateRes_ne {m : MateRes} {g : BitVec 16} (hg : g ≠ m.gang) : mateRes (setMateRes s k m) k g = mateRes s k g := by
  have hput : heldBy g ∘ (fun y => if y.gang = m.gang then m else y) = heldBy g := funext fun y => by
    rw [Function.comp_apply]
    split
    · rename_i hy
      rw [heldBy, heldBy, hy, decide_eq_false hg.symm]
      rfl
    · rfl
  rw [mateRes_eq, mateRes_eq, setMateRes_residencies, List.find?_map, hput]
  cases hf : s.quad.mates[k].residencies.find? (heldBy g) with
  | none => rfl
  | some y =>
    obtain ⟨-, hy, -⟩ := mateRes_gang hf
    exact congrArg some (if_neg (hy ▸ hg))

/-- With its old residencies a quad-mate is as it was. -/
theorem setMateRes_restored (s : State) (k : Fin 4) (m : MateRes) : ({ (setMateRes s k m).quad with
      mates := vset (setMateRes s k m).quad.mates k
        { (setMateRes s k m).quad.mates[k] with residencies := s.quad.mates[k].residencies } } : Quad) = s.quad := by
  rw [setMateRes_residencies]
  unfold setMateRes
  dsimp only
  rw [vset_vset, show vset s.quad.mates k s.quad.mates[k] = s.quad.mates from Vector.set_getElem_self _]

/-! ## SPFLAG (R25, R28, R116) -/

theorem remoteFlag_spflagAfter (k : Fin 4) (write : Bool) (size : Nat) (offs : List Int) (old : Word) :
    remoteFlag k write size offs old (spflagAfter old write true k.val (outOffsets size offs)) := by
  refine ⟨fun h => ?_, fun o ho hout hmin hclear => ?_⟩
  · rcases h with h | h
    · exact spflagAfter_of_set _ _ _ h
    · have hnone : outOffsets size offs = [] :=
        List.eq_nil_iff_forall_not_mem.mpr fun o ho => (mem_outOffsets.mp ho).2 (inRange_iff.mpr (h o (mem_outOffsets.mp ho).1))
      rw [hnone]
      rfl
  · have hleast : leastInt (outOffsets size offs) = some o := leastInt_eq_some (mem_outOffsets.mpr ⟨ho, mt inRange_iff.mp hout⟩) fun p hp =>
      hmin p (mem_outOffsets.mp hp).1 (mt inRange_iff.mpr (mem_outOffsets.mp hp).2)
    have hbit : ¬ bits old.toNat 63 1 = 1 := by
      rw [BitVec.getLsbD, Nat.testBit_eq_decide_div_mod_eq, decide_eq_false_iff_not] at hclear
      exact hclear
    unfold spflagAfter
    rw [hleast]
    dsimp only
    rw [if_neg hbit]
    cases write <;> simp

/-! ## What a quad-remote access records -/

/-- The current residency once a quad-remote access to core k has been let through: its mark and SPFLAG. -/
def flagged (k : Fin 4) (write : Bool) (offs : List Int) (t : State) : State :=
  t.setRs { t.rs with quadRemote := true, spflag := spflagAfter t.rs.spflag write true k.val (outOffsets (remoteSize t k) offs) }

/-- The state once a quad-remote access of a quad-mapped residency has passed its checks. -/
def metAt (k : Fin 4) (write : Bool) (offs : List Int) (t : State) : State :=
  recordRemote k write (inOffsets (remoteSize t k) offs) (flagged k write offs t)

theorem commitFlag_markRemote (k : Fin 4) (write : Bool) (offs : List Int) (t : State) :
    commitFlag write true k.val (outOffsets (remoteSize t k) offs) (markRemote t) = flagged k write offs t := by
  simp only [commitFlag, markRemote, flagged, State.setRs_rs, State.setRs_setRs]

theorem mateRes_flagged (k : Fin 4) (write : Bool) (offs : List Int) (t : State) :
    mateRes (flagged k write offs t) k (flagged k write offs t).rs.gang = mateRes t k t.rs.gang := by
  rw [flagged, State.setRs_rs]
  rfl

theorem metAt_of_none (h : mateRes t k t.rs.gang = none) : metAt k write offs t = flagged k write offs t := by
  simp only [metAt, recordRemote, mateRes_flagged, h]

/-- The granule records of the target's residency m. -/
def recorded (write : Bool) (offs : List Int) (t : State) (m : MateRes) : Table Granule :=
  (granulesOf (inOffsets m.spsize.toNat offs)).foldl (raceRecord t.coreInQuad write) m.granules

theorem remoteSize_of_some {m : MateRes} (hq : t.rs.quadMapped = true) (h : mateRes t k t.rs.gang = some m) : remoteSize t k = m.spsize.toNat := by
  simp only [remoteSize, hq, h, if_true]

theorem metAt_of_some {m : MateRes} (hq : t.rs.quadMapped = true) (h : mateRes t k t.rs.gang = some m) :
    metAt k write offs t = setMateRes (flagged k write offs t) k { m with granules := recorded write offs t m } := by
  simp only [metAt, recordRemote, mateRes_flagged, h, remoteSize_of_some hq h]
  rfl

/-- Beyond the residency's mark and SPFLAG only the quad changes. -/
theorem metAt_quad (k : Fin 4) (write : Bool) (offs : List Int) (t : State) :
    metAt k write offs t = { flagged k write offs t with quad := (metAt k write offs t).quad } := by
  unfold metAt recordRemote
  split <;> rfl

theorem metAt_rs (k : Fin 4) (write : Bool) (offs : List Int) (t : State) : (metAt k write offs t).rs =
    { t.rs with quadRemote := true, spflag := spflagAfter t.rs.spflag write true k.val (outOffsets (remoteSize t k) offs) } := by
  rw [metAt_quad]
  exact t.setRs_rs _

theorem metAt_mapped (hq : t.rs.quadMapped = true) (k : Fin 4) (write : Bool) (offs : List Int) : (metAt k write offs t).rs.quadMapped = true := by
  rw [metAt_rs, hq]

theorem metAt_standing (k : Fin 4) (write : Bool) (offs : List Int) (t : State) : Standing t (metAt k write offs t) := by
  rw [metAt_quad]
  exact ⟨rfl, rfl⟩

theorem mem_granulesOf_inOffsets {m : MateRes} {g : Nat} :
    g ∈ granulesOf (inOffsets m.spsize.toNat offs) ↔ ∃ o ∈ offs, 0 ≤ o ∧ o < m.spsize.toNat ∧ o.toNat / 256 = g := by
  rw [mem_granulesOf]
  constructor
  · rintro ⟨p, hp, rfl⟩
    obtain ⟨o, ho, hin, rfl⟩ := mem_inOffsets.mp hp
    obtain ⟨h0, hlt⟩ := inRange_iff.mp hin
    exact ⟨o, ho, h0, hlt, rfl⟩
  · rintro ⟨o, ho, h0, hlt, rfl⟩
    exact ⟨o.toNat, mem_inOffsets.mpr ⟨o, ho, inRange_iff.mpr ⟨h0, hlt⟩, rfl⟩, rfl⟩

/-- The granule records of the target are those of its residency m but for the granules touched in range (R124). -/
theorem get_recorded (write : Bool) (offs : List Int) (t : State) (m : MateRes) (g : Nat) :
    ((∀ o ∈ offs, 0 ≤ o → o < m.spsize.toNat → o.toNat / 256 ≠ g) →
      Table.get Granule.none (recorded write offs t m) g = Table.get Granule.none m.granules g)
    ∧ ((∃ o ∈ offs, 0 ≤ o ∧ o < m.spsize.toNat ∧ o.toNat / 256 = g) →
      Table.get Granule.none (recorded write offs t m) g = (Table.get Granule.none m.granules g).after t.coreInQuad write) := by
  unfold recorded
  rw [get_foldl_raceRecord]
  refine ⟨fun h => if_neg fun hg => ?_, fun h => if_pos (mem_granulesOf_inOffsets.mpr h)⟩
  obtain ⟨o, ho, h0, hlt, e⟩ := mem_granulesOf_inOffsets.mp hg
  exact h o ho h0 hlt e

theorem remoteMet_metAt (hq : t.rs.quadMapped = true) (k : Fin 4) (write : Bool) (offs : List Int) :
    RemoteMet k write offs t (metAt k write offs t) where
  mark := by rw [metAt_rs]
  flag := by
    rw [metAt_rs]
    exact remoteFlag_spflagAfter k write _ offs _
  own := by
    rw [metAt_rs, metAt_quad]
    change { (flagged k write offs t).setRs t.rs with quad := (metAt k write offs t).quad } = _
    rw [flagged, State.setRs_setRs, State.setRs_self]
  quad := by
    cases h : mateRes t k t.rs.gang with
    | none =>
      rw [metAt_of_none h]
      change ({ t.quad with mates := vset t.quad.mates k t.quad.mates[k] } : Quad) = t.quad
      rw [show vset t.quad.mates k t.quad.mates[k] = t.quad.mates from Vector.set_getElem_self _]
    | some m =>
      rw [metAt_of_some hq h]
      exact setMateRes_restored (flagged k write offs t) k _
  absent h := by
    rw [metAt_of_none h]
    rfl
  others g hg := by
    cases h : mateRes t k t.rs.gang with
    | none =>
      rw [metAt_of_none h]
      rfl
    | some m =>
      rw [metAt_of_some hq h]
      obtain ⟨-, hgang, -⟩ := mateRes_gang h
      exact mateRes_setMateRes_ne (s := flagged k write offs t) (m := { m with granules := recorded write offs t m }) (hgang ▸ hg)
  records m h := by
    rw [metAt_of_some hq h]
    have hmet : mateRes (flagged k write offs t) k t.rs.gang = some m := h
    exact ⟨recorded write offs t m, mateRes_setMateRes hmet rfl rfl, get_recorded write offs t m⟩

/-! ## The checks at the target (R116, R120) -/

/-- The state once a quad-remote access of a residency that is not quad-mapped has been let through: SPFLAG alone has been updated. -/
def unmappedAt (k : Fin 4) (write : Bool) (offs : List Int) (t : State) : State := commitFlag write true k.val (outOffsets 0 offs) t

theorem unmappedAt_rs (k : Fin 4) (write : Bool) (offs : List Int) (t : State) :
    (unmappedAt k write offs t).rs = { t.rs with spflag := spflagAfter t.rs.spflag write true k.val (outOffsets 0 offs) } := t.setRs_rs _

theorem unmappedAt_unmapped (hq : t.rs.quadMapped = false) (k : Fin 4) (write : Bool) (offs : List Int) :
    ¬ (unmappedAt k write offs t).rs.quadMapped = true := by
  rw [unmappedAt_rs, hq]
  exact Bool.false_ne_true

theorem unmappedAt_standing (k : Fin 4) (write : Bool) (offs : List Int) (t : State) : Standing t (unmappedAt k write offs t) := ⟨rfl, rfl⟩

theorem unmappedAt_met (k : Fin 4) (write : Bool) (offs : List Int) (t : State) :
    (unmappedAt k write offs t).setRs { (unmappedAt k write offs t).rs with spflag := t.rs.spflag } = t
    ∧ remoteFlag k write 0 offs t.rs.spflag (unmappedAt k write offs t).rs.spflag := by
  rw [unmappedAt_rs]
  exact ⟨(t.setRs_setRs _ _).trans t.setRs_self, remoteFlag_spflagAfter k write 0 offs _⟩

/-- In a residency that is not quad-mapped a quad-remote access meets nothing. -/
theorem remoteAccess_unmapped (hgo : RemoteGoes k write offs t) (hq : t.rs.quadMapped = false) (s0 : State) (cont : State → Res) :
    remoteAccess k write offs s0 t cont = cont (unmappedAt k write offs t) := by
  have hsize : remoteSize t k = 0 := by simp only [remoteSize, hq, Bool.false_eq_true, if_false]
  simp only [remoteAccess, hgo.fence, hq, hsize, Bool.false_eq_true, if_false, Bool.not_false, if_true]
  rfl

/-- The checks at the target's residency m find nothing. -/
theorem RemoteGoes.checks {m : MateRes} (hgo : RemoteGoes k write offs t) (h : mateRes t k t.rs.gang = some m) :
    rlockInfo t.quad.mates[k].locks write k.val m.spbase.toNat (inOffsets m.spsize.toNat offs) = none
    ∧ (granulesOf (inOffsets m.spsize.toNat offs)).find? (raceFails m.granules t.coreInQuad write) = none
    ∧ (if write then none else badByte m.bad 0 (inOffsets m.spsize.toNat offs)) = none := by
  have hin (P : Nat → Prop) (hP : ∀ o ∈ offs, 0 ≤ o → o < m.spsize.toNat → P o.toNat) : ∀ o ∈ inOffsets m.spsize.toNat offs, P o := by
    intro o ho
    obtain ⟨p, hp, hr, rfl⟩ := mem_inOffsets.mp ho
    obtain ⟨h0, hlt⟩ := inRange_iff.mp hr
    exact hP p hp h0 hlt
  refine ⟨rlockInfo_eq_none (hin _ (hgo.locks m h)), List.find?_eq_none.mpr fun g hg hfails => ?_, ?_⟩
  · obtain ⟨o, ho, rfl⟩ := mem_granulesOf.mp hg
    exact hin (fun o => ¬ raceMeets m.granules t.coreInQuad write o) (hgo.races m h) o ho (raceMeets_of_raceFails hfails)
  · split
    · rfl
    · refine badByte_none_of_sound fun o ho => ?_
      rw [Nat.zero_add]
      exact hin (fun o => o / 8 ∉ m.bad) (hgo.sound (Bool.eq_false_iff.mpr ‹_›) m h) o ho

theorem remoteAccess_mapped (hgo : RemoteGoes k write offs t) (hq : t.rs.quadMapped = true) (s0 : State) (cont : State → Res) :
    remoteAccess k write offs s0 t cont = cont (metAt k write offs t) := by
  have hmark : mateRes (markRemote t) k (markRemote t).rs.gang = mateRes t k t.rs.gang := by
    rw [markRemote, State.setRs_rs]
    rfl
  have hquad : (markRemote t).quad = t.quad := rfl
  have hcore : (markRemote t).coreInQuad = t.coreInQuad := rfl
  unfold remoteAccess
  simp only [hgo.fence, hq, Bool.false_eq_true, if_false, Bool.not_true, hmark, hquad, hcore, commitFlag_markRemote]
  cases h : mateRes t k t.rs.gang with
  | none => rw [metAt_of_none h]
  | some m =>
    obtain ⟨hlock, hrace, hsound⟩ := hgo.checks h
    simp only [remoteSize_of_some hq h, hlock, hrace, hsound]
    rw [metAt, remoteSize_of_some hq h]

/-- The access that leaves is the one that the statements name. -/
theorem queueRemote_metAt (hq : t.rs.quadMapped = true) (x : Word) (n : Nat) (data : Word) (rd : Reg) (sg : Bool) :
    queueRemote k x n write data rd sg (metAt k write offs t) = awaiting (leavingFor k x n write data rd sg t) (metAt k write offs t) := by
  have hsize : remoteSize (metAt k write offs t) k = remoteSize t k := by
    simp only [remoteSize, metAt_rs, hq, if_true]
    cases h : mateRes t k t.rs.gang with
    | none =>
      have hmet : mateRes (metAt k write offs t) k t.rs.gang = none := by
        rw [metAt_of_none h]
        exact h
      rw [hmet]
    | some m =>
      obtain ⟨gs, hmet, -⟩ := (remoteMet_metAt hq k write offs).records m h
      rw [hmet]
  unfold queueRemote
  rw [hsize, metAt_rs, metAt_quad]
  rfl

end

section
variable {i : Instr} {a b c : Reg} {n : Nat} {s s1 s2 t : State} {x y v : Word} {k : Fin 4}

/-! ## The instructions (R115, R116) -/

theorem exec_of_quadRule_load {f : Nat → Word} (h : quadRule i = some (a, b, c, n, some f)) (s : State) :
    exec i s = loadQuad i a b c n (signs i) s ∧ loaded (signs i) n = f := by
  unfold quadRule at h
  split at h <;> cases h <;> exact ⟨rfl, rfl⟩

theorem exec_of_quadRule_store (h : quadRule i = some (a, b, c, n, none)) (s : State) : exec i s = storeQuad i a b c n s := by
  unfold quadRule at h
  split at h <;> cases h <;> rfl

theorem loadQuad_own (hx : popX b s = some (x, s1)) (hy : popX c s1 = some (y, t)) (hown : y.setWidth 2 = t.coreInQuad) (sg : Bool) :
    loadQuad i a b c n sg s = loadX i a x.toNat n sg s t := by
  rw [loadQuad, withX_eq hx, withX_eq hy, if_pos hown]

theorem storeQuad_own (hx : popX b s = some (x, s1)) (hy : popX c s1 = some (y, s2)) (hv : popX a s2 = some (v, t))
    (hown : y.setWidth 2 = t.coreInQuad) : storeQuad i a b c n s = storeX i x.toNat n v.toNat s t := by
  rw [storeQuad, withX_eq hx, withX_eq hy, withX_eq hv, if_pos hown]

/-- A quad-remote load of another core's index. -/
theorem loadQuad_other (hx : popX b s = some (x, s1)) (hy : popX c s1 = some (y, t)) (hroom : roomX a t = true)
    (hother : y.setWidth 2 ≠ t.coreInQuad) (hk : k.val = y.toNat % 4) (sg : Bool) :
    loadQuad i a b c n sg s = remoteAccess k false (byteRange x.toNat n) s t fun u =>
      if u.rs.quadMapped then retire i (queueRemote k x n false 0 a sg u) else finishX i a 0 u := by
  obtain rfl : k = ⟨y.toNat % 4, Nat.mod_lt _ (by decide)⟩ := Fin.ext hk
  rw [loadQuad, withX_eq hx, withX_eq hy, if_neg hother]
  exact withRoomX_eq hroom _

theorem storeQuad_other (hx : popX b s = some (x, s1)) (hy : popX c s1 = some (y, s2)) (hv : popX a s2 = some (v, t))
    (hother : y.setWidth 2 ≠ t.coreInQuad) (hk : k.val = y.toNat % 4) :
    storeQuad i a b c n s = remoteAccess k true (byteRange x.toNat n) s t fun u =>
      if u.rs.quadMapped then retire i (queueRemote k x n true v 0 false u) else retire i u := by
  obtain rfl : k = ⟨y.toNat % 4, Nat.mod_lt _ (by decide)⟩ := Fin.ext hk
  rw [storeQuad, withX_eq hx, withX_eq hy, withX_eq hv, if_neg hother]

end

/-- Settles O11: with the own index the accesses are those of O5 and O6; with another they pass the target's checks, and then they leave. -/
theorem quadAccesses : Obligations.QuadAccesses := by
  refine ⟨fun i a b c n f s x y s1 t hi hx hy hroom hf => ?_, fun i a b c n s x y v s1 s2 t hi hx hy hv hm hf => ?_⟩
  · obtain ⟨hexec, rfl⟩ := exec_of_quadRule_load hi s
    have hst : Standing s t := (popX_standing hx).trans (popX_standing hy)
    refine ⟨fun hown hgo => ?_, fun k hother hk hgo => ?_⟩
    · rw [hexec, loadQuad_own hx hy hown]
      exact loadX_of_goes hst hf hroom hgo x.isLt _
    · rw [hexec, loadQuad_other hx hy hroom hother hk]
      refine ⟨fun hq => ?_, fun hq => ?_⟩
      · rw [remoteAccess_unmapped hgo hq, if_neg (unmappedAt_unmapped hq k false _)]
        exact ⟨_, finishX_past (hst.trans (unmappedAt_standing k false _ t)) hf 0, unmappedAt_met k false _ t⟩
      · rw [remoteAccess_mapped hgo hq, if_pos (metAt_mapped hq k false _), queueRemote_metAt hq]
        exact ⟨_, remoteMet_metAt hq k false _, retire_past (hst.trans (metAt_standing k false _ t)) hf⟩
  · rw [exec_of_quadRule_store hi s]
    have hst : Standing s t := ((popX_standing hx).trans (popX_standing hy)).trans (popX_standing hv)
    refine ⟨fun hown hgo => ?_, fun k hother hk hgo => ?_⟩
    · rw [storeQuad_own hx hy hv hown]
      refine storeX_of_goes hst hf ?_ hgo x.isLt v
      rw [popX_spad hv, popX_spad hy, popX_spad hx]
      exact hm.1
    · rw [storeQuad_other hx hy hv hother hk]
      refine ⟨fun hq => ?_, fun hq => ?_⟩
      · rw [remoteAccess_unmapped hgo hq, if_neg (unmappedAt_unmapped hq k true _)]
        exact ⟨_, retire_past (hst.trans (unmappedAt_standing k true _ t)) hf, unmappedAt_met k true _ t⟩
      · rw [remoteAccess_mapped hgo hq, if_pos (metAt_mapped hq k true _), queueRemote_metAt hq]
        exact ⟨_, remoteMet_metAt hq k true _, retire_past (hst.trans (metAt_standing k true _ t)) hf⟩

end Sys2Proof.Spec
end
